-- ==== Sys2Proof/Word.lean ====
section
/-! DEFINITION. Word types, unit numbers and the plain sparse table used throughout the model (spec 00_scope, 01_architecture). -/

namespace Sys2Proof

/-- One byte of memory. -/
abbrev Byte := BitVec 8

/-- An FP32 bit pattern (R26): every value between two conversion points is one of these or exact. -/
abbrev F32 := BitVec 32

/-- A sparse table: key and value pairs, keys strictly rising (see `Kv.wf`). -/
abbrev KV (α : Type) := List (Nat × α)

/-- Logical core index `64 × die + 8 × cluster + core` (R11). -/
abbrev CoreId := Fin 128
/-- Pan within its core (R9). -/
abbrev PanId := Fin 4
/-- Module-wide logical cluster `8 × die + cluster` (R368). -/
abbrev ClusterId := Fin 16
/-- Die number (R10). -/
abbrev DieId := Fin 2
/-- HBM3E stack 0 to 11 (R245). -/
abbrev StackId := Fin 12
/-- Physical pseudo-channel of a stack (R246). -/
abbrev PcId := Fin 32
/-- Physical CXL device 0 to 11 (R252). -/
abbrev CxlId := Fin 12
/-- Brine port `4 × die + die-local port` (R368). -/
abbrev PortId := Fin 8
/-- Lane of a Brine port (R383). -/
abbrev LaneId := Fin 4

end Sys2Proof
end

