-- ==== Sys2Proof/Syntax.lean ====
section
/-! DEFINITION. The commands of the module: one constructor of `Instr` for each row of the spec's table of operations and
events, with the operands each takes from outside, and the operand types. -/

namespace Sys2Proof

/-- A function whose readiness is reported on its own: a bit of `ready.summary` or a core bit of `ready.cores` (R368). -/
inductive FnId where
  | bit (b : Fin 60)
  | core (c : CoreId)
  deriving DecidableEq, Repr

/-- How the input fails (R411, R455): under one of the thresholds of R411 for its stated time, with the rails below 42 V, or with the
module withdrawn, so that the input is lost without its hold-up. -/
inductive UnderVolt where
  | below48
  | below45
  | below42
  | withdrawn
  deriving DecidableEq, Repr

/-- The readings that one microsecond tick of the power controller takes (R399 to R403). -/
structure PowerMeas where
  /-- Input power, 10 ms average, in mW. -/
  avg10ms : Nat
  /-- Input power, 1 s average, in mW. -/
  avg1s : Nat
  /-- Input voltage at the connector, in mV. -/
  inputMv : Nat
  deriving DecidableEq, Repr

/-- A temperature sensor of R409. `cluster` counts physical clusters `9 × die + cluster`. -/
inductive Sensor where
  | cluster (p : Fin 18)
  | stack (s : StackId)
  | regulator (r : Fin 32)
  | cxl (d : CxlId)
  | inlet
  | outlet
  deriving DecidableEq, Repr

/-- A metered rail (R412): a physical cluster's arithmetic rail, a die's SRAM and network rail, a stack, a CXL device, a die's link
rail, the management rail and the flash rail. -/
inductive Rail where
  | cluster (p : Fin 18)
  | fabric (die : Fin 2)
  | stack (s : StackId)
  | cxl (d : CxlId)
  | link (die : Fin 2)
  | management
  | flash
  deriving DecidableEq, Repr

/-- Who uses a rail's energy (R413): a unit of a core, a descriptor that moves bytes by itself (a collective or a copy), by its stream
position, or traffic that belongs to no layer: the crust, resyncs, rebuilds, heartbeats, migration, the stockpile, the host. -/
inductive EnergyUser where
  | pan (c : CoreId) (p : PanId)
  | sluice (c : CoreId)
  | vector (c : CoreId)
  | desc (pos : Nat)
  | other
  deriving DecidableEq, Repr

/-- What a user did on a rail in one microsecond (R413): products formed on each rung, dummy operations, lane cycles, clocked idle cycles,
and bytes moved. -/
structure Activity where
  rail : Rail
  user : EnergyUser
  products : List Nat := []
  dummies : Nat := 0
  laneCycles : Nat := 0
  idleCycles : Nat := 0
  bytes : Nat := 0
  deriving DecidableEq, Repr

/-- What the energy ledger meters in one microsecond (R412, R413). -/
structure Booking where
  /-- Energy metered at the connector, in microjoules. -/
  inputUj : Nat
  /-- Energy metered on each rail, in microjoules. -/
  rails : List (Rail × Nat)
  /-- The activity by which each rail's energy is split. -/
  activity : List Activity
  deriving DecidableEq, Repr

/-- A dual-clock queue of R22. `core`, `pan` and the other fields give the instance; `back` the direction where a crossing has
one queue each way. -/
inductive QueueId where
  | panStationary (c : CoreId) (p : PanId)
  | panRows (c : CoreId) (p : PanId)
  | panShifts (c : CoreId) (p : PanId)
  | panWriteback (c : CoreId) (p : PanId)
  | sluice (c : CoreId) (back : Bool)
  | vector (c : CoreId) (back : Bool)
  | coreDesc (c : CoreId)
  | coreSal (c : CoreId)
  | ctrlNoc (d : DieId) (back : Bool)
  | hbmReq (s : StackId) (port : Fin 4)
  | hbmWrite (s : StackId) (port : Fin 4)
  | hbmRead (s : StackId) (port : Fin 4)
  | cxlReq (d : CxlId)
  | cxlData (d : CxlId) (back : Bool)
  | brine (p : PortId) (back : Bool)
  | host (back : Bool)
  | dieToDie (port : Fin 9) (back : Bool)
  | flash (back : Bool)
  | dictCtrl (back : Bool)
  | dictNoc (back : Bool)
  | mailbox (back : Bool)
  | field (back : Bool)
  | mirror
  deriving DecidableEq, Repr

/-- Width of a queue's entries, in bits (R22). -/
def QueueId.width : QueueId → Nat
  | .panStationary _ _ => 1152
  | .panRows _ _ => 1152
  | .panShifts _ _ => 64
  | .panWriteback _ _ => 1152
  | .sluice _ _ => 2048
  | .vector _ _ => 2048
  | .coreDesc _ => 256
  | .coreSal _ => 512
  | .ctrlNoc _ _ => 512
  | .hbmReq _ _ => 128
  | .hbmWrite _ _ => 2048
  | .hbmRead _ _ => 2048
  | .cxlReq _ => 128
  | .cxlData _ _ => 512
  | .brine _ _ => 512
  | .host _ => 2048
  | .dieToDie _ _ => 2048
  | .flash _ => 512
  | .dictCtrl _ => 64
  | .dictNoc _ => 64
  | .mailbox _ => 64
  | .field _ => 8
  | .mirror => 32

/-- A synchronised single bit of R22. -/
inductive SyncBit where
  | clockStop (c : CoreId)
  | tideEnable (c : CoreId)
  | tileDone (c : CoreId) (p : PanId)
  | panError (c : CoreId) (p : PanId)
  | panInvalid (c : CoreId) (p : PanId)
  | sramError (d : DieId)
  | nocError (d : DieId)
  | hbmTrained (s : StackId)
  | hbmError (s : StackId)
  | cxlUp (d : CxlId)
  | cxlError (d : CxlId)
  | brineUp (p : PortId)
  | brineDegraded (p : PortId)
  | brineError (p : PortId)
  | hostUp
  | hostError
  | dieFault (d : DieId)
  | dieWatchdog (d : DieId)
  | stockReady
  | stockError
  /-- PERST# as the host port receives it, and as the module's input. -/
  | perstHost
  | perst
  | plcaOpportunity
  | rxCarrier
  | powerGood
  | addrIn
  | alive
  | addrOut
  deriving DecidableEq, Repr

/-- A unit that ramps up and down: a pan or the sluice path of a core (R75, R88). -/
inductive StreamUnit where
  | pan (c : CoreId) (p : PanId)
  | sluice (c : CoreId)
  deriving DecidableEq, Repr

/-- A stream-tag mismatch found at a block (R113, R114): the tags of the data block and of the exponent applied to it. -/
structure TagSlip where
  block : Nat
  dataBlock : Nat
  scaleBlock : Nat
  deriving DecidableEq, Repr

/-- The end of an apply chunk (R114, R230): the core whose vector unit ran it, and the stream tags compared while it loaded its
operands. -/
structure ApplyEnd where
  core : CoreId
  slip : Option TagSlip
  deriving DecidableEq, Repr

/-- What the 2,048-cycle segment test finds (R83, R57): a grain, by physical row and column, or a column's path. -/
inductive SegFinding where
  | grain (row : Fin 146) (col : Fin 37)
  | columnPath (col : Fin 37)
  deriving DecidableEq, Repr

/-- An arbiter instance (R270). -/
inductive ArbId where
  | pan (c : CoreId) (p : PanId)
  | core (c : CoreId)
  | cluster (k : ClusterId)
  | die (d : DieId)
  deriving DecidableEq, Repr

/-- Who raises a memory request (R257, R263, R266, R271). -/
inductive Requester where
  /-- A pan, sluice, vector or collective descriptor of the step, from a core of the die. -/
  | step (c : Fin 64)
  /-- A copy descriptor, from a cluster of the die. -/
  | copy (k : Fin 8)
  /-- The host port. -/
  | host
  /-- The map engine or a die management processor. -/
  | mapEngine
  /-- The crust engine. -/
  | crust
  /-- The rebuild engine. -/
  | rebuild
  /-- The migration engine. -/
  | migration
  /-- The stockpile controller. -/
  | stockpile
  deriving DecidableEq, Repr

/-- One memory transaction (R263). `data = none` is a read of `len` bytes. -/
structure MemReq where
  die : DieId
  who : Requester
  addr : Nat
  len : Nat
  data : Option (List Byte)
  /-- How many of the die's outstanding transactions, oldest first, have completed since its last one. -/
  completed : Nat
  deriving DecidableEq, Repr

/-- Who read the line that an HBM read returned uncorrectable (R248, R266). -/
inductive Reader where
  /-- A unit of the step in flight, on this core. -/
  | step (c : CoreId)
  | host
  | other
  deriving DecidableEq, Repr

/-- What a CXL device's event records report (R253 to R255, R381). -/
inductive CxlEvent where
  | corrected (n : Nat)
  | poisoned (addr : Nat) (by_ : Reader)
  | degraded
  | failed
  deriving DecidableEq, Repr

/-- The level of a fault collector or arbiter (R317, R319). -/
inductive Level where
  | pan
  | core
  | cluster
  | die
  | module
  deriving DecidableEq, Repr

/-- An error that a block's line brings to a collector (R315, R320): its class code, the level and logical instance that latch
it, the source within the class, the detail of status word 1, and what its record logs. -/
structure FaultReport where
  cls : Nat
  level : Level
  unit : Nat
  /-- The source within the class: grain row or column, pseudo-channel, device, sensor (R321). -/
  source : Nat
  physical : Nat
  addr : Nat
  space : Nat
  cause : Nat
  /-- Word 1 of the status word at latching (R318). -/
  detail : Nat
  /-- The severity that the reporting rule fixes, where it is not the class's base severity. -/
  atLeast : Nat
  /-- Payload words 1 and 2 of its record, where the reporting rule names what the fault concerns (R232). -/
  p1 : Nat := 0
  p2 : Nat := 0
  deriving DecidableEq, Repr

/-- An end of a field network packet: MAC address and IPv6 address (R363). -/
structure FieldAddr where
  mac : Nat := 0
  ip : Nat := 0
  deriving DecidableEq, Repr

/-- A packet that reaches the module's field interface (R362, R363): who sent it and where to, whether it is UDP to and from port 7,353,
its hop limit, whether its UDP checksum holds, and the message it carries. -/
structure FieldPacket where
  src : FieldAddr
  dst : FieldAddr
  udp : Bool
  hopLimit : Nat
  checksumOk : Bool
  bytes : List Byte
  deriving DecidableEq, Repr

/-- The source of an Ixique message (R353): the mailbox, or a packet of the field network. -/
inductive IxSource where
  | mailbox
  | field (p : FieldPacket)
  deriving DecidableEq, Repr

/-- A write of the host into its function's configuration space (R373, R375, R377). -/
inductive ConfigWrite where
  /-- Resizable BAR: BAR 4 has 64 GiB × 2^n. -/
  | barSize (n : Fin 8)
  /-- A maximum payload of 128 × 2^n bytes. -/
  | maxPayload (n : Fin 4)
  /-- 1 written to the Unsupported Request bit of AER's uncorrectable error status, which clears it. -/
  | clearUr
  deriving DecidableEq, Repr

/-- What the host wrote through its function before a doorbell: the slot's message bytes, the interrupt enable, MSI-X vector masks (R359,
R378), bytes at other offsets of BAR 2 (R359, R375), and its configuration space. The table has no row for these writes; they ride on
MAILBOX_DOORBELL, with the doorbell itself or, where `bell` is false, without it (log 95). -/
structure Bar2Writes where
  message : List Byte
  irqEnable : Option Bool
  masks : List (Fin 32 × Bool)
  bytes : List (Fin 131072 × Byte) := []
  config : List ConfigWrite := []
  bell : Bool := true
  deriving DecidableEq, Repr

/-- A power state of the host function (R373). -/
inductive DState where
  | d0
  | d3hot
  deriving DecidableEq, Repr

/-- A counted error of the host port (R396). -/
inductive HostErr where
  | replay
  | uncorrectable
  | receiver
  | linkDown
  deriving DecidableEq, Repr

/-- A counted error of a CXL port (R396), and a link trained below x8 at 64 GT/s (R382). -/
inductive CxlErr where
  | replay
  | linkDown
  | stillDown
  | trainedBelow (rate width : Nat)
  deriving DecidableEq, Repr

/-- A counted error of a Brine lane (R396), a lane that fails training at power good (R396), and codewords that FEC corrected, which are no
error of R396 and only count (R397). -/
inductive LaneErr where
  | corrected (n : Nat)
  | fec
  | resendTimeout
  | lossOfLock
  | failsTraining
  deriving DecidableEq, Repr

/-- A link that retrains (R396). -/
inductive LinkId where
  | host
  | cxl (d : CxlId)
  | lane (p : PortId) (l : LaneId)
  deriving DecidableEq, Repr

/-- The header fields of a Brine frame that the receiver uses (R385), and the lane it came on. -/
structure BrineHdr where
  port : PortId
  lane : LaneId
  src : Nat
  psn : Nat
  liveMask : Fin 16
  ack : Nat
  group : Fin 256
  epoch : Nat
  step : Nat
  sequence : Nat
  segment : Nat
  hollow : Bool
  last : Bool
  payload : List Byte
  /-- Header version; 1 is the only one taken (R385). -/
  version : Nat := 1
  /-- The frame's FCS holds (R387). -/
  fcsOk : Bool := true
  deriving DecidableEq, Repr

/-- One layer's decision vector (R141). -/
structure DecVec where
  elements : Nat := 0
  saturations : Nat := 0
  nonzeroPre : Nat := 0
  flushes : Nat := 0
  gradElements : Nat := 0
  gradNonzero : Nat := 0
  invalid : Nat := 0
  updSq : F32 := 0
  wSq : F32 := 0
  spanFwd : Nat := 0
  spanBwd : Nat := 0
  candidate : Bool := false
  marked : Bool := false
  amaxFwd : F32 := 0
  amaxBwd : F32 := 0
  deriving DecidableEq, Repr

/-- What one other member contributes to the finite check (R222), with the group-scaled step amax values that travel with it
(R96): record, its staged amax, its count. -/
structure FcContribution where
  nonFinite : Bool
  fault : Bool
  frozenCrc : Nat
  step : Nat
  groupAmax : List (Nat × F32 × Nat)
  /-- The sender's epoch of the run group (R304). -/
  epoch : Nat := 0
  deriving DecidableEq, Repr

/-- What one other member contributes to the Rake reduction (R142): its rank, step, state check and vectors in layer order, and whether
it asks for rake.reset (R156; the place of that request in the exchange is the model's, log 79). -/
structure RakeContribution where
  rank : Nat
  step : Nat
  stateCrc : Nat
  vectors : List DecVec
  reset : Bool := false
  /-- The sender's epoch of the run group (R304). -/
  epoch : Nat := 0
  deriving DecidableEq, Repr

/-- The control state of rank 0's Rake table as `resil.rake_adopt` receives it (R312): per layer rung, floor, retreats, streak,
hold, silent count. -/
structure RakeImage where
  rung : Nat
  floor : Nat
  retreats : Nat
  streak : Nat
  hold : Nat
  silent : Nat
  deriving DecidableEq, Repr

/-- What the coordinator offers a hot spare (R300). -/
structure SpareOffer where
  group : Fin 256
  rank : Fin 8
  fwMajor : Nat
  progHash : Nat
  imageAddress : Nat
  spanFirst : Nat
  spanPages : Nat
  parityFirst : Nat
  /-- Pages the lost member's M4 mirror maps in HBM and in CXL. -/
  hbmPages : Nat
  cxlPages : Nat
  deriving DecidableEq, Repr

/-- The eligibility a hot spare has shown the coordinator (R300): its order among `crust.spare_node` and whether each condition
held. -/
structure SpareAnswer where
  slot : Fin 4
  eligible : Bool
  deriving DecidableEq, Repr

/-- The commands. Each names the row of the table it stands for; operands carry what comes from outside the module. -/
inductive Instr where
  | inputApplied
  | prechargeDone
  | pwrOkRise
  | powerGood
  | firmwareStart
  | recorderReloadDone
  | functionReady (f : FnId)
  | readinessDeadline (f : FnId)
  | pwrOkFall
  | inputUndervoltage (v : UnderVolt)
  | inputOvervoltage
  | hardwareOvervoltageRemoval
  | evtTick
  | evtTickLost
  | powerControlTick (m : PowerMeas)
  | clockStopRequest (c : CoreId)
  | clockStopRelease (c : CoreId)
  | peakStepdown
  | transientSample (mw : Nat)
  | thermalSample (x : Sensor) (milliC : Int)
  | thermalTrip (x : Sensor)
  | energyBook (b : Booking)
  | springDeferredApply
  | queueEntryArrive (q : QueueId) (payload : Nat) (parityOk : Bool)
  | queueSlotRelease (q : QueueId)
  | syncLevelChange (b : SyncBit) (level : Bool)
  | tideRampStart (u : StreamUnit)
  | stationaryLoadAdmit (c : CoreId) (p : PanId)
  | passStart (c : CoreId) (p : PanId) (slip : Option TagSlip)
  | tileComplete (c : CoreId) (p : PanId)
  | writebackDrain (c : CoreId) (p : PanId) (slip : Option TagSlip)
  | tideRampStop (u : StreamUnit)
  | polwinIdleStop (u : StreamUnit)
  | segmentTestDone (c : CoreId) (p : PanId) (found : SegFinding)
  | sluicePassComplete (c : CoreId)
  | vectorChunkComplete (c : CoreId) (slip : Option TagSlip)
  | forwardAttemptDone (slot : Nat)
  | amaxPassDone (slot : Nat) (others : List (Nat × F32))
  | progLoadCheckDone
  | descAdmit (d : DieId)
  | descReady (slot : Nat)
  | unitSchedule (c : CoreId)
  | mcastDelivery (d : DieId) (set : Nat)
  | finiteCheck
  | finiteCheckResult (others : List FcContribution)
  | finiteCheckTimeout
  | rakeReductionDone (others : List RakeContribution) (micros : Nat)
  | updateGatherDone (layer : Nat)
  | applyChunkComplete (c : ApplyEnd)
  | updateComplete
  | stepBoundary (rank0 : List RakeImage)
  | nvpSelftestDone (failures first : Nat)
  | mapReqMap
  | mapReqUnmap
  | mapReqMigrate
  | mapReqSetRo
  | mapReqClearRo
  | mapReqSetCc
  | mapReqClearCc
  | mapRunComplete
  | migrationDone (page : Nat)
  | memTransaction (r : MemReq)
  | hbmCorrectableError (s : StackId) (pc : PcId)
  | hbmUncorrectableError (s : StackId) (pc : PcId) (addr : Nat) (by_ : Reader)
  | hbmScrubPass (s : StackId)
  | pcSpareCopyDone (s : StackId)
  | cxlEventRecord (d : CxlId) (e : CxlEvent)
  | cxlReplaceCopyDone (d : CxlId)
  | pageRebuildDone (page : Nat)
  | arbGrant (a : ArbId) (resource : Nat) (present : List Nat) (hold : Bool)
  | holdCutoff (a : ArbId) (resource : Nat)
  | coreSwapDone (c : CoreId) (passed : Bool)
  | clusterSwapDone (k : ClusterId) (passed : Bool)
  | crustResyncDone
  | heartbeatTx
  | memberLost (rank : Fin 8) (mirrored : Bool) (sealedUnits : List Nat) (answers : List SpareAnswer)
  | rebuildComplete (ledger : List (Nat × Nat))
  | snapshotImageWritten
  | snapshotComplete
  | stockRestoreDone
  | faultLatch (r : FaultReport)
  | faultHandlingDone (l : Level) (unit : Nat)
  | aliveToggle
  | mgmtWatchdogExpiry
  | dmpWatchdogExpiry (d : DieId)
  | cprocWatchdogExpiry (c : CoreId)
  | mirrorFlush (ok : Bool)
  | ixiqueRead (src : IxSource)
  | ixiqueWrite (src : IxSource)
  | ixiqueDescribe (src : IxSource)
  | segmentRead (src : IxSource)
  | segmentWrite (src : IxSource)
  | segmentTransferTimeout
  | chain (src : Fin 256) (sender : FieldAddr)
  | chainReset
  | notify
  | mailboxDoorbell (value : BitVec 32) (w : Bar2Writes)
  | mailboxSlotFree (slot : Fin 16) (value : Byte)
  | perstAssert
  | hotReset
  | functionLevelReset
  | powerStateChange (d : DState)
  | hostBar4Read (offset len : Nat)
  | hostBar4Write (offset : Nat) (data : List Byte)
  | pcieLinkError (e : HostErr)
  | cxlLinkError (d : CxlId) (e : CxlErr)
  | brineLaneError (p : PortId) (l : LaneId) (e : LaneErr)
  | collectiveDataRx (h : BrineHdr)
  | brineAckRx (h : BrineHdr)
  | brineNackRx (h : BrineHdr)
  | brineRetxTimeout (p : PortId) (l : LaneId) (dst : Nat)
  | brineAckTimer (p : PortId) (l : LaneId) (dst : Nat)
  | heartbeatRx (h : BrineHdr)
  | withdrawalRx (h : BrineHdr)
  | abandonNoticeRx (h : BrineHdr)
  | epochChangeRx (h : BrineHdr)
  | epochAckRx (h : BrineHdr)
  | crustDeltaRx (h : BrineHdr)
  | crustSealAckRx (h : BrineHdr)
  | crustSealRx (h : BrineHdr)
  | mirrorRx (h : BrineHdr)
  | reducedStreamRx (h : BrineHdr)
  | laneStateRx (h : BrineHdr)
  | attestReportDone
  | stageDone
  | perstDeassert
  | plcaTransmitOpportunity
  | hotSpareOfferRx (o : SpareOffer)
  | linkRetrainDone (k : LinkId) (rate width : Nat)
  | dmpSwapDone (d : DieId)
  deriving DecidableEq, Repr

end Sys2Proof
end

