-- ==== Sys2Proof/Decode.lean ====
section
/-! DEFINITION. Decoding of the table's words. No row of the table of operations gives its command any bits, so that no word spells
a command; commands come as values of `Instr`. -/

namespace Sys2Proof

/-- The command that a word spells by the table's bits: none, since no row gives bits. -/
def decodeTableWord (_nbits _w : Nat) : Option Instr := none

end Sys2Proof
end

