-- ==== Sys2Proof/Config.lean ====
section
/-! DEFINITION. What one module's manufacture and firmware build fix, and the free values: constants without a body, of which
nothing can be proved. -/

namespace Sys2Proof.Config

/-! ## Factory and build values (R371, R437: "Factory value", "Build value") -/

/-- id.serial (R371), ASCII. -/
opaque serial : List Byte
/-- id.board_code (R371). -/
opaque boardCode : Nat
/-- sec.id_public, 68 bytes (R427). -/
opaque idPublic : List Byte
/-- nvp.version (R181). -/
opaque nvpVersion : Nat
/-- id.fw_minor before a boot has read an image (R371). -/
opaque fwMinor : Nat
/-- id.fw_build before a boot has read an image (R371). -/
opaque fwBuild : Nat
/-- The four vendor public keys of the boot ROM (R420). -/
opaque vendorKey : Nat → List Byte
/-- The firmware image a module is delivered with in bank A, and in bank B (R3, R423). -/
opaque factoryBankA : List Byte
opaque factoryBankB : List Byte

/-! ## Keys and signatures: their secret seeds never leave the module (R427, R431) -/

/-- The XMSS signature that the identity key forms with this index over this message (R429). -/
opaque identitySign : Nat → List Byte → List Byte
/-- The attestation public key of this boot (R431). -/
opaque attestPublic : Nat → List Byte
/-- The signature of the attestation key of this boot with this index over this message (R432). -/
opaque attestSign : Nat → Nat → List Byte → List Byte

/-! ## Free values: what the spec leaves open -/

/-- The level the cap loop asks for to hold the average at its target (R401), by draw; read modulo 16. -/
opaque capLevel : Nat → Nat
/-- How many clusters the cap loop clock-stops when level 0 is not enough (R402), by draw. -/
opaque capStops : Nat → Nat
/-- Which clusters run one level higher in a microsecond of dithering (R402), by draw. -/
opaque dither : Nat → Nat → Bool
/-- log2 of the records in a flash block of an identity ring (R429); read modulo 12. -/
opaque ringBlockLog : Nat
/-- Instructions of a vector program's body: the spec gives no encoding of them (R201). Each is five numbers, read by
`decodeVecOp`. -/
opaque vectorCode : List Byte → Option (List (List Nat))
/-- Duration or other timing figure that the spec does not give, by draw. -/
opaque timing : Nat → Nat
/-- Calibrated value read from a device's health report: its warning and critical thresholds in milli-°C (R409). -/
opaque cxlWarning : Nat → Int
opaque cxlCritical : Nat → Int
/-- Calibrated weights of activity (R413): a product on each rung from 0 to 4, a dummy operation, a lane cycle, a clocked idle cycle. -/
opaque activityWeight : Nat → Nat
/-- Clusters that a regulator feeds (R409). -/
opaque regulatorFeeds : Nat → Nat → Bool

end Sys2Proof.Config
end

