-- ==== Sys2Proof/Machine/Hash.lean ====
section
/-! DEFINITION. Byte order (R6), CRC-32C (R334, R355) and SHAKE256 (FIPS 202, R184, R421). -/

namespace Sys2Proof.Machine

/-- The number that bytes spell, least significant first (R6). -/
def leNat : List Byte → Nat
  | [] => 0
  | b :: t => b.toNat + 256 * leNat t

/-- The `n` low bytes of a number, least significant first (R6). -/
def leBytes : Nat → Nat → List Byte
  | 0, _ => []
  | n + 1, v => BitVec.ofNat 8 v :: leBytes n (v / 256)

/-- Bytes `off` to `off + len − 1`. -/
def slice (l : List Byte) (off len : Nat) : List Byte := (l.drop off).take len

/-- The number at an offset. -/
def leAt (l : List Byte) (off len : Nat) : Nat := leNat (slice l off len)

/-- The `n` low bytes of a number, most significant first: XMSS keeps the byte order of RFC 8391 (R6, R420). -/
def beBytes (n v : Nat) : List Byte := (leBytes n v).reverse

/-- The number that bytes spell, most significant first. -/
def beNat (l : List Byte) : Nat := leNat l.reverse

/-- XOR of bytes. -/
def xorBytes (a b : List Byte) : List Byte := List.zipWith (· ^^^ ·) a b

/-- Bitwise complement of bytes. -/
def flipBytes (l : List Byte) : List Byte := l.map fun b => ~~~b

/-- A value and its complement, `n` bytes each. -/
def leWithCompl (n v : Nat) : List Byte := leBytes n v ++ flipBytes (leBytes n v)

/-- One bit step of the reflected Castagnoli division. -/
def crcStep (c : BitVec 32) : BitVec 32 := if c.getLsbD 0 then (c >>> 1) ^^^ 0x82F63B78#32 else c >>> 1

/-- One byte of CRC-32C. -/
def crcByte (c : BitVec 32) (b : Byte) : BitVec 32 :=
  crcStep (crcStep (crcStep (crcStep (crcStep (crcStep (crcStep (crcStep (c ^^^ b.setWidth 32))))))))

/-- CRC-32C as RFC 3720 uses it: initial value and final inversion all ones. -/
def crc32c (l : List Byte) : Nat := (~~~(l.foldl crcByte 0xFFFFFFFF#32)).toNat

/-- The Ethernet frame check sequence of a frame's bytes (IEEE 802.3): CRC-32 with the reflected polynomial 0xEDB88320. -/
def fcsStep (c : BitVec 32) : BitVec 32 := if c.getLsbD 0 then (c >>> 1) ^^^ 0xEDB88320#32 else c >>> 1
def fcsByte (c : BitVec 32) (b : Byte) : BitVec 32 :=
  fcsStep (fcsStep (fcsStep (fcsStep (fcsStep (fcsStep (fcsStep (fcsStep (c ^^^ b.setWidth 32))))))))
def ethernetFcs (l : List Byte) : Nat := (~~~(l.foldl fcsByte 0xFFFFFFFF#32)).toNat

/-- The 16-bit one's complement checksum of UDP over IPv6 (RFC 768, RFC 8200). -/
def onesSum : List Byte → Nat
  | [] => 0
  | [a] => 256 * a.toNat
  | a :: b :: t => 256 * a.toNat + b.toNat + onesSum t
def udpChecksum (l : List Byte) : Nat :=
  let n := onesSum l
  let c := 0xFFFF - (if n = 0 then 0 else (n - 1) % 0xFFFF + 1)
  if c = 0 then 0xFFFF else c

/-! ## Keccak-f[1600] -/

/-- Rotation offsets of ρ, for lane `x + 5 y`. -/
def keccakRot : List Nat :=
  [0, 1, 62, 28, 27, 36, 44, 6, 55, 20, 3, 10, 43, 25, 39, 41, 45, 15, 21, 8, 18, 2, 61, 56, 14]

/-- Round constants of ι. -/
def keccakRc : List (BitVec 64) :=
  [0x0000000000000001#64, 0x0000000000008082#64, 0x800000000000808A#64, 0x8000000080008000#64, 0x000000000000808B#64,
   0x0000000080000001#64, 0x8000000080008081#64, 0x8000000000008009#64, 0x000000000000008A#64, 0x0000000000000088#64,
   0x0000000080008009#64, 0x000000008000000A#64] ++
  [0x000000008000808B#64, 0x800000000000008B#64, 0x8000000000008089#64, 0x8000000000008003#64, 0x8000000000008002#64,
   0x8000000000000080#64, 0x000000000000800A#64, 0x800000008000000A#64, 0x8000000080008081#64, 0x8000000000008080#64,
   0x0000000080000001#64, 0x8000000080008008#64]

/-- Lane `i` of a state. -/
def lane (s : List (BitVec 64)) (i : Nat) : BitVec 64 := s.getD i 0

/-- One round of the permutation. -/
def keccakRound (s : List (BitVec 64)) (rc : BitVec 64) : List (BitVec 64) :=
  let c := (List.range 5).map fun x => lane s x ^^^ lane s (x + 5) ^^^ lane s (x + 10) ^^^ lane s (x + 15) ^^^ lane s (x + 20)
  let d := (List.range 5).map fun x => lane c ((x + 4) % 5) ^^^ (lane c ((x + 1) % 5)).rotateLeft 1
  let a := (List.range 25).map fun i => lane s i ^^^ lane d (i % 5)
  -- ρ and π: lane (x, y) of the result comes from lane (x + 3 y, x)
  let b := (List.range 25).map fun i =>
    let src := (i % 5 + 3 * (i / 5)) % 5 + 5 * (i % 5)
    (lane a src).rotateLeft (keccakRot.getD src 0)
  let e := (List.range 25).map fun i =>
    let y := 5 * (i / 5)
    lane b i ^^^ (~~~(lane b ((i + 1) % 5 + y)) &&& lane b ((i + 2) % 5 + y))
  (lane e 0 ^^^ rc) :: e.drop 1

/-- The permutation. -/
def keccakF (s : List (BitVec 64)) : List (BitVec 64) := keccakRc.foldl keccakRound s

/-- XORs a block of 136 bytes into a state. -/
def absorb (s : List (BitVec 64)) (blk : List Byte) : List (BitVec 64) :=
  (List.range 25).map fun i => lane s i ^^^ BitVec.ofNat 64 (leAt blk (8 * i) 8)

/-- Absorbs padded input, one block for each unit of fuel. -/
def sponge : Nat → List (BitVec 64) → List Byte → List (BitVec 64)
  | 0, s, _ => s
  | f + 1, s, l => if l.isEmpty then s else sponge f (keccakF (absorb s (l.take 136))) (l.drop 136)

/-- SHAKE256's padding of a message (domain bits 1111, then pad10*1). -/
def shakePad (l : List Byte) : List Byte :=
  let z := 135 - l.length % 136
  if z = 0 then l ++ [0x9F#8] else l ++ [0x1F#8] ++ List.replicate (z - 1) 0#8 ++ [0x80#8]

/-- The first 32 bytes of SHAKE256. -/
def shake256 (l : List Byte) : List Byte :=
  let p := shakePad l
  let s := sponge (p.length / 136 + 1) (List.replicate 25 0#64) p
  (s.take 4).flatMap fun w => leBytes 8 w.toNat

/-- A 256-bit digest as a number, bit 0 the first output bit. -/
def digest256 (l : List Byte) : Nat := leNat (shake256 l)

end Sys2Proof.Machine
end

