-- ==== Sys2Proof/Machine/Xmss.lean ====
section
/-! DEFINITION. Verification of XMSS signatures with SHAKE256 and n = 256 bits (R420, R434, R435), and the fingerprint of the identity
key (R427). The algorithm is PRESUMED from RFC 8391 and NIST SP 800-208, which the spec names (R8, log 62). -/

namespace Sys2Proof.Machine

/-- The keyed hash functions: 0 F, 1 H, 2 H_msg, 3 PRF. -/
def xmssHash (fn : Nat) (key msg : List Byte) : List Byte := shake256 (beBytes 32 fn ++ key ++ msg)

/-- A hash address in the single tree: its type (0 one-time signature, 1 L-tree, 2 hash tree), its three words and keyAndMask. -/
def xmssAddress (kind a b c km : Nat) : List Byte := [0, 0, 0, kind, a, b, c, km].flatMap (beBytes 4)

/-- Steps of a one-time signature's chain, from step `j` on. -/
def wotsChain (seed : List Byte) (ots chain : Nat) : Nat → Nat → List Byte → List Byte
  | 0, _, x => x
  | n + 1, j, x =>
    let key := xmssHash 3 seed (xmssAddress 0 ots chain j 0)
    let mask := xmssHash 3 seed (xmssAddress 0 ots chain j 1)
    wotsChain seed ots chain n (j + 1) (xmssHash 0 key (xorBytes x mask))

/-- The parent of two nodes, under an address that takes keyAndMask. -/
def xmssParent (seed : List Byte) (kind a b c : Nat) (l r : List Byte) : List Byte :=
  let w := fun km => xmssHash 3 seed (xmssAddress kind a b c km)
  xmssHash 1 (w 0) (xorBytes l (w 1) ++ xorBytes r (w 2))

/-- The 67 base-16 digits that a one-time signature signs: the digest's 64 and its checksum's 3. -/
def wotsDigits (m : List Byte) : List Nat :=
  let d := m.flatMap fun b => [b.toNat / 16, b.toNat % 16]
  let sum := d.foldl (fun n x => n + (15 - x)) 0
  d ++ [sum / 256 % 16, sum / 16 % 16, sum % 16]

/-- One level of an L-tree: pairs have parents, and an odd last node goes up as it is. -/
def ltreeLevel (seed : List Byte) (leaf height : Nat) : Nat → List (List Byte) → List (List Byte)
  | i, a :: b :: t => xmssParent seed 1 leaf height i a b :: ltreeLevel seed leaf height (i + 1) t
  | _, l => l

/-- The root of an L-tree, one level for each unit of fuel; 67 nodes take seven. -/
def ltree (seed : List Byte) (leaf : Nat) : Nat → Nat → List (List Byte) → List Byte
  | 0, _, l => l.headD []
  | f + 1, h, l => ltree seed leaf f (h + 1) (ltreeLevel seed leaf h 0 l)

/-- The one-time public key that a signature gives for a digest. -/
def wotsPublic (seed : List Byte) (ots : Nat) (digest sig : List Byte) : List (List Byte) :=
  (wotsDigits digest).mapIdx fun i d => wotsChain seed ots i (15 - d) d (slice sig (32 * i) 32)

/-- The root that a leaf and its authentication path give: level, node, path. -/
def xmssClimb (seed : List Byte) (leaf : Nat) : Nat → List Byte → List (List Byte) → List Byte
  | _, node, [] => node
  | k, node, a :: t =>
    let up := xmssParent seed 2 0 k (leaf / 2 ^ (k + 1))
    xmssClimb seed leaf (k + 1) (if leaf / 2 ^ k % 2 = 0 then up node a else up a node) t

/-- XMSS verification: a public key of identifier, root and public seed (R427), a message, and a signature of index, randomiser, one-time
signature and authentication path, whose length gives the height (R435). -/
def xmssVerify (key msg sig : List Byte) : Bool :=
  let root := slice key 4 32
  let seed := slice key 36 32
  let leaf := beNat (sig.take 4)
  let digest := xmssHash 2 (slice sig 4 32 ++ root ++ beBytes 32 leaf) msg
  let node := ltree seed leaf 7 0 (wotsPublic seed leaf digest (slice sig 36 2144))
  let path := (List.range ((sig.length - 2180) / 32)).map fun k => slice sig (2180 + 32 * k) 32
  xmssClimb seed leaf 0 node path == root

/-- The identity key's fingerprint: the first 128 bits of the SHAKE256 output over its public key (R427). -/
def idFingerprint : Nat := digest256 Config.idPublic % 2 ^ 128

end Sys2Proof.Machine
end

