-- ==== Sys2Proof/Machine/Entries.lean ====
section
/-! DEFINITION. The Ixique dictionary's entries (R342 to R348): names, types, access, apply-points, defaults and ranges, as the
chapters' entry tables give them. Units of R357 are DEDUCED from each entry's meaning (log 14). -/

namespace Sys2Proof.Machine

/-- Who may use an entry (R344). -/
inductive Access where
  | ro
  | rw
  | wo
  | const
  deriving DecidableEq, Repr

/-- When a write takes effect (R345). -/
inductive Apply where
  | live
  | boundary
  | idle
  deriving DecidableEq, Repr

/-- A row of an entry table: the indices and subindices it covers, the type code of R343, access, apply-point, default, the
range a write must lie in and the unit code of R357. -/
structure EntryRow where
  idxLo : Nat
  idxHi : Nat
  subLo : Nat
  subHi : Nat
  ty : Nat
  access : Access
  apply : Apply
  dflt : Nat
  lo : Nat
  hi : Nat
  unit : Nat
  deriving DecidableEq, Repr

/-- Shorthand for a row. -/
def ent (idxLo idxHi subLo subHi ty : Nat) (access : Access) (apply : Apply) (dflt lo hi unit : Nat) : EntryRow :=
  ⟨idxLo, idxHi, subLo, subHi, ty, access, apply, dflt, lo, hi, unit⟩

/-- Entries of R89. -/
def rowsPan : List EntryRow := [
  ent 0x2400 0x2400 0x01 0x01 0x1 .rw .idle (0) 0 0x1 0,
  ent 0x2400 0x2400 0x02 0x02 0x1 .const .live (32) 0 0xFF 2,
  ent 0x2400 0x2400 0x03 0x03 0x1 .const .live (64) 0 0xFF 2,
  ent 0x3500 0x357F 0x01 0x04 0x4 .ro .live (0) 0 0xFFFFFFFFFFFFFFFF 2,
  ent 0x3500 0x357F 0x05 0x08 0x4 .ro .live (0) 0 0xFFFFFFFFFFFFFFFF 2,
  ent 0x3500 0x357F 0x09 0x0C 0x4 .ro .live (0) 0 0xFFFFFFFFFFFFFFFF 2,
  ent 0x3500 0x357F 0x0D 0x0D 0x4 .ro .live (0) 0 0xFFFFFFFFFFFFFFFF 2,
  ent 0x3500 0x357F 0x0E 0x0E 0x4 .ro .live (0) 0 0xFFFFFFFFFFFFFFFF 2,
  ent 0x3500 0x357F 0x0F 0x0F 0x3 .ro .live (0) 0 0xFFFFFFFF 1,
  ent 0x7400 0x747F 0x01 0x04 0x9 .ro .live (4194303) 0 0xFFFFFFFF 0]

/-- Entries of R127. -/
def rowsScale : List EntryRow := [
  ent 0x3000 0x3000 0x01 0x01 0x1 .rw .boundary (1) 0 0x4 0,
  ent 0x3000 0x3000 0x02 0x02 0x1 .const .live (16) 0 0xFF 15,
  ent 0x3000 0x3000 0x03 0x03 0x1 .const .live (2) 0 0xFF 1,
  ent 0x3000 0x3000 0x04 0x04 0x4 .ro .live (0) 0 0xFFFFFFFFFFFFFFFF 0,
  ent 0x3000 0x3000 0x05 0x05 0x3 .ro .live (0) 0 0xFFFFFFFF 1,
  ent 0x3000 0x3000 0x06 0x06 0x3 .ro .live (0) 0 0xFFFFFFFF 1,
  ent 0x3000 0x3000 0x07 0x07 0x3 .wo .boundary (0) 0 0xFFFFFFFF 0,
  ent 0x3010 0x3010 0x01 0x01 0x1 .ro .live (16) 0 0xFF 0,
  ent 0x3010 0x3010 0x02 0x02 0x1 .rw .idle (16) 0 0x3C 0,
  ent 0x3010 0x3010 0x03 0x03 0x3 .rw .boundary (2000) 0 0xFFFFFFFF 15,
  ent 0x3010 0x3010 0x04 0x04 0x1 .rw .boundary (40) 0 0x3C 0,
  ent 0x3010 0x3010 0x05 0x05 0x3 .ro .live (0) 0 0xFFFFFFFF 15,
  ent 0x3020 0x3020 0x01 0x01 0x4 .ro .live (0) 0 0xFFFFFFFFFFFFFFFF 1,
  ent 0x3020 0x3020 0x02 0x02 0x4 .ro .live (0) 0 0xFFFFFFFFFFFFFFFF 1,
  ent 0x3020 0x3020 0x03 0x03 0x4 .ro .live (0) 0 0xFFFFFFFFFFFFFFFF 1,
  ent 0x3020 0x3020 0x04 0x04 0x4 .ro .live (0) 0 0xFFFFFFFFFFFFFFFF 1,
  ent 0x3020 0x3020 0x05 0x05 0x4 .ro .live (0) 0 0xFFFFFFFFFFFFFFFF 1,
  ent 0x3020 0x3020 0x06 0x06 0x4 .ro .live (0) 0 0xFFFFFFFFFFFFFFFF 1,
  ent 0x3020 0x3020 0x07 0x07 0x4 .ro .live (0) 0 0xFFFFFFFFFFFFFFFF 1,
  ent 0x3030 0x3030 0x01 0x01 0x3 .rw .live (0) 0 0xFFFFFFFF 0,
  ent 0x3030 0x3030 0x02 0x02 0x5 .ro .live (0) 0 0xFFFFFFFF 0,
  ent 0x3030 0x3030 0x03 0x03 0x1 .ro .live (0) 0 0xFF 1,
  ent 0x3030 0x3030 0x04 0x04 0x6 .ro .live (0x0) 0 0xFFFFFFFF 0,
  ent 0x3030 0x3030 0x05 0x05 0x7 .ro .live (0) 0 0xFF 0,
  ent 0x3030 0x3030 0x06 0x06 0x1 .ro .live (0) 0 0xFF 0]

/-- Entries of R153, R156. -/
def rowsRake1 : List EntryRow := [
  ent 0xA000 0xAFFF 0x01 0x01 0x4 .ro .live (0) 0 0xFFFFFFFFFFFFFFFF 0,
  ent 0xA000 0xAFFF 0x02 0x02 0x1 .ro .live (0) 0 0xFF 0,
  ent 0xA000 0xAFFF 0x03 0x03 0x1 .ro .live (0) 0 0xFF 0,
  ent 0xA000 0xAFFF 0x04 0x04 0x1 .ro .live (0) 0 0xFF 0,
  ent 0xA000 0xAFFF 0x05 0x05 0x1 .rw .boundary (0) 0 0xFF 0,
  ent 0xA000 0xAFFF 0x06 0x06 0x7 .ro .live (0) 0 0xFF 0,
  ent 0xA000 0xAFFF 0x07 0x07 0x1 .ro .live (0) 0 0xFF 0,
  ent 0xA000 0xAFFF 0x08 0x08 0x1 .ro .live (0) 0 0xFF 0,
  ent 0xA000 0xAFFF 0x09 0x09 0x2 .ro .live (0) 0 0xFFFF 15,
  ent 0xA000 0xAFFF 0x0A 0x0A 0x2 .ro .live (0) 0 0xFFFF 15,
  ent 0xA000 0xAFFF 0x0B 0x0B 0x1 .ro .live (0) 0 0xFF 0,
  ent 0xA000 0xAFFF 0x0C 0x0C 0x2 .ro .live (0) 0 0xFFFF 15,
  ent 0xA000 0xAFFF 0x0D 0x0D 0x7 .ro .live (0) 0 0xFF 0,
  ent 0xA000 0xAFFF 0x10 0x10 0x4 .ro .live (0) 0 0xFFFFFFFFFFFFFFFF 1,
  ent 0xA000 0xAFFF 0x11 0x11 0x4 .ro .live (0) 0 0xFFFFFFFFFFFFFFFF 1,
  ent 0xA000 0xAFFF 0x12 0x12 0x4 .ro .live (0) 0 0xFFFFFFFFFFFFFFFF 1,
  ent 0xA000 0xAFFF 0x13 0x13 0x4 .ro .live (0) 0 0xFFFFFFFFFFFFFFFF 1,
  ent 0xA000 0xAFFF 0x14 0x14 0x4 .ro .live (0) 0 0xFFFFFFFFFFFFFFFF 1,
  ent 0xA000 0xAFFF 0x15 0x15 0x3 .ro .live (0) 0 0xFFFFFFFF 1,
  ent 0xA000 0xAFFF 0x16 0x16 0x1 .ro .live (0) 0 0xFF 1,
  ent 0xA000 0xAFFF 0x17 0x17 0x3 .ro .live (0) 0 0xFFFFFFFF 1,
  ent 0xA000 0xAFFF 0x18 0x18 0x4 .ro .live (0) 0 0xFFFFFFFFFFFFFFFF 1,
  ent 0xA000 0xAFFF 0x19 0x19 0x4 .ro .live (0) 0 0xFFFFFFFFFFFFFFFF 1,
  ent 0xA000 0xAFFF 0x1A 0x1A 0x6 .ro .live (0x0) 0 0xFFFFFFFF 0,
  ent 0xA000 0xAFFF 0x1B 0x1B 0x6 .ro .live (0x0) 0 0xFFFFFFFF 0,
  ent 0xA000 0xAFFF 0x1C 0x1C 0x6 .ro .live (0x0) 0 0xFFFFFFFF 0,
  ent 0xA000 0xAFFF 0x1D 0x1D 0x6 .ro .live (0x0) 0 0xFFFFFFFF 11,
  ent 0xA000 0xAFFF 0x1E 0x1E 0x1 .ro .live (0) 0 0xFF 0,
  ent 0xA000 0xAFFF 0x1F 0x1F 0x1 .ro .live (0) 0 0xFF 0,
  ent 0xA000 0xAFFF 0x20 0x3F 0x4 .ro .live (0) 0 0xFFFFFFFFFFFFFFFF 1]

/-- Entries of R153, R156. -/
def rowsRake2 : List EntryRow := [
  ent 0xA000 0xAFFF 0x40 0x5F 0x4 .ro .live (0) 0 0xFFFFFFFFFFFFFFFF 1,
  ent 0xA000 0xAFFF 0x60 0x64 0x3 .ro .live (0) 0 0xFFFFFFFF 15,
  ent 0xA000 0xAFFF 0x65 0x65 0x4 .ro .live (0) 0 0xFFFFFFFFFFFFFFFF 1,
  ent 0x3100 0x3100 0x01 0x01 0x1 .rw .boundary (1) 0 0x2 0,
  ent 0x3100 0x3100 0x02 0x02 0x2 .rw .boundary (64) 1 0xFFFF 15,
  ent 0x3100 0x3100 0x03 0x03 0x2 .rw .boundary (256) 0 0xFFFF 15,
  ent 0x3100 0x3100 0x04 0x04 0x2 .rw .boundary (16384) 0 0xFFFF 15,
  ent 0x3100 0x3100 0x05 0x05 0x3 .ro .live (0) 0 0xFFFFFFFF 6,
  ent 0x3100 0x3100 0x06 0x06 0x4 .ro .live (0) 0 0xFFFFFFFFFFFFFFFF 1,
  ent 0x3100 0x3100 0x07 0x07 0x4 .ro .live (0) 0 0xFFFFFFFFFFFFFFFF 1,
  ent 0x3100 0x3100 0x08 0x08 0x1 .wo .boundary (0) 1 0x1 0,
  ent 0x3110 0x3110 0x01 0x01 0x6 .rw .boundary (0x358637BD) 0 0x3F800000 0,
  ent 0x3110 0x3110 0x02 0x02 0x6 .rw .boundary (0x0) 0 0x3F800000 0,
  ent 0x3110 0x3110 0x03 0x03 0x6 .rw .boundary (0x3D4CCCCD) 0 0x3F800000 0,
  ent 0x3110 0x3110 0x04 0x04 0x6 .rw .boundary (0x3C23D70A) 0 0x3F800000 0,
  ent 0x3110 0x3110 0x05 0x05 0x6 .rw .boundary (0x3A83126F) 0 0x3F800000 0,
  ent 0x3110 0x3110 0x06 0x06 0x6 .rw .boundary (0x3D000000) 0 0xFFFFFFFF 0,
  ent 0x3110 0x3110 0x07 0x07 0x6 .rw .boundary (0x3A800000) 0 0x3F800000 0,
  ent 0x3110 0x3110 0x08 0x08 0x1 .rw .boundary (16) 1 0x1F 0,
  ent 0x3110 0x3110 0x09 0x09 0x1 .rw .boundary (28) 1 0x1F 0,
  ent 0x3110 0x3110 0x0A 0x0A 0x6 .rw .boundary (0x47000000) 0 0x477FE000 0,
  ent 0x3120 0x3120 0x01 0x01 0x2 .rw .boundary (32) 0 0xFFFF 15,
  ent 0x3120 0x3120 0x02 0x02 0x6 .rw .boundary (0x3A83126F) 0 0x3F800000 0,
  ent 0x3120 0x3120 0x03 0x03 0x2 .rw .boundary (256) 0 0xFFFF 15,
  ent 0x3120 0x3120 0x04 0x04 0x2 .ro .live (0) 0 0xFFFF 1,
  ent 0x3130 0x3130 0x01 0x01 0x4 .ro .live (0) 0 0xFFFFFFFFFFFFFFFF 1,
  ent 0x3130 0x3130 0x02 0x02 0x4 .ro .live (0) 0 0xFFFFFFFFFFFFFFFF 1,
  ent 0x3140 0x3140 0x01 0x01 0x2 .ro .live (0) 0 0xFFFF 1,
  ent 0x3140 0x3140 0x02 0x02 0x1 .rw .live (0) 0 0x1 0,
  ent 0x3140 0x3140 0x03 0x03 0x4 .rw .idle (0) 0 0xFFFFFFFFFFFFFFFF 0]

/-- Entries of R153, R156. -/
def rowsRake3 : List EntryRow := [
  ent 0x3140 0x3140 0x04 0x04 0x2 .rw .idle (0) 0 0xFFFF 15,
  ent 0x3140 0x3140 0x05 0x05 0x4 .ro .live (0) 0 0xFFFFFFFFFFFFFFFF 0,
  ent 0x3140 0x3140 0x06 0x06 0x4 .ro .live (0) 0 0xFFFFFFFFFFFFFFFF 0,
  ent 0x3140 0x3140 0x11 0x15 0x4 .ro .live (0) 0 0xFFFFFFFFFFFFFFFF 10,
  ent 0x3140 0x3140 0x16 0x16 0x4 .ro .live (0) 0 0xFFFFFFFFFFFFFFFF 10]

/-- Entries of R176, R181. -/
def rowsExc : List EntryRow := [
  ent 0x3200 0x327F 0x01 0x01 0x2 .ro .live (0) 0 0xFFFF 0,
  ent 0x3200 0x327F 0x02 0x02 0x1 .ro .live (0) 0 0xFF 0,
  ent 0x3200 0x327F 0x03 0x03 0x1 .ro .live (0) 0 0xFF 0,
  ent 0x3200 0x327F 0x04 0x04 0x1 .ro .live (0) 0 0xFF 0,
  ent 0x3200 0x327F 0x05 0x05 0x1 .ro .live (0) 0 0xFF 0,
  ent 0x3200 0x327F 0x06 0x06 0x2 .ro .live (0) 0 0xFFFF 0,
  ent 0x3200 0x327F 0x07 0x07 0x3 .ro .live (0) 0 0xFFFFFFFF 0,
  ent 0x3200 0x327F 0x08 0x08 0x3 .ro .live (0) 0 0xFFFFFFFF 0,
  ent 0x3200 0x327F 0x09 0x09 0x3 .ro .live (0) 0 0xFFFFFFFF 0,
  ent 0x3200 0x327F 0x0A 0x0A 0x3 .ro .live (0) 0 0xFFFFFFFF 0,
  ent 0x3200 0x327F 0x0B 0x0B 0x3 .ro .live (0) 0 0xFFFFFFFF 0,
  ent 0x3200 0x327F 0x0C 0x0C 0x3 .ro .live (0) 0 0xFFFFFFFF 1,
  ent 0x3290 0x3290 0x01 0x01 0x1 .wo .idle (0) 1 0x1 0,
  ent 0x3290 0x3290 0x02 0x02 0x1 .ro .live (0) 0 0xFF 0,
  ent 0x3290 0x3290 0x03 0x03 0x3 .ro .live (0) 0 0xFFFFFFFF 1,
  ent 0x3290 0x3290 0x04 0x04 0x3 .ro .live (0) 0 0xFFFFFFFF 0,
  ent 0x3290 0x3290 0x05 0x05 0x3 .const .live (Config.nvpVersion) 0 0xFFFFFFFF 0]

/-- Entries of R211. -/
def rowsProg : List EntryRow := [
  ent 0x3300 0x3300 0x01 0x01 0x4 .rw .idle (0) 0 0xFFFFFFFFFFFFFFFF 0,
  ent 0x3300 0x3300 0x02 0x02 0x1 .wo .idle (0) 1 0x2 0,
  ent 0x3300 0x3300 0x03 0x03 0x1 .ro .live (0) 0 0xFF 0,
  ent 0x3300 0x3300 0x04 0x07 0x4 .ro .live (0) 0 0xFFFFFFFFFFFFFFFF 0,
  ent 0x3300 0x3300 0x08 0x08 0x3 .ro .live (4294967295) 0 0xFFFFFFFF 0,
  ent 0x3300 0x3300 0x09 0x09 0x2 .ro .live (0) 0 0xFFFF 1,
  ent 0x3300 0x3300 0x0A 0x0A 0x3 .ro .live (0) 0 0xFFFFFFFF 1,
  ent 0x3310 0x3310 0x01 0x01 0x2 .ro .live (0) 0 0xFFFF 1,
  ent 0x3310 0x3310 0x02 0x02 0x2 .ro .live (0) 0 0xFFFF 1,
  ent 0x3310 0x3310 0x03 0x03 0x2 .const .live (4096) 0 0xFFFF 1,
  ent 0x3310 0x3310 0x04 0x04 0x4 .ro .live (0) 0 0xFFFFFFFFFFFFFFFF 4,
  ent 0x3310 0x3310 0x05 0x05 0x4 .ro .live (0) 0 0xFFFFFFFFFFFFFFFF 1,
  ent 0x3310 0x3310 0x06 0x06 0x4 .ro .live (0) 0 0xFFFFFFFFFFFFFFFF 1,
  ent 0x3310 0x3310 0x07 0x07 0x4 .ro .live (0) 0 0xFFFFFFFFFFFFFFFF 1,
  ent 0x3310 0x3310 0x08 0x08 0x3 .ro .live (0) 0 0xFFFFFFFF 5,
  ent 0x3320 0x3320 0x01 0x01 0x2 .ro .live (0) 0 0xFFFF 1,
  ent 0x3320 0x3320 0x02 0x02 0x4 .ro .live (0) 0 0xFFFFFFFFFFFFFFFF 0,
  ent 0x3330 0x3330 0x01 0x01 0x4 .ro .live (0) 0 0xFFFFFFFFFFFFFFFF 1,
  ent 0x3330 0x3330 0x02 0x02 0x4 .ro .live (0) 0 0xFFFFFFFFFFFFFFFF 3]

/-- Entries of R242. -/
def rowsTrain1 : List EntryRow := [
  ent 0x3400 0x3400 0x01 0x01 0x4 .wo .live (0) 0 0xFFFFFFFFFFFFFFFF 0,
  ent 0x3400 0x3400 0x02 0x02 0x4 .rw .idle (0) 0 0xFFFFFFFFFFFFFFFF 0,
  ent 0x3400 0x3400 0x03 0x03 0x1 .ro .live (0) 0 0xFF 0,
  ent 0x3400 0x3400 0x04 0x04 0x1 .ro .live (0) 0 0xFF 0,
  ent 0x3400 0x3400 0x05 0x05 0x4 .ro .live (0) 0 0xFFFFFFFFFFFFFFFF 15,
  ent 0x3400 0x3400 0x06 0x06 0x4 .ro .live (0) 0 0xFFFFFFFFFFFFFFFF 15,
  ent 0x3400 0x3400 0x07 0x07 0x1 .rw .live (0) 0 0x0 0,
  ent 0x3400 0x3400 0x08 0x08 0x1 .rw .idle (0) 0 0xFF 0,
  ent 0x3400 0x3400 0x09 0x09 0x1 .rw .idle (255) 0 0xFF 0,
  ent 0x3400 0x3400 0x0A 0x0A 0x4 .rw .idle (0) 0 0xFFFFFFFFFFFFFFFF 0,
  ent 0x3400 0x3400 0x0B 0x0B 0x4 .rw .idle (0) 0 0xFFFFFFFFFFFFFFFF 0,
  ent 0x3410 0x3410 0x01 0x01 0x4 .rw .idle (0) 0 0xFFFFFFFFFFFFFFFF 0,
  ent 0x3410 0x3410 0x02 0x02 0x4 .rw .idle (0) 0 0xFFFFFFFFFFFFFFFF 0,
  ent 0x3410 0x3410 0x03 0x03 0x4 .rw .idle (0) 0 0xFFFFFFFFFFFFFFFF 0,
  ent 0x3410 0x3410 0x04 0x04 0x1 .wo .idle (0) 1 0x1 0,
  ent 0x3410 0x3410 0x05 0x05 0x1 .ro .live (0) 0 0xFF 0,
  ent 0x3420 0x3420 0x01 0x01 0x3 .rw .boundary (10000) 100 0x927C0 7,
  ent 0x3420 0x3420 0x02 0x02 0x3 .ro .live (0) 0 0xFFFFFFFF 6,
  ent 0x3420 0x3420 0x03 0x03 0x4 .ro .live (0) 0 0xFFFFFFFFFFFFFFFF 1,
  ent 0x3420 0x3420 0x04 0x04 0x4 .ro .live (0) 0 0xFFFFFFFFFFFFFFFF 1,
  ent 0x3420 0x3420 0x05 0x05 0x4 .ro .live (0) 0 0xFFFFFFFFFFFFFFFF 1,
  ent 0x3420 0x3420 0x06 0x06 0x4 .ro .live (0) 0 0xFFFFFFFFFFFFFFFF 0,
  ent 0x3420 0x3420 0x07 0x07 0x4 .ro .live (0) 0 0xFFFFFFFFFFFFFFFF 0,
  ent 0x3420 0x3420 0x08 0x08 0x4 .ro .live (0) 0 0xFFFFFFFFFFFFFFFF 1,
  ent 0x3420 0x3420 0x09 0x09 0x4 .ro .live (0) 0 0xFFFFFFFFFFFFFFFF 1,
  ent 0x3480 0x34BF 0x01 0x01 0x6 .rw .boundary (0x0) 0 0xFFFFFFFF 0,
  ent 0x3480 0x34BF 0x02 0x02 0x6 .rw .boundary (0x0) 0 0xFFFFFFFF 0,
  ent 0x3480 0x34BF 0x03 0x06 0x6 .rw .boundary (0x0) 0 0xFFFFFFFF 0,
  ent 0x3480 0x34BF 0x07 0x07 0x8 .ro .live (65535) 0 0xFFFF 0,
  ent 0x3480 0x34BF 0x08 0x08 0x1 .rw .boundary (0) 0 0x1 0]

/-- Entries of R242. -/
def rowsTrain2 : List EntryRow := [
  ent 0x3480 0x34BF 0x09 0x09 0x4 .ro .live (0) 0 0xFFFFFFFFFFFFFFFF 1,
  ent 0x3480 0x34BF 0x0A 0x0A 0x4 .ro .live (0) 0 0xFFFFFFFFFFFFFFFF 1,
  ent 0x3480 0x34BF 0x0B 0x0B 0x4 .ro .live (0) 0 0xFFFFFFFFFFFFFFFF 1,
  ent 0x3480 0x34BF 0x0C 0x0C 0x7 .ro .live (255) 0 0xFF 0]

/-- Entries of R267. -/
def rowsMem1 : List EntryRow := [
  ent 0x5000 0x5000 0x01 0x01 0x3 .const .live (797064) 0 0xFFFFFFFF 1,
  ent 0x5000 0x5000 0x02 0x02 0x3 .ro .live (10742182) 0 0xFFFFFFFF 1,
  ent 0x5000 0x5000 0x03 0x03 0x3 .ro .live (797064) 0 0xFFFFFFFF 1,
  ent 0x5000 0x5000 0x04 0x04 0x3 .ro .live (10742182) 0 0xFFFFFFFF 1,
  ent 0x5000 0x5000 0x05 0x05 0x3 .ro .live (0) 0 0xFFFFFFFF 1,
  ent 0x5000 0x5000 0x06 0x06 0x2 .rw .boundary (64) 1 0xFFFF 1,
  ent 0x5000 0x5000 0x07 0x07 0x3 .rw .boundary (86400) 0 0xFFFFFFFF 8,
  ent 0x5000 0x5000 0x08 0x08 0x2 .rw .boundary (256) 0 0xFFFF 1,
  ent 0x5000 0x5000 0x09 0x09 0x3 .rw .live (0) 0 0xFFFFFFFF 0,
  ent 0x5000 0x5000 0x0A 0x0A 0x4 .ro .live (0) 0 0xFFFFFFFFFFFFFFFF 0,
  ent 0x5010 0x5010 0x01 0x01 0x4 .const .live (8796071067648) 0 0xFFFFFFFFFFFFFFFF 0,
  ent 0x5010 0x5010 0x02 0x02 0x2 .rw .live (0) 1 0x1000 1,
  ent 0x5010 0x5010 0x03 0x03 0x1 .wo .live (0) 1 0x1 0,
  ent 0x5010 0x5010 0x04 0x04 0x1 .ro .live (0) 0 0xFF 0,
  ent 0x5010 0x5010 0x05 0x05 0x2 .ro .live (0) 0 0xFFFF 1,
  ent 0x5010 0x5010 0x06 0x06 0x1 .ro .live (0) 0 0xFF 0,
  ent 0x5020 0x5020 0x01 0x01 0x4 .ro .live (0) 0 0xFFFFFFFFFFFFFFFF 1,
  ent 0x5020 0x5020 0x02 0x02 0x4 .ro .live (0) 0 0xFFFFFFFFFFFFFFFF 6,
  ent 0x5030 0x5030 0x01 0x02 0x4 .ro .live (0) 0 0xFFFFFFFFFFFFFFFF 1,
  ent 0x5030 0x5030 0x03 0x04 0x4 .ro .live (0) 0 0xFFFFFFFFFFFFFFFF 1,
  ent 0x5040 0x5040 0x01 0x02 0x2 .ro .live (0) 0 0xFFFF 1,
  ent 0x5040 0x5040 0x03 0x04 0x4 .ro .live (0) 0 0xFFFFFFFFFFFFFFFF 3,
  ent 0x5050 0x5050 0x01 0x01 0x4 .ro .live (0) 0 0xFFFFFFFFFFFFFFFF 1,
  ent 0x5050 0x5050 0x02 0x02 0x4 .ro .live (0) 0 0xFFFFFFFFFFFFFFFF 0,
  ent 0x5200 0x520B 0x01 0x01 0x1 .ro .live (255) 0 0xFF 0,
  ent 0x5200 0x520B 0x02 0x02 0x4 .ro .live (0) 0 0xFFFFFFFFFFFFFFFF 1,
  ent 0x5200 0x520B 0x03 0x03 0x4 .ro .live (0) 0 0xFFFFFFFFFFFFFFFF 1,
  ent 0x5200 0x520B 0x04 0x04 0x1 .ro .live (0) 0 0xFF 0,
  ent 0x5200 0x520B 0x05 0x05 0x3 .ro .live (0) 0 0xFFFFFFFF 1,
  ent 0x5300 0x530B 0x01 0x01 0x1 .ro .live (0) 0 0xFF 0]

/-- Entries of R267. -/
def rowsMem2 : List EntryRow := [
  ent 0x5300 0x530B 0x02 0x02 0x4 .ro .live (0) 0 0xFFFFFFFFFFFFFFFF 1,
  ent 0x5300 0x530B 0x03 0x03 0x4 .ro .live (0) 0 0xFFFFFFFFFFFFFFFF 1,
  ent 0x5300 0x530B 0x04 0x04 0x3 .ro .live (976562) 0 0xFFFFFFFF 1,
  ent 0x5300 0x530B 0x05 0x05 0x1 .ro .live (0) 0 0xFF 0]

/-- Entries of R277. -/
def rowsArb : List EntryRow := [
  ent 0x5800 0x5800 0x01 0x01 0x2 .rw .live (8) 1 0xFFFF 3,
  ent 0x5800 0x5800 0x02 0x02 0x2 .rw .live (16) 1 0xFFFF 3,
  ent 0x5800 0x5800 0x03 0x03 0x2 .rw .live (32) 1 0xFFFF 3,
  ent 0x5800 0x5800 0x04 0x04 0x2 .rw .live (64) 1 0xFFFF 3,
  ent 0x5810 0x5810 0x01 0x01 0x1 .rw .live (0) 0 0x3 0,
  ent 0x5810 0x5810 0x02 0x02 0x2 .rw .live (0) 0 0xFFFF 0,
  ent 0x5810 0x5810 0x03 0x03 0x1 .rw .live (0) 0 0xFF 0,
  ent 0x5810 0x5810 0x04 0x04 0x4 .ro .live (0) 0 0xFFFFFFFFFFFFFFFF 3,
  ent 0x5810 0x5810 0x05 0x05 0x3 .ro .live (0) 0 0xFFFFFFFF 3,
  ent 0x5810 0x5810 0x06 0x06 0x4 .ro .live (0) 0 0xFFFFFFFFFFFFFFFF 1,
  ent 0x5810 0x5810 0x07 0x07 0x3 .ro .live (0) 0 0xFFFFFFFF 1,
  ent 0x5820 0x5820 0x01 0x04 0x3 .ro .live (0) 0 0xFFFFFFFF 3,
  ent 0x5820 0x5820 0x05 0x05 0x4 .ro .live (0) 0 0xFFFFFFFFFFFFFFFF 1,
  ent 0x5820 0x5820 0x06 0x06 0x1 .wo .live (0) 1 0x1 0]

/-- Entries of R313. -/
def rowsResil1 : List EntryRow := [
  ent 0x7000 0x7000 0x01 0x01 0x3 .ro .live (0) 0 0xFFFFFFFF 1,
  ent 0x7000 0x7000 0x02 0x02 0x3 .ro .live (0) 0 0xFFFFFFFF 1,
  ent 0x7000 0x7000 0x03 0x03 0x3 .ro .live (0) 0 0xFFFFFFFF 7,
  ent 0x7010 0x7010 0x01 0x01 0x1 .const .live (64) 0 0xFF 1,
  ent 0x7010 0x7010 0x02 0x02 0x4 .ro .live (0) 0 0xFFFFFFFFFFFFFFFF 0,
  ent 0x7010 0x7010 0x03 0x03 0x4 .rw .live (0) 0 0xFFFFFFFFFFFFFFFF 0,
  ent 0x7010 0x7010 0x04 0x04 0x4 .rw .live (0) 0 0xFFFFFFFFFFFFFFFF 0,
  ent 0x7010 0x7010 0x05 0x05 0x1 .wo .live (0) 1 0x1 0,
  ent 0x7010 0x7010 0x06 0x06 0x4 .wo .idle (0) 0 0xFFFFFFFFFFFFFFFF 0,
  ent 0x7010 0x7010 0x07 0x07 0x4 .rw .idle (0) 0 0xFFFFFFFFFFFFFFFF 0,
  ent 0x7010 0x7010 0x08 0x08 0x1 .ro .live (0) 0 0xFF 0,
  ent 0x7020 0x7020 0x01 0x01 0x4 .rw .idle (0) 0 0xFFFFFFFFFFFFFFFF 0,
  ent 0x7020 0x7020 0x02 0x02 0x1 .wo .idle (0) 1 0x1 0,
  ent 0x7020 0x7020 0x03 0x03 0x4 .rw .idle (0) 0 0xFFFFFFFFFFFFFFFF 0,
  ent 0x7020 0x7020 0x04 0x04 0x1 .wo .idle (0) 1 0x1 0,
  ent 0x7020 0x7020 0x05 0x05 0x4 .ro .live (0) 0 0xFFFFFFFFFFFFFFFF 9,
  ent 0x7030 0x7030 0x01 0x01 0x1 .wo .boundary (0) 1 0x1 0,
  ent 0x7100 0x7100 0x01 0x01 0x1 .rw .boundary (0) 0 0x2 0,
  ent 0x7100 0x7100 0x02 0x02 0x1 .rw .idle (0) 0 0xFF 0,
  ent 0x7100 0x7100 0x03 0x03 0x1 .rw .idle (0) 0 0x1 0,
  ent 0x7100 0x7100 0x04 0x04 0x1 .ro .live (255) 0 0xFF 0,
  ent 0x7100 0x7100 0x05 0x05 0x3 .rw .idle (0) 0 0xFFFFFFFF 0,
  ent 0x7100 0x7100 0x06 0x06 0x3 .rw .idle (0) 0 0xFFFFFFFF 0,
  ent 0x7100 0x7100 0x07 0x07 0x3 .rw .idle (0) 0 0xFFFFFFFF 0,
  ent 0x7100 0x7100 0x08 0x08 0x1 .ro .live (0) 0 0xFF 0,
  ent 0x7100 0x7100 0x09 0x09 0x4 .ro .live (0) 0 0xFFFFFFFFFFFFFFFF 0,
  ent 0x7100 0x7100 0x0A 0x0A 0x2 .const .live (256) 0 0xFFFF 1,
  ent 0x7100 0x7100 0x0B 0x0B 0x4 .ro .live (0) 0 0xFFFFFFFFFFFFFFFF 6,
  ent 0x7100 0x7100 0x0C 0x0C 0x4 .ro .live (0) 0 0xFFFFFFFFFFFFFFFF 9,
  ent 0x7100 0x7100 0x0D 0x0D 0x2 .rw .idle (500) 100 0x2710 6]

/-- Entries of R313. -/
def rowsResil2 : List EntryRow := [
  ent 0x7100 0x7100 0x0E 0x0E 0x1 .rw .idle (8) 3 0x40 1,
  ent 0x7100 0x7100 0x0F 0x0F 0x4 .ro .live (0) 0 0xFFFFFFFFFFFFFFFF 9,
  ent 0x7100 0x7100 0x10 0x13 0x2 .rw .idle (65535) 0 0xFFFF 0,
  ent 0x7100 0x7100 0x14 0x14 0x4 .ro .live (0) 0 0xFFFFFFFFFFFFFFFF 15,
  ent 0x7100 0x7100 0x15 0x15 0x1 .wo .boundary (0) 1 0x1 0,
  ent 0x7200 0x7200 0x01 0x01 0x3 .rw .boundary (0) 0 0xFFFFFFFF 15,
  ent 0x7200 0x7200 0x02 0x02 0x1 .ro .live (0) 0 0xFF 1,
  ent 0x7200 0x7200 0x03 0x03 0x4 .ro .live (0) 0 0xFFFFFFFFFFFFFFFF 0,
  ent 0x7200 0x7200 0x04 0x04 0x1 .ro .live (0) 0 0xFF 0,
  ent 0x7200 0x7200 0x05 0x05 0x4 .ro .live (0) 0 0xFFFFFFFFFFFFFFFF 6,
  ent 0x7200 0x7200 0x06 0x06 0x4 .wo .idle (0) 0 0xFFFFFFFFFFFFFFFF 0,
  ent 0x7200 0x7200 0x07 0x07 0x4 .ro .live (0) 0 0xFFFFFFFFFFFFFFFF 9,
  ent 0x7200 0x7200 0x08 0x08 0x1 .wo .boundary (0) 1 0x1 0,
  ent 0x7200 0x7200 0x09 0x09 0x4 .ro .live (0) 0 0xFFFFFFFFFFFFFFFF 1]

/-- Entries of R340. -/
def rowsFault1 : List EntryRow := [
  ent 0x4000 0x4000 0x01 0x01 0x3 .ro .live (0) 0 0xFFFFFFFF 1,
  ent 0x4000 0x4000 0x02 0x02 0x3 .const .live (65536) 0 0xFFFFFFFF 1,
  ent 0x4000 0x4000 0x03 0x03 0x3 .ro .live (0) 0 0xFFFFFFFF 0,
  ent 0x4000 0x4000 0x04 0x04 0x3 .ro .live (0) 0 0xFFFFFFFF 0,
  ent 0x4000 0x4000 0x05 0x08 0x4 .ro .live (0) 0 0xFFFFFFFFFFFFFFFF 1,
  ent 0x4000 0x4000 0x09 0x09 0x2 .ro .live (0) 0 0xFFFF 0,
  ent 0x4000 0x4000 0x0A 0x0A 0x1 .ro .live (0) 0 0xFF 0,
  ent 0x4000 0x4000 0x0B 0x0B 0x3 .ro .live (0) 0 0xFFFFFFFF 1,
  ent 0x4000 0x4000 0x0C 0x0C 0x3 .ro .live (0) 0 0xFFFFFFFF 1,
  ent 0x4010 0x4010 0x01 0x01 0x3 .rw .live (0) 0 0xFFFFFFFF 0,
  ent 0x4010 0x4010 0x02 0x09 0x4 .ro .live (0) 0 0xFFFFFFFFFFFFFFFF 0,
  ent 0x4010 0x4010 0x0A 0x0A 0x3 .rw .live (0) 0 0xFFFFFFFF 0,
  ent 0x4010 0x4010 0x0B 0x0B 0x3 .rw .live (0) 1 0x10000 1,
  ent 0x4010 0x4010 0x0C 0x0C 0x4 .rw .live (0) 0 0xFFFFFFFFFFFFFFFF 0,
  ent 0x4010 0x4010 0x0D 0x0D 0x1 .wo .live (0) 1 0x1 0,
  ent 0x4020 0x4020 0x01 0x01 0xC .wo .live (0) 0 0x0 0,
  ent 0x4020 0x4020 0x02 0x02 0x1 .wo .live (0) 1 0x1 0,
  ent 0x4020 0x4020 0x03 0x03 0x3 .ro .live (0) 0 0xFFFFFFFF 1,
  ent 0x4020 0x4020 0x04 0x04 0x2 .ro .live (0) 0 0xFFFF 1,
  ent 0x4030 0x4030 0x01 0x01 0x3 .wo .live (0) 0 0xFFFFFFFF 0,
  ent 0x4030 0x4030 0x02 0x02 0x2 .ro .live (0) 0 0xFFFF 1,
  ent 0x4030 0x4030 0x03 0x03 0x1 .ro .live (0) 0 0xFF 0,
  ent 0x4030 0x4030 0x04 0x04 0x4 .ro .live (0) 0 0xFFFFFFFFFFFFFFFF 0,
  ent 0x4030 0x4030 0x05 0x05 0x1 .ro .live (0) 0 0xFF 0,
  ent 0x4030 0x4030 0x06 0x06 0x4 .ro .live (0) 0 0xFFFFFFFFFFFFFFFF 1,
  ent 0x4040 0x4040 0x01 0x01 0x1 .rw .live (0) 0 0x4 0,
  ent 0x4040 0x4040 0x02 0x02 0x2 .rw .live (0) 0 0xFFFF 0,
  ent 0x4040 0x4040 0x03 0x03 0x4 .ro .live (0) 0 0xFFFFFFFFFFFFFFFF 0,
  ent 0x4040 0x4040 0x04 0x04 0x4 .ro .live (0) 0 0xFFFFFFFFFFFFFFFF 0,
  ent 0x4040 0x4040 0x05 0x05 0x1 .wo .live (0) 1 0x1 0]

/-- Entries of R340. -/
def rowsFault2 : List EntryRow := [
  ent 0x4101 0x411A 0x01 0x01 0x2 .rw .boundary (0) 1 0x1000 1,
  ent 0x4101 0x411A 0x02 0x02 0x3 .rw .boundary (0) 1 0x278D00 8,
  ent 0x4101 0x411A 0x03 0x03 0x1 .const .live (0) 0 0xFF 0,
  ent 0x4101 0x411A 0x04 0x04 0x4 .ro .live (0) 0 0xFFFFFFFFFFFFFFFF 1,
  ent 0x4101 0x411A 0x05 0x05 0x4 .ro .live (0) 0 0xFFFFFFFFFFFFFFFF 1,
  ent 0x4101 0x411A 0x06 0x06 0x4 .ro .live (0) 0 0xFFFFFFFFFFFFFFFF 1]

/-- Entries of R371. -/
def rowsDict1 : List EntryRow := [
  ent 0x1000 0x1000 0x01 0x01 0xB .const .live (0) 0 0x0 0,
  ent 0x1000 0x1000 0x02 0x02 0xB .const .live (0) 0 0x0 0,
  ent 0x1000 0x1000 0x03 0x03 0xB .const .live (0) 0 0x0 0,
  ent 0x1000 0x1000 0x04 0x04 0xB .const .live (0) 0 0x0 0,
  ent 0x1000 0x1000 0x05 0x05 0x2 .const .live (Config.boardCode) 0 0xFFFF 0,
  ent 0x1000 0x1000 0x06 0x06 0x2 .ro .live (1) 0 0xFFFF 0,
  ent 0x1000 0x1000 0x07 0x07 0x2 .ro .live (0) 0 0xFFFF 0,
  ent 0x1000 0x1000 0x08 0x08 0x3 .ro .live (0) 0 0xFFFFFFFF 0,
  ent 0x1000 0x1000 0x09 0x09 0x4 .const .live (idFingerprint % 2 ^ 64) 0 0xFFFFFFFFFFFFFFFF 0,
  ent 0x1000 0x1000 0x0A 0x0A 0x4 .const .live (idFingerprint / 2 ^ 64) 0 0xFFFFFFFFFFFFFFFF 0,
  ent 0x1000 0x1000 0x0B 0x0B 0x4 .ro .live (0) 0 0xFFFFFFFFFFFFFFFF 0,
  ent 0x1000 0x1000 0x0C 0x0C 0x2 .const .live (1) 0 0xFFFF 0,
  ent 0x1000 0x1000 0x0D 0x0D 0x4 .ro .live (0) 0 0xFFFFFFFFFFFFFFFF 7,
  ent 0x1100 0x1100 0x01 0x01 0xA .ro .live (0) 0 0xFFFFFFFFFFFFFFFF 0,
  ent 0x1100 0x1100 0x02 0x03 0xA .ro .live (0) 0 0xFFFFFFFFFFFFFFFF 0,
  ent 0x1101 0x1101 0x01 0x3C 0x3 .ro .live (4294967295) 0 0xFFFFFFFF 7,
  ent 0x1200 0x1200 0x01 0x01 0x1 .ro .live (255) 0 0xFF 0,
  ent 0x1200 0x1200 0x02 0x02 0x7 .ro .live (0) 0 0xFF 0,
  ent 0x1200 0x1200 0x03 0x03 0x2 .const .live (7353) 0 0xFFFF 0,
  ent 0x1200 0x1200 0x04 0x04 0x1 .const .live (32) 0 0xFF 0,
  ent 0x1200 0x1200 0x05 0x05 0x1 .const .live (0) 0 0xFF 0,
  ent 0x1200 0x1200 0x06 0x06 0x4 .ro .live (0) 0 0xFFFFFFFFFFFFFFFF 1,
  ent 0x1200 0x1200 0x07 0x07 0x4 .ro .live (0) 0 0xFFFFFFFFFFFFFFFF 1,
  ent 0x1200 0x1200 0x08 0x08 0x4 .ro .live (0) 0 0xFFFFFFFFFFFFFFFF 1,
  ent 0x1200 0x1200 0x09 0x09 0x4 .ro .live (0) 0 0xFFFFFFFFFFFFFFFF 1,
  ent 0x1200 0x1200 0x0A 0x0A 0x1 .rw .live (1) 0 0x1 0,
  ent 0x1210 0x1210 0x01 0x01 0x1 .const .live (16) 0 0xFF 1,
  ent 0x1210 0x1210 0x02 0x02 0x4 .ro .live (0) 0 0xFFFFFFFFFFFFFFFF 1,
  ent 0x1210 0x1210 0x03 0x03 0x4 .ro .live (0) 0 0xFFFFFFFFFFFFFFFF 1,
  ent 0x1210 0x1210 0x04 0x04 0x4 .ro .live (0) 0 0xFFFFFFFFFFFFFFFF 1]

/-- Entries of R371. -/
def rowsDict2 : List EntryRow := [
  ent 0x1210 0x1210 0x05 0x05 0x4 .ro .live (0) 0 0xFFFFFFFFFFFFFFFF 1,
  ent 0x1300 0x1300 0x01 0x01 0x3 .ro .live (0) 0 0xFFFFFFFF 1,
  ent 0x1300 0x1300 0x02 0x02 0x4 .ro .live (0) 0 0xFFFFFFFFFFFFFFFF 1,
  ent 0x1300 0x1300 0x03 0x03 0x1 .ro .live (0) 0 0xFF 1,
  ent 0x1300 0x1300 0x04 0x04 0x2 .ro .live (0) 0 0xFFFF 1]

/-- Entries of R397. -/
def rowsLink : List EntryRow := [
  ent 0x6000 0x6000 0x01 0x01 0x1 .ro .live (0) 0 0xFF 0,
  ent 0x6000 0x6000 0x02 0x02 0x1 .ro .live (0) 0 0xFF 0,
  ent 0x6000 0x6000 0x03 0x03 0x4 .rw .live (0) 0 0xFFFFFFFFFFFFFFFF 0,
  ent 0x6000 0x6000 0x04 0x04 0x4 .ro .live (0) 0 0xFFFFFFFFFFFFFFFF 1,
  ent 0x6000 0x6000 0x05 0x05 0x3 .ro .live (0) 0 0xFFFFFFFF 1,
  ent 0x6000 0x6000 0x06 0x06 0x4 .ro .live (0) 0 0xFFFFFFFFFFFFFFFF 1,
  ent 0x6000 0x6000 0x07 0x07 0x1 .ro .live (0) 0 0xFF 0,
  ent 0x6010 0x6010 0x01 0x0C 0x8 .ro .live (0) 0 0xFFFF 0,
  ent 0x6011 0x6011 0x01 0x0C 0x4 .ro .live (0) 0 0xFFFFFFFFFFFFFFFF 1,
  ent 0x6012 0x6012 0x01 0x0C 0x3 .ro .live (0) 0 0xFFFFFFFF 1,
  ent 0x6030 0x6030 0x01 0x01 0x2 .rw .idle (65535) 0 0xFFFF 0,
  ent 0x6030 0x6030 0x02 0x02 0x2 .const .live (4146) 0 0xFFFF 9,
  ent 0x6030 0x6030 0x03 0x03 0x2 .rw .live (50) 5 0x2710 6,
  ent 0x6040 0x6047 0x01 0x01 0x7 .ro .live (0) 0 0xFF 0,
  ent 0x6040 0x6047 0x02 0x02 0x7 .ro .live (0) 0 0xFF 0,
  ent 0x6040 0x6047 0x03 0x03 0x4 .ro .live (0) 0 0xFFFFFFFFFFFFFFFF 1,
  ent 0x6040 0x6047 0x04 0x04 0x4 .ro .live (0) 0 0xFFFFFFFFFFFFFFFF 1,
  ent 0x6040 0x6047 0x05 0x05 0x4 .ro .live (0) 0 0xFFFFFFFFFFFFFFFF 1,
  ent 0x6040 0x6047 0x06 0x06 0x4 .ro .live (0) 0 0xFFFFFFFFFFFFFFFF 9,
  ent 0x6040 0x6047 0x07 0x07 0x4 .ro .live (0) 0 0xFFFFFFFFFFFFFFFF 9,
  ent 0x6040 0x6047 0x08 0x0B 0x4 .ro .live (0) 0 0xFFFFFFFFFFFFFFFF 6,
  ent 0x6100 0x61FF 0x01 0x01 0xC .rw .idle (0) 0 0x0 0,
  ent 0x6100 0x61FF 0x02 0x02 0x3 .ro .live (0) 0 0xFFFFFFFF 0,
  ent 0x6100 0x61FF 0x03 0x03 0x2 .ro .live (0) 0 0xFFFF 0,
  ent 0x6100 0x61FF 0x04 0x04 0x2 .ro .live (65535) 0 0xFFFF 0]

/-- Entries of R416. -/
def rowsPower1 : List EntryRow := [
  ent 0x2000 0x2000 0x01 0x01 0x1 .rw .boundary (1) 0 0x2 0,
  ent 0x2000 0x2000 0x02 0x02 0x1 .ro .live (1) 0 0xFF 0,
  ent 0x2000 0x2000 0x03 0x03 0x2 .rw .boundary (1150) 500 0x47E 12,
  ent 0x2000 0x2000 0x04 0x04 0x6 .ro .live (0x446B0000) 0 0xFFFFFFFF 11,
  ent 0x2000 0x2000 0x05 0x05 0x6 .ro .live (0x446B0000) 0 0xFFFFFFFF 11,
  ent 0x2010 0x2010 0x01 0x01 0x6 .ro .live (0x0) 0 0xFFFFFFFF 12,
  ent 0x2010 0x2010 0x02 0x02 0x6 .ro .live (0x0) 0 0xFFFFFFFF 12,
  ent 0x2010 0x2010 0x03 0x03 0x3 .ro .live (0) 0 0xFFFFFFFF 14,
  ent 0x2010 0x2010 0x04 0x04 0x6 .ro .live (0x0) 0 0xFFFFFFFF 12,
  ent 0x2010 0x2010 0x05 0x05 0x6 .ro .live (0x0) 0 0xFFFFFFFF 12,
  ent 0x2010 0x2010 0x06 0x06 0x7 .ro .live (0) 0 0xFF 0,
  ent 0x2010 0x2010 0x07 0x07 0x4 .ro .live (0) 0 0xFFFFFFFFFFFFFFFF 6,
  ent 0x2010 0x2010 0x08 0x08 0x4 .ro .live (0) 0 0xFFFFFFFFFFFFFFFF 6,
  ent 0x2010 0x2010 0x09 0x09 0x3 .ro .live (0) 0 0xFFFFFFFF 1,
  ent 0x2011 0x2011 0x01 0x10 0x1 .ro .live (15) 0 0xFF 0,
  ent 0x2030 0x2030 0x01 0x02 0x6 .ro .live (0x0) 0 0xFFFFFFFF 13,
  ent 0x2031 0x2031 0x01 0x12 0x6 .ro .live (0x0) 0 0xFFFFFFFF 13,
  ent 0x2032 0x2032 0x01 0x0C 0x6 .ro .live (0x0) 0 0xFFFFFFFF 13,
  ent 0x2033 0x2033 0x01 0x0C 0x6 .ro .live (0x0) 0 0xFFFFFFFF 13,
  ent 0x2034 0x2034 0x01 0x01 0x6 .ro .live (0x0) 0 0xFFFFFFFF 13,
  ent 0x2034 0x2034 0x02 0x02 0x6 .ro .live (0x0) 0 0xFFFFFFFF 13,
  ent 0x2034 0x2034 0x03 0x03 0x6 .ro .live (0x0) 0 0xFFFFFFFF 13,
  ent 0x2100 0x2100 0x01 0x01 0x4 .ro .live (0) 0 0xFFFFFFFFFFFFFFFF 10,
  ent 0x2100 0x2100 0x02 0x02 0x4 .ro .live (0) 0 0xFFFFFFFFFFFFFFFF 10,
  ent 0x2100 0x2100 0x03 0x03 0x4 .ro .live (0) 0 0xFFFFFFFFFFFFFFFF 1,
  ent 0x2100 0x2100 0x04 0x04 0x6 .ro .live (0x0) 0 0xFFFFFFFF 0,
  ent 0x2100 0x2100 0x05 0x05 0x1 .wo .live (0) 1 0x1 0,
  ent 0x2100 0x2100 0x06 0x06 0x1 .rw .boundary (255) 0 0xFF 0,
  ent 0x2100 0x2100 0x07 0x07 0x3 .rw .boundary (0) 0 0xFFFFFFFF 1,
  ent 0x2100 0x2100 0x08 0x0C 0x4 .ro .live (0) 0 0xFFFFFFFFFFFFFFFF 10]

/-- Entries of R416. -/
def rowsPower2 : List EntryRow := [
  ent 0x2110 0x2110 0x01 0x01 0x4 .ro .live (0) 0 0xFFFFFFFFFFFFFFFF 0,
  ent 0x2110 0x2110 0x02 0x02 0x6 .ro .live (0x0) 0 0xFFFFFFFF 11,
  ent 0x2110 0x2110 0x03 0x03 0x3 .ro .live (0) 0 0xFFFFFFFF 1,
  ent 0x2110 0x2110 0x04 0x04 0x6 .ro .live (0x0) 0 0xFFFFFFFF 0]

/-- Entries of R437. -/
def rowsSec1 : List EntryRow := [
  ent 0x8000 0x8000 0x01 0x01 0x1 .ro .live (0) 0 0xFF 0,
  ent 0x8000 0x8000 0x02 0x02 0x1 .ro .live (255) 0 0xFF 0,
  ent 0x8000 0x8000 0x03 0x03 0x1 .rw .live (0) 0 0x1 0,
  ent 0x8000 0x8000 0x04 0x04 0x1 .ro .live (0) 0 0xFF 0,
  ent 0x8000 0x8000 0x05 0x05 0x1 .ro .live (0) 0 0xFF 0,
  ent 0x8000 0x8000 0x06 0x06 0x2 .ro .live (0) 0 0xFFFF 0,
  ent 0x8000 0x8000 0x07 0x0A 0x4 .ro .live (0) 0 0xFFFFFFFFFFFFFFFF 0,
  ent 0x8000 0x8000 0x0B 0x0B 0x7 .ro .live (0) 0 0xFF 0,
  ent 0x8010 0x8010 0x01 0x01 0x2 .ro .live (0) 0 0xFFFF 0,
  ent 0x8010 0x8010 0x02 0x02 0x1 .ro .live (64) 0 0xFF 1,
  ent 0x8010 0x8010 0x03 0x03 0x1 .ro .live (1) 0 0xFF 0,
  ent 0x8020 0x8020 0x01 0x01 0x3 .ro .live (0) 0 0xFFFFFFFF 0,
  ent 0x8020 0x8020 0x02 0x02 0x3 .ro .live (0) 0 0xFFFFFFFF 1,
  ent 0x8020 0x8020 0x03 0x03 0x2 .ro .live (0) 0 0xFFFF 1,
  ent 0x8020 0x8020 0x04 0x04 0xC .wo .live (0) 0 0x0 0,
  ent 0x8020 0x8020 0x05 0x05 0x1 .wo .live (0) 1 0x2 0,
  ent 0x8020 0x8020 0x06 0x06 0x4 .rw .live (0) 0 0xFFFFFFFFFFFFFFFF 0,
  ent 0x8020 0x8020 0x07 0x07 0xC .ro .live (0) 0 0x0 0,
  ent 0x8020 0x8020 0x08 0x08 0x1 .ro .live (0) 0 0xFF 0,
  ent 0x8020 0x8020 0x09 0x09 0xC .const .live (0) 0 0x0 0,
  ent 0x8030 0x8030 0x01 0x01 0x1 .ro .live (0) 0 0xFF 1,
  ent 0x8030 0x8030 0x02 0x02 0x3 .ro .live (0) 0 0xFFFFFFFF 0,
  ent 0x8030 0x8030 0x03 0x06 0x4 .ro .live (0) 0 0xFFFFFFFFFFFFFFFF 0,
  ent 0x8030 0x8030 0x07 0x07 0xC .wo .live (0) 0 0x0 0,
  ent 0x8030 0x8030 0x08 0x08 0x1 .wo .live (0) 1 0x1 0,
  ent 0x8031 0x8031 0x01 0x08 0xA .ro .live (0) 0 0xFFFFFFFFFFFFFFFF 0,
  ent 0x8040 0x8040 0x01 0x01 0xC .wo .live (0) 0 0x0 0,
  ent 0x8040 0x8040 0x02 0x02 0x1 .wo .live (0) 1 0x1 0,
  ent 0x8040 0x8040 0x03 0x03 0x3 .ro .live (0) 0 0xFFFFFFFF 1,
  ent 0x8040 0x8040 0x04 0x04 0x3 .ro .live (0) 0 0xFFFFFFFF 1]

/-- Entries of R437. -/
def rowsSec2 : List EntryRow := [
  ent 0x8050 0x8050 0x01 0x01 0x4 .rw .live (0) 0 0xFFFFFFFFFFFFFFFF 0,
  ent 0x8050 0x8050 0x02 0x02 0x1 .wo .live (0) 1 0x2 0,
  ent 0x8050 0x8050 0x03 0x03 0x1 .ro .live (0) 0 0xFF 0,
  ent 0x8050 0x8050 0x04 0x04 0x1 .ro .live (0) 0 0xFF 0,
  ent 0x8050 0x8050 0x05 0x05 0x3 .rw .live (0) 0 0xFFFFFFFF 0,
  ent 0x8050 0x8050 0x06 0x06 0xC .wo .live (0) 0 0x0 0]

/-- Every entry row of the dictionary. -/
def entryRows : List EntryRow :=
  rowsPan ++ rowsScale ++ rowsRake1 ++ rowsRake2 ++ rowsRake3 ++ rowsExc ++ rowsProg ++ rowsTrain1 ++ rowsTrain2 ++ rowsMem1 ++ rowsMem2 ++ rowsArb ++ rowsResil1 ++ rowsResil2 ++ rowsFault1 ++ rowsFault2 ++ rowsDict1 ++ rowsDict2 ++ rowsLink ++ rowsPower1 ++ rowsPower2 ++ rowsSec1 ++ rowsSec2

/-! ## Names

An entry is named by `256 × index + subindex`; a family takes its instance as argument. -/

namespace Ent

/-- pan.start_mode -/
def panStartMode : Nat := 0x240001
/-- pan.tide_cycles -/
def panTideCycles : Nat := 0x240002
/-- pan.polwin_fill -/
def panPolwinFill : Nat := 0x240003
/-- pan.bubble_cycles of instance `i`, number `j` -/
def panBubbleCycles (i j : Nat) : Nat := 0x350001 + 256 * i + j
/-- pan.load_stall_cycles of instance `i`, number `j` -/
def panLoadStallCycles (i j : Nat) : Nat := 0x350005 + 256 * i + j
/-- pan.dummy_cycles of instance `i`, number `j` -/
def panDummyCycles (i j : Nat) : Nat := 0x350009 + 256 * i + j
/-- sluice.busy_cycles of instance `i` -/
def sluiceBusyCycles (i : Nat) : Nat := 0x35000D + 256 * i
/-- sluice.idle_cycles of instance `i` -/
def sluiceIdleCycles (i : Nat) : Nat := 0x35000E + 256 * i
/-- pan.tile_replays of instance `i` -/
def panTileReplays (i : Nat) : Nat := 0x35000F + 256 * i
/-- pan.remap of instance `i`, number `j` -/
def panRemap (i j : Nat) : Nat := 0x740001 + 256 * i + j
/-- scale.margin -/
def scaleMargin : Nat := 0x300001
/-- scale.history_depth -/
def scaleHistoryDepth : Nat := 0x300002
/-- scale.retry_limit -/
def scaleRetryLimit : Nat := 0x300003
/-- scale.table_base -/
def scaleTableBase : Nat := 0x300004
/-- scale.table_records -/
def scaleTableRecords : Nat := 0x300005
/-- scale.present_records -/
def scalePresentRecords : Nat := 0x300006
/-- scale.reset_history -/
def scaleResetHistory : Nat := 0x300007
/-- loss.scale_exp -/
def lossScaleExp : Nat := 0x301001
/-- loss.initial_exp -/
def lossInitialExp : Nat := 0x301002
/-- loss.growth_interval -/
def lossGrowthInterval : Nat := 0x301003
/-- loss.max_exp -/
def lossMaxExp : Nat := 0x301004
/-- loss.clean_steps -/
def lossCleanSteps : Nat := 0x301005
/-- scale.fwd_recomputes -/
def scaleFwdRecomputes : Nat := 0x302001
/-- scale.fwd_exhausted -/
def scaleFwdExhausted : Nat := 0x302002
/-- scale.bwd_overflows -/
def scaleBwdOverflows : Nat := 0x302003
/-- scale.stream_tag_faults -/
def scaleStreamTagFaults : Nat := 0x302004
/-- scale.update_saturations -/
def scaleUpdateSaturations : Nat := 0x302005
/-- scale.accum_overflows -/
def scaleAccumOverflows : Nat := 0x302006
/-- scale.integrity_faults -/
def scaleIntegrityFaults : Nat := 0x302007
/-- scale.inspect_index -/
def scaleInspectIndex : Nat := 0x303001
/-- scale.inspect_t -/
def scaleInspectT : Nat := 0x303002
/-- scale.inspect_count -/
def scaleInspectCount : Nat := 0x303003
/-- scale.inspect_hmax -/
def scaleInspectHmax : Nat := 0x303004
/-- scale.inspect_flags -/
def scaleInspectFlags : Nat := 0x303005
/-- scale.inspect_attempt -/
def scaleInspectAttempt : Nat := 0x303006
/-- win.step of instance `i` -/
def winStep (i : Nat) : Nat := 0xA00001 + 256 * i
/-- win.status of instance `i` -/
def winStatus (i : Nat) : Nat := 0xA00002 + 256 * i
/-- win.rung of instance `i` -/
def winRung (i : Nat) : Nat := 0xA00003 + 256 * i
/-- win.next_rung of instance `i` -/
def winNextRung (i : Nat) : Nat := 0xA00004 + 256 * i
/-- win.floor of instance `i` -/
def winFloor (i : Nat) : Nat := 0xA00005 + 256 * i
/-- win.ladder of instance `i` -/
def winLadder (i : Nat) : Nat := 0xA00006 + 256 * i
/-- win.compiled_floor of instance `i` -/
def winCompiledFloor (i : Nat) : Nat := 0xA00007 + 256 * i
/-- win.reason of instance `i` -/
def winReason (i : Nat) : Nat := 0xA00008 + 256 * i
/-- win.streak of instance `i` -/
def winStreak (i : Nat) : Nat := 0xA00009 + 256 * i
/-- win.hold of instance `i` -/
def winHold (i : Nat) : Nat := 0xA0000A + 256 * i
/-- win.retreats of instance `i` -/
def winRetreats (i : Nat) : Nat := 0xA0000B + 256 * i
/-- win.silent_steps of instance `i` -/
def winSilentSteps (i : Nat) : Nat := 0xA0000C + 256 * i
/-- win.flags of instance `i` -/
def winFlags (i : Nat) : Nat := 0xA0000D + 256 * i
/-- win.elements of instance `i` -/
def winElements (i : Nat) : Nat := 0xA00010 + 256 * i
/-- win.saturations of instance `i` -/
def winSaturations (i : Nat) : Nat := 0xA00011 + 256 * i
/-- win.nonzero_pre of instance `i` -/
def winNonzeroPre (i : Nat) : Nat := 0xA00012 + 256 * i
/-- win.flushes of instance `i` -/
def winFlushes (i : Nat) : Nat := 0xA00013 + 256 * i
/-- win.zero_blocks of instance `i` -/
def winZeroBlocks (i : Nat) : Nat := 0xA00014 + 256 * i
/-- win.invalid of instance `i` -/
def winInvalid (i : Nat) : Nat := 0xA00015 + 256 * i
/-- win.fwd_recomputes of instance `i` -/
def winFwdRecomputes (i : Nat) : Nat := 0xA00016 + 256 * i
/-- win.accum_overflows of instance `i` -/
def winAccumOverflows (i : Nat) : Nat := 0xA00017 + 256 * i
/-- win.grad_elements of instance `i` -/
def winGradElements (i : Nat) : Nat := 0xA00018 + 256 * i
/-- win.grad_nonzero of instance `i` -/
def winGradNonzero (i : Nat) : Nat := 0xA00019 + 256 * i
/-- win.amax_fwd of instance `i` -/
def winAmaxFwd (i : Nat) : Nat := 0xA0001A + 256 * i
/-- win.amax_bwd of instance `i` -/
def winAmaxBwd (i : Nat) : Nat := 0xA0001B + 256 * i
/-- win.update_ratio of instance `i` -/
def winUpdateRatio (i : Nat) : Nat := 0xA0001C + 256 * i
/-- win.energy_j of instance `i` -/
def winEnergyJ (i : Nat) : Nat := 0xA0001D + 256 * i
/-- win.span_fwd of instance `i` -/
def winSpanFwd (i : Nat) : Nat := 0xA0001E + 256 * i
/-- win.span_bwd of instance `i` -/
def winSpanBwd (i : Nat) : Nat := 0xA0001F + 256 * i
/-- win.hist_fwd of instance `i`, number `j` -/
def winHistFwd (i j : Nat) : Nat := 0xA00020 + 256 * i + j
/-- win.hist_bwd of instance `i`, number `j` -/
def winHistBwd (i j : Nat) : Nat := 0xA00040 + 256 * i + j
/-- win.steps_at_rung of instance `i`, number `j` -/
def winStepsAtRung (i j : Nat) : Nat := 0xA00060 + 256 * i + j
/-- win.invalid_total of instance `i` -/
def winInvalidTotal (i : Nat) : Nat := 0xA00065 + 256 * i
/-- rake.mode -/
def rakeMode : Nat := 0x310001
/-- rake.narrow_after -/
def rakeNarrowAfter : Nat := 0x310002
/-- rake.hold_base -/
def rakeHoldBase : Nat := 0x310003
/-- rake.hold_max -/
def rakeHoldMax : Nat := 0x310004
/-- rake.last_us -/
def rakeLastUs : Nat := 0x310005
/-- rake.narrowings -/
def rakeNarrowings : Nat := 0x310006
/-- rake.widenings -/
def rakeWidenings : Nat := 0x310007
/-- rake.reset -/
def rakeReset : Nat := 0x310008
/-- rake.sat_hi -/
def rakeSatHi : Nat := 0x311001
/-- rake.sat_lo -/
def rakeSatLo : Nat := 0x311002
/-- rake.flush_tile -/
def rakeFlushTile : Nat := 0x311003
/-- rake.flush_hi -/
def rakeFlushHi : Nat := 0x311004
/-- rake.flush_lo -/
def rakeFlushLo : Nat := 0x311005
/-- rake.ratio_hi -/
def rakeRatioHi : Nat := 0x311006
/-- rake.span_tail -/
def rakeSpanTail : Nat := 0x311007
/-- rake.span_e4m3 -/
def rakeSpanE4m3 : Nat := 0x311008
/-- rake.span_e5m2 -/
def rakeSpanE5m2 : Nat := 0x311009
/-- rake.rock_amax -/
def rakeRockAmax : Nat := 0x31100A
/-- rake.silent_window -/
def rakeSilentWindow : Nat := 0x312001
/-- rake.silent_fraction -/
def rakeSilentFraction : Nat := 0x312002
/-- rake.silent_severe -/
def rakeSilentSevere : Nat := 0x312003
/-- rake.silent_layers -/
def rakeSilentLayers : Nat := 0x312004
/-- sal.invalid_total -/
def salInvalidTotal : Nat := 0x313001
/-- sal.invalid_notices -/
def salInvalidNotices : Nat := 0x313002
/-- sal.layers -/
def salLayers : Nat := 0x314001
/-- sal.freeze -/
def salFreeze : Nat := 0x314002
/-- sal.ring_base -/
def salRingBase : Nat := 0x314003
/-- sal.ring_steps -/
def salRingSteps : Nat := 0x314004
/-- sal.ring_head -/
def salRingHead : Nat := 0x314005
/-- sal.update_base -/
def salUpdateBase : Nat := 0x314006
/-- sal.rung_energy_mj, number `j` -/
def salRungEnergyMj (j : Nat) : Nat := 0x314011 + j
/-- sal.unlayered_energy_mj -/
def salUnlayeredEnergyMj : Nat := 0x314016
/-- ex.layer of instance `i` -/
def exLayer (i : Nat) : Nat := 0x320001 + 256 * i
/-- ex.source of instance `i` -/
def exSource (i : Nat) : Nat := 0x320002 + 256 * i
/-- ex.kind of instance `i` -/
def exKind (i : Nat) : Nat := 0x320003 + 256 * i
/-- ex.pan of instance `i` -/
def exPan (i : Nat) : Nat := 0x320004 + 256 * i
/-- ex.slot of instance `i` -/
def exSlot (i : Nat) : Nat := 0x320005 + 256 * i
/-- ex.column of instance `i` -/
def exColumn (i : Nat) : Nat := 0x320006 + 256 * i
/-- ex.group of instance `i` -/
def exGroup (i : Nat) : Nat := 0x320007 + 256 * i
/-- ex.tile_m of instance `i` -/
def exTileM (i : Nat) : Nat := 0x320008 + 256 * i
/-- ex.tile_n of instance `i` -/
def exTileN (i : Nat) : Nat := 0x320009 + 256 * i
/-- ex.tile_k of instance `i` -/
def exTileK (i : Nat) : Nat := 0x32000A + 256 * i
/-- ex.sequence of instance `i` -/
def exSequence (i : Nat) : Nat := 0x32000B + 256 * i
/-- ex.count of instance `i` -/
def exCount (i : Nat) : Nat := 0x32000C + 256 * i
/-- nvp.selftest -/
def nvpSelftest : Nat := 0x329001
/-- nvp.state -/
def nvpState : Nat := 0x329002
/-- nvp.failures -/
def nvpFailures : Nat := 0x329003
/-- nvp.first_failure -/
def nvpFirstFailure : Nat := 0x329004
/-- nvp.version -/
def nvpVersion : Nat := 0x329005
/-- prog.image_address -/
def progImageAddress : Nat := 0x330001
/-- prog.load -/
def progLoad : Nat := 0x330002
/-- prog.state -/
def progState : Nat := 0x330003
/-- prog.hash, number `j` -/
def progHash (j : Nat) : Nat := 0x330004 + j
/-- prog.error_offset -/
def progErrorOffset : Nat := 0x330008
/-- prog.layers -/
def progLayers : Nat := 0x330009
/-- prog.descriptors -/
def progDescriptors : Nat := 0x33000A
/-- desc.in_flight -/
def descInFlight : Nat := 0x331001
/-- desc.in_flight_peak -/
def descInFlightPeak : Nat := 0x331002
/-- desc.slots -/
def descSlots : Nat := 0x331003
/-- desc.full_cycles -/
def descFullCycles : Nat := 0x331004
/-- desc.empty -/
def descEmpty : Nat := 0x331005
/-- desc.rejected -/
def descRejected : Nat := 0x331006
/-- desc.preemptions -/
def descPreemptions : Nat := 0x331007
/-- desc.preempt_wait_peak_ns -/
def descPreemptWaitPeakNs : Nat := 0x331008
/-- shape.params -/
def shapeParams : Nat := 0x332001
/-- shape.block_base -/
def shapeBlockBase : Nat := 0x332002
/-- mcast.deliveries -/
def mcastDeliveries : Nat := 0x333001
/-- mcast.wait_cycles -/
def mcastWaitCycles : Nat := 0x333002
/-- train.step_start -/
def trainStepStart : Nat := 0x340001
/-- train.step_index -/
def trainStepIndex : Nat := 0x340002
/-- train.phase -/
def trainPhase : Nat := 0x340003
/-- train.last_outcome -/
def trainLastOutcome : Nat := 0x340004
/-- train.committed -/
def trainCommitted : Nat := 0x340005
/-- train.skipped -/
def trainSkipped : Nat := 0x340006
/-- train.halted -/
def trainHalted : Nat := 0x340007
/-- train.run_group -/
def trainRunGroup : Nat := 0x340008
/-- train.batch_param -/
def trainBatchParam : Nat := 0x340009
/-- train.cursor_samples -/
def trainCursorSamples : Nat := 0x34000A
/-- train.cursor_stamp -/
def trainCursorStamp : Nat := 0x34000B
/-- rng.key_lo -/
def rngKeyLo : Nat := 0x341001
/-- rng.key_hi -/
def rngKeyHi : Nat := 0x341002
/-- rng.step -/
def rngStep : Nat := 0x341003
/-- rng.realign -/
def rngRealign : Nat := 0x341004
/-- rng.resume_check -/
def rngResumeCheck : Nat := 0x341005
/-- commit.check_timeout_ms -/
def commitCheckTimeoutMs : Nat := 0x342001
/-- commit.finite_check_us -/
def commitFiniteCheckUs : Nat := 0x342002
/-- commit.abandons -/
def commitAbandons : Nat := 0x342003
/-- commit.notices_sent -/
def commitNoticesSent : Nat := 0x342004
/-- commit.hollow_collectives -/
def commitHollowCollectives : Nat := 0x342005
/-- commit.record_base -/
def commitRecordBase : Nat := 0x342006
/-- commit.frozen_mask -/
def commitFrozenMask : Nat := 0x342007
/-- commit.frozen_pending -/
def commitFrozenPending : Nat := 0x342008
/-- commit.update_chunks_resumed -/
def commitUpdateChunksResumed : Nat := 0x342009
/-- group.step_size of instance `i` -/
def groupStepSize (i : Nat) : Nat := 0x348001 + 256 * i
/-- group.decay of instance `i` -/
def groupDecay (i : Nat) : Nat := 0x348002 + 256 * i
/-- group.hyper of instance `i`, number `j` -/
def groupHyper (i j : Nat) : Nat := 0x348003 + 256 * i + j
/-- group.storage of instance `i` -/
def groupStorage (i : Nat) : Nat := 0x348007 + 256 * i
/-- group.frozen of instance `i` -/
def groupFrozen (i : Nat) : Nat := 0x348008 + 256 * i
/-- group.updates of instance `i` -/
def groupUpdates (i : Nat) : Nat := 0x348009 + 256 * i
/-- group.noop_updates of instance `i` -/
def groupNoopUpdates (i : Nat) : Nat := 0x34800A + 256 * i
/-- group.violations of instance `i` -/
def groupViolations (i : Nat) : Nat := 0x34800B + 256 * i
/-- group.storage_hi of instance `i` -/
def groupStorageHi (i : Nat) : Nat := 0x34800C + 256 * i
/-- mem.frames_hbm -/
def memFramesHbm : Nat := 0x500001
/-- mem.frames_cxl -/
def memFramesCxl : Nat := 0x500002
/-- mem.free_hbm -/
def memFreeHbm : Nat := 0x500003
/-- mem.free_cxl -/
def memFreeCxl : Nat := 0x500004
/-- mem.pages_mapped -/
def memPagesMapped : Nat := 0x500005
/-- mem.pc_ce_limit -/
def memPcCeLimit : Nat := 0x500006
/-- mem.pc_ce_window_s -/
def memPcCeWindowS : Nat := 0x500007
/-- mem.cxl_ce_limit -/
def memCxlCeLimit : Nat := 0x500008
/-- mem.inspect_page -/
def memInspectPage : Nat := 0x500009
/-- mem.inspect_value -/
def memInspectValue : Nat := 0x50000A
/-- mem.req_base -/
def memReqBase : Nat := 0x501001
/-- mem.req_count -/
def memReqCount : Nat := 0x501002
/-- mem.req_go -/
def memReqGo : Nat := 0x501003
/-- mem.req_state -/
def memReqState : Nat := 0x501004
/-- mem.req_done -/
def memReqDone : Nat := 0x501005
/-- mem.req_error -/
def memReqError : Nat := 0x501006
/-- mem.migrations -/
def memMigrations : Nat := 0x502001
/-- mem.migrate_wait_us -/
def memMigrateWaitUs : Nat := 0x502002
/-- tc.hits, number `j` -/
def tcHits (j : Nat) : Nat := 0x503001 + j
/-- tc.misses, number `j` -/
def tcMisses (j : Nat) : Nat := 0x503003 + j
/-- mem.txn_peak, number `j` -/
def memTxnPeak (j : Nat) : Nat := 0x504001 + j
/-- mem.txn_full_cycles, number `j` -/
def memTxnFullCycles (j : Nat) : Nat := 0x504003 + j
/-- mem.violations -/
def memViolations : Nat := 0x505001
/-- mem.last_violation -/
def memLastViolation : Nat := 0x505002
/-- hbm.spare_pc of instance `i` -/
def hbmSparePc (i : Nat) : Nat := 0x520001 + 256 * i
/-- hbm.ce_total of instance `i` -/
def hbmCeTotal (i : Nat) : Nat := 0x520002 + 256 * i
/-- hbm.ue_total of instance `i` -/
def hbmUeTotal (i : Nat) : Nat := 0x520003 + 256 * i
/-- hbm.remap_state of instance `i` -/
def hbmRemapState (i : Nat) : Nat := 0x520004 + 256 * i
/-- hbm.scrub_passes of instance `i` -/
def hbmScrubPasses (i : Nat) : Nat := 0x520005 + 256 * i
/-- cxl.role of instance `i` -/
def cxlRole (i : Nat) : Nat := 0x530001 + 256 * i
/-- cxl.ce_total of instance `i` -/
def cxlCeTotal (i : Nat) : Nat := 0x530002 + 256 * i
/-- cxl.ue_total of instance `i` -/
def cxlUeTotal (i : Nat) : Nat := 0x530003 + 256 * i
/-- cxl.free_frames of instance `i` -/
def cxlFreeFrames (i : Nat) : Nat := 0x530004 + 256 * i
/-- cxl.replace_state of instance `i` -/
def cxlReplaceState (i : Nat) : Nat := 0x530005 + 256 * i
/-- arb.hold_pan -/
def arbHoldPan : Nat := 0x580001
/-- arb.hold_core -/
def arbHoldCore : Nat := 0x580002
/-- arb.hold_cluster -/
def arbHoldCluster : Nat := 0x580003
/-- arb.hold_die -/
def arbHoldDie : Nat := 0x580004
/-- arb.sel_level -/
def arbSelLevel : Nat := 0x581001
/-- arb.sel_instance -/
def arbSelInstance : Nat := 0x581002
/-- arb.sel_rank -/
def arbSelRank : Nat := 0x581003
/-- arb.sel_wait_cycles -/
def arbSelWaitCycles : Nat := 0x581004
/-- arb.sel_max_wait -/
def arbSelMaxWait : Nat := 0x581005
/-- arb.sel_grants -/
def arbSelGrants : Nat := 0x581006
/-- arb.sel_cutoffs -/
def arbSelCutoffs : Nat := 0x581007
/-- arb.level_max_wait, number `j` -/
def arbLevelMaxWait (j : Nat) : Nat := 0x582001 + j
/-- arb.cutoffs_total -/
def arbCutoffsTotal : Nat := 0x582005
/-- arb.clear_max -/
def arbClearMax : Nat := 0x582006
/-- resil.core_swaps -/
def resilCoreSwaps : Nat := 0x700001
/-- resil.cluster_swaps -/
def resilClusterSwaps : Nat := 0x700002
/-- resil.last_repair_ms -/
def resilLastRepairMs : Nat := 0x700003
/-- replay.depth -/
def replayDepth : Nat := 0x701001
/-- replay.newest -/
def replayNewest : Nat := 0x701002
/-- replay.export_step -/
def replayExportStep : Nat := 0x701003
/-- replay.export_address -/
def replayExportAddress : Nat := 0x701004
/-- replay.export_go -/
def replayExportGo : Nat := 0x701005
/-- replay.request -/
def replayRequest : Nat := 0x701006
/-- replay.source -/
def replaySource : Nat := 0x701007
/-- replay.state -/
def replayState : Nat := 0x701008
/-- image.export_address -/
def imageExportAddress : Nat := 0x702001
/-- image.export_go -/
def imageExportGo : Nat := 0x702002
/-- image.import_address -/
def imageImportAddress : Nat := 0x702003
/-- image.import_go -/
def imageImportGo : Nat := 0x702004
/-- image.bytes -/
def imageBytes : Nat := 0x702005
/-- resil.rake_adopt -/
def resilRakeAdopt : Nat := 0x703001
/-- crust.mode -/
def crustMode : Nat := 0x710001
/-- crust.group -/
def crustGroup : Nat := 0x710002
/-- crust.role -/
def crustRole : Nat := 0x710003
/-- crust.rank -/
def crustRank : Nat := 0x710004
/-- crust.span_first -/
def crustSpanFirst : Nat := 0x710005
/-- crust.span_pages -/
def crustSpanPages : Nat := 0x710006
/-- crust.parity_first -/
def crustParityFirst : Nat := 0x710007
/-- crust.state -/
def crustState : Nat := 0x710008
/-- crust.fresh_step -/
def crustFreshStep : Nat := 0x710009
/-- crust.inflight -/
def crustInflight : Nat := 0x71000A
/-- crust.stall_us -/
def crustStallUs : Nat := 0x71000B
/-- crust.delta_bytes -/
def crustDeltaBytes : Nat := 0x71000C
/-- crust.heartbeat_us -/
def crustHeartbeatUs : Nat := 0x71000D
/-- crust.loss_after -/
def crustLossAfter : Nat := 0x71000E
/-- crust.rebuild_bytes -/
def crustRebuildBytes : Nat := 0x71000F
/-- crust.spare_node, number `j` -/
def crustSpareNode (j : Nat) : Nat := 0x710010 + j
/-- crust.stale_steps -/
def crustStaleSteps : Nat := 0x710014
/-- crust.resync -/
def crustResync : Nat := 0x710015
/-- stock.interval -/
def stockInterval : Nat := 0x720001
/-- stock.slots -/
def stockSlots : Nat := 0x720002
/-- stock.newest_step -/
def stockNewestStep : Nat := 0x720003
/-- stock.state -/
def stockState : Nat := 0x720004
/-- stock.wait_us -/
def stockWaitUs : Nat := 0x720005
/-- stock.restore_step -/
def stockRestoreStep : Nat := 0x720006
/-- stock.snapshot_bytes -/
def stockSnapshotBytes : Nat := 0x720007
/-- stock.now -/
def stockNow : Nat := 0x720008
/-- stock.skipped -/
def stockSkipped : Nat := 0x720009
/-- ev.records -/
def evRecords : Nat := 0x400001
/-- ev.capacity -/
def evCapacity : Nat := 0x400002
/-- ev.newest_seq -/
def evNewestSeq : Nat := 0x400003
/-- ev.oldest_seq -/
def evOldestSeq : Nat := 0x400004
/-- ev.dropped, number `j` -/
def evDropped (j : Nat) : Nat := 0x400005 + j
/-- ev.boot -/
def evBoot : Nat := 0x400009
/-- ev.mirror_state -/
def evMirrorState : Nat := 0x40000A
/-- ev.mirror_lag -/
def evMirrorLag : Nat := 0x40000B
/-- ev.crc_dropped -/
def evCrcDropped : Nat := 0x40000C
/-- ev.read_seq -/
def evReadSeq : Nat := 0x401001
/-- ev.read_word, number `j` -/
def evReadWord (j : Nat) : Nat := 0x401002 + j
/-- ev.export_first -/
def evExportFirst : Nat := 0x40100A
/-- ev.export_count -/
def evExportCount : Nat := 0x40100B
/-- ev.export_address -/
def evExportAddress : Nat := 0x40100C
/-- ev.export_go -/
def evExportGo : Nat := 0x40100D
/-- ev.clear_token -/
def evClearToken : Nat := 0x402001
/-- ev.clear_go -/
def evClearGo : Nat := 0x402002
/-- ev.clears -/
def evClears : Nat := 0x402003
/-- ev.protected -/
def evProtected : Nat := 0x402004
/-- fault.ack -/
def faultAck : Nat := 0x403001
/-- fault.unacked -/
def faultUnacked : Nat := 0x403002
/-- fault.fatal -/
def faultFatal : Nat := 0x403003
/-- fault.module_word -/
def faultModuleWord : Nat := 0x403004
/-- fault.alive -/
def faultAlive : Nat := 0x403005
/-- fault.violations -/
def faultViolations : Nat := 0x403006
/-- fault.sel_level -/
def faultSelLevel : Nat := 0x404001
/-- fault.sel_instance -/
def faultSelInstance : Nat := 0x404002
/-- fault.sel_word0 -/
def faultSelWord0 : Nat := 0x404003
/-- fault.sel_word1 -/
def faultSelWord1 : Nat := 0x404004
/-- fault.sel_clear -/
def faultSelClear : Nat := 0x404005
/-- class.count_n of instance `i` -/
def classCountN (i : Nat) : Nat := 0x410101 + 256 * i
/-- class.window_s of instance `i` -/
def classWindowS (i : Nat) : Nat := 0x410102 + 256 * i
/-- class.ceiling of instance `i` -/
def classCeiling (i : Nat) : Nat := 0x410103 + 256 * i
/-- class.faults of instance `i` -/
def classFaults (i : Nat) : Nat := 0x410104 + 256 * i
/-- class.severe of instance `i` -/
def classSevere (i : Nat) : Nat := 0x410105 + 256 * i
/-- class.escalations of instance `i` -/
def classEscalations (i : Nat) : Nat := 0x410106 + 256 * i
/-- id.vendor -/
def idVendor : Nat := 0x100001
/-- id.product -/
def idProduct : Nat := 0x100002
/-- id.order -/
def idOrder : Nat := 0x100003
/-- id.serial -/
def idSerial : Nat := 0x100004
/-- id.board_code -/
def idBoardCode : Nat := 0x100005
/-- id.fw_major -/
def idFwMajor : Nat := 0x100006
/-- id.fw_minor -/
def idFwMinor : Nat := 0x100007
/-- id.fw_build -/
def idFwBuild : Nat := 0x100008
/-- id.key_fp_lo -/
def idKeyFpLo : Nat := 0x100009
/-- id.key_fp_hi -/
def idKeyFpHi : Nat := 0x10000A
/-- id.field_mac -/
def idFieldMac : Nat := 0x10000B
/-- id.ixique_version -/
def idIxiqueVersion : Nat := 0x10000C
/-- id.uptime_ms -/
def idUptimeMs : Nat := 0x10000D
/-- ready.summary -/
def readySummary : Nat := 0x110001
/-- ready.cores, number `j` -/
def readyCores (j : Nat) : Nat := 0x110002 + j
/-- ready.time_ms, number `j` -/
def readyTimeMs (j : Nat) : Nat := 0x110101 + j
/-- field.node_id -/
def fieldNodeId : Nat := 0x120001
/-- field.chain -/
def fieldChain : Nat := 0x120002
/-- field.port -/
def fieldPort : Nat := 0x120003
/-- field.to_timer -/
def fieldToTimer : Nat := 0x120004
/-- field.max_burst -/
def fieldMaxBurst : Nat := 0x120005
/-- field.rx_messages -/
def fieldRxMessages : Nat := 0x120006
/-- field.tx_messages -/
def fieldTxMessages : Nat := 0x120007
/-- field.dropped -/
def fieldDropped : Nat := 0x120008
/-- field.duplicates -/
def fieldDuplicates : Nat := 0x120009
/-- field.notify_enable -/
def fieldNotifyEnable : Nat := 0x12000A
/-- mbx.slots -/
def mbxSlots : Nat := 0x121001
/-- mbx.messages -/
def mbxMessages : Nat := 0x121002
/-- mbx.rejected -/
def mbxRejected : Nat := 0x121003
/-- mbx.doorbell_ignored -/
def mbxDoorbellIgnored : Nat := 0x121004
/-- mbx.duplicates -/
def mbxDuplicates : Nat := 0x121005
/-- dict.journal_entries -/
def dictJournalEntries : Nat := 0x130001
/-- dict.integrity_reloads -/
def dictIntegrityReloads : Nat := 0x130002
/-- dict.open_transfers -/
def dictOpenTransfers : Nat := 0x130003
/-- dict.pending -/
def dictPending : Nat := 0x130004
/-- host.link_rate -/
def hostLinkRate : Nat := 0x600001
/-- host.link_width -/
def hostLinkWidth : Nat := 0x600002
/-- host.window_base -/
def hostWindowBase : Nat := 0x600003
/-- host.replays -/
def hostReplays : Nat := 0x600004
/-- host.retrains -/
def hostRetrains : Nat := 0x600005
/-- host.ur_writes -/
def hostUrWrites : Nat := 0x600006
/-- host.d_state -/
def hostDState : Nat := 0x600007
/-- cxl.link, number `j` -/
def cxlLink (j : Nat) : Nat := 0x601001 + j
/-- cxl.replays, number `j` -/
def cxlReplays (j : Nat) : Nat := 0x601101 + j
/-- cxl.retrains, number `j` -/
def cxlRetrains (j : Nat) : Nat := 0x601201 + j
/-- brine.node -/
def brineNode : Nat := 0x603001
/-- brine.frame_max -/
def brineFrameMax : Nat := 0x603002
/-- brine.retx_us -/
def brineRetxUs : Nat := 0x603003
/-- brine.lanes of instance `i` -/
def brineLanes (i : Nat) : Nat := 0x604001 + 256 * i
/-- brine.retired of instance `i` -/
def brineRetired (i : Nat) : Nat := 0x604002 + 256 * i
/-- brine.fec_corrected of instance `i` -/
def brineFecCorrected (i : Nat) : Nat := 0x604003 + 256 * i
/-- brine.fec_uncorrected of instance `i` -/
def brineFecUncorrected (i : Nat) : Nat := 0x604004 + 256 * i
/-- brine.resends of instance `i` -/
def brineResends (i : Nat) : Nat := 0x604005 + 256 * i
/-- brine.tx_bytes of instance `i` -/
def brineTxBytes (i : Nat) : Nat := 0x604006 + 256 * i
/-- brine.rx_bytes of instance `i` -/
def brineRxBytes (i : Nat) : Nat := 0x604007 + 256 * i
/-- brine.class_wait_us of instance `i`, number `j` -/
def brineClassWaitUs (i j : Nat) : Nat := 0x604008 + 256 * i + j
/-- cg.table of instance `i` -/
def cgTable (i : Nat) : Nat := 0x610001 + 256 * i
/-- cg.epoch of instance `i` -/
def cgEpoch (i : Nat) : Nat := 0x610002 + 256 * i
/-- cg.p of instance `i` -/
def cgP (i : Nat) : Nat := 0x610003 + 256 * i
/-- cg.rank of instance `i` -/
def cgRank (i : Nat) : Nat := 0x610004 + 256 * i
/-- power.mode -/
def powerMode : Nat := 0x200001
/-- power.mode_in_force -/
def powerModeInForce : Nat := 0x200002
/-- power.cap_w -/
def powerCapW : Nat := 0x200003
/-- power.peak_account_j -/
def powerPeakAccountJ : Nat := 0x200004
/-- power.peak_account_max_j -/
def powerPeakAccountMaxJ : Nat := 0x200005
/-- power.input_w -/
def powerInputW : Nat := 0x201001
/-- power.input_1s_w -/
def powerInput1sW : Nat := 0x201002
/-- power.input_mv -/
def powerInputMv : Nat := 0x201003
/-- power.peak_10ms_w -/
def powerPeak10msW : Nat := 0x201004
/-- power.peak_fast_w -/
def powerPeakFastW : Nat := 0x201005
/-- power.limiter -/
def powerLimiter : Nat := 0x201006
/-- power.dither_us -/
def powerDitherUs : Nat := 0x201007
/-- power.clockstop_us -/
def powerClockstopUs : Nat := 0x201008
/-- power.stepdowns -/
def powerStepdowns : Nat := 0x201009
/-- clk.level, number `j` -/
def clkLevel (j : Nat) : Nat := 0x201101 + j
/-- therm.die_max_c, number `j` -/
def thermDieMaxC (j : Nat) : Nat := 0x203001 + j
/-- therm.cluster_c, number `j` -/
def thermClusterC (j : Nat) : Nat := 0x203101 + j
/-- therm.hbm_c, number `j` -/
def thermHbmC (j : Nat) : Nat := 0x203201 + j
/-- therm.cxl_c, number `j` -/
def thermCxlC (j : Nat) : Nat := 0x203301 + j
/-- therm.vr_max_c -/
def thermVrMaxC : Nat := 0x203401
/-- therm.coolant_in_c -/
def thermCoolantInC : Nat := 0x203402
/-- therm.coolant_out_c -/
def thermCoolantOutC : Nat := 0x203403
/-- energy.input_mj -/
def energyInputMj : Nat := 0x210001
/-- energy.window_mj -/
def energyWindowMj : Nat := 0x210002
/-- energy.window_tokens -/
def energyWindowTokens : Nat := 0x210003
/-- energy.tpmwh -/
def energyTpmwh : Nat := 0x210004
/-- energy.window_reset -/
def energyWindowReset : Nat := 0x210005
/-- energy.tokens_param -/
def energyTokensParam : Nat := 0x210006
/-- energy.tokens_per_sample -/
def energyTokensPerSample : Nat := 0x210007
/-- energy.category_mj, number `j` -/
def energyCategoryMj (j : Nat) : Nat := 0x210008 + j
/-- energy.last_step -/
def energyLastStep : Nat := 0x211001
/-- energy.last_step_j -/
def energyLastStepJ : Nat := 0x211002
/-- energy.last_step_tokens -/
def energyLastStepTokens : Nat := 0x211003
/-- energy.last_step_tpmwh -/
def energyLastStepTpmwh : Nat := 0x211004
/-- sec.boot_state -/
def secBootState : Nat := 0x800001
/-- sec.bank_booted -/
def secBankBooted : Nat := 0x800002
/-- sec.boot_bank -/
def secBootBank : Nat := 0x800003
/-- sec.bank_reject_a -/
def secBankRejectA : Nat := 0x800004
/-- sec.bank_reject_b -/
def secBankRejectB : Nat := 0x800005
/-- sec.image_svn -/
def secImageSvn : Nat := 0x800006
/-- sec.image_digest, number `j` -/
def secImageDigest (j : Nat) : Nat := 0x800007 + j
/-- sec.vendor_revoked -/
def secVendorRevoked : Nat := 0x80000B
/-- sec.rollback -/
def secRollback : Nat := 0x801001
/-- sec.rollback_left -/
def secRollbackLeft : Nat := 0x801002
/-- sec.rollback_auto -/
def secRollbackAuto : Nat := 0x801003
/-- sec.id_index -/
def secIdIndex : Nat := 0x802001
/-- sec.id_remaining -/
def secIdRemaining : Nat := 0x802002
/-- sec.attest_left -/
def secAttestLeft : Nat := 0x802003
/-- sec.attest_nonce -/
def secAttestNonce : Nat := 0x802004
/-- sec.attest_go -/
def secAttestGo : Nat := 0x802005
/-- sec.attest_address -/
def secAttestAddress : Nat := 0x802006
/-- sec.attest_report -/
def secAttestReport : Nat := 0x802007
/-- sec.attest_state -/
def secAttestState : Nat := 0x802008
/-- sec.id_public -/
def secIdPublic : Nat := 0x802009
/-- sec.op_keys -/
def secOpKeys : Nat := 0x803001
/-- sec.op_generation -/
def secOpGeneration : Nat := 0x803002
/-- sec.op_digest, number `j` -/
def secOpDigest (j : Nat) : Nat := 0x803003 + j
/-- sec.enrol_key -/
def secEnrolKey : Nat := 0x803007
/-- sec.enrol_go -/
def secEnrolGo : Nat := 0x803008
/-- sec.op_slot, number `j` -/
def secOpSlot (j : Nat) : Nat := 0x803101 + j
/-- sec.token -/
def secToken : Nat := 0x804001
/-- sec.token_go -/
def secTokenGo : Nat := 0x804002
/-- sec.tokens_accepted -/
def secTokensAccepted : Nat := 0x804003
/-- sec.tokens_refused -/
def secTokensRefused : Nat := 0x804004
/-- sec.stage_address -/
def secStageAddress : Nat := 0x805001
/-- sec.stage_go -/
def secStageGo : Nat := 0x805002
/-- sec.stage_state -/
def secStageState : Nat := 0x805003
/-- sec.stage_reject -/
def secStageReject : Nat := 0x805004
/-- sec.recovery_offset -/
def secRecoveryOffset : Nat := 0x805005
/-- sec.recovery_chunk -/
def secRecoveryChunk : Nat := 0x805006

end Ent

end Sys2Proof.Machine
end

