-- ==== Sys2Proof/Machine/Kv.lean ====
section
/-! DEFINITION. Sparse tables with numeric keys: lists of pairs whose keys rise strictly, so that equal tables are equal lists. -/

namespace Sys2Proof.Kv

variable {α : Type}

/-- The value at a key, if the key is listed. -/
def find? : KV α → Nat → Option α
  | [], _ => none
  | (k, v) :: t, q => if k = q then some v else find? t q

/-- The value at a key, or the default. -/
def getD (m : KV α) (q : Nat) (d : α) : α := (find? m q).getD d

/-- Lists a value at a key, in its place. -/
def put : KV α → Nat → α → KV α
  | [], q, v => [(q, v)]
  | (k, w) :: t, q, v =>
    if q < k then (q, v) :: (k, w) :: t
    else if k = q then (q, v) :: t
    else (k, w) :: put t q v

/-- Removes a key. -/
def del (m : KV α) (q : Nat) : KV α := m.filter fun p => p.1 != q

/-- Lists a value unless it equals the default, which is what an unlisted key reads as. -/
def setD [DecidableEq α] (m : KV α) (q : Nat) (d v : α) : KV α :=
  if v = d then del m q else put m q v

/-- Keys rise strictly. -/
def rising : KV α → Bool
  | [] => true
  | [_] => true
  | (a, _) :: (b, w) :: t => decide (a < b) && rising ((b, w) :: t)

/-- The canonical form: keys rise strictly and no entry equals the default. -/
def wf [DecidableEq α] (d : α) (m : KV α) : Bool := rising m && m.all fun p => decide (p.2 ≠ d)

/-- Applies a function to the value at a key, reading the default where none is listed. -/
def modify [DecidableEq α] (m : KV α) (q : Nat) (d : α) (f : α → α) : KV α := setD m q d (f (getD m q d))

end Sys2Proof.Kv

namespace Sys2Proof

/-- Removes one occurrence-insensitive element from a list without repeats. -/
def listErase (l : List Nat) (n : Nat) : List Nat := l.filter (· != n)

/-- Adds an element to a list without repeats. -/
def listAdd (l : List Nat) (n : Nat) : List Nat := if l.contains n then l else l ++ [n]

end Sys2Proof
end

