-- ==== Sys2Proof/Machine/Num.lean ====
section
/-! DEFINITION. Number formats, exact values and the single rounding of every conversion (R26 to R45, R158), and FP32 arithmetic
on exact values (R163, R172). -/

namespace Sys2Proof.Machine

/-- An exact value, or what stands in its place: `(−1)^neg × mant × 2^exp`, an infinity or a NaN (R28: all NaNs are alike). -/
inductive Val where
  | fin (neg : Bool) (mant : Nat) (exp : Int)
  | inf (neg : Bool)
  | nan
  deriving DecidableEq, Repr

/-- The formats of R26, in the order of their codes in R191. -/
inductive Fmt where
  | e4m3
  | e5m2
  | flake4
  | bf16
  | fp16
  | fp32
  deriving DecidableEq, Repr

namespace Fmt

/-- Exponent bits (R26); for Flake-4 those of an element. -/
def eb : Fmt → Nat
  | .e4m3 => 4 | .e5m2 => 5 | .flake4 => 2 | .bf16 => 8 | .fp16 => 5 | .fp32 => 8

/-- Fraction bits (R26). -/
def mb : Fmt → Nat
  | .e4m3 => 3 | .e5m2 => 2 | .flake4 => 1 | .bf16 => 7 | .fp16 => 10 | .fp32 => 23

/-- Bias (R26). -/
def bias : Fmt → Nat
  | .e4m3 => 7 | .e5m2 => 15 | .flake4 => 1 | .bf16 => 127 | .fp16 => 15 | .fp32 => 127

/-- Code of the largest finite magnitude (R27, R30). -/
def maxCode : Fmt → Nat
  | .e4m3 => 0x7E | .e5m2 => 0x7B | .flake4 => 0x7 | .bf16 => 0x7F7F | .fp16 => 0x7BFF | .fp32 => 0x7F7FFFFF

/-- Whether the format has infinities (R26). -/
def hasInf : Fmt → Bool
  | .e4m3 => false | .flake4 => false | _ => true

/-- Code of +∞, where there is one (R27). -/
def infCode (f : Fmt) : Nat := f.maxCode + 1

/-- Canonical NaN (R28); a Flake-4 element has none of its own. -/
def nanCode : Fmt → Nat
  | .e4m3 => 0x7F | .e5m2 => 0x7E | .flake4 => 0 | .bf16 => 0x7FC0 | .fp16 => 0x7E00 | .fp32 => 0x7FC00000

/-- The sign bit's weight. -/
def signBit (f : Fmt) : Nat := 2 ^ (f.eb + f.mb)

/-- Bytes of an element in memory; a Flake-4 element takes half a byte. -/
def bytes : Fmt → Nat
  | .e4m3 => 1 | .e5m2 => 1 | .flake4 => 0 | .bf16 => 2 | .fp16 => 2 | .fp32 => 4

/-- Whether the format carries a tensor scale (R32). -/
def scaled : Fmt → Bool
  | .e4m3 => true | .e5m2 => true | .flake4 => true | _ => false

/-- The binary exponent of one unit in the last place of a subnormal. -/
def qMin (f : Fmt) : Int := 1 - f.bias - f.mb

/-- Format of a code of R191. -/
def ofCode : Nat → Option Fmt
  | 0 => some .e4m3 | 1 => some .e5m2 | 2 => some .flake4 | 3 => some .bf16 | 4 => some .fp16 | 5 => some .fp32
  | _ => none

/-- Code of a format (R191). -/
def code : Fmt → Nat
  | .e4m3 => 0 | .e5m2 => 1 | .flake4 => 2 | .bf16 => 3 | .fp16 => 4 | .fp32 => 5

end Fmt

/-- The value of a stored code before any scale (R26, R27, R30). -/
def decode (f : Fmt) (code : Nat) : Val :=
  let neg := code / f.signBit % 2 == 1
  let mag := code % f.signBit
  let e := mag / 2 ^ f.mb
  let frac := mag % 2 ^ f.mb
  if f.hasInf && f.maxCode < mag then
    if mag = f.infCode then .inf neg else .nan
  else if f = .e4m3 ∧ mag = 0x7F then .nan
  else if e = 0 then .fin neg frac f.qMin
  else .fin neg (2 ^ f.mb + frac) (f.qMin + (e - 1 : Nat))

/-- Multiplies by a power of two, exactly. -/
def Val.scale (v : Val) (s : Int) : Val :=
  match v with
  | .fin neg m e => .fin neg m (e + s)
  | w => w

/-- Nearest integer to `m × 2^(−s)`, ties to even (R36). -/
def shiftRne (m s : Nat) : Nat :=
  let q := m >>> s
  let rem := m - (q <<< s)
  if s = 0 then m
  else
    let half := 1 <<< (s - 1)
    if rem < half then q else if half < rem then q + 1 else q + q % 2

/-- The grid exponent at a magnitude: the spacing of the target's grid, extended upward without limit (R36). -/
def gridExp (f : Fmt) (m : Nat) (e : Int) : Int := max (e + Nat.log2 m - f.mb) f.qMin

/-- A nonzero magnitude rounded to the extended grid, as the code it would have if the format's exponent had no upper limit
(R36, R37). -/
def roundCode (f : Fmt) (m : Nat) (e : Int) : Nat :=
  let q := gridExp f m e
  let r := if q ≤ e then m <<< (e - q).toNat else shiftRne m (q - e).toNat
  (q - f.qMin).toNat * 2 ^ f.mb + r

/-- The same with stochastic rounding by 16 generator bits (R238). -/
def roundCodeStoch (f : Fmt) (u : Nat) (m : Nat) (e : Int) : Nat :=
  let q := gridExp f m e
  let r :=
    if q ≤ e then m <<< (e - q).toNat
    else
      let s := (q - e).toNat
      let lo := m >>> s
      let d := ((m - (lo <<< s)) <<< 16) >>> s
      if d + u ≥ 65536 then lo + 1 else lo
  (q - f.qMin).toNat * 2 ^ f.mb + r

/-- What one conversion yields (R37 to R42): the code, and the events counted. -/
structure Conv where
  code : Nat
  /-- A finite source beyond the largest finite value (R37). -/
  finiteSat : Bool := false
  /-- An infinite source (R38). -/
  infSource : Bool := false
  /-- The conversion counts one saturation (R37, R38). -/
  saturated : Bool := false
  /-- The conversion counts one flush (R40). -/
  flushed : Bool := false
  deriving DecidableEq, Repr

/-- A sign put on a magnitude code. -/
def withSign (f : Fmt) (neg : Bool) (mag : Nat) : Nat := if neg then f.signBit + mag else mag

/-- Converts an exact value in stored units, with the given rounding of magnitudes (R35 to R42). -/
def convertWith (rnd : Nat → Int → Nat) (f : Fmt) (v : Val) : Conv :=
  match v with
  | .nan => { code := f.nanCode }
  | .inf neg =>
    if f.hasInf then { code := withSign f neg f.infCode, infSource := true }
    else { code := withSign f neg f.maxCode, infSource := true, saturated := true }
  | .fin neg m e =>
    if m = 0 then { code := withSign f neg 0 }
    else
      let c := rnd m e
      if f.maxCode < c then { code := withSign f neg f.maxCode, finiteSat := true, saturated := true }
      else if c = 0 then { code := withSign f neg 0, flushed := true }
      else { code := withSign f neg c }

/-- The conversion of every point but the update's (R35). -/
def convert (f : Fmt) (v : Val) : Conv := convertWith (roundCode f) f v

/-- The conversion of an apply-stage state write (R238). -/
def convertStoch (u : Nat) (f : Fmt) (v : Val) : Conv := convertWith (roundCodeStoch f u) f v

/-! ## FP32 values -/

/-- The value of an FP32 pattern. -/
def f32Val (b : F32) : Val := decode .fp32 b.toNat

/-- A value rounded once to FP32; a finite result beyond the range becomes an infinity (R67, R163, R172). The flag says so. -/
def roundF32 (v : Val) : F32 × Bool :=
  match v with
  | .nan => (BitVec.ofNat 32 Fmt.fp32.nanCode, false)
  | .inf neg => (BitVec.ofNat 32 (withSign .fp32 neg Fmt.fp32.infCode), false)
  | .fin neg m e =>
    if m = 0 then (BitVec.ofNat 32 (withSign .fp32 neg 0), false)
    else
      let c := roundCode .fp32 m e
      if Fmt.fp32.maxCode < c then (BitVec.ofNat 32 (withSign .fp32 neg Fmt.fp32.infCode), true)
      else (BitVec.ofNat 32 (withSign .fp32 neg c), false)

/-- The signed integer of a value at a common exponent `e0 ≤ e`. -/
def atExp (neg : Bool) (m : Nat) (e e0 : Int) : Int :=
  let a : Int := ((m <<< (e - e0).toNat : Nat) : Int)
  if neg then -a else a

/-- A signed integer at an exponent as a value; `z` is the sign a zero takes. -/
def ofInt (x : Int) (e : Int) (z : Bool) : Val :=
  if x = 0 then .fin z 0 e else .fin (decide (x < 0)) x.natAbs e

/-- Exact sum under IEEE 754's rules for special values and zeros. -/
def Val.add (a b : Val) : Val :=
  match a, b with
  | .nan, _ => .nan
  | _, .nan => .nan
  | .inf s, .inf t => if s = t then .inf s else .nan
  | .inf s, .fin _ _ _ => .inf s
  | .fin _ _ _, .inf s => .inf s
  | .fin s m e, .fin t n d =>
    let e0 := min e d
    ofInt (atExp s m e e0 + atExp t n d e0) e0 (s && t && m == 0 && n == 0)

/-- Exact product; `0 × ∞` is NaN. -/
def Val.mul (a b : Val) : Val :=
  match a, b with
  | .nan, _ => .nan
  | _, .nan => .nan
  | .inf s, .inf t => .inf (s != t)
  | .inf s, .fin t n _ => if n = 0 then .nan else .inf (s != t)
  | .fin s m _, .inf t => if m = 0 then .nan else .inf (s != t)
  | .fin s m e, .fin t n d => .fin (s != t) (m * n) (e + d)

/-- The value with its sign turned. -/
def Val.neg : Val → Val
  | .fin s m e => .fin (!s) m e
  | .inf s => .inf (!s)
  | .nan => .nan

/-- Magnitude. -/
def Val.abs : Val → Val
  | .fin _ m e => .fin false m e
  | .inf _ => .inf false
  | .nan => .nan

/-- Zero of either sign. -/
def Val.isZero : Val → Bool
  | .fin _ m _ => m == 0
  | _ => false

/-- Finite and nonzero. -/
def Val.finiteNonzero : Val → Bool
  | .fin _ m _ => m != 0
  | _ => false

/-- `a < b` for values that are not NaN; zeros are equal. -/
def Val.lt (a b : Val) : Bool :=
  match a, b with
  | .nan, _ => false
  | _, .nan => false
  | .inf s, .inf t => s && !t
  | .inf s, .fin _ _ _ => s
  | .fin _ _ _, .inf t => !t
  | .fin s m e, .fin t n d =>
    let e0 := min e d
    decide (atExp s m e e0 < atExp t n d e0)

/-- `a = b` for values that are not NaN. -/
def Val.eq (a b : Val) : Bool :=
  match a, b with
  | .nan, _ => false
  | _, .nan => false
  | _, _ => !(a.lt b) && !(b.lt a)

/-- Integer square root by bits, from bit `k` down. -/
def isqrtGo : Nat → Nat → Nat → Nat
  | 0, _, r => r
  | k + 1, n, r =>
    let c := r + 2 ^ k
    if c * c ≤ n then isqrtGo k n c else isqrtGo k n r

/-- Integer square root. -/
def isqrt (n : Nat) : Nat := isqrtGo (Nat.log2 n / 2 + 1) n 0

/-- The quotient of two nonzero magnitudes, with a sticky bit below more bits than any target keeps. -/
def divMag (m : Nat) (e : Int) (n : Nat) (d : Int) : Nat × Int :=
  let s := 64 + Nat.log2 n
  let q := (m <<< s) / n
  let r := (m <<< s) % n
  (2 * q + (if r = 0 then 0 else 1), e - d - s - 1)

/-- Square root of a nonzero magnitude, with a sticky bit. -/
def sqrtMag (m : Nat) (e : Int) : Nat × Int :=
  let odd := e % 2 != 0
  let m1 := (if odd then 2 * m else m) <<< 128
  let e1 := (if odd then e - 1 else e) - 128
  let q := isqrt m1
  (2 * q + (if q * q = m1 then 0 else 1), e1 / 2 - 1)

/-- Reciprocal square root of a nonzero magnitude, with a sticky bit. -/
def rsqrtMag (m : Nat) (e : Int) : Nat × Int :=
  let odd := e % 2 != 0
  let m1 := if odd then 2 * m else m
  let e1 := if odd then e - 1 else e
  let k := 96 + Nat.log2 m1
  let z := 2 ^ (2 * k) / m1
  let q := isqrt z
  (2 * q + (if q * q * m1 = 2 ^ (2 * k) then 0 else 1), -(e1 / 2) - k - 1)

/-! ## Correctly rounded exp2 and log2 (R163): enclosures in fixed point, narrowed until both ends round alike -/

/-- Product of two fixed-point numbers of `p` fraction bits, rounded down. -/
def fmulLo (p a b : Nat) : Nat := (a * b) >>> p
/-- The same, rounded up. -/
def fmulHi (p a b : Nat) : Nat := ((a * b) >>> p) + 1

/-- Lower and upper sums of `Σ z^(2k+1)/(2k+1)`. -/
def atanhGo (p zz zzHi : Nat) : Nat → Nat → Nat → Nat → Nat → Nat → Nat × Nat
  | 0, _, _, hiT, lo, hi => (lo, hi + 2 * hiT + 2)
  | f + 1, k, loT, hiT, lo, hi =>
    atanhGo p zz zzHi f (k + 1) (fmulLo p loT zz) (fmulHi p hiT zzHi) (lo + loT / (2 * k + 1)) (hi + hiT / (2 * k + 1) + 1)

/-- Enclosure of `atanh (a / b)` for `a / b ≤ 1/3`, at `p` fraction bits. -/
def atanhIv (p a b : Nat) : Nat × Nat :=
  let lo := (a <<< p) / b
  let hi := lo + 1
  atanhGo p (fmulLo p lo lo) (fmulHi p hi hi) p 0 lo hi 0 0

/-- Enclosure of ln 2. -/
def ln2Iv (p : Nat) : Nat × Nat :=
  let (l, h) := atanhIv p 1 3
  (2 * l, 2 * h)

/-- Lower and upper sums of the exponential series. -/
def expGo (p yl yh : Nat) : Nat → Nat → Nat → Nat → Nat → Nat → Nat × Nat
  | 0, _, _, th, lo, hi => (lo, hi + 2 * th + 2)
  | f + 1, k, tl, th, lo, hi =>
    expGo p yl yh f (k + 1) (fmulLo p tl yl / (k + 1)) (fmulHi p th yh / (k + 1) + 1) (lo + tl) (hi + th)

/-- Enclosure of `2^f` for a fraction `f / 2^p`. -/
def exp2Iv (p f : Nat) : Nat × Nat :=
  let (l, h) := ln2Iv p
  expGo p (fmulLo p f l) (fmulHi p f h) p 0 (2 ^ p) (2 ^ p) 0 0

/-- Enclosure of `log2 (m / 2^k)` for `1 < m / 2^k < 2`. -/
def log2Iv (p m k : Nat) : Nat × Nat :=
  let (al, ah) := atanhIv p (m - 2 ^ k) (m + 2 ^ k)
  let (ll, lh) := ln2Iv p
  ((2 * al <<< p) / lh, (2 * ah <<< p) / ll + 1)

/-- Narrows an enclosure, a function of the precision, until both ends round to one FP32 value. -/
def ziv (iv : Nat → Val × Val) : Nat → Nat → F32 × Bool
  | 0, p => roundF32 (iv p).1
  | f + 1, p =>
    let (a, b) := iv p
    if roundF32 a = roundF32 b then roundF32 a else ziv iv f (2 * p)

/-- `2^x` rounded once. -/
def exp2F32 (x : F32) : F32 × Bool :=
  match f32Val x with
  | .nan => roundF32 .nan
  | .inf s => roundF32 (if s then .fin false 0 0 else .inf false)
  | .fin s m e =>
    if m = 0 then roundF32 (.fin false 1 0)
    else if e ≥ 0 && decide (Nat.log2 m + e.toNat > 20) || decide ((Nat.log2 m : Int) + e > 20) then
      if s then roundF32 (.fin false 1 (-400)) else roundF32 (.fin false 1 400)
    else
      -- x = i + f / 2^200 with 0 ≤ f < 2^200
      let y := atExp s m (e + 200) 0
      let i := y.fdiv (2 ^ 200)
      let f := (y - i * 2 ^ 200).toNat
      if f = 0 then roundF32 (.fin false 1 i)
      else ziv (fun p =>
        let (l, h) := exp2Iv p (f <<< (p - 200))
        (.fin false l (i - p), .fin false h (i - p))) 6 256

/-- `log2 x` rounded once, for a positive finite value. -/
def log2F32 (m : Nat) (e : Int) : F32 × Bool :=
  let k := Nat.log2 m
  let i : Int := e + k
  if m = 2 ^ k then roundF32 (ofInt i 0 false)
  else ziv (fun p =>
    let (l, h) := log2Iv p m k
    let a : Int := i * 2 ^ p + l
    let b : Int := i * 2 ^ p + h
    (ofInt a (-p) false, ofInt b (-p) false)) 6 192

end Sys2Proof.Machine
end

