-- ==== Sys2Proof/Machine/State.lean ====
section
/-! DEFINITION. The module's state as plain data, one structure per chapter of the spec, and its value at reset: the module as
delivered, with no input applied. Every field's default value is its reset value; docstrings cite the rule that names it. -/

namespace Sys2Proof.Machine

/-! ## Why a step stops -/

/-- Faults of the model itself. No command raises one: whatever the spec calls an error is an error response, a latched fault or
a counter, and the machine goes on. -/
inductive Fault where
  /-- Raised by nothing; kept so that the type is inhabited. Safe. -/
  | none
  deriving DecidableEq, Repr

/-- Refusals. -/
inductive Refusal where
  /-- The command has no meaning in this model yet; raised only by arms of `exec`. Safe: nothing is claimed about it. -/
  | notModelled (mnemonic : String)
  deriving DecidableEq, Repr

/-! ## 10 and 01: clocks, queues and synchronisers -/

/-- A dual-clock queue (R278). Every entry in it holds a slot until the slot's release reaches the sender. -/
structure QueueSt where
  /-- Entries that a sender of the module has written and the receiver does not see yet, oldest first. -/
  sending : List Nat := []
  /-- Entries that the receiver sees, oldest first. -/
  visible : List Nat := []
  /-- How many of them, oldest first, the receiver has read while their slots' release is on its way. -/
  taken : Nat := 0
  /-- Writes the sender held back because it saw the queue full. -/
  stalls : Nat := 0
  deriving DecidableEq, Repr

/-- The receiving side of a synchronised bit (R21, R281). -/
structure SyncSt where
  level : Bool := false
  /-- Changes counted, for the bits that report events. -/
  events : Nat := 0
  /-- Events that the sender has still to send, up to 15 (R281). -/
  pending : Nat := 0
  /-- A sticky line that is set has been cleared by its collector since (R21, R317). -/
  cleared : Bool := false
  deriving DecidableEq, Repr

/-- Event-time counters (R23), the tick's state (R25), the crossings (R22) and the model's own clock of free values. -/
structure Clocks where
  /-- Event-time counter of MGMT, in EVT ticks since power good (R23). -/
  evtMgmt : Nat := 0
  /-- Event-time counter of CTRL, die 0 (R23). -/
  evtCtrl0 : Nat := 0
  /-- Event-time counter of CTRL, die 1 (R23). -/
  evtCtrl1 : Nat := 0
  /-- Event-time counters of the 18 ARITH domains (R23). -/
  evtArith : List Nat := List.replicate 18 0
  /-- The tick is lost and every time field is frozen (R25). -/
  lost : Bool := false
  /-- Dual-clock queues, by `QueueId.key` (R22). -/
  queues : KV QueueSt := []
  /-- Synchronised bits, by `SyncBit.key` (R22). -/
  syncs : KV SyncSt := []
  /-- The model's own counter of free values drawn (no state of the spec). -/
  freeNext : Nat := 0
  deriving DecidableEq, Repr

/-! ## 15 and 17: supply, power and heat -/

/-- The sampled state of one sensor (R409). -/
structure SensorSt where
  milliC : Int := 0
  throttle : Bool := false
  warning : Bool := false
  severe : Bool := false
  deriving DecidableEq, Repr

/-- Supply and sequencing (R405, R407, R411, R447), limiters (R399 to R404), heat (R409) and the ledger (R412 to R415). -/
structure Power where
  /-- Input voltage stands at J1 (R447). -/
  inputOn : Bool := false
  /-- The hot-swap precharge is complete (R447). -/
  precharged : Bool := false
  /-- PWR_OK as deglitched (R443). -/
  pwrOk : Bool := false
  /-- The rails are being sequenced (R405). -/
  sequencing : Bool := false
  /-- Power good is asserted (R405). -/
  on : Bool := false
  /-- A die's arithmetic and SRAM rails are removed by a trip, die 0 and die 1 (R409). -/
  dieOff : List Bool := [false, false]
  /-- Stacks whose rails are removed (R409). -/
  stackOff : List Nat := []
  /-- Regulators shut down (R409). -/
  regOff : List Nat := []
  /-- Level of each logical cluster, 0 to 15 (R401). -/
  levels : List Nat := List.replicate 16 15
  /-- Clusters clock-stopped by a limiter (R402). -/
  stopped : List Bool := List.replicate 16 false
  /-- Microseconds each cluster has been clock-stopped without a break (R402). -/
  stoppedUs : List Nat := List.replicate 16 0
  /-- Step-downs in progress, by cluster: the level it started from, the level it goes to, and the steps taken of 8 (R402). -/
  ramps : KV (Nat × Nat × Nat) := []
  /-- Peak account, in nanojoules (R403). -/
  account : Nat := 940000000000
  /-- Length of the excursion above E so far, in µs (R403). -/
  excursionUs : Nat := 0
  /-- The peak step-down holds the cap until the account is full (R403). -/
  capHeld : Bool := false
  /-- The 10 µs samples of the last 100 ms, newest first: above 1,620 W or not (R404). -/
  hot : List Bool := []
  /-- The guard holds every cluster at level 0 (R404), and how many quiet samples it has seen. -/
  guardHold : Bool := false
  guardQuiet : Nat := 0
  /-- Clusters that the guard keeps clock-stopped (R404). -/
  guardStop : List Nat := []
  /-- Levels that the guard asks of the clusters since the last sample above 1,700 W (R404); none are asked while it is empty. -/
  guardAsk : List Nat := []
  /-- Undervoltage holds level 0 (R411); µs the input has stayed at or above 48 V. -/
  voltHold : Bool := false
  voltOkUs : Nat := 0
  /-- A POWER source reached Severe by counting: level 0 until acknowledged (R410). -/
  countHold : Bool := false
  /-- Sensors, by `Sensor.key` (R409). -/
  sensors : KV SensorSt := []
  /-- Clusters of a die held clock-stopped, or at level 0, by a Severe thermal fault (R409), and the inlet's hold. -/
  dieStop : List Bool := [false, false]
  dieLevel0 : List Bool := [false, false]
  inletHold : Bool := false
  /-- Spring waits for a cooler inlet (R400), and 100 ms inlet samples seen below its limit minus 3 °C. -/
  springWaits : Bool := false
  springCool : Nat := 0
  /-- Input and rail meters disagree (R411). -/
  meterBad : Bool := false
  /-- Microseconds of the running second in which the two meters are compared, and what each has metered in it, in µJ (R411). -/
  meterUs : Nat := 0
  meterInput : Nat := 0
  meterRails : Nat := 0
  /-- Energy metered by each rail since power good, by `railKey`, in µJ (R412). -/
  railUj : KV Nat := []
  /-- Metered input energy since power good, in µJ (R413). -/
  inputUj : Nat := 0
  /-- Energy in the window, in µJ (R415). -/
  windowUj : Nat := 0
  /-- Window energy of the five categories of R414, in µJ: Useful, Skipped, Rerun, Retried, Outside steps. -/
  catUj : List Nat := [0, 0, 0, 0, 0]
  /-- Energy of the step in flight whose category waits for its outcome, in µJ (R414). -/
  stepUj : Nat := 0
  /-- Rerun and retried energy of the step in flight, which waits likewise, in µJ (R414). -/
  stepRerunUj : Nat := 0
  stepRetriedUj : Nat := 0
  /-- All energy of the step in flight, in µJ (R416). -/
  stepAllUj : Nat := 0
  /-- Energy booked to each layer in the step, in µJ (R137). -/
  layerUj : KV Nat := []
  /-- Energy booked to each attempt of a descriptor not yet known to be retried, in µJ (R414). -/
  attemptUj : KV Nat := []
  /-- Energy by rung since power good, in µJ (R137). -/
  rungUj : List Nat := [0, 0, 0, 0, 0]
  /-- Energy booked to no layer, in µJ (R137). -/
  unlayeredUj : Nat := 0
  deriving DecidableEq, Repr

/-! ## 03 to 06: cores, pans, sluice paths and vector units -/

/-- The exact sum of one open group, kept as R67 needs it: a signed significand at a binary exponent, and what special products it
holds. -/
structure GroupSum where
  /-- Real products in the group. -/
  n : Nat := 0
  mant : Int := 0
  exp : Int := 0
  /-- Every product so far is −0. -/
  allNegZero : Bool := true
  nan : Bool := false
  posInf : Bool := false
  negInf : Bool := false
  /-- It holds a 0 × ∞ product. -/
  zeroInf : Bool := false
  deriving DecidableEq, Repr

/-- One accumulator of a tile (R64, R66): its value once a group is in, and the group left open. -/
structure AccSt where
  val : Option F32 := none
  openGroup : GroupSum := {}
  deriving DecidableEq, Repr

/-- The contents of an exception window (R174); `kind = 0` is empty. -/
structure ExWindow where
  layer : Nat := 0
  source : Nat := 0
  kind : Nat := 0
  pan : Nat := 0
  slot : Nat := 0
  column : Nat := 0
  group : Nat := 0
  tileM : Nat := 0
  tileN : Nat := 0
  tileK : Nat := 0
  sequence : Nat := 0
  count : Nat := 0
  deriving DecidableEq, Repr

/-- The counts a conversion point gathers (R41, R130), with amax and histogram (R94, R131). -/
structure Counts where
  elements : Nat := 0
  saturations : Nat := 0
  nonzeroPre : Nat := 0
  flushes : Nat := 0
  zeroBlocks : Nat := 0
  nonzeroStored : Nat := 0
  amax : F32 := 0
  hist : KV Nat := []
  /-- An infinite source was converted (R117), or a NaN stored (R173). -/
  infSource : Nat := 0
  nanStored : Nat := 0
  /-- Saturations of finite sources (R37), which start a recompute (R118). -/
  finiteSat : Nat := 0
  /-- Elements of output conversion points, loads left out (R41). -/
  outElements : Nat := 0
  deriving DecidableEq, Repr

/-- A salinometer record (R132). -/
structure SalRec where
  /-- Stream position of the descriptor. -/
  pos : Nat := 0
  layer : Nat := 0
  source : Nat := 0
  backward : Bool := false
  weightGrad : Bool := false
  flushTile : Bool := false
  invalidSeen : Bool := false
  overflowSeen : Bool := false
  attempt : Nat := 0
  counts : Counts := {}
  invalid : Nat := 0
  accumOverflows : Nat := 0
  scaleRecord : Nat := 65535
  sequence : Nat := 0
  /-- Elements stored into tensors flagged as weight gradients, and the nonzero ones among them (R130). -/
  gradElements : Nat := 0
  gradNonzero : Nat := 0
  deriving DecidableEq, Repr

/-- A stationary bank of a pan's grains (R50, R51, R70): the pass it is loaded for, the load entries admitted so far, and the stationary
elements they brought, by `256 × multiplier column + multiplier row`. An element stands as its sign, significand and exponent; digit i of
it is bits 4i + 3 to 4i of the significand (R53), and at Flake a grain's two elements are those of columns 2n and 2n + 1. -/
structure Bank where
  pass : Nat := 0
  admitted : Nat := 0
  vals : KV Val := []
  deriving DecidableEq, Repr

/-- A shift register of a pan (R105): a 6-bit two's-complement shift, and its complement. -/
structure ShiftReg where
  value : Nat := 0
  compl : Nat := 63
  deriving DecidableEq, Repr

/-- The operands of one pass as the tile buffers in core SRAM and the staging in cluster SRAM hold them (R206, R208): the descriptor, the
block's place along M (streaming rows) or N (stationary tiles), its K range, the pass, and the elements: streaming ones by
`256 × row + multiplier row`, stationary ones by `256 × column of the core block + multiplier row`. -/
structure TileBuf where
  pos : Nat := 0
  index : Nat := 0
  range : Nat := 0
  pass : Nat := 0
  vals : KV Val := []
  deriving DecidableEq, Repr

/-- A tile in a pan (R202, R203): the descriptor and core block it belongs to, its place, and its accumulators (R72). -/
structure TileRun where
  pos : Nat := 0
  block : Nat := 0
  m0 : Nat := 0
  n0 : Nat := 0
  k0 : Nat := 0
  kt : Nat := 0
  rows : Nat := 0
  cols : Nat := 0
  passes : Nat := 0
  done : Nat := 0
  half : Bool := false
  /-- Accumulators, by `512 × column + row`. -/
  acc : KV AccSt := []
  invalid : Nat := 0
  overflows : Nat := 0
  /-- Least-key invalid event of this attempt (R175). -/
  window : ExWindow := {}
  /-- The tile is a replay under R80. -/
  replay : Bool := false
  deriving DecidableEq, Repr

/-- Released results waiting in a half of the accumulator store (R72, R73), one FP32 value per output, and the rows already
drained. -/
structure Writeback where
  pos : Nat := 0
  block : Nat := 0
  m0 : Nat := 0
  n0 : Nat := 0
  rows : Nat := 0
  cols : Nat := 0
  vals : KV F32 := []
  /-- K ranges whose combine the results are (R205): the units `block − ranges + 1` to `block`. -/
  ranges : Nat := 1
  /-- Per-channel output shifts of the tile's columns (R73, R105). -/
  shifts : List Int := []
  drained : Nat := 0
  /-- Entries sent through the writeback queue and not acknowledged (R73, R80). -/
  waiting : Nat := 0
  /-- The tile's salinometer record as far as its conversions have gone (R132). -/
  sal : SalRec := {}
  /-- The seal unit that carries the deltas of its writes, once one is open (R294). -/
  sealUnit : Option Nat := none
  deriving DecidableEq, Repr

/-- Whether a pan or sluice path stands at rest or runs, ramps included (R75, R76, R78, R88). -/
inductive Motion where
  | rest
  /-- Full activity, with dummy operations alone until the first real row fills the array (R75). -/
  | filling
  | running
  deriving DecidableEq, Repr

/-- A pan (R9, R50 to R91). -/
structure PanSt where
  motion : Motion := .rest
  /-- The bank-select bit: `true` is bank B (R50, R69). -/
  bankSel : Bool := false
  bankA : Option Bank := none
  bankB : Option Bank := none
  tile : Option TileRun := none
  /-- The two halves of the accumulator store (R72). -/
  halfA : Option Writeback := none
  halfB : Option Writeback := none
  /-- Of two halves that drain, half B is the older. -/
  drainB : Bool := false
  /-- Sticky invalid flag (R68). -/
  invalidFlag : Bool := false
  /-- The shift register file (R105): output shifts by multiplier column, input shifts by multiplier row; and the entries of the shift
  queue taken for the pass to come. -/
  outRegs : List ShiftReg := []
  inRegs : List ShiftReg := []
  shiftEntries : Nat := 0
  /-- Cycles since the last real row that the counters have taken up (R78), and cycles since the last flip (R62). -/
  idle : Nat := 0
  flipCycles : Nat := 0
  /-- Remap word fields (R90). -/
  rowA : Nat := 255
  rowB : Nat := 255
  col : Nat := 63
  grainReplays : Nat := 0
  /-- Column and group of a mismatch waiting to recur (R83), and whether the segment test runs. -/
  suspect : Option (Nat × Nat) := none
  testing : Bool := false
  /-- Block of the last stream-tag mismatch (R114). -/
  slipBlock : Option Nat := none
  /-- Rows and columns to be retired at the next tile boundary, each with the column that goes where no row is left (R56, R57). -/
  remapNext : List (Nat × Nat) := []
  /-- Load entries of the pass to come that a bank has admitted before its tile is known (R70). -/
  preload : Nat := 0
  /-- Rows of the running pass that the streaming-row queue has still to bring (R91, R283). -/
  rowsDue : Nat := 0
  deriving DecidableEq, Repr

/-- A unit of work on a core (R200): its descriptor's place in the stream and its number in the descriptor. -/
structure RunUnit where
  pos : Nat := 0
  number : Nat := 0
  deriving DecidableEq, Repr

/-- The running combine of K ranges on a core (R205, R165, R86): the units combined so far and the FP32 results, by
`512 × column + row` (for a sluice pass, `4 × lane + vector`). -/
structure Combine where
  units : List Nat := []
  vals : KV F32 := []
  /-- Outputs whose combine added opposite infinities, by the same keys (R172, R459). -/
  inv : List Nat := []
  deriving DecidableEq, Repr

/-- Totals of one core for one descriptor, one attempt and one class (R133): a layer's totals are the sum of its descriptors', and a
retried attempt's are told apart from the final attempts of the layer's other tensors (R134). -/
structure Totals where
  layer : Nat := 0
  backward : Bool := false
  counts : Counts := {}
  invalid : Nat := 0
  accumOverflows : Nat := 0
  gradElements : Nat := 0
  gradNonzero : Nat := 0
  candidate : Bool := false
  deriving DecidableEq, Repr

/-- A logical core (R9). -/
structure CoreSt where
  pans : KV PanSt := []
  /-- The sluice path's motion (R88). -/
  sluice : Motion := .rest
  /-- The core is frozen by a clock-stop request (R79). -/
  frozen : Bool := false
  /-- The tile buffers in core SRAM, two deep (R206, R209): streaming rows and stationary tiles. -/
  rowBuf : List TileBuf := []
  statBuf : List TileBuf := []
  /-- The sluice path's vector buffer, by `16,384 × vector + element`, and its accumulators, by `4 × lane + vector` (R84). -/
  vecBuf : KV Val := []
  lanes : KV F32 := []
  /-- The units that the core runs, by engine: 0 its pans, 1 its sluice path, 2 its vector unit (R200). -/
  units : KV RunUnit := []
  /-- The descriptor that each engine ran last, and whether that unit ran again (R413, R414): its ramps and dummy operations are its. -/
  ran : KV (Nat × Bool) := []
  /-- Combines under way, by stream position. -/
  combines : KV Combine := []
  window : ExWindow := {}
  /-- The window fails its complement (R175). -/
  windowBad : Bool := false
  /-- Invalid operations per layer since the last boundary (R152). -/
  invalidBy : KV Nat := []
  /-- Totals, by `position × 8 + attempt × 2 + class` (R133). -/
  totals : KV Totals := []
  /-- Records of work that would run again after a swap, by `2^32 × position + block or pass group` (R175, R217): they join the totals
  once the output they belong to is finished. -/
  held : List (Nat × SalRec) := []
  /-- Block of the vector unit's last stream-tag mismatch (R114). -/
  slipBlock : Option Nat := none
  /-- Faults latched while the core's clock stood, whose discards wait for its return (R81), oldest first. -/
  faults : List FaultReport := []
  deriving DecidableEq, Repr

/-- A logical cluster (R9, R208): what its SRAM stages for multicast, by the number of the set. -/
structure ClusterSt where
  staging : KV TileBuf := []
  deriving DecidableEq, Repr

/-- Spares in use and repairs in progress (R10 to R12, R284, R285). -/
structure Repair where
  /-- Physical core behind each logical core that has moved: key logical core, value physical core in its cluster. -/
  corePhys : KV Nat := []
  /-- Logical clusters whose spare core is in use. -/
  spareCore : List Nat := []
  /-- Physical cluster behind each logical cluster that has moved. -/
  clusterPhys : KV Nat := []
  /-- Dies whose spare cluster is in use. -/
  spareCluster : List Nat := []
  /-- Dies whose spare die management processor is in use, and dies in the middle of the swap (R284). -/
  spareDmp : List Nat := []
  dmpSwapping : List Nat := []
  /-- Cores and clusters being swapped. -/
  coreSwap : List Nat := []
  clusterSwap : List Nat := []
  /-- When each swap in progress started: key logical core, or 1000 + logical cluster; value EVT time (R286). -/
  swapStart : KV Nat := []
  /-- Spare die-to-die lanes in use (R318). -/
  d2dSpares : Nat := 0
  deriving DecidableEq, Repr

/-! ## 04: scaling -/

/-- A scale record (R93). `bad` says that it fails its complement (R126). -/
structure ScaleRec where
  amax : List F32 := List.replicate 16 0
  t : Int := 0
  count : Nat := 0
  head : Nat := 0
  backward : Bool := false
  grouped : Bool := false
  updWritten : Bool := false
  present : Bool := false
  /-- 0 E4M3, 1 E5M2, 2 Flake-4, 3 unscaled. -/
  format : Nat := 3
  attempt : Nat := 0
  layer : Nat := 0
  bad : Bool := false
  /-- Reason the count last fell below 16 (R102): 0 fresh run, 1 restore, 2 reset, 3 integrity; none once a Notice has counted it. -/
  reason : Option Nat := none
  deriving DecidableEq, Repr

/-- A staged step amax (R95); `bad` says that it fails its complement (R126). -/
structure Staged where
  amax : F32 := 0
  bad : Bool := false
  deriving DecidableEq, Repr

/-- The scale table (R92), the staging array (R95) and the scales of the step in flight. -/
structure Scaling where
  recs : KV ScaleRec := []
  staged : KV Staged := []
  /-- t chosen at the step's start, per record (R97, R98). -/
  stepT : KV Int := []
  /-- Attempt that completed each record's tensor in the step (R98). -/
  stepAttempt : KV Nat := []
  /-- Records in present mode whose amax pass has not given a t yet in this step (R100, R287). -/
  presentLeft : List Nat := []
  /-- t at which memory still holds an update-written tensor whose record has moved on at the commit (R233). -/
  heldT : KV Int := []
  deriving DecidableEq, Repr

/-! ## 05: salinometer and Rake -/

/-- A layer's Rake state (R143). `bad` says that it fails its complement. -/
structure RakeSt where
  rung : Nat := 0
  floor : Nat := 0
  marked : Bool := false
  retreats : Nat := 0
  streak : Nat := 0
  hold : Nat := 0
  silent : Nat := 0
  bad : Bool := false
  deriving DecidableEq, Repr

/-- A layer's statistics window (R153), apart from what the Rake state and the program give. -/
structure WinSt where
  step : Nat := 0
  status : Nat := 0
  rung : Nat := 0
  nextRung : Nat := 0
  reason : Nat := 0
  streak : Nat := 0
  hold : Nat := 0
  retreats : Nat := 0
  silent : Nat := 0
  flags : Nat := 0
  counts : Counts := {}
  bwdHist : KV Nat := []
  invalid : Nat := 0
  fwdRecomputes : Nat := 0
  accumOverflows : Nat := 0
  gradElements : Nat := 0
  gradNonzero : Nat := 0
  amaxFwd : F32 := 0
  amaxBwd : F32 := 0
  updateRatio : F32 := 0
  energyUj : Nat := 0
  spanFwd : Nat := 0
  spanBwd : Nat := 0
  stepsAt : List Nat := [0, 0, 0, 0, 0]
  invalidTotal : Nat := 0
  deriving DecidableEq, Repr

/-- The layer roll-up of the step (R133 to R135). -/
structure Roll where
  fwd : Counts := {}
  bwd : Counts := {}
  invalid : Nat := 0
  accumOverflows : Nat := 0
  recomputes : Nat := 0
  bwdOverflow : Bool := false
  gradElements : Nat := 0
  gradNonzero : Nat := 0
  candidate : Bool := false
  exhausted : Bool := false
  deriving DecidableEq, Repr

/-- A pair of update norms (R136). -/
structure Norms where
  updSq : F32 := 0
  wSq : F32 := 0
  deriving DecidableEq, Repr

/-- The Rake and the salinometer (R129 to R157). -/
structure Rake where
  layers : KV RakeSt := []
  /-- This module's decision vectors of the step whose Rake has run, for the ring (R155). -/
  own : List DecVec := []
  /-- `rake.reset` has been written and waits for the group's next boundary; it is due at this one (R156). -/
  resetAsked : Bool := false
  resetDue : Bool := false
  windows : KV WinSt := []
  /-- The windows that the Rake of the step decided has filled, which change all together at the boundary (R154, log 77). -/
  next : KV WinSt := []
  /-- The windows shown while `sal.freeze` holds them (R154). -/
  frozen : KV WinSt := []
  /-- The roll-up of the step (R133). -/
  roll : KV Roll := []
  /-- Retried attempts' overflow tallies, by layer: accumulator overflows, invalid operations, recomputes (R134). -/
  retried : KV (Nat × Nat × Nat) := []
  /-- The two halves of the update slots (R136). -/
  norms0 : KV Norms := []
  norms1 : KV Norms := []
  /-- This step's Rake has completed. -/
  done : Bool := false
  /-- Silent Warning active per layer (R153). -/
  silentOn : List Nat := []
  /-- Rank 0's table awaiting adoption (R312). -/
  adopt : Bool := false
  deriving DecidableEq, Repr

/-! ## 07: programs and descriptors -/

/-- A dimension spec (R194). -/
abbrev Spec := Nat

/-- A descriptor's value (R192). -/
structure Desc where
  kind : Nat := 0
  flags : Nat := 0
  layer : Nat := 0
  rung : Nat := 0
  priority : Nat := 0
  die : Nat := 0
  firstCore : Nat := 0
  gridM : Nat := 1
  gridN : Nat := 1
  mCap : Nat := 0
  m : Spec := 0
  n : Spec := 0
  k : Spec := 0
  a : Nat := 65535
  b : Nat := 65535
  c : Nat := 65535
  shiftIn : Nat := 65535
  shiftOut : Nat := 65535
  code : Nat := 0
  deriving DecidableEq, Repr

/-- A tensor table entry (R191). -/
structure Tensor where
  address : Nat := 0
  formats : Nat := 0
  scaleRecord : Nat := 65535
  producer : Nat := 65535
  rows : Spec := 0
  cols : Spec := 0
  rowStride : Nat := 0
  flags : Nat := 0
  deriving DecidableEq, Repr

/-- A layer table entry (R188). -/
structure Layer where
  ladder : Nat := 0
  coreRegion : Nat := 0
  coreBytes : Nat := 0
  clusterRegion : Nat := 0
  clusterBytes : Nat := 0
  variants : List Nat := []
  deriving DecidableEq, Repr

/-- A loaded program: the header fields of R184 and the tables that the load has checked. The image stays in memory, read-only
(R186). -/
structure Program where
  base : Nat := 0
  bytes : Nat := 0
  hash : Nat := 0
  layers : List Layer := []
  tensors : List Tensor := []
  descs : List Desc := []
  /-- Variant records: three first-index and count pairs (R188). -/
  variants : List (List (Nat × Nat)) := []
  shapeMax : List Nat := []
  /-- Sequence entries: layer and phase (R189). -/
  sequence : List (Nat × Nat) := []
  scaleRecords : Nat := 0
  /-- Parameter groups that the program names, each with its state tensors: the six slots of its first preamble, then the others
  (R227, R234). -/
  groups : KV (List Nat) := []
  /-- Input tensors that no update descriptor reads or writes, whose pages the finite check releases (R215). -/
  inputs : List Nat := []
  /-- First and last page of every tensor at its compiled maxima (R215, R262). -/
  spans : List (Nat × Nat) := []
  descArea : Nat := 0
  tensorArea : Nat := 0
  codeArea : Nat := 0
  layerArea : Nat := 0
  deriving DecidableEq, Repr

/-- A descriptor in flight (R198). -/
structure DescRun where
  pos : Nat := 0
  die : Nat := 0
  index : Nat := 0
  d : Desc := {}
  update : Bool := false
  /-- Run-time dimensions (R194). -/
  m : Nat := 0
  n : Nat := 0
  k : Nat := 0
  ready : Bool := false
  attempt : Nat := 0
  /-- The amax pass of present mode runs (R100); for an update, the apply stage's amax pass (R233). -/
  amaxPass : Bool := false
  /-- Largest magnitudes that the pass has gathered, by tensor. -/
  amaxes : KV F32 := []
  /-- The attempt counted a finite saturation (R118). -/
  saturated : Bool := false
  /-- Units already given to cores, and units completed, by unit number. -/
  issued : List Nat := []
  finished : List Nat := []
  /-- An update descriptor's gather stage is complete (R229). -/
  gathered : Bool := false
  /-- Values that its completed reductions gave, by number (R164, R229). -/
  sums : KV F32 := []
  /-- Values that its reductions still take, in element order, by `2^32 × number + chunk`. -/
  reds : KV (List F32) := []
  /-- Stored elements of Flake-4 blocks that are not complete yet, by `2^40 × tensor + element` (R457). -/
  blocks : KV F32 := []
  /-- A collective of an abandoned step that contributes nothing (R219, R220). -/
  hollow : Bool := false
  /-- Units that run again after a discard, swap or tag mismatch. -/
  rerun : List Nat := []
  /-- Chunks, from the first, whose reductions' invalid additions have been reported (R459). -/
  redDone : Nat := 0
  /-- Transactions of a copy that have been written (R265, R294). -/
  moved : Nat := 0
  deriving DecidableEq, Repr

/-- An item of the step's descriptor stream (R189): its position, its descriptor, the sequence entry it comes from, and whether that
is an update entry. -/
structure Item where
  pos : Nat := 0
  index : Nat := 0
  entry : Nat := 0
  update : Bool := false
  deriving DecidableEq, Repr

/-- Programs, admission and multicast (R184 to R212). -/
structure Prog where
  loaded : Option Program := none
  /-- Address of the image whose checks run (R185), and the code and image offset of the first that fails (R186). -/
  checking : Option Nat := none
  verdict : Option (Nat × Nat) := none
  /-- Descriptors holding slots (R198). -/
  pool : List DescRun := []
  /-- The step's stream still to be admitted, per die (R189). -/
  stream0 : List Item := []
  stream1 : List Item := []
  /-- Sequence entry of the last descriptor admitted (R219). -/
  entryNow : Nat := 0
  /-- Stream positions completed (R199). -/
  completed : List Nat := []
  /-- Every descriptor of the step. -/
  all : List Item := []
  /-- The copy of the shape block (R195). -/
  shapes : List Nat := []
  /-- Rung each layer runs in the step. -/
  rungs : KV Nat := []
  /-- A multicast delivery waits for a lagging member: set key and NOC cycles waited (R209). -/
  mcastWait : KV Nat := []
  /-- Groups whose first frozen no-op has written its Notice (R236). -/
  noopNoted : List Nat := []
  deriving DecidableEq, Repr

/-! ## 08: the training step -/

/-- The commit record (R225). `bad` says that it fails its complement. -/
structure CommitRec where
  step : Nat := 0
  outcome : Nat := 0
  lambda : Nat := 0
  clean : Nat := 0
  samples : Nat := 0
  stamp : Nat := 0
  rngStep : Nat := 0
  frozenCrc : Nat := 0
  update : Nat := 0
  bad : Bool := false
  deriving DecidableEq, Repr

/-- A replay record (R287, R288). -/
structure ReplayRec where
  step : Nat := 0
  samples : Nat := 0
  stamp : Nat := 0
  rngStep : Nat := 0
  keyLo : Nat := 0
  keyHi : Nat := 0
  hash : Nat := 0
  lambda : Nat := 0
  margin : Nat := 0
  present : Bool := false
  runGroup : Nat := 0
  rank : Nat := 0
  p : Nat := 0
  epoch : Nat := 0
  groupsCrc : Nat := 0
  frozen : Nat := 0
  clean : Nat := 0
  layers : Nat := 0
  records : Nat := 0
  params : Nat := 0
  shapes : List Nat := []
  rungs : List Nat := []
  ts : KV Int := []
  /-- Every present-mode t byte has been written (R287). -/
  complete : Bool := false
  /-- The record fails a complement. -/
  bad : Bool := false
  deriving DecidableEq, Repr

/-- The step in flight (R213 to R243), apart from the entries of R242. -/
structure Train where
  /-- The non-finite and fault flags of R218. -/
  nonFinite : Bool := false
  fault : Bool := false
  /-- The member has entered abandon (R219). -/
  abandoned : Bool := false
  /-- A backward saturation has been counted in this step (R123). -/
  bwdSat : Bool := false
  /-- The finite-check contribution has been sent (R222). -/
  contributed : Bool := false
  /-- Outcome decided for the step (R222): 0 none yet. -/
  outcome : Nat := 0
  /-- The update of the step runs, and is complete. -/
  updating : Bool := false
  updateDone : Bool := false
  /-- Non-finite values the update wrote: layer and tensor (R232). -/
  badUpdate : Option (Nat × Nat) := none
  /-- The pending masks of the members agreed at the finite check (R235). -/
  masksAgree : Bool := false
  /-- Index of the last step started, whose replay record a control image holds (R310). -/
  lastStep : Option Nat := none
  /-- The pending frozen mask as it went into the finite check (R235). -/
  mask : Nat := 0
  /-- Layers marked for widening when the step started (R223, R226). -/
  marksBefore : List Nat := []
  commit : CommitRec := {}
  /-- Update ledger: chunks done (R230). -/
  ledger : List (Nat × Nat) := []
  /-- The replay ring, by slot (R287). -/
  ring : KV ReplayRec := []
  /-- A diagnostic replay runs (R290). -/
  replaying : Bool := false
  /-- The boundary awaits the successor's acknowledgement of M3 (R296). -/
  m3Wait : Bool := false
  /-- Admission of the next step waits for the control image (R306). -/
  snapHold : Bool := false
  /-- Admission is stopped: power down, Fatal stop or no-outcome end. -/
  admitStop : Bool := false
  /-- The Rake states diverged or are damaged: the next step does not start (R142, R143). -/
  rakeHalt : Bool := false
  /-- λ rose by growth at this commit (R150). -/
  grew : Bool := false
  /-- λ of the step in flight, which its update still divides by (R124). -/
  lambda : Nat := 0
  /-- The step that a spare has taken over has an unsealed chunk whose gradient is not covered (R303). -/
  uncovered : Bool := false
  /-- Step index of the newest complete replay record (R313). -/
  newest : Nat := 0
  /-- Decision vectors that a spare has taken over from the lost member's M2 mirror, by layer (R301, R303). -/
  vectors : List DecVec := []
  /-- rng.step and the two words of the run key that a diagnostic replay draws with (R290). -/
  replayRng : Nat × Nat × Nat := (0, 0, 0)
  deriving DecidableEq, Repr

/-! ## 09: memory tiers -/

/-- A residency map entry (R257). -/
structure MapEntry where
  v : Bool := false
  tier : Nat := 0
  ro : Bool := false
  img : Bool := false
  stp : Bool := false
  fz : Bool := false
  mig : Bool := false
  rb : Bool := false
  cc : Bool := false
  device : Nat := 0
  frame : Nat := 0
  gen : Nat := 0
  deriving DecidableEq, Repr

/-- An HBM3E stack (R246 to R251). -/
structure StackSt where
  /-- Physical pseudo-channel the spare replaces; 255 for none (R267). -/
  spare : Nat := 255
  /-- 0 none, 1 copying, 2 rebuilding, 3 complete, 4 failed (R267). -/
  remap : Nat := 0
  /-- Pseudo-channel being copied (R249). -/
  copying : Option Nat := none
  /-- Event times of correctable and uncorrectable errors, by pseudo-channel (R249, R250). -/
  ce : KV (List Nat) := []
  ue : KV (List Nat) := []
  /-- Refresh doubled and issue rate halved by heat (R409). -/
  throttled : Bool := false
  deriving DecidableEq, Repr

/-- A physical CXL device (R252 to R255). -/
structure CxlSt where
  /-- 0 to 10 logical number; 0x80 spare; 0xFE retired (R267). -/
  role : Nat := 0
  /-- 0 none, 1 copying, 2 rebuilding, 3 complete (R267). -/
  replace : Nat := 0
  ceTimes : List Nat := []
  ueTimes : List Nat := []
  /-- Retrains of a link that stays down (R396). -/
  downCount : Nat := 0
  /-- Pages that its failure left to be rebuilt (R255). -/
  pages : List Nat := []
  deriving DecidableEq, Repr

/-- An outstanding or waiting memory transaction (R263), with the home it was translated to: tier, die, and the number of the controller or
root port there; tier 2 for one that names no mapped page. -/
structure Txn where
  req : MemReq
  home : Nat × Nat × Nat := (2, 0, 0)
  deriving DecidableEq, Repr

/-- A page copy of a migration: where it goes, and whether it runs or waits for its die's migration engine (R262). -/
structure MigTarget where
  tier : Nat := 0
  device : Nat := 0
  frame : Nat := 0
  active : Bool := true
  deriving DecidableEq, Repr

/-- Memory and the residency map (R244 to R268). -/
structure Memory where
  /-- Bytes at module addresses; an unlisted address reads as 0 (R262: a mapped page reads as zeros). -/
  ram : List Host.Cell := []
  map : KV MapEntry := []
  /-- Pages whose map entry fails its complement in the primary (R259), and in both copies (R266). -/
  mapBad : List Nat := []
  mapLost : List Nat := []
  hbm : KV StackSt := []
  cxl : KV CxlSt := (List.range 12).map fun d => (d, { role := if d = 11 then 0x80 else d })
  /-- Poisoned 256-byte lines, by module address / 256 (R248). -/
  poison : List Nat := []
  /-- Lines of reserved pages whose primary is bad and not yet rewritten, and those whose mirror is bad (R258), numbered likewise. -/
  badMain : List Nat := []
  badMirror : List Nat := []
  /-- Writes of the module itself that the crust holds back, oldest first (R297, R298): address and bytes. -/
  owed : List (Nat × List Byte) := []
  /-- Lines lost with a pseudo-channel and not yet rebuilt, as page numbers (R250, R255). -/
  lostPages : List Nat := []
  /-- Page that the rebuild engine takes next because a read waits for it (R250). -/
  rebuildNext : Option Nat := none
  /-- Translation caches of die 0 and die 1: pages held (R259). -/
  tc0 : List Nat := []
  tc1 : List Nat := []
  /-- Outstanding transactions, oldest first, and those waiting at the arbiter (R263). -/
  outstanding : List Txn := []
  waiting : List Txn := []
  /-- A map request run is in progress: requests of the run, and how many are processed (R260). -/
  reqTotal : Nat := 0
  /-- Pages of the request in progress whose contents have been folded in or out (R293, R297). -/
  reqAt : Nat := 0
  reqDone : Nat := 0
  /-- The run has stopped with this error, at this address (R260). -/
  reqError : Option (Nat × Nat) := none
  /-- The run waits for its M4 mirror to be acknowledged (R296), and the changed pages it mirrors. -/
  reqChanged : List Nat := []
  migrating : KV MigTarget := []
  /-- The frame owner record (R256): the page that owns each frame, by `2^20 × (16 × tier + device) + frame`. Its complement is a function
  of it. -/
  frames : KV Nat := []
  /-- Frames released while transactions translated before are outstanding, and how many of each die's oldest those are (R259). -/
  released : KV (Nat × Nat) := []
  deriving DecidableEq, Repr

/-! ## 10: arbitration -/

/-- The four counters of a requester, and its current run of waiting (R275). -/
structure ArbCnt where
  wait : Nat := 0
  maxWait : Nat := 0
  /-- Length of the run in which it waits, by resource. -/
  run : KV Nat := []
  grants : Nat := 0
  cutoffs : Nat := 0
  deriving DecidableEq, Repr

/-- A hold on a resource (R272). -/
structure Hold where
  rank : Nat := 0
  cycles : Nat := 0
  deriving DecidableEq, Repr

/-- The NOC cycle that an arbiter instance is in: resources already granted in it, and ranks already counted as waiting in it (R275). -/
structure ArbCycle where
  done : List Nat := []
  waited : List Nat := []
  deriving DecidableEq, Repr

/-- Arbiters (R269 to R277). -/
structure Arb where
  /-- By `(level × 65536 + instance) × 32 + rank`. -/
  counters : KV ArbCnt := []
  /-- By `(level × 65536 + instance) × 256 + resource`. -/
  holds : KV Hold := []
  /-- By `level × 65536 + instance`. -/
  cycles : KV ArbCycle := []
  deriving DecidableEq, Repr

/-! ## 12: faults and events -/

/-- A latched fault in a collector's slot (R315, R316). -/
structure Latched where
  cls : Nat := 0
  sev : Nat := 0
  seq : Nat := 0
  source : Nat := 0
  /-- Collectors that passed it up, whose lines it keeps asserted (R317), as collector keys. -/
  origins : List Nat := []
  deriving DecidableEq, Repr

/-- An unacknowledged fault (R323). -/
structure Unack where
  cls : Nat := 0
  sev : Nat := 0
  seq : Nat := 0
  deriving DecidableEq, Repr

/-- A fault collector (R316, R317). -/
structure Collector where
  slot1 : Option Latched := none
  slot2 : Option Latched := none
  /-- Faults waiting for a slot, at the die and module levels (R324). -/
  waiting : List Latched := []
  overflow : Bool := false
  cutoff : Bool := false
  word1 : Nat := 0
  unack : List Unack := []
  deriving DecidableEq, Repr

/-- A counted source (R321): class, level, instance and source, and the event times of its last faults, newest first. -/
structure Source where
  cls : Nat := 0
  level : Level := .pan
  unit : Nat := 0
  source : Nat := 0
  times : List Nat := []
  deriving DecidableEq, Repr

/-- An event record (R334), without its CRC, which is a function of the rest. -/
structure EvRecord where
  seq : Nat := 0
  severity : Nat := 0
  kind : Nat := 0
  code : Nat := 0
  time : Nat := 0
  boot : Nat := 0
  level : Nat := 0
  escalated : Bool := false
  queued : Bool := false
  passedUp : Bool := false
  counted : Bool := false
  frozen : Bool := false
  acked : Bool := false
  unit : Nat := 0
  physical : Nat := 65535
  address : Nat := 0
  space : Nat := 255
  cause : Nat := 0
  count : Nat := 0
  p0 : Nat := 0
  p1 : Nat := 0
  p2 : Nat := 0
  deriving DecidableEq, Repr

/-- What ALIVE does (R329, R340). -/
inductive AliveSt where
  | notStarted
  | running
  | stopped
  deriving DecidableEq, Repr

/-- Fault collection and the event recorder (R315 to R341). -/
structure Faults where
  /-- Collectors, by `level × 65536 + instance`. -/
  collectors : KV Collector := []
  sources : List Source := []
  /-- Error lines asserted and not yet latched, oldest first (R315). A command latches every line it raises, so that none is left
  between commands. -/
  lines : List FaultReport := []
  /-- Dies whose watchdog line is asserted (R22, R318, R330). -/
  dogs : List Nat := []
  /-- Class of the Fatal fault; 0 if none (R340). -/
  fatal : Nat := 0
  alive : AliveSt := .notStarted
  /-- Level of the ALIVE output. -/
  aliveLevel : Bool := false
  /-- Records held, in order of seq (R333). -/
  records : List EvRecord := []
  nextSeq : Nat := 0
  /-- The recorder reloads from its mirror, and records wait, oldest first (R339). -/
  reloading : Bool := false
  held : List EvRecord := []
  /-- Records of die 1 that wait for the die-to-die link (R13), oldest first. -/
  heldDie1 : List EvRecord := []
  /-- Records queued for the mirror, by seq (R333). -/
  mirrorQueue : List Nat := []
  flashFailed : Bool := false
  deriving DecidableEq, Repr

/-! ## 13: the dictionary and the field network -/

/-- A mailbox slot (R359, R360). -/
structure MbxSlot where
  state : Nat := 0
  bytes : List Byte := []
  deriving DecidableEq, Repr

/-- The last response sent to a source (R354). -/
structure LastResp where
  transaction : Nat := 0
  bytes : List Byte := []
  time : Nat := 0
  deriving DecidableEq, Repr

/-- An open segmented write (R358). -/
structure Transfer where
  /-- `256` for the mailbox, otherwise the sender's node ID. -/
  source : Nat := 0
  key : Nat := 0
  bytes : List Byte := []
  time : Nat := 0
  deriving DecidableEq, Repr

/-- The dictionary (R342 to R372). -/
structure Dict where
  /-- Values in force of the entries that hold one, by `256 × index + subindex`; an entry not listed holds its default. -/
  vals : KV Nat := []
  /-- Pending values of boundary entries, in order of their last writes (R345). -/
  pend : List (Nat × Nat) := []
  /-- Strings and domains written. -/
  blobs : KV (List Byte) := []
  /-- Entries whose stored value fails its complement (R347, R332). -/
  bad : List Nat := []
  /-- The write journal: the last value written to each entry since power good (R347), and the number of writes in it. -/
  journal : KV Nat := []
  journalCount : Nat := 0
  transfers : List Transfer := []
  /-- Last responses, by source: `256` for the mailbox, otherwise the node ID. -/
  last : KV LastResp := []
  /-- Times at which readiness bits set, in EVT ticks, by bit (R370). -/
  readyTime : KV Nat := []
  /-- The compute bits have set once since power good (R369). -/
  computeOnce : Bool := false
  /-- The compute bits stay clear until the next power good, for a loss that no rule repairs (R12, R251, R369). -/
  computeBarred : Bool := false
  /-- A self-test has failed and none has passed since: the compute bits stay clear (R181). -/
  testFailed : Bool := false
  deriving DecidableEq, Repr

/-- A frame waiting for a transmit opportunity on the field network (R364). -/
inductive FieldFrame where
  | chain (src : Nat)
  /-- A response, to the address its request came from (R363). -/
  | response (dst : FieldAddr) (bytes : List Byte)
  | notify
  deriving DecidableEq, Repr

/-- Mailbox, MSI-X and field network (R359 to R367, R378). -/
structure Comm where
  slots : KV MbxSlot := []
  /-- Messages taken and not yet processed, in doorbell order, each with its slot (R360); slot 16 marks one whose slot a reset of the
  port has cleared (R361). -/
  queue : List (Nat × List Byte) := []
  irqEnable : Bool := false
  /-- Masked vectors, pending vectors and messages sent per vector (R378). The standard's reset leaves every vector masked. -/
  masked : List Nat := List.range 32
  pba : List Nat := []
  sent : KV Nat := []
  /-- Frames waiting for PLCA (R364). -/
  outbox : List FieldFrame := []
  /-- Bytes of the last message put on the field network (R355). -/
  lastSent : List Byte := []
  /-- Where it was sent to (R363). -/
  lastTo : FieldAddr := {}
  /-- Sender's address of the last chain frame from node 0 (R363). -/
  chainFrom : FieldAddr := {}
  addrIn : Bool := false
  addrOut : Bool := false
  transmitting : Bool := false
  /-- EVT time of the last notify sent, and whether a change since is to be notified (R367). -/
  notifyAt : Option Nat := none
  notifyDue : Bool := false
  /-- The same for MSI-X vector 1 (R378). -/
  irq1At : Option Nat := none
  irq1Due : Bool := false
  /-- Addresses and data of the MSI-X table, by offset in it (R375). -/
  msix : KV Byte := []
  deriving DecidableEq, Repr

/-! ## 14: links -/

/-- The host port (R373 to R379). -/
structure HostLink where
  up : Bool := false
  rate : Nat := 0
  width : Nat := 0
  /-- Highest rate the port trains to until PERST# (R396). -/
  maxRate : Nat := 128
  perst : Bool := true
  d3 : Bool := false
  /-- log2 of the size of BAR 4 in bytes: 36 to 43 (R375). -/
  barLog : Nat := 43
  /-- Posted writes held for a migrating page (R377): offset and bytes. -/
  held : List (Nat × List Byte) := []
  /-- Doorbells that wait for posted writes before them (R376). -/
  bells : List (BitVec 32 × Bar2Writes) := []
  /-- Reads that wait, for posted writes before them (R376) or for a page to be rebuilt (R250): offset and length. -/
  heldReads : List (Nat × Nat) := []
  /-- The Unsupported Request bit of AER's uncorrectable error status (R373, R377). -/
  aerUr : Bool := false
  /-- Maximum payload in bytes: 128 to 1,024 (R373). -/
  maxPayload : Nat := 128
  /-- Last completion returned to a host read: status (0 ok, 1 Unsupported Request, 2 poisoned) and data (R377). -/
  completion : Nat × List Byte := (0, [])
  deriving DecidableEq, Repr

/-- A CXL link (R380 to R382). -/
structure CxlLink where
  up : Bool := false
  rate : Nat := 0
  width : Nat := 0
  /-- The port's one HDM decoder, host-only coherent and not interleaved (R380, R381): base and size of the device addresses it
  decodes. -/
  hdm : Option (Nat × Nat) := none
  deriving DecidableEq, Repr

/-- A frame sent and not acknowledged (R387), or queued. -/
structure TxFrame where
  dst : Nat := 0
  kind : Nat := 0
  psn : Nat := 0
  group : Nat := 0
  epoch : Nat := 0
  step : Nat := 0
  sequence : Nat := 0
  segment : Nat := 0
  flags : Nat := 0
  payload : List Byte := []
  deriving DecidableEq, Repr

/-- A lane of a Brine port (R385 to R389). -/
structure LaneSt where
  live : Bool := false
  retired : Bool := false
  /-- Next psn toward each node. -/
  psn : KV Nat := []
  /-- Frames not yet acknowledged, oldest first. -/
  unacked : List TxFrame := []
  /-- Highest psn received in order from each node, plus 1. -/
  rxNext : KV Nat := []
  /-- Frames received from each node since an acknowledgement was sent (R387). -/
  rxDue : KV Nat := []
  /-- The last frame handed to the lane. -/
  lastTx : Option TxFrame := none
  deriving DecidableEq, Repr

/-- A group table entry (R390). `bad` says that it fails its complement. -/
structure Group where
  valid : Bool := false
  p : Nat := 0
  rank : Nat := 65535
  epoch : Nat := 0
  members : List Nat := []
  bad : Bool := false
  deriving DecidableEq, Repr

/-- A collective in progress (R394): the pieces received, and own ones, by `2^32 × rank + segment`; segments from 2^31 are those of
results. -/
structure Collective where
  pos : Nat := 0
  group : Nat := 0
  sequence : Nat := 0
  pieces : KV (List Byte) := []
  /-- How many segments a contribution has, once its last one is in: by rank; by 256 + rank for a result. -/
  counts : KV Nat := []
  /-- The scale and attempt of the result are settled, and so many of its pieces are stored, each a seal unit (R294). -/
  settled : Bool := false
  stored : Nat := 0
  deriving DecidableEq, Repr

/-- Links and groups (R373 to R398). -/
structure Links where
  host : HostLink := {}
  cxl : KV CxlLink := []
  /-- Lanes, by `4 × port + lane`. -/
  lanes : KV LaneSt := []
  /-- Ports out of service (R389). -/
  portsOut : List Nat := []
  /-- Live-lane masks of far ends, by `65536 × port + node` (R388). -/
  farMask : KV Nat := []
  groups : KV Group := []
  collectives : List Collective := []
  /-- Contributions that arrived before this member's descriptor started: header and payload. -/
  early : List BrineHdr := []
  deriving DecidableEq, Repr

/-! ## 11: resilience -/

/-- A seal unit this member has sent (R294): its holders that have acknowledged the deltas, its sequence number. -/
structure SealUnit where
  number : Nat := 0
  /-- The step index and the number within the step that its frames show (R385). -/
  step : Nat := 0
  seq : Nat := 0
  /-- Deltas: parity holder rank, parity page, offset, bytes. -/
  deltas : List (Nat × Nat × Nat × List Byte) := []
  acked : List Nat := []
  /-- Deltas may still join it. -/
  filling : Bool := false
  /-- The apply chunk it carries, if any. -/
  chunk : Option (Nat × Nat) := none
  deriving DecidableEq, Repr

/-- A delta this member holds unapplied for another member (R294): sender rank, unit, address, bytes. -/
structure HeldDelta where
  rank : Nat := 0
  unit : Nat := 0
  addr : Nat := 0
  bytes : List Byte := []
  /-- Its frame's segment number, and whether that is the unit's last. -/
  segment : Nat := 0
  last : Bool := false
  deriving DecidableEq, Repr

/-- The crust (R291 to R305). -/
structure Crust where
  /-- Units sent and not sealed (R294). -/
  units : List SealUnit := []
  nextUnit : Nat := 0
  /-- The step in which units were numbered last, and the next number within it (R385). -/
  unitStep : Nat := 0
  unitSeq : Nat := 0
  /-- Units whose seal has reached this holder: sender rank and unit, as `65536 × step + number within the step`, newest first. -/
  sealsSeen : List (Nat × Nat) := []
  heldDeltas : List HeldDelta := []
  /-- Mirrors this member holds for its predecessor, by point 1 to 4 (R296); those of point 4 in the order they came. -/
  mirrors : KV (List Byte) := []
  /-- Mirrors of the lost member that its successor sends this spare, by point (R301). -/
  own : KV (List Byte) := []
  /-- Segments of mirrors that are not whole yet, by `2^32 × (8 × sender's rank + point) + segment`, and their number once the last is
  in, by `8 × rank + point`. -/
  parts : KV (List Byte) := []
  partCount : KV Nat := []
  /-- Mirrors sent and not acknowledged: points. -/
  mirrorWait : List Nat := []
  /-- Consecutive heartbeat periods missed, by rank (R299), and heartbeats received in this period. -/
  missed : KV Nat := []
  heard : List Nat := []
  /-- Ranks counted lost (R299), and those of them whose loss has been dealt with (R300, R301, R303). -/
  lost : List Nat := []
  handled : List Nat := []
  /-- The rebuild in progress: lost rank, the spare's preference slot (R300). -/
  rebuilding : Option (Nat × Nat) := none
  /-- The lost rank for which no hot spare was eligible, so that one may be added (R300). -/
  unserved : Option Nat := none
  /-- Groups and node addresses whose acknowledgement of an epoch change is awaited, as `65536 × group + node` (R304). -/
  epochWait : List Nat := []
  /-- Changes of the crust group's epoch that wait on a spare until it has mapped the lost member's pages (R301). -/
  heldChange : List BrineHdr := []
  /-- A resync runs (R298), or is due at the next step start. -/
  resync : Bool := false
  resyncDue : Bool := false
  /-- Segments of reduced streams that this member has sent, forwarded or received, a bit each, by `2^24 × stream + page`: streams 0 to 7
  are the parity of a rank, 256 + r the covered pages of rank r (R298, R301, R395). -/
  passed : KV Nat := []
  /-- Rank this module takes as a spare (R300). -/
  taking : Option Nat := none
  withdrawn : Bool := false
  deriving DecidableEq, Repr

/-- A snapshot in the stockpile (R306, R309). -/
structure Snapshot where
  step : Nat := 0
  image : List Byte := []
  /-- Pages copied so far, with their bytes: page, the listed cells of it. -/
  pages : List (Nat × List Host.Cell) := []
  complete : Bool := false
  bytes : Nat := 0
  deriving DecidableEq, Repr

/-- The stockpile (R306 to R309, R452, R453). Its contents outlive power. -/
structure Stock where
  snaps : List Snapshot := []
  /-- The snapshot being written, and the covered pages still to copy in ascending order (R307). -/
  writing : Option Snapshot := none
  todo : List Nat := []
  imageWritten : Bool := false
  /-- A `stock.now` request is held (R308). -/
  held : Bool := false
  /-- The restore in progress: step index (R309). -/
  restoring : Option Nat := none
  /-- Bytes written over the module's life, and whether the 90 % Warning has been written (R453). -/
  lifeBytes : Nat := 0
  wornNoted : Bool := false
  deriving DecidableEq, Repr

/-! ## 16: boot and security -/

/-- A record of an identity ring (R428): next and whether complement and CRC hold. -/
structure RingRec where
  next : Nat := 0
  valid : Bool := true
  /-- Its place among the ring's 4,096. -/
  slot : Nat := 0
  deriving DecidableEq, Repr

/-- An operator key slot (R434). -/
structure OpKey where
  key : List Byte := []
  /-- Height: 10, 16 or 20. -/
  height : Nat := 10
  lastIndex : Option Nat := none
  deriving DecidableEq, Repr

/-- What lives through power cycles on die 0 and in the flash (R333, R420, R424, R428, R434, R452). -/
structure NonVolatile where
  /-- Image banks A and B. -/
  bankA : List Byte := Config.factoryBankA
  bankB : List Byte := Config.factoryBankB
  /-- Boot selector and whether its complement holds (R423). -/
  selector : Nat := 0
  selectorOk : Bool := true
  /-- Bank reads that fail (R423 code 6). -/
  readFailA : Bool := false
  readFailB : Bool := false
  /-- Revocation fuses, [3:0] (R420). -/
  fuses : Nat := 0
  /-- The 64 one-time entries of the anti-rollback counter, as 32-bit words (R424). -/
  otp : List Nat := List.replicate 64 0
  ringS0 : List RingRec := [{}]
  ringS1 : List RingRec := [{}]
  /-- Slots of S0 and S1 whose records fail their read-back (R429). -/
  ringBad0 : List Nat := []
  ringBad1 : List Nat := []
  opKeys : KV OpKey := []
  /-- The operator key table matches its complement (R434). -/
  opKeysOk : Bool := true
  opGen : Nat := 0
  /-- Power-good count (R339). -/
  boot : Nat := 0
  /-- The recorder's mirror and seq reservation mark (R333, R339). -/
  mirror : List EvRecord := []
  mark : Nat := 0
  /-- seqs of mirror records whose CRC fails (R339). -/
  mirrorBad : List Nat := []
  /-- s of the last clear (R338). -/
  lastClear : Option Nat := none
  /-- sec.rollback_auto (R437). -/
  rollbackAuto : Bool := true
  deriving DecidableEq, Repr

/-- The attestation key of this boot (R431). -/
structure AttestKey where
  /-- Next one-time signature, 0 to 1,024. -/
  index : Nat := 0
  /-- Identity index of its certificate. -/
  certIndex : Nat := 0
  /-- Its state index fails its complement (R431). -/
  bad : Bool := false
  deriving DecidableEq, Repr

/-- A report being signed: values in force when signing began (R432). -/
structure ReportJob where
  index : Nat := 0
  toAddress : Option Nat := none
  bytes : List Byte := []
  deriving DecidableEq, Repr

/-- Boot, staging and attestation (R418 to R438). -/
structure Security where
  /-- 0 before boot; 1, 2, 3 as sec.boot_state (R437). -/
  bootState : Nat := 0
  bankBooted : Nat := 255
  rejectA : Nat := 0
  rejectB : Nat := 0
  /-- svn, revoke field, version words and digest of the running image. -/
  svn : Nat := 0
  revoke : Nat := 0
  fwMajor : Nat := 1
  fwMinor : Nat := Config.fwMinor
  fwBuild : Nat := Config.fwBuild
  digest : Nat := 0
  fwStarted : Bool := false
  /-- EVT time at which the firmware started (R418). -/
  fwTick : Nat := 0
  attest : Option AttestKey := none
  job : Option ReportJob := none
  report : List Byte := []
  reportState : Nat := 0
  /-- The one-time entry that is being programmed (R424, R438). -/
  otpWriting : Option Nat := none
  /-- The image being staged: bytes, and the bank it goes to; `check` is recovery's check in place (R425, R426). -/
  staging : Option (List Byte × Bool × Bool) := none
  deriving DecidableEq, Repr

/-! ## The whole -/

/-- The module. -/
structure State where
  /-- Commands waiting, first in, first out. -/
  pending : List Instr := []
  clk : Clocks := {}
  pwr : Power := {}
  cores : KV CoreSt := []
  clusters : KV ClusterSt := []
  rep : Repair := {}
  scale : Scaling := {}
  rake : Rake := {}
  prog : Prog := {}
  train : Train := {}
  mem : Memory := {}
  arb : Arb := {}
  flt : Faults := {}
  dict : Dict := {}
  comm : Comm := {}
  links : Links := {}
  crust : Crust := {}
  stock : Stock := {}
  nv : NonVolatile := {}
  sec : Security := {}
  deriving DecidableEq, Repr

/-- The module as delivered, with no input applied: every field at the default written in its structure. -/
def State.reset : State := {}

end Sys2Proof.Machine
end

