-- ==== Sys2Proof/Machine/Ops.lean ====
section
/-! DEFINITION. The named operations that the meanings share: dictionary values, time, readiness, vectors, memory bytes and the
residency map, the event recorder, error responses and Brine transmission. -/

namespace Sys2Proof.Machine

/-! ## Numbers -/

/-- A bit of a number set or cleared. -/
def setBitN (n b : Nat) (on : Bool) : Nat :=
  if n.testBit b = on then n else if on then n + 2 ^ b else n - 2 ^ b

/-- Addition that saturates at the largest value of a width (R127, R156, R242, R267, R340, R371, R397). -/
def satAdd (w v n : Nat) : Nat := min (v + n) (2 ^ w - 1)

/-- Bits `lo` to `lo + len − 1`. -/
def bitsOf (n lo len : Nat) : Nat := n / 2 ^ lo % 2 ^ len

/-- The number of bits set. -/
def popCount : Nat → Nat → Nat
  | 0, _ => 0
  | k + 1, n => n % 2 + popCount k (n / 2)

/-- Sum of a list. -/
def sumNat (l : List Nat) : Nat := l.foldl (· + ·) 0

/-- Element `i` replaced. -/
def setAt {α : Type} (l : List α) (i : Nat) (v : α) : List α := l.set i v

/-- Width in bits of a scalar type code (R343). -/
def typeBits (ty : Nat) : Nat :=
  match ty with
  | 1 => 8 | 2 => 16 | 3 => 32 | 4 => 64 | 5 => 32 | 6 => 32 | 7 => 8 | 8 => 16 | 9 => 32 | 10 => 64
  | _ => 0

/-! ## Dictionary values (R342 to R347) -/

/-- The table row of an entry, by `256 × index + subindex`. -/
def entryRow? (k : Nat) : Option EntryRow :=
  entryRows.find? fun r => decide (r.idxLo ≤ k / 256) && decide (k / 256 ≤ r.idxHi) && decide (r.subLo ≤ k % 256) && decide (k % 256 ≤ r.subHi)

/-- The default of an entry as its table gives it. -/
def entryDefault (k : Nat) : Nat :=
  match entryRow? k with
  | some r => r.dflt
  | none => 0

/-- The value in force that the dictionary holds for an entry. -/
def State.ent (s : State) (k : Nat) : Nat := Kv.getD s.dict.vals k (entryDefault k)

/-- Sets the value in force. -/
def State.setEnt (s : State) (k v : Nat) : State := { s with dict.vals := Kv.setD s.dict.vals k (entryDefault k) v }

/-- Adds to a counter entry of a width, saturating. -/
def State.bump (s : State) (w k n : Nat) : State := s.setEnt k (satAdd w (s.ent k) n)

/-- Draws a fresh index for a free value. -/
def State.draw (s : State) : State := { s with clk.freeNext := s.clk.freeNext + 1 }

/-! ## Time (R19, R23): EVT ticks of 32.768 kHz -/

/-- EVT ticks in so many seconds. -/
def ticksOfS (sec : Nat) : Nat := 32768 * sec

/-- Milliseconds in so many ticks, to the nearest: no rule says how R370's deadlines fall between ticks (DESIGN CHOICE, log 4). -/
def msOfTicks (t : Nat) : Nat := (t * 1000 + 16384) / 32768

/-- Whole microseconds in so many ticks. -/
def usOfTicks (t : Nat) : Nat := t * 1000000 / 32768

/-- The event time of MGMT. -/
def State.now (s : State) : Nat := s.clk.evtMgmt

/-- Physical cluster `9 × die + cluster` behind a logical cluster (R11, R12). -/
def State.physCluster (s : State) (k : Nat) : Nat := 9 * (k / 8) + Kv.getD s.rep.clusterPhys k (k % 8)

/-- The event-time counter of the domain in which a collector latches (R315, R334, R19). -/
def State.timeOf (s : State) (level unit : Nat) : Nat :=
  match level with
  | 0 => s.clk.evtArith.getD (s.physCluster (unit / 32)) 0
  | 1 => if unit / 64 = 0 then s.clk.evtCtrl0 else s.clk.evtCtrl1
  | 2 => if unit / 8 = 0 then s.clk.evtCtrl0 else s.clk.evtCtrl1
  | 3 => if unit = 0 then s.clk.evtCtrl0 else s.clk.evtCtrl1
  | _ => s.clk.evtMgmt

/-! ## MSI-X (R378) -/

/-- Raises a vector: a masked one is left pending, any other is sent. -/
def State.raiseVector (s : State) (v : Nat) : State :=
  if s.comm.masked.contains v then { s with comm.pba := listAdd s.comm.pba v }
  else { s with comm.sent := Kv.setD s.comm.sent v 0 (Kv.getD s.comm.sent v 0 + 1) }

/-! ## Readiness (R368 to R370) -/

/-- Whether a bit of ready.summary is set. -/
def State.isReady (s : State) (b : Nat) : Bool := (s.ent Ent.readySummary).testBit b

/-- What notify and vector 1 report has changed: vector 1 is due, and a notify if the module has an ID and sends them (R367, R378). -/
def State.changed (s : State) (p : Bool) : State :=
  if p then
    { s with
      comm.irq1Due := true,
      comm.notifyDue := s.comm.notifyDue || (s.ent Ent.fieldNodeId != 0xFF && s.ent Ent.fieldNotifyEnable == 1) }
  else s

/-- Sets or clears a bit of ready.summary; a bit that sets has its time recorded (R370), and a bit that changes is reported (R367). -/
def State.setReady (s : State) (b : Nat) (on : Bool) : State :=
  let was := s.isReady b
  let s1 := (s.setEnt Ent.readySummary (setBitN (s.ent Ent.readySummary) b on)).changed (was != on)
  if on then if was then s1 else { s1 with dict.readyTime := Kv.put s1.dict.readyTime b s1.now }
  else { s1 with dict.readyTime := Kv.del s1.dict.readyTime b }

/-- Whether a logical core's bit of ready.cores is set. -/
def State.coreReady (s : State) (c : Nat) : Bool := (s.ent (Ent.readyCores (c / 64))).testBit (c % 64)

/-- Sets or clears a logical core's bit of ready.cores. -/
def State.setCoreReady (s : State) (c : Nat) (on : Bool) : State :=
  s.setEnt (Ent.readyCores (c / 64)) (setBitN (s.ent (Ent.readyCores (c / 64))) (c % 64) on)

/-- Clears the two compute bits (R369). -/
def State.clearCompute (s : State) : State := (s.setReady 6 false).setReady 7 false

/-- Both compute bits are set. -/
def State.computeSet (s : State) : Bool := s.isReady 6 && s.isReady 7

/-- train.phase (R216). -/
def State.phase (s : State) : Nat := s.ent Ent.trainPhase

/-! ## Memory bytes and the residency map (R244, R256 to R258) -/

/-- First reserved page (R244). -/
def firstReserved : Nat := 0xFFFDC0
/-- Bytes of a page. -/
def pageBytes : Nat := 524288
/-- The page of a module address (R244). -/
def pageOf (a : Nat) : Nat := a / pageBytes

/-- The map entry of a page; a reserved page is mapped by the module (R244, R258). -/
def State.mapEntry (s : State) (p : Nat) : MapEntry :=
  if firstReserved ≤ p then
    if p < 2 ^ 24 then { v := true, tier := 0, device := (p - firstReserved) % 12, frame := (p - firstReserved) / 12 } else {}
  else Kv.getD s.mem.map p {}

/-- Key of a frame in the frame owner record (R256). -/
def frameKey (tier dev frame : Nat) : Nat := 2 ^ 20 * (16 * tier + dev) + frame

/-- The frame owner record when a page's entry becomes `e`: the page owns the frame of a mapped entry, and no other. -/
def ownFrames (l : KV Nat) (p : Nat) (e : MapEntry) : KV Nat :=
  let rest := l.filter fun f => f.2 != p
  if e.v then Kv.put rest (frameKey e.tier e.device e.frame) p else rest

/-- Outstanding transactions of a die. -/
def State.poolOf (s : State) (die : Nat) : List Txn := s.mem.outstanding.filter fun t => t.req.die.val == die

/-- Frames that a page owned and no longer does are released: each is free again once both dies have completed what they translated
before (R259). -/
def State.releaseFrames (s : State) (p : Nat) (e : MapEntry) : KV (Nat × Nat) :=
  let n := ((s.poolOf 0).length, (s.poolOf 1).length)
  if n = (0, 0) then s.mem.released
  else
    (s.mem.frames.filter fun f => f.2 == p && !(e.v && f.1 == frameKey e.tier e.device e.frame)).foldl (fun l f => Kv.put l f.1 n) s.mem.released

/-- Changes the map entry of an ordinary page, which leaves both translation caches first (R259); the frame owner record follows, by
which a page that loses its entry gives up its frame (R256, R266). -/
def State.setMapEntry (s : State) (p : Nat) (e : MapEntry) : State :=
  { s with
    mem.map := Kv.setD s.mem.map p {} e, mem.frames := ownFrames s.mem.frames p e, mem.released := s.releaseFrames p e,
    mem.tc0 := listErase s.mem.tc0 p, mem.tc1 := listErase s.mem.tc1 p }

/-- A truth value as a bit. -/
def bitN (b : Bool) : Nat := if b then 1 else 0

/-- The map entry's value word (R257). -/
def MapEntry.word (e : MapEntry) : Nat :=
  bitN e.v + e.tier * 2 + bitN e.ro * 8 + bitN e.img * 16 + bitN e.stp * 32 + bitN e.fz * 64 + bitN e.mig * 128 + bitN e.rb * 256
    + bitN e.cc * 512 + e.device * 4096 + e.frame * 65536 + e.gen * 2 ^ 36

/-- Pages that a byte range touches. -/
def pagesOf (a len : Nat) : List Nat :=
  if len = 0 then [] else (List.range (pageOf (a + len - 1) - pageOf a + 1)).map (pageOf a + ·)

/-- A byte range lies wholly in mapped pages (R266). -/
def State.rangeMapped (s : State) (a len : Nat) : Bool :=
  decide (a + len ≤ 2 ^ 43) && (pagesOf a len).all fun p => (s.mapEntry p).v

/-- A byte range lies wholly in mapped ordinary pages (R185, R265). -/
def State.rangeOrdinary (s : State) (a len : Nat) : Bool :=
  s.rangeMapped a len && decide (a + len ≤ firstReserved * pageBytes)

/-- The byte at a module address; an unlisted one reads as 0 (R262). -/
def State.ramByte (s : State) (a : Nat) : Byte := Kv.getD s.mem.ram a 0

/-- Bytes of a range. -/
def State.ramRead (s : State) (a len : Nat) : List Byte := (List.range len).map fun i => s.ramByte (a + i)

/-- Writes bytes in ascending order of address. -/
def ramPut : List Host.Cell → Nat → List Byte → List Host.Cell
  | m, _, [] => m
  | m, a, b :: t => ramPut (Kv.setD m a 0 b) (a + 1) t

/-- A 256-byte line does not lie wholly in a range. -/
def lineOutside (a len n : Nat) : Bool := !(decide (a ≤ 256 * n) && decide (256 * n + 256 ≤ a + len))

/-- Writes bytes at a module address. -/
def State.ramWrite (s : State) (a : Nat) (l : List Byte) : State :=
  { s with
    mem.ram := ramPut s.mem.ram a l,
    -- a line written over whole holds fresh data (R248)
    mem.poison := s.mem.poison.filter (lineOutside a l.length),
    mem.badMain := s.mem.badMain.filter (lineOutside a l.length),
    mem.badMirror := s.mem.badMirror.filter (lineOutside a l.length) }

/-- Drops every listed byte of a page, so that it reads as zeros (R262). -/
def State.zeroPage (s : State) (p : Nat) : State := { s with mem.ram := s.mem.ram.filter fun c => pageOf c.1 != p }

/-- The number at a module address, little-endian (R6). -/
def State.ramNat (s : State) (a len : Nat) : Nat := leNat (s.ramRead a len)

/-- A value of `n` bytes at an address matches the complement that follows it (R332). -/
def State.complOk (s : State) (a n : Nat) : Bool := decide (s.ramRead (a + n) n = flipBytes (s.ramRead a n))

/-- A value of `n` bytes whose complement is held at another place matches it. -/
def State.complOkAt (s : State) (a c n : Nat) : Bool := decide (s.ramRead c n = flipBytes (s.ramRead a n))

/-! ## Records of the event recorder (R333 to R336) -/

/-- Records the recorder holds (R340). -/
def evCapacity : Nat := 65536

/-- Puts a record in its place by sequence number, so that the oldest stands first (R336, R337). -/
def insertRecord (r : EvRecord) : List EvRecord → List EvRecord
  | [] => [r]
  | x :: t => if x.seq ≤ r.seq then x :: insertRecord r t else r :: x :: t

/-- Records in order of sequence number. -/
def sortRecords (l : List EvRecord) : List EvRecord := l.foldl (fun m r => insertRecord r m) []

/-- The record that a new one overwrites when the recorder is full (R336): the oldest of equal or lower severity that is not
protected. -/
def victim? (l : List EvRecord) (r : EvRecord) : Option EvRecord :=
  l.find? fun x => decide (x.severity ≤ r.severity) && x.kind != 3

/-- Puts a record with its sequence number into the recorder (R336), and queues it for the mirror, or flushes it there at once if
it is protected (R333). One at Warning or above raises vector 4 as it is written (R378). -/
def State.storeRecord (s : State) (r : EvRecord) : State :=
  let l := s.flt.records
  let prot := (l.filter fun x => x.kind == 3).length
  let kept : Option (List EvRecord) :=
    if r.kind = 3 ∧ 256 ≤ prot then some (l.eraseP fun x => x.kind == 3)
    else if l.length < evCapacity then some l
    else (victim? l r).map fun x => l.erase x
  match kept with
  | none => s.bump 64 (Ent.evDropped r.severity) 1
  | some l1 =>
    let l2 := insertRecord r l1
    let s1 := if 1 ≤ r.severity then s.raiseVector 4 else s
    if r.kind = 3 ∧ s.flt.flashFailed = false then
      { s1 with flt.records := l2, nv.mirror := (s.nv.mirror.filter fun x => l1.any fun y => y.seq == x.seq) ++ [r] }
    else { s1 with flt.records := l2, flt.mirrorQueue := s.flt.mirrorQueue ++ [r.seq] }

/-- Takes the next sequence number; at the reservation mark 1,024 more are reserved first (R339). -/
def State.takeSeq (s : State) : State :=
  { s with
    flt.nextSeq := s.flt.nextSeq + 1
    nv.mark := if s.nv.mark ≤ s.flt.nextSeq then s.nv.mark + 1024 else s.nv.mark }

/-- A numbered record is stored, or held while the recorder reloads (R339). -/
def State.fileRecord (s : State) (r : EvRecord) : State :=
  if s.flt.reloading then { s with flt.held := s.flt.held ++ [r] } else s.storeRecord r

/-- A record with the number, the boot and the clock's state that it is written under. -/
def State.stamp (s : State) (r : EvRecord) : EvRecord := { r with seq := s.flt.nextSeq, boot := s.nv.boot, frozen := s.clk.lost }

/-- Writes a record (R333 to R336). -/
def State.record (s : State) (r : EvRecord) : State := s.takeSeq.fileRecord (s.stamp r)

/-- Writes a record that a collector of a die latches. Die 1 reaches the recorder only through the die-to-die link (R13): until the link
is ready, the record keeps its number and waits. -/
def State.recordAt (s : State) (die : Nat) (r : EvRecord) : State :=
  if die = 1 ∧ s.isReady 3 = false then { s.takeSeq with flt.heldDie1 := s.flt.heldDie1 ++ [s.stamp r] } else s.record r

/-- The die-to-die link is ready: what die 1 has recorded reaches the recorder (R13). -/
def State.recordsOfDie1 (s : State) : State :=
  s.flt.heldDie1.foldl State.fileRecord { s with flt.heldDie1 := [] }

/-- A condition record of the module (kind 1): severity, the index of the entry that the event concerns, and its payload. -/
def State.condition (s : State) (sev code p0 p1 p2 : Nat) : State :=
  s.record { severity := sev, kind := 1, code := code, time := s.now, level := 4, p0 := p0, p1 := p1, p2 := p2 }

/-- A condition record with a logged address (R335). -/
def State.conditionAt (s : State) (sev code space addr p0 p1 p2 : Nat) : State :=
  s.record { severity := sev, kind := 1, code := code, time := s.now, level := 4, space := space, address := addr, p0 := p0, p1 := p1, p2 := p2 }

/-- The condition record of a repair (kind 1): it names the physical unit, and waits where its die is out of reach (R13, R334). -/
def State.repairRecord (s : State) (die sev code phys p0 p1 p2 : Nat) : State :=
  s.recordAt die
    { severity := sev, kind := 1, code := code, time := s.now, level := 4, physical := phys, p0 := p0, p1 := p1, p2 := p2 }

/-- The record's 60 bytes before its CRC (R334). -/
def EvRecord.body (r : EvRecord) : List Byte :=
  leBytes 4 r.seq ++ leBytes 1 r.severity ++ leBytes 1 r.kind ++ leBytes 2 r.code ++ leBytes 8 r.time ++ leBytes 2 r.boot
    ++ leBytes 1 r.level
    ++ leBytes 1 (bitN r.escalated + 2 * bitN r.queued + 4 * bitN r.passedUp + 8 * bitN r.counted + 16 * bitN r.frozen
        + 32 * bitN (r.space != 255) + 64 * bitN r.acked)
    ++ leBytes 2 r.unit ++ leBytes 2 r.physical ++ leBytes 8 r.address ++ leBytes 1 r.space ++ leBytes 1 r.cause
    ++ leBytes 2 r.count ++ leBytes 8 r.p0 ++ leBytes 8 r.p1 ++ leBytes 8 r.p2

/-- The record's 64 bytes. -/
def EvRecord.bytes (r : EvRecord) : List Byte := r.body ++ leBytes 4 (crc32c r.body)

/-! ## Fault classes (R320) and counting (R321) -/

/-- A row of the class table: base severity, N, T in seconds (0 for none), ceiling. -/
structure ClassRow where
  base : Nat
  n : Nat
  t : Nat
  ceiling : Nat
  deriving DecidableEq, Repr

/-- The class table (R320). -/
def classRow (c : Nat) : ClassRow :=
  match c with
  | 0x01 => ⟨0, 8, 3600, 2⟩ | 0x02 => ⟨0, 8, 3600, 2⟩ | 0x03 => ⟨0, 16, 3600, 2⟩ | 0x04 => ⟨0, 16, 3600, 2⟩
  | 0x05 => ⟨0, 64, 1, 1⟩ | 0x06 => ⟨0, 64, 86400, 2⟩ | 0x07 => ⟨1, 2, 86400, 2⟩ | 0x08 => ⟨2, 1, 0, 2⟩
  | 0x09 => ⟨2, 1, 0, 3⟩ | 0x0A => ⟨2, 1, 0, 2⟩ | 0x0B => ⟨0, 64, 86400, 2⟩ | 0x0C => ⟨1, 2, 86400, 2⟩
  | 0x0D => ⟨2, 1, 0, 2⟩ | 0x0E => ⟨0, 32, 60, 2⟩ | 0x0F => ⟨0, 4, 3600, 3⟩ | 0x10 => ⟨0, 2, 1, 2⟩
  | 0x11 => ⟨0, 1024, 1, 1⟩ | 0x12 => ⟨1, 8, 3600, 3⟩ | 0x13 => ⟨2, 1, 0, 2⟩ | 0x14 => ⟨2, 1, 0, 2⟩
  | 0x15 => ⟨2, 1, 0, 2⟩ | 0x16 => ⟨2, 1, 0, 2⟩ | 0x17 => ⟨2, 1, 0, 2⟩ | 0x18 => ⟨1, 4, 3600, 2⟩
  | 0x19 => ⟨3, 1, 0, 3⟩ | 0x1A => ⟨2, 1, 0, 3⟩
  | _ => ⟨0, 1, 0, 3⟩

/-- A memory source of a CXL device: sources of classes 0x0B and 0x0C are 32 × stack + pseudo-channel, or this plus the device. -/
def cxlSource : Nat := 4096

/-- N of a class for a source (R320, R340). -/
def State.classN (s : State) (c source : Nat) : Nat :=
  if c = 0x0B then (if source < cxlSource then s.ent Ent.memPcCeLimit else s.ent Ent.memCxlCeLimit)
  else if c = 0x0C then 2
  else Kv.getD s.dict.vals (Ent.classCountN (c - 1)) (classRow c).n

/-- T of a class, in seconds. -/
def State.classT (s : State) (c : Nat) : Nat :=
  if c = 0x0B ∨ c = 0x0C then s.ent Ent.memPcCeWindowS
  else Kv.getD s.dict.vals (Ent.classWindowS (c - 1)) (classRow c).t

/-- Level code (R319, R334). -/
def levelCode : Level → Nat
  | .pan => 0 | .core => 1 | .cluster => 2 | .die => 3 | .module => 4

/-- Whether a source is the one named. -/
def Source.is (x : Source) (c : Nat) (l : Level) (unit source : Nat) : Bool :=
  decide (x.cls = c) && decide (x.level = l) && decide (x.unit = unit) && decide (x.source = source)

/-- Times of a source's last faults, newest first. -/
def State.sourceTimes (s : State) (c : Nat) (l : Level) (unit source : Nat) : List Nat :=
  match s.flt.sources.find? (fun x => x.is c l unit source) with
  | some x => x.times
  | none => []

/-- Replaces a source's times; none are held as no source. -/
def State.setSource (s : State) (c : Nat) (l : Level) (unit source : Nat) (times : List Nat) : State :=
  let rest := s.flt.sources.filter fun x => !x.is c l unit source
  { s with flt.sources := if times = [] then rest else ⟨c, l, unit, source, times⟩ :: rest }

/-- The times of a source that lie within T of now, now among them. -/
def State.countTimes (s : State) (c : Nat) (l : Level) (unit source : Nat) : List Nat :=
  let now := s.timeOf (levelCode l) unit
  now :: (s.sourceTimes c l unit source).filter fun t => decide (now - t ≤ ticksOfS (s.classT c))

/-- Discards the sources of a retired unit (R322). -/
def State.dropSources (s : State) (l : Level) (unit : Nat) : State :=
  { s with flt.sources := s.flt.sources.filter fun x => !(decide (x.level = l) && decide (x.unit = unit)) }

/-! ## Error responses (R331, R350, R351) -/

/-- Writes the VIOLATION record of an error response and counts it (R331); the 1,024th within 1 s is recorded at Warning (R320,
R341). -/
def State.violation (s : State) (code space addr p0 : Nat) : State :=
  let times := s.countTimes 0x11 .module 0 0
  let full := decide (s.classN 0x11 0 ≤ times.length)
  let s1 := (s.setSource 0x11 .module 0 0 (if full then [] else times)).bump 64 Ent.faultViolations 1
  let s2 := s1.bump 64 (Ent.classFaults 0x10) 1
  s2.record { severity := if full then 1 else 0, kind := 2, code := 0x11, time := s2.now, level := 4, counted := full, address := addr,
              space := space, cause := code, count := times.length, p0 := p0 }

/-! ## Brine transmission (R384 to R389) -/

/-- brine.node. -/
def State.node (s : State) : Nat := s.ent Ent.brineNode

/-- A lane, by 4 × port + lane. -/
def State.lane (s : State) (i : Nat) : LaneSt := Kv.getD s.links.lanes i {}

/-- Changes a lane. -/
def State.setLane (s : State) (i : Nat) (l : LaneSt) : State := { s with links.lanes := Kv.setD s.links.lanes i {} l }

/-- A lane is live at this end (R388, R389). -/
def State.laneUp (s : State) (i : Nat) : Bool :=
  (s.lane i).live && !(s.lane i).retired && !s.links.portsOut.contains (i / 4)

/-- A lane is live at both ends of the path to a node, as last heard (R388). -/
def State.laneTo (s : State) (dst i : Nat) : Bool :=
  s.laneUp i && (Kv.getD s.links.farMask (65536 * (i / 4) + dst) 15).testBit (i % 4)

/-- Payload bytes queued on a lane toward a node. -/
def State.queuedTo (s : State) (dst i : Nat) : Nat :=
  sumNat (((s.lane i).unacked.filter fun f => f.dst == dst).map fun f => f.payload.length)

/-- The lane that takes the next segment to a node: fewest bytes queued, lowest number on a tie (R388). -/
def State.pickLane (s : State) (dst : Nat) : Option Nat :=
  ((List.range 32).filter (s.laneTo dst)).foldl (fun best i =>
    match best with
    | none => some i
    | some j => if s.queuedTo dst i < s.queuedTo dst j then some i else some j) none

/-- Traffic class of a kind (R386). -/
def brineClass (kind : Nat) : Nat :=
  match kind with
  | 0x01 => 1 | 0x09 => 2 | 0x0C => 2 | 0x0D => 3
  | _ => 0

/-- Kinds that are acknowledged and resent (R387): not acknowledgements, heartbeats or lane states. -/
def reliableKind (kind : Nat) : Bool := !(kind == 2 || kind == 3 || kind == 4 || kind == 14)

/-- A frame of a class meets frames of higher classes on its lane, which go first (R386): what it waits is a free value (log 16), in µs,
and adds to the port's class_wait_us. -/
def State.classWait (s : State) (i cls : Nat) : State :=
  if (s.lane i).unacked.any fun f => decide (brineClass f.kind < cls) then
    (s.bump 64 (Ent.brineClassWaitUs (i / 4) cls) (Config.timing s.clk.freeNext)).draw
  else s

/-- Puts a frame on a lane with the lane's next psn toward its destination (R385, R387). A frame that is never resent takes no
number, since a lost one would leave a gap for good. A module without a node address sends nothing (R384). -/
def State.sendOn (s0 : State) (i : Nat) (f : TxFrame) : State :=
  if s0.node = 0xFFFF then s0
  else
    let s := s0.classWait i (brineClass f.kind)
    let l := s.lane i
    let p := Kv.getD l.psn f.dst 0
    let g := { f with psn := p }
    let l1 := { l with psn := if reliableKind f.kind then Kv.setD l.psn f.dst 0 ((p + 1) % 2 ^ 24) else l.psn,
                       unacked := if reliableKind f.kind then l.unacked ++ [g] else l.unacked,
                       rxDue := Kv.del l.rxDue f.dst,
                       lastTx := some g }
    (s.setLane i l1).bump 64 (Ent.brineTxBytes (i / 4)) f.payload.length

/-- Sends one frame to a node over the lane that R388 picks; nothing without a live lane. -/
def State.sendFrame (s : State) (f : TxFrame) : State :=
  match s.pickLane f.dst with
  | none => s
  | some i => s.sendOn i f

/-- Sends a byte string in segments of 4,096 bytes, the last one flagged (R385). -/
def State.sendSegments : Nat → State → TxFrame → List Byte → State
  | 0, s, f, l => s.sendFrame { f with payload := l.take 4096, flags := f.flags + 2 }
  | n + 1, s, f, l =>
    if l.length ≤ 4096 then s.sendFrame { f with payload := l, flags := f.flags + 2 }
    else State.sendSegments n (s.sendFrame { f with payload := l.take 4096 }) { f with segment := f.segment + 1 } (l.drop 4096)

/-- Sends a byte string. -/
def State.sendBytes (s : State) (f : TxFrame) (l : List Byte) : State := State.sendSegments (l.length / 4096) s f l

/-- Sends a frame on every live lane (heartbeats, R395). -/
def State.sendAllLanes (s : State) (f : TxFrame) : State := ((List.range 32).filter s.laneUp).foldl (fun s i => s.sendOn i f) s

/-- A communication group's entry (R390). -/
def State.group (s : State) (g : Nat) : Group := Kv.getD s.links.groups g {}

/-- Node addresses of the other members of a group, in rank order. -/
def State.others (s : State) (g : Nat) : List Nat :=
  let e := s.group g
  ((e.members.take e.p).zipIdx.filter fun m => m.2 != e.rank).map (·.1)

/-- Members of a group; an undefined one counts as this module alone. -/
def State.groupP (s : State) (g : Nat) : Nat := if (s.group g).valid then (s.group g).p else 1

/-- A frame of a kind for a group, in the step and epoch in force (R385). -/
def State.frame (s : State) (kind g dst : Nat) : TxFrame :=
  { dst := dst, kind := kind, group := g, epoch := (s.group g).epoch, step := s.ent Ent.trainStepIndex % 65536 }

/-- Sends one frame of a kind to every other member of a group. -/
def State.sendGroup (s : State) (kind g : Nat) (payload : List Byte) : State :=
  (s.others g).foldl (fun s d => s.sendFrame { s.frame kind g d with payload := payload }) s

end Sys2Proof.Machine
end

