-- ==== Sys2Proof/Machine/Views.lean ====
section
/-! DEFINITION. The stored layouts of the module's own tables, and the bytes of the reserved pages that show them (R93, R136, R143,
R225, R256, R258, R287, R288, R310, R390). -/

namespace Sys2Proof.Machine

/-- A value followed by its complement; a damaged pair shows one complement bit wrong. -/
def withCompl (bad : Bool) (l : List Byte) : List Byte :=
  l ++ (if bad then (match flipBytes l with | [] => [] | b :: t => (b ^^^ 1#8) :: t) else flipBytes l)

/-- So many zero bytes. -/
def zeros (n : Nat) : List Byte := List.replicate n 0

/-- Two's complement of a width in bytes. -/
def twos (n : Nat) (x : Int) : Nat := (x % (2 ^ (8 * n) : Nat)).toNat

/-- Signed reading of an unsigned number of a width in bytes. -/
def ofTwos (n v : Nat) : Int := if v < 2 ^ (8 * n - 1) then (v : Int) else (v : Int) - (2 ^ (8 * n) : Nat)

/-! ## Scale records (R93), staged values (R95) -/

/-- The flags byte of a scale record (R93). -/
def ScaleRec.flags (r : ScaleRec) : Nat :=
  bitN r.backward + 2 * bitN r.grouped + 4 * bitN r.updWritten + 8 * bitN r.present + 16 * r.format

/-- The 160 bytes of a scale record. -/
def ScaleRec.bytes (r : ScaleRec) : List Byte :=
  withCompl r.bad ((r.amax.flatMap fun a => leBytes 4 a.toNat) ++ leBytes 1 (twos 1 r.t) ++ leBytes 1 r.count ++ leBytes 1 r.head
    ++ leBytes 1 r.flags ++ leBytes 1 r.attempt ++ zeros 1 ++ leBytes 2 r.layer ++ zeros 8)

/-- The scale record that 80 bytes of value spell. -/
def scaleRecOf (l : List Byte) : ScaleRec :=
  let f := leAt l 0x43 1
  { amax := (List.range 16).map fun i => BitVec.ofNat 32 (leAt l (4 * i) 4), t := ofTwos 1 (leAt l 0x40 1), count := leAt l 0x41 1,
    head := leAt l 0x42 1, backward := f.testBit 0, grouped := f.testBit 1, updWritten := f.testBit 2, present := f.testBit 3,
    format := bitsOf f 4 2, attempt := leAt l 0x44 1, layer := leAt l 0x46 2 }

/-- Records of a scale table's bytes, complements included, whose t holds the reserved value −128 (R32). -/
def reservedT (l : List Byte) : Bool := (List.range (l.length / 160)).any fun i => slice l (160 * i + 0x40) 1 == [0x80#8]

/-- The 8 bytes of a staged amax (R95). -/
def Staged.bytes (x : Staged) : List Byte := withCompl x.bad (leBytes 4 x.amax.toNat)

/-! ## Rake state (R143), update slots (R136) -/

/-- The value word of a Rake state entry. -/
def RakeSt.word (r : RakeSt) : Nat :=
  r.rung + 8 * r.floor + 64 * bitN r.marked + 256 * r.retreats + 2 ^ 16 * r.streak + 2 ^ 32 * r.hold + 2 ^ 48 * r.silent

/-- The 16 bytes of a Rake state entry. -/
def RakeSt.bytes (r : RakeSt) : List Byte := withCompl r.bad (leBytes 8 r.word)

/-- The Rake state that a value word spells. -/
def rakeStOf (w : Nat) : RakeSt :=
  { rung := bitsOf w 0 3, floor := bitsOf w 3 3, marked := w.testBit 6, retreats := bitsOf w 8 4, streak := bitsOf w 16 16,
    hold := bitsOf w 32 16, silent := bitsOf w 48 16 }

/-- The 8 bytes of an update slot pair. -/
def Norms.bytes (n : Norms) : List Byte := leBytes 4 n.updSq.toNat ++ leBytes 4 n.wSq.toNat

/-- A layer's Rake state. -/
def State.rakeOf (s : State) (l : Nat) : RakeSt := Kv.getD s.rake.layers l {}

/-- Changes a layer's Rake state. -/
def State.setRake (s : State) (l : Nat) (r : RakeSt) : State := { s with rake.layers := Kv.put s.rake.layers l r }

/-- The number of layers of the loaded program. -/
def State.layerCount (s : State) : Nat :=
  match s.prog.loaded with
  | some p => p.layers.length
  | none => 0

/-- The number of scale records of the loaded program. -/
def State.recordCount (s : State) : Nat :=
  match s.prog.loaded with
  | some p => p.scaleRecords
  | none => 0

/-- CRC-32C of the Rake state table, every mark counted as 0 (R142). -/
def State.rakeCrc (s : State) : Nat :=
  crc32c ((List.range s.layerCount).flatMap fun l => ({ s.rakeOf l with marked := false, bad := false } : RakeSt).bytes)

/-! ## Commit record (R225), update ledger (R230) -/

/-- The 128 bytes of the commit record. -/
def CommitRec.bytes (c : CommitRec) : List Byte :=
  withCompl c.bad (leBytes 8 c.step ++ leBytes 1 c.outcome ++ leBytes 1 c.lambda ++ zeros 2 ++ leBytes 4 c.clean ++ leBytes 8 c.samples
    ++ leBytes 8 c.stamp ++ leBytes 8 c.rngStep ++ leBytes 4 c.frozenCrc ++ leBytes 1 c.update ++ zeros 19)

/-- CRC-32C of a frozen mask (R222, R225). -/
def maskCrc (m : Nat) : Nat := crc32c (leBytes 8 m)

/-! ## Group table (R390) -/

/-- The 528 bytes of a group entry's value. -/
def Group.value (g : Group) : List Byte :=
  leBytes 1 (bitN g.valid) ++ zeros 1 ++ leBytes 2 g.p ++ leBytes 2 g.rank ++ zeros 2 ++ leBytes 4 g.epoch ++ zeros 4
    ++ (List.range 256).flatMap fun i => leBytes 2 (g.members.getD i 0xFFFF)

/-- The group entry that 528 bytes of value spell; rank is computed by the module (R391). -/
def groupOf (node : Nat) (l : List Byte) : Group :=
  let p := leAt l 2 2
  let ms := (List.range p).map fun i => leAt l (0x10 + 2 * i) 2
  { valid := leAt l 0 1 == 1, p := p, rank := match ms.findIdx? (· == node) with | some r => if node = 0xFFFF then 0xFFFF else r | none => 0xFFFF,
    epoch := leAt l 8 4, members := ms }

/-- CRC-32C of the whole group table (R288). -/
def State.groupsCrc (s : State) : Nat := crc32c ((List.range 256).flatMap fun g => withCompl (s.group g).bad (s.group g).value)

/-! ## Replay records (R287, R288) -/

/-- The 128-byte header value. -/
def ReplayRec.header (r : ReplayRec) : List Byte :=
  leBytes 8 r.step ++ leBytes 8 r.samples ++ leBytes 8 r.stamp ++ leBytes 8 r.rngStep ++ leBytes 8 r.keyLo ++ leBytes 8 r.keyHi
    ++ leBytes 32 r.hash ++ leBytes 1 r.lambda ++ leBytes 1 r.margin ++ leBytes 1 (bitN r.present) ++ leBytes 1 r.runGroup
    ++ leBytes 2 r.rank ++ leBytes 2 r.p ++ leBytes 4 r.epoch ++ leBytes 4 r.groupsCrc ++ leBytes 8 r.frozen ++ leBytes 4 r.clean
    ++ leBytes 2 r.layers ++ zeros 2 ++ leBytes 4 r.records ++ leBytes 4 r.params ++ zeros 8

/-- The 160 KiB slot. -/
def ReplayRec.bytes (r : ReplayRec) : List Byte :=
  withCompl r.bad r.header ++ ((List.range 256).flatMap fun i => if i < r.shapes.length then leWithCompl 4 (r.shapes.getD i 0) else zeros 8)
    ++ withCompl false ((List.range 4096).map fun i => if i < r.rungs.length then BitVec.ofNat 8 (r.rungs.getD i 0) else 0xFF#8)
    ++ withCompl false ((List.range 65536).map fun i => BitVec.ofNat 8 (twos 1 (Kv.getD r.ts i 0)))
    ++ zeros 22272

/-- The replay record that 160 KiB spell, if every complement holds (R290). -/
def replayRecOf (l : List Byte) : Option ReplayRec :=
  let h := slice l 0 128
  let sh := slice l 0x100 2048
  let rg := slice l 0x900 4096
  let ts := slice l 0x2900 65536
  let params := leAt h 0x74 4
  let okShapes := (List.range (min params 256)).all fun i => decide (slice sh (8 * i + 4) 4 = flipBytes (slice sh (8 * i) 4))
  if slice l 128 128 = flipBytes h ∧ slice l 0x1900 4096 = flipBytes rg ∧ slice l 0x12900 65536 = flipBytes ts ∧ okShapes then
    some { step := leAt h 0 8, samples := leAt h 8 8, stamp := leAt h 0x10 8, rngStep := leAt h 0x18 8, keyLo := leAt h 0x20 8,
           keyHi := leAt h 0x28 8, hash := leAt h 0x30 32, lambda := leAt h 0x50 1, margin := leAt h 0x51 1,
           present := (leAt h 0x52 1).testBit 0, runGroup := leAt h 0x53 1, rank := leAt h 0x54 2, p := leAt h 0x56 2,
           epoch := leAt h 0x58 4, groupsCrc := leAt h 0x5C 4, frozen := leAt h 0x60 8, clean := leAt h 0x68 4, layers := leAt h 0x6C 2,
           records := leAt h 0x70 4, params := params, shapes := (List.range (min params 256)).map fun i => leAt sh (8 * i) 4,
           rungs := (List.range (leAt h 0x6C 2)).map fun i => leAt rg i 1,
           ts := (List.range (leAt h 0x70 4)).filterMap fun i => if ofTwos 1 (leAt ts i 1) = 0 then none else some (i, ofTwos 1 (leAt ts i 1)),
           complete := true }
  else none

/-- A replay record gives the reserved value −128 for some t (R32). -/
def ReplayRec.reservedT (r : ReplayRec) : Bool := r.ts.any fun e => e.2 == -128

/-! ## Control image (R310) -/

/-- Entries of the step values section, in order. -/
def stepValueEntries : List Nat :=
  [Ent.trainStepIndex, Ent.trainCursorSamples, Ent.trainCursorStamp, Ent.rngStep, Ent.rngKeyLo, Ent.rngKeyHi, Ent.lossScaleExp,
   Ent.lossCleanSteps, Ent.commitFrozenMask, Ent.commitFrozenPending, Ent.trainRunGroup, Ent.trainBatchParam, Ent.crustGroup,
   Ent.progImageAddress]

/-- Pads to a multiple of 8 bytes. -/
def pad8 (l : List Byte) : List Byte := l ++ zeros ((8 - l.length % 8) % 8)

/-- A section: id, length of body, padded body. -/
def imageSection (id : Nat) (body : List Byte) : List Byte := leBytes 2 id ++ zeros 2 ++ leBytes 4 body.length ++ pad8 body

/-- The map list's word of a page (R310). -/
def mapListWord (p : Nat) (e : MapEntry) : Nat := p + e.tier * 2 ^ 24 + bitN e.ro * 2 ^ 26 + bitN e.cc * 2 ^ 27

/-- The replay record of the last step started; none started gives an empty record with the program's hash. -/
def State.lastReplay (s : State) : List Byte :=
  match s.train.lastStep.bind fun n => (Kv.find? s.train.ring (n % 64)).filter fun r => r.step == n with
  | some r => r.bytes
  | none => ({ hash := match s.prog.loaded with | some g => g.hash | none => 0 } : ReplayRec).bytes

/-- The control image as it stands. -/
def State.controlImage (s : State) : List Byte :=
  let secs :=
    imageSection 1 (stepValueEntries.flatMap fun k => leBytes 2 (k / 256) ++ leBytes 1 (k % 256) ++ zeros 5 ++ leBytes 8 (s.ent k))
      ++ imageSection 2 s.lastReplay
      ++ imageSection 3 ((List.range s.recordCount).flatMap fun i => (Kv.getD s.scale.recs i {}).bytes)
      ++ imageSection 4 ((List.range s.layerCount).flatMap fun l => (s.rakeOf l).bytes)
      ++ imageSection 5 ((List.range 256).flatMap fun g => withCompl (s.group g).bad (s.group g).value)
      ++ imageSection 6 ((s.mem.map.filter fun e => e.2.v).flatMap fun e => leBytes 8 (mapListWord e.1 e.2))
  let head := [0x4B#8, 0x5A#8, 0x43#8, 0x49#8] ++ leBytes 2 1 ++ leBytes 2 6 ++ leBytes 8 (32 + secs.length + 8)
    ++ leBytes 8 (s.ent Ent.trainStepIndex) ++ zeros 8
  head ++ secs ++ leBytes 4 (crc32c (head ++ secs)) ++ zeros 4

/-! ## The reserved pages as the host reads them (R258) -/

/-- Module addresses of the tables in the reserved pages. Places inside page 0xFFFFD5 are the model's own choice (log 6). -/
def mapBase : Nat := 0xFFFDC0 * pageBytes
def scaleTableBase : Nat := 0xFFFFC0 * pageBytes
def stagingBase : Nat := 0xFFFFD4 * pageBytes
def rakeTableBase : Nat := 0xFFFFD5 * pageBytes
def updateBase : Nat := 0xFFFFD5 * pageBytes + 0x10000
def commitBase : Nat := 0xFFFFD5 * pageBytes + 0x20000
def shapeBase : Nat := 0xFFFFD6 * pageBytes
def requestBase : Nat := 0xFFFFD6 * pageBytes + 0x10000

/-- The 16 bytes of a page's map entry (R256). -/
def State.mapEntryBytes (s : State) (p : Nat) : List Byte :=
  withCompl (s.mem.mapBad.contains p || s.mem.mapLost.contains p) (leBytes 8 (s.mapEntry p).word)

/-- Bytes of an update ledger mark: position and chunk (layout of the model, log 54). -/
def ledgerMark (k : Nat × Nat) : List Byte := leBytes 4 k.1 ++ leBytes 4 k.2

/-- The byte that a read of a module address returns: the tables' bytes in the reserved pages, and memory elsewhere. -/
def State.memByte (s : State) (a : Nat) : Byte :=
  if a < mapBase then s.ramByte a
  else if a < scaleTableBase then (s.mapEntryBytes ((a - mapBase) / 16)).getD (a % 16) 0
  else if a < stagingBase then
    ((Kv.find? s.scale.recs ((a - scaleTableBase) / 160)).map fun r => r.bytes.getD ((a - scaleTableBase) % 160) 0).getD 0
  else if a < rakeTableBase then
    ((Kv.find? s.scale.staged ((a - stagingBase) / 8)).map fun r => r.bytes.getD (a % 8) 0).getD 0
  else if a < updateBase then ((Kv.find? s.rake.layers ((a - rakeTableBase) / 16)).map fun r => r.bytes.getD (a % 16) 0).getD 0
  else if a < updateBase + 32768 then (Kv.getD s.rake.norms0 ((a - updateBase) / 8) {}).bytes.getD (a % 8) 0
  else if a < commitBase then (Kv.getD s.rake.norms1 ((a - updateBase - 32768) / 8) {}).bytes.getD (a % 8) 0
  else if a < commitBase + 128 then s.train.commit.bytes.getD (a - commitBase) 0
  else if a < commitBase + 128 + 8 * s.train.ledger.length then
    ((s.train.ledger[(a - commitBase - 128) / 8]?).map fun k => (ledgerMark k).getD ((a - commitBase) % 8) 0).getD 0
  else s.ramByte a

/-- Bytes that a read of a range returns. -/
def State.memRead (s : State) (a len : Nat) : List Byte := (List.range len).map fun i => s.memByte (a + i)

end Sys2Proof.Machine
end

