-- ==== Sys2Proof/Machine/Boundary.lean ====
section
/-! DEFINITION. Checks of dictionary values (R349 step 5), boundary-applied entries and what they start (R345), the step's flags and
abandon (R218, R219), the ends of a step (R216), snapshots falling due (R306, R308) and the invalid-operation Notices (R152). -/

namespace Sys2Proof.Machine

/-! ## Error lines (R315) -/

/-- Asserts an error line. -/
def State.raise (s : State) (r : FaultReport) : State := { s with flt.lines := s.flt.lines ++ [r] }

/-- An error of a class at a level and instance. -/
def fault (cls : Nat) (level : Level) (unit : Nat) : FaultReport :=
  { cls := cls, level := level, unit := unit, source := 0, physical := 65535, addr := 0, space := 255, cause := 0, detail := 0, atLeast := 0 }

/-- The rows of R332, as the sources of class INTEGRITY. -/
def intDescriptor : Nat := 0
def intShift : Nat := 1
def intScale : Nat := 2
def intTable : Nat := 3
def intMap : Nat := 4
def intRake : Nat := 5
def intCommit : Nat := 6
def intWindow : Nat := 7
def intReplay : Nat := 8
def intGroup : Nat := 9
def intDict : Nat := 10
def intKey : Nat := 11
def intSignature : Nat := 12
/-- Values outside the table whose mismatch draws an error response (R331). -/
def intOther : Nat := 13

/-- A complement mismatch of a row of R332 at an address. -/
def integrity (row : Nat) (level : Level) (unit space addr : Nat) : FaultReport :=
  { fault 0x10 level unit with source := row, space := space, addr := addr, cause := 5 }

/-! ## Range checks (R349 step 5, R352) -/

/-- Layer of a window entry (R153). -/
def layerOfKey (k : Nat) : Nat := k / 256 - 0xA000

/-- A layer of the loaded program. -/
def State.layer? (s : State) (l : Nat) : Option Layer := s.prog.loaded.bind fun p => p.layers[l]?

/-- Rung is on a ladder word's ladder (R139). -/
def onLadder (w r : Nat) : Bool := decide (r < 5) && w.testBit r
/-- Start rung, compiled floor and gradient flag of a ladder word (R139). -/
def ladderStart (w : Nat) : Nat := bitsOf w 8 3
def ladderFloor (w : Nat) : Nat := bitsOf w 12 3
def ladderGrad (w : Nat) : Bool := w.testBit 16

/-- An f32 pattern is a number from 0 to the number of another pattern. -/
def f32Within (v hi : Nat) : Bool :=
  let x := decode .fp32 v
  decide (x ≠ .nan) && !(x.lt (.fin false 0 0)) && !((decode .fp32 hi).lt x)

/-- A value fits its entry's width and table range (R343, R349). -/
def rowRangeOk (r : EntryRow) (v : Nat) : Bool :=
  if r.ty = 6 then decide (v < 2 ^ 32) && (decide (r.hi = 0xFFFFFFFF) || f32Within v r.hi)
  else decide (v < 2 ^ typeBits r.ty) && decide (r.lo ≤ v) && decide (v ≤ r.hi)

/-- Instances of a collector level (R319, R276). -/
def levelInstances (l : Nat) : Nat :=
  match l with
  | 0 => 512 | 1 => 128 | 2 => 16 | 3 => 2 | 4 => 1
  | _ => 0

/-- The host window's size: log2 of bytes (R375). -/
def State.barSize (s : State) : Nat := 2 ^ s.links.host.barLog

/-- Limits stated against other entries and against the program, checked against the values that will be in force (R352). -/
def State.limitOk (s : State) (eff : Nat → Nat) (k v : Nat) : Bool :=
  if k = Ent.rakeHoldMax then decide (eff Ent.rakeHoldBase ≤ v)
  else if k = Ent.rakeHoldBase then decide (v ≤ eff Ent.rakeHoldMax)
  else if k = Ent.rakeSatHi then f32Within (eff Ent.rakeSatLo) v
  else if k = Ent.rakeSatLo then f32Within v (eff Ent.rakeSatHi)
  else if k = Ent.rakeFlushHi then f32Within (eff Ent.rakeFlushLo) v
  else if k = Ent.rakeFlushLo then f32Within v (eff Ent.rakeFlushHi)
  else if k = Ent.rakeSilentWindow then decide (v = 0) || decide (v < eff Ent.rakeSilentSevere)
  else if k = Ent.rakeSilentSevere then decide (eff Ent.rakeSilentWindow = 0) || decide (eff Ent.rakeSilentWindow < v)
  else if k = Ent.scaleResetHistory then decide (v = 0xFFFFFFFF) || decide (v < s.recordCount)
  else if k = Ent.scaleInspectIndex then decide (v < s.recordCount)
  else if k = Ent.lossInitialExp then decide (v ≤ s.ent Ent.lossMaxExp)
  else if k = Ent.hostWindowBase then decide (v % s.barSize = 0)
  else if k = Ent.crustSpanPages then decide (v % 8 = 0)
  else if k = Ent.faultSelInstance then decide (v < levelInstances (s.ent Ent.faultSelLevel))
  else if 0xA000 ≤ k / 256 ∧ k % 256 = 5 then
    match s.layer? (layerOfKey k) with
    | some l => onLadder l.ladder v && decide (ladderFloor l.ladder ≤ v)
    | none => false
  else true

/-- The value an entry will have once pending values apply (R352). -/
def State.effective (s : State) (k : Nat) : Nat :=
  match s.dict.pend.find? (fun p => p.1 == k) with
  | some p => p.2
  | none => s.ent k

/-! ## What boundary-applied values start -/

/-- Sets a record back to count 0 (R126, R127), with its reason (R102). MARK, DESIGN CHOICE (log 71): its t goes to 0 with the count in
every case, as R126 says of an integrity failure alone. -/
def State.resetRecord (s : State) (i reason : Nat) : State :=
  { s with scale.recs := Kv.put s.scale.recs i { Kv.getD s.scale.recs i {} with count := 0, t := 0, bad := false, reason := some reason } }

/-- The envelope E of the mode in force, in watts (R399); Standard that stands in for a Spring too warm to start holds 1,150 W (R400). -/
def State.envelope (s : State) : Nat :=
  if s.ent Ent.powerModeInForce = 0 then 850
  else if s.ent Ent.powerModeInForce = 2 then 1400
  else if s.pwr.springWaits then 1150
  else s.ent Ent.powerCapW

/-- A_max of the mode in force, in nanojoules (R403). -/
def State.accountMax (s : State) : Nat := 2 * (1620 - s.envelope) * 1000000000

/-- FP32 pattern of a natural number over a power-of-ten divisor, rounded once. -/
def f32OfRatio (n d : Nat) : Nat :=
  if n = 0 ∨ d = 0 then 0
  else
    let q := divMag n 0 d 0
    (roundF32 (.fin false q.1 q.2)).1.toNat

/-- power.peak_account_max_j follows the mode and cap, and the account never exceeds it (R403, R417). -/
def State.syncAccount (s : State) : State :=
  ({ s with pwr.account := min s.pwr.account s.accountMax }.setEnt Ent.powerPeakAccountMaxJ (f32OfRatio s.accountMax 1000000000)).setEnt
    Ent.powerPeakAccountJ (f32OfRatio (min s.pwr.account s.accountMax) 1000000000)

/-- The inlet's temperature, in thousandths of a degree (R409); key 2000 of the sensors. -/
def inletKey : Nat := 2000
def State.inletMilliC (s : State) : Int := (Kv.getD s.pwr.sensors inletKey {}).milliC

/-- Applies an energy mode at a boundary (R400): Spring over a warm inlet gives Standard at 1,150 W and a Warning. -/
def State.applyMode (s : State) (mode : Nat) : State :=
  if mode = 2 ∧ 30000 < s.inletMilliC then
    let s1 := { s with pwr.springWaits := true, pwr.springCool := 0 }
    (s1.setEnt Ent.powerModeInForce 1).syncAccount.condition 1 0x2000 2 1 0
  else
    let s1 := { s with pwr.springWaits := false, pwr.springCool := 0 }
    (s1.setEnt Ent.powerModeInForce mode).syncAccount

/-- A mode of the crust takes effect (R297). -/
def State.applyCrustMode (s : State) (v : Nat) : State :=
  let was := s.ent Ent.crustMode
  let s1 := s.setEnt Ent.crustMode v
  if v = 0 then { (s1.setEnt Ent.crustState 0) with crust := { nextUnit := s.crust.nextUnit, unitStep := s.crust.unitStep, unitSeq := s.crust.unitSeq } }
  else if was = 0 then { (s1.setEnt Ent.crustState 1) with crust.resyncDue := true }
  else s1

/-- Bytes of the snapshot store (R309, R452). -/
def flashBytes : Nat := 7999643484160

/-- Pages that a snapshot holds: every crust-covered page, whatever crust.mode reads (R306). -/
def State.coveredPages (s : State) : List Nat := (s.mem.map.filter fun e => e.2.v && e.2.cc).map (·.1)

/-- Drops the oldest complete snapshots, never the newest, until a new one fits (R309). -/
def makeRoom : Nat → List Snapshot → Nat → List Snapshot
  | 0, l, _ => l
  | n + 1, l, need =>
    if sumNat (l.map (·.bytes)) + need ≤ flashBytes then l
    else match l with
      | [] => []
      | [x] => [x]
      | _ :: t => makeRoom n t need

/-- Starts a snapshot at a boundary (R306, R308, R309). -/
def State.startSnapshot (s : State) : State :=
  if s.ent Ent.stockState = 4 then s
  else
    let image := s.controlImage
    let pages := s.coveredPages
    let need := image.length + pages.length * pageBytes
    let kept := makeRoom s.stock.snaps.length s.stock.snaps need
    if sumNat (kept.map (·.bytes)) + need ≤ flashBytes then
      { (s.setEnt Ent.stockState 1) with
          stock.snaps := kept, stock.todo := pages, stock.imageWritten := false, stock.held := false,
          stock.writing := some { step := s.ent Ent.trainStepIndex, image := image, bytes := need },
          train.snapHold := true }
    else { (s.setEnt Ent.stockState 3).condition 1 0x7200 (s.ent Ent.trainStepIndex) need 0 with stock.held := false }

/-- A request through stock.now is held for the next boundary at which no snapshot is being written (R306, R308). -/
def State.requestSnapshot (s : State) : State := { s with stock.held := true }

/-- Every layer's streak, hold, retreats and silent count go to 0 (R156). -/
def State.rakeReset (s : State) : State :=
  { s with rake.layers := s.rake.layers.map fun e => (e.1, { e.2 with streak := 0, hold := 0, retreats := 0, silent := 0 }) }

/-- A boundary value takes effect: its value is set, and what it starts starts. A reset of the Rake is for the whole run group: it waits for
the group's next boundary (R156). -/
def State.applyBoundary (s : State) (k v : Nat) : State :=
  if k = Ent.scaleResetHistory then
    if v = 0xFFFFFFFF then (List.range s.recordCount).foldl (fun s i => s.resetRecord i 2) s else s.resetRecord v 2
  else if k = Ent.rakeReset then (if s.groupP (s.ent Ent.trainRunGroup) ≤ 1 then s.rakeReset else { s with rake.resetAsked := true })
  else if k = Ent.resilRakeAdopt then { s with rake.adopt := true }
  else if k = Ent.crustResync then { s with crust.resyncDue := true }
  else if k = Ent.stockNow then s.requestSnapshot
  else if k = Ent.powerMode then (s.setEnt k v).applyMode v
  else if k = Ent.powerCapW then (s.setEnt k v).syncAccount
  else if k = Ent.crustMode then s.applyCrustMode v
  else if k = Ent.lossMaxExp then (s.setEnt k v).setEnt Ent.lossScaleExp (min (s.ent Ent.lossScaleExp) v)
  else if 0xA000 ≤ k / 256 ∧ k % 256 = 5 then s.setRake (layerOfKey k) { s.rakeOf (layerOfKey k) with floor := v }
  else s.setEnt k v

/-- One pending value comes to take effect: checked again against the values in force, and applied or refused with the VIOLATION
record that a write at that moment would have had (R345). -/
def State.settlePending (s : State) (k v : Nat) : State :=
  let ok := (match entryRow? k with | some r => rowRangeOk r v | none => false) && s.limitOk s.ent k v
  if ok then s.applyBoundary k v else s.violation 3 1 k 0

/-- Spring that waits for a cool inlet applies, once the inlet has stayed cool for 10 s, 100 samples, up to this boundary (R400). -/
def State.springBoundary (s : State) : State :=
  if s.pwr.springWaits = true ∧ 100 ≤ s.pwr.springCool then s.applyMode 2 else s

/-- Every pending value takes effect, in order of writing. -/
def State.applyPending (s : State) : State :=
  (s.dict.pend.foldl (fun (s : State) (p : Nat × Nat) => s.settlePending p.1 p.2) { s with dict.pend := [] } : State).springBoundary

/-! ## The step's flags and abandon (R218, R219) -/

/-- Enters abandon: counts it, moves to phase 2, and sends a notice to every member unless a notice is the cause. -/
def State.enterAbandon (s : State) (fromNotice : Bool) : State :=
  if s.phase = 1 then
    let s1 := ({ s with train.abandoned := true }.setEnt Ent.trainPhase 2).bump 64 Ent.commitAbandons 1
    if fromNotice then s1
    else
      let g := s1.ent Ent.trainRunGroup
      (s1.sendGroup 6 g []).bump 64 Ent.commitNoticesSent (s1.others g).length
  else s

/-- A step runs that has not reached its finite check. -/
def State.running (s : State) : Bool := decide (s.phase = 1) || decide (s.phase = 2)

/-- Sets the non-finite flag (R218). -/
def State.flagNonFinite (s : State) : State :=
  if s.running then { s with train.nonFinite := true }.enterAbandon false else s

/-- Sets the fault flag (R218). -/
def State.flagFault (s : State) : State :=
  if s.running then { s with train.fault := true }.enterAbandon false else s

/-! ## Invalid-operation Notices (R152) -/

/-- A logical core. -/
def State.core (s : State) (c : Nat) : CoreSt := Kv.getD s.cores c {}

/-- Changes a logical core. -/
def State.setCore (s : State) (c : Nat) (x : CoreSt) : State := { s with cores := Kv.setD s.cores c {} x }

/-- The core that a layer's Notice reports: the lowest whose window names the layer, else the lowest that recorded an invalid
operation of it; the flag says which. -/
def State.noticeCore (s : State) (l : Nat) : Option (Nat × Bool) :=
  match (List.range 128).find? (fun c => decide ((s.core c).window.kind ≠ 0) && decide ((s.core c).window.layer = l)) with
  | some c => some (c, true)
  | none => ((List.range 128).find? fun c => decide (0 < Kv.getD (s.core c).invalidBy l 0)).map fun c => (c, false)

/-- One layer's Notice. A chosen core's bad window is an integrity fault, whether or not it names the layer. -/
def State.invalidNotice (s : State) (l n : Nat) : State :=
  match s.noticeCore l with
  | none => s
  | some (c, named) =>
    let bad := (s.core c).windowBad
    let w : ExWindow := if bad then { kind := 0 } else if named then (s.core c).window else { kind := 0xFF }
    let s1 := s.record {
      severity := 0, kind := 1, code := 0x3130, time := s.timeOf 1 c, level := 1, unit := c,
      address := if s.phase = 4 then s.train.commit.step else s.ent Ent.trainStepIndex, space := 7, count := min n 65535,
      p0 := l + w.kind * 2 ^ 16 + w.source * 2 ^ 24 + w.pan * 2 ^ 32 + w.slot * 2 ^ 40 + w.column * 2 ^ 48,
      p1 := w.group + w.tileM * 2 ^ 32, p2 := w.tileN + w.tileK * 2 ^ 32 }
    let s2 := s1.bump 64 Ent.salInvalidNotices 1
    if bad then s2.raise (integrity intWindow .core c 1 (Ent.exKind c)) else s2

/-- The Notices of every layer with invalid operations, which join the module's total (R152); the cores' exception windows and counts and the
sticky invalid flags then clear. -/
def State.invalidNotices (s : State) : State :=
  let s1 := s.rake.roll.foldl (fun s e =>
    if e.2.invalid = 0 then s else (s.invalidNotice e.1 e.2.invalid).bump 64 Ent.salInvalidTotal e.2.invalid) s
  { s1 with cores := s1.cores.map fun e => (e.1, { e.2 with
      window := {}, windowBad := false, invalidBy := [],
      pans := e.2.pans.map fun p => (p.1, { p.2 with invalidFlag := false }) }) }

/-! ## The ends of a step (R216) -/

/-- Energy of the step in flight goes to its categories (R414). -/
def State.settleEnergy (s : State) (committed : Bool) : State :=
  let own := s.pwr.stepUj + sumNat (s.pwr.attemptUj.map (·.2))
  let c := s.pwr.catUj
  let c1 :=
    if committed then
      setAt (setAt (setAt c 0 (c.getD 0 0 + own)) 2 (c.getD 2 0 + s.pwr.stepRerunUj)) 3 (c.getD 3 0 + s.pwr.stepRetriedUj)
    else setAt c 1 (c.getD 1 0 + own + s.pwr.stepRerunUj + s.pwr.stepRetriedUj)
  { s with pwr.catUj := c1, pwr.stepUj := 0, pwr.stepRerunUj := 0, pwr.stepRetriedUj := 0, pwr.attemptUj := [] }

/-- A pan with the work of the step taken off it; its remap, counters and motion stay. -/
def PanSt.clearWork (p : PanSt) : PanSt := { p with
  bankA := none, bankB := none, tile := none, halfA := none, halfB := none, suspect := none, slipBlock := none, shiftEntries := 0,
  preload := 0, rowsDue := 0 }

/-- A core with the work of the step taken off it. -/
def CoreSt.clearWork (x : CoreSt) : CoreSt :=
  { x with
      pans := x.pans.map fun p => (p.1, p.2.clearWork), units := [], combines := [], totals := [], held := [], rowBuf := [], statBuf := [],
      vecBuf := [], lanes := [], slipBlock := none, faults := [], ran := [] }

/-- What belongs to the step in flight is dropped: descriptors, staged values, flags, contributions. -/
def State.clearStep (s : State) : State :=
  { s with
      prog.pool := [], prog.stream0 := [], prog.stream1 := [], prog.completed := [], prog.all := [], prog.mcastWait := [],
      scale.staged := [], scale.stepT := [], scale.stepAttempt := [], scale.heldT := [], scale.presentLeft := [],
      prog.entryNow := 0,
      rake.roll := [], rake.retried := [], rake.done := false, rake.own := [],
      train.vectors := [],
      train.nonFinite := false, train.fault := false, train.abandoned := false, train.bwdSat := false, train.contributed := false,
      train.outcome := 0, train.updating := false, train.updateDone := false, train.badUpdate := none,
      train.replaying := false, train.m3Wait := false,
      links.collectives := [],
      links.early := s.links.early.filter fun h => h.step != (if s.phase = 4 then s.train.commit.step else s.ent Ent.trainStepIndex) % 65536,
      clusters := [], clk.queues := s.clk.queues.filter fun e => decide (8192 ≤ e.1),
      cores := s.cores.map fun e => (e.1, e.2.clearWork) }

/-- A descriptor of the image, by index. -/
def State.descAt (s : State) (i : Nat) : Desc :=
  match s.prog.loaded with
  | some g => g.descs.getD i {}
  | none => {}

/-! ## Protection of the program's pages (R186, R215, R237) -/

/-- A tensor of the loaded program has bytes in a page, at its compiled maximum. -/
def Program.inSpan (g : Program) (t p : Nat) : Bool :=
  let r := g.spans.getD t (1, 0)
  decide (r.1 ≤ p) && decide (p ≤ r.2)

/-- A page of the program's image. -/
def Program.inImage (g : Program) (p : Nat) : Bool := decide (pageOf g.base ≤ p) && decide (p ≤ pageOf (g.base + g.bytes - 1))

/-- Groups whose frozen state pages include a page (R237). -/
def State.frozenGroupsOf (s : State) (p : Nat) : List Nat :=
  match s.prog.loaded with
  | none => []
  | some g => (g.groups.filter fun e => (s.ent Ent.commitFrozenMask).testBit e.1 && e.2.any fun t => g.inSpan t p).map (·.1)

/-- A page of a tensor is read-only to DMA in the step (R215): those of inputs that the update leaves alone are released in phase 4. -/
def State.stepProtects (s : State) (g : Program) (p : Nat) : Bool :=
  s.phase != 0 && (List.range g.spans.length).any fun t => g.inSpan t p && !(s.phase == 4 && g.inputs.contains t)

/-- The flags IMG, STP and FZ that a mapped page has now. -/
def State.pageFlags (s : State) (p : Nat) (e : MapEntry) : MapEntry :=
  match s.prog.loaded with
  | none => { e with img := false, stp := false, fz := false }
  | some g => { e with img := g.inImage p, stp := s.stepProtects g p, fz := !(s.frozenGroupsOf p).isEmpty }

/-- Every mapped page's flags follow the program, the phase and the frozen mask; pages whose entry changes leave the translation
caches (R259). -/
def State.protect (s : State) : State :=
  let same := fun (p : Nat) => decide (s.pageFlags p (s.mapEntry p) = s.mapEntry p)
  { s with
    mem.map := s.mem.map.map fun e => (e.1, if e.2.v then s.pageFlags e.1 e.2 else e.2)
    mem.tc0 := s.mem.tc0.filter fun p => decide (firstReserved ≤ p) || same p
    mem.tc1 := s.mem.tc1.filter fun p => decide (firstReserved ≤ p) || same p }

/-- train.phase moves, and the protection of pages with it. -/
def State.setPhase (s : State) (n : Nat) : State := (s.setEnt Ent.trainPhase n).protect

/-- train.phase returns to 0: boundary values take effect, and vector 2 is raised (R216, R345, R378). -/
def State.phaseZero (s : State) : State := ((s.setPhase 0).applyPending).raiseVector 2

/-- The widening marks are those with which the step started: a step without an outcome and a diagnostic replay move no state of R226. -/
def State.restoreMarks (s : State) : State :=
  { s with rake.layers := s.rake.layers.map fun e => (e.1, { e.2 with marked := s.train.marksBefore.contains e.1 }) }

/-- A no-outcome end (R216, R223), or the replay end of a replay without outcome (R290). A step in phase 4 is left alone. -/
def State.noOutcome (s : State) : State :=
  if s.phase = 0 ∨ s.phase = 4 then s
  else if s.train.replaying then ((s.setEnt Ent.replayState 4).settleEnergy false).restoreMarks.clearStep.phaseZero
  else (((s.setEnt Ent.trainHalted 1).setEnt Ent.trainLastOutcome 4).settleEnergy false).restoreMarks.clearStep.phaseZero

/-! ## Crust withdrawal (R299) -/

/-- The module has a rank in the crust group, and the crust is on. -/
def State.crustRanked (s : State) : Bool :=
  decide (s.ent Ent.crustMode ≠ 0) && (s.group (s.ent Ent.crustGroup)).valid && decide ((s.group (s.ent Ent.crustGroup)).rank ≠ 0xFFFF)

/-- The module is a member of the crust group. -/
def State.inCrust (s : State) : Bool := s.crustRanked && decide (s.ent Ent.crustRole = 0)

/-- The module is a member of a crust that runs: in state 5 the crust is idle (R313). -/
def State.crustMember (s : State) : Bool := s.inCrust && decide (s.ent Ent.crustState ≠ 5)

/-- The module is a spare that stands in the group already and is being filled (R301, R304). -/
def State.crustTaker (s : State) : Bool := s.crust.taking.isSome && s.crustRanked

/-- Sends a withdrawal to every other member of the crust group; the module's role is withdrawn from then on (R299). A spare that is
being filled gives the rank up. -/
def State.withdraw (s : State) : State :=
  if (s.crustMember || s.crustTaker) && !s.crust.withdrawn then
    { s.sendGroup 5 (s.ent Ent.crustGroup) [] with crust.withdrawn := true, crust.taking := none }.setEnt Ent.crustRole 2
  else s

/-- Clears the compute bits until the next power good for a loss the module cannot repair, and withdraws from the crust (R12, R251,
R284, R299, R369). -/
def State.loseCompute (s : State) : State := { s.clearCompute with dict.computeBarred := true }.withdraw

/-- A failed self-test clears the compute bits until one passes (R181), a failure that passes to the crust (R284; log 63). -/
def State.failTest (s : State) : State := { s.clearCompute with dict.testFailed := true }.withdraw

end Sys2Proof.Machine
end

