-- ==== Sys2Proof/Machine/Crossings.lean ====
section
/-! DEFINITION. Dual-clock queues as the module's own senders and receivers use them (R22, R278), and the events that a synchronised bit
has still to report (R281). -/

namespace Sys2Proof.Machine

/-! ## Queues -/

/-- Key of a queue: the queues of a core from 64 × core, the others from 8,192. -/
def queueKey : QueueId → Nat
  | .panStationary c p => 64 * c.val + 4 * p.val
  | .panRows c p => 64 * c.val + 4 * p.val + 1
  | .panShifts c p => 64 * c.val + 4 * p.val + 2
  | .panWriteback c p => 64 * c.val + 4 * p.val + 3
  | .sluice c b => 64 * c.val + 16 + bitN b
  | .vector c b => 64 * c.val + 18 + bitN b
  | .coreDesc c => 64 * c.val + 20
  | .coreSal c => 64 * c.val + 21
  | .ctrlNoc d b => 8192 + 2 * d.val + bitN b
  | .hbmReq st p => 8256 + 4 * st.val + p.val
  | .hbmWrite st p => 8320 + 4 * st.val + p.val
  | .hbmRead st p => 8384 + 4 * st.val + p.val
  | .cxlReq d => 8448 + d.val
  | .cxlData d b => 8512 + 2 * d.val + bitN b
  | .brine p b => 8576 + 2 * p.val + bitN b
  | .host b => 8640 + bitN b
  | .dieToDie p b => 8704 + 2 * p.val + bitN b
  | .flash b => 8768 + bitN b
  | .dictCtrl b => 8832 + bitN b
  | .dictNoc b => 8896 + bitN b
  | .mailbox b => 8960 + bitN b
  | .field b => 9024 + bitN b
  | .mirror => 9088

/-- Keys of the queues that a core's own units send into or take from. -/
def stationaryQueue (c p : Nat) : Nat := 64 * c + 4 * p
def rowQueue (c p : Nat) : Nat := 64 * c + 4 * p + 1
def shiftQueue (c p : Nat) : Nat := 64 * c + 4 * p + 2
def writebackQueue (c p : Nat) : Nat := 64 * c + 4 * p + 3
def sluiceResultQueue (c : Nat) : Nat := 64 * c + 17
def salQueue (c : Nat) : Nat := 64 * c + 21

/-- A queue's state. -/
def State.queueAt (s : State) (k : Nat) : QueueSt := Kv.getD s.clk.queues k {}
def State.setQueueAt (s : State) (k : Nat) (x : QueueSt) : State := { s with clk.queues := Kv.setD s.clk.queues k {} x }

/-- Slots in use (R278). -/
def QueueSt.held (x : QueueSt) : Nat := x.sending.length + x.visible.length

/-- A sender sees room for so many entries in a queue of a depth. -/
def State.queueRoom (s : State) (k depth n : Nat) : Bool := decide ((s.queueAt k).held + n ≤ depth)

/-- A sender writes entries, which the receiver sees later. -/
def State.sendQueue (s : State) (k : Nat) (l : List Nat) : State :=
  s.setQueueAt k { s.queueAt k with sending := (s.queueAt k).sending ++ l }

/-- The receiver sees an entry it has not read. -/
def State.queueReady (s : State) (k : Nat) : Bool := decide ((s.queueAt k).taken < (s.queueAt k).visible.length)

/-- The receiver reads up to so many entries. -/
def State.readQueue (s : State) (k n : Nat) : State :=
  let x := s.queueAt k
  s.setQueueAt k { x with taken := min x.visible.length (x.taken + n) }

/-! ## Events of a synchronised bit -/

/-- Key of a pan's tile-done bit. -/
def tileDoneKey (c p : Nat) : Nat := 256 + 4 * c + p

/-- A further event waits to cross; at most 15 wait (R281). -/
def State.pendEvent (s : State) (k : Nat) : State :=
  let x := Kv.getD s.clk.syncs k {}
  { s with clk.syncs := Kv.setD s.clk.syncs k {} { x with pending := min 15 (x.pending + 1) } }

/-! ## Counters of requesters (R275), which show the stalls of full queues -/

/-- Key of a requester's counters. -/
def arbKey (level inst rank : Nat) : Nat := (level * 65536 + inst) * 32 + rank

/-- A requester's counters. -/
def State.arbCnt (s : State) (level inst rank : Nat) : ArbCnt := Kv.getD s.arb.counters (arbKey level inst rank) {}
def State.setArbCnt (s : State) (level inst rank : Nat) (x : ArbCnt) : State :=
  { s with arb.counters := Kv.setD s.arb.counters (arbKey level inst rank) {} x }

/-- Length of the run in which a requester waits at a resource (R275). -/
def ArbCnt.runAt (x : ArbCnt) (resource : Nat) : Nat := Kv.getD x.run resource 0

/-- Cycles that a requester waits in its present run at a resource (R275). -/
def ArbCnt.waits (x : ArbCnt) (resource n : Nat) : ArbCnt :=
  let m := satAdd 32 (x.runAt resource) n
  { x with wait := satAdd 64 x.wait n, run := Kv.setD x.run resource 0 m, maxWait := max x.maxWait m }

def State.countWait (s : State) (level inst resource rank n : Nat) : State :=
  s.setArbCnt level inst rank ((s.arbCnt level inst rank).waits resource n)

/-- A full queue stalls its sender. -/
def State.stallQueue (s : State) (k : Nat) : State := s.setQueueAt k { s.queueAt k with stalls := (s.queueAt k).stalls + 1 }

/-- A full queue stalls a sender behind which an arbiter lies: the stall counts as a wait of that requester (R25, R278). -/
def State.stallSender (s : State) (k level inst rank : Nat) : State := (s.stallQueue k).countWait level inst 0 rank 1

/-- A core's salinometer queue has room for the two entries of a record (R22, R132). -/
def State.salRoom (s : State) (c : Nat) : Bool := s.queueRoom (salQueue c) 8 2

end Sys2Proof.Machine
end

