-- ==== Sys2Proof/Machine/Repair.lean ====
section
/-! DEFINITION. What the module does to keep going: pan remaps, tile replays, core, cluster and processor swaps, pseudo-channel and
CXL device replacement, lane retirement (R12, R57, R80, R217, R249 to R255, R284, R285, R389). -/

namespace Sys2Proof.Machine

/-! ## Pans -/

/-- A pan of a core. -/
def State.pan (s : State) (c p : Nat) : PanSt := Kv.getD (s.core c).pans p {}

/-- Changes a pan. -/
def State.setPan (s : State) (c p : Nat) (x : PanSt) : State :=
  s.setCore c { s.core c with pans := Kv.setD (s.core c).pans p {} x }

/-- A core's clock stands: by a request of its own, or with its cluster (R79, R402). -/
def State.coreStopped (s : State) (c : Nat) : Bool := (s.core c).frozen || s.pwr.stopped.getD (c / 8) false

/-- A core runs. -/
def State.coreLive (s : State) (c : Nat) : Bool := s.pwr.on && !s.coreStopped c

/-- Discards a tile's state: accumulators, open groups, both banks; the tile starts again from its first pass (R80), its shifts with
it (R105). -/
def PanSt.replay (x : PanSt) : PanSt :=
  { x with
      bankA := none, bankB := none, shiftEntries := 0, preload := 0, rowsDue := 0,
      tile := x.tile.map fun t => { t with done := 0, acc := [], invalid := 0, overflows := 0, window := {}, replay := true } }

/-- The same for a grain fault, which counts in the remap word (R90). -/
def PanSt.grainReplay (x : PanSt) : PanSt :=
  if x.tile.isSome then { x.replay with grainReplays := min 255 (x.grainReplays + 1) } else x.replay

/-- Retires a physical row, or a column as 256 + column, while spares last (R57); a row that finds no spare row retires column
`col` instead. What is retired already stays so, at no cost. The new remap, or nothing when no spare absorbs it. -/
def PanSt.retire (x : PanSt) (what col : Nat) : Option PanSt :=
  if x.rowA = what ∨ x.rowB = what ∨ x.col + 256 = what then some x
  else if what < 256 then
    if x.rowA = 255 then some { x with rowA := what }
    else if x.rowB = 255 then some { x with rowB := what }
    else if x.col = 63 then some { x with col := col }
    else none
  else if x.col = 63 then some { x with col := what - 256 } else none

/-! ## Work handed back (R217, R231) -/

/-- A unit goes back to the units that are still to run; an interrupted gather stage runs again from its start (R231). -/
def DescRun.handBack (d : DescRun) (number : Nat) : DescRun :=
  if d.update = true ∧ d.d.kind = 2 ∧ d.gathered = false then
    { d with issued := [], finished := [], reds := [], sums := [], blocks := [], rerun := [], redDone := 0 }
  else { d with issued := listErase d.issued number, finished := listErase d.finished number, rerun := listAdd d.rerun number }

/-- Takes back invalid operations of work that runs again, since its rerun counts them again (R175, R217). -/
def CoreSt.forget (x : CoreSt) (layer n : Nat) : CoreSt :=
  { x with
      window.count := x.window.count - n,
      invalidBy := Kv.setD x.invalidBy layer 0 (Kv.getD x.invalidBy layer 0 - n) }

/-- The same of a record. -/
def CoreSt.forgetRecord (x : CoreSt) (r : SalRec) : CoreSt := x.forget r.layer r.invalid

/-- Totals of a descriptor's interrupted gather stage, which runs again from its start (R231), are taken back. -/
def CoreSt.forgetDesc (x : CoreSt) (pos : Nat) : CoreSt :=
  let gone := x.totals.filter fun e => e.1 / 8 == pos
  { gone.foldl (fun x e => x.forget e.2.layer e.2.invalid) x with totals := x.totals.filter fun e => e.1 / 8 != pos }

/-- Marks a unit of a descriptor for rerun: it is no longer given out. An apply chunk counts as resumed (R231). -/
def State.rerunUnit (s : State) (pos number : Nat) : State :=
  let apply := s.prog.pool.any fun d => d.pos == pos && d.update && d.d.kind == 2 && d.gathered
  let gather := s.prog.pool.any fun d => d.pos == pos && d.update && d.d.kind == 2 && !d.gathered
  let s1 : State := { s with
    prog.pool := s.prog.pool.map fun d => if d.pos = pos then d.handBack number else d
    cores := if gather then s.cores.map fun e => (e.1, e.2.forgetDesc pos) else s.cores }
  if apply then s1.bump 64 Ent.commitUpdateChunksResumed 1 else s1

/-- A core's tile buffers are empty: what its pans still need is fetched again. -/
def CoreSt.dropBuffers (x : CoreSt) : CoreSt := { x with rowBuf := [], statBuf := [] }

/-- Keys of the queues into and out of a core: 64 × core up to 64 × core + 63. -/
def State.emptyCoreQueues (s : State) (c : Nat) : State :=
  { s with clk.queues := s.clk.queues.filter fun e => e.1 / 64 != c }

/-- Requests of a retired unit are withdrawn (R275, R283): their runs of waiting end, and their holds. -/
def State.dropRequests (s : State) (own : Nat → Nat → Nat → Bool) : State :=
  { s with
    arb.counters := (s.arb.counters.map fun (e : Nat × ArbCnt) =>
      (e.1, if own (e.1 / 32 / 65536) (e.1 / 32 % 65536) (e.1 % 32) then { e.2 with run := [] } else e.2)).filter fun e => e.2 != {}
    arb.holds := s.arb.holds.filter fun e => !own (e.1 / 256 / 65536) (e.1 / 256 % 65536) e.2.rank }

/-- Requesters of a core: at its pans' ports, its SRAM bank arbiter, and its cluster's network (R271). -/
def coreRequester (c level inst rank : Nat) : Bool :=
  match level with
  | 0 => inst / 4 == c
  | 1 => inst == c
  | 2 => inst == c / 8 && rank == 2 + c % 8
  | _ => false

/-- Requesters of a cluster beside those of its cores. -/
def clusterRequester (k level inst rank : Nat) : Bool :=
  match level with
  | 2 => inst == k
  | 3 => inst == k / 8 && rank == 8 + k % 8
  | _ => false

/-- A memory transaction that a core's units wait with (R283). -/
def Txn.ofCore (t : Txn) (c : Nat) : Bool :=
  match t.req.who with
  | .step x => 64 * t.req.die.val + x.val == c
  | _ => false

/-- Takes a core's unfinished work from it and leaves the unit fresh under the same logical number (R217, R280, R322). -/
def State.retireCoreWork (s : State) (c : Nat) : State :=
  let x := s.core c
  let s0 := x.units.foldl (fun s u => s.rerunUnit u.2.pos u.2.number) s
  let s1 := x.combines.foldl (fun s e => e.2.units.foldl (fun s n => s.rerunUnit e.1 n) s) s0
  let halves := x.pans.flatMap fun p => (p.2.halfA.toList ++ p.2.halfB.toList)
  let s2 := halves.foldl (fun s w => (List.range w.ranges).foldl (fun s i => s.rerunUnit w.pos (w.block - i)) s) s1
  let s3 := ({ s2 with mem.waiting := s2.mem.waiting.filter fun t => !t.ofCore c }.dropRequests (coreRequester c)).emptyCoreQueues c
  let s4 := (List.range 4).foldl (fun s p => s.dropSources .pan (4 * c + p)) (s3.dropSources .core c)
  let x1 := s4.core c
  let y := (halves.map (·.sal) ++ x1.held.map (·.2)).foldl CoreSt.forgetRecord x1
  (s4.setCore c { window := y.window, windowBad := y.windowBad, invalidBy := y.invalidBy, totals := y.totals }).setCoreReady c false

/-! ## Swaps (R12, R284, R285) -/

/-- Retires a cluster: the die's spare cluster takes the logical number, or the unit is lost beyond every spare and stays not ready
(R12). -/
def State.swapCluster (s : State) (k : Nat) : State :=
  let d := k / 8
  if s.rep.spareCluster.contains d then
    (((List.range 8).foldl (fun s i => s.setCoreReady (8 * k + i) false) s).setReady (40 + k) false).raise
      { fault 0x0A .die d with source := k, physical := s.physCluster k }
  else
    let s1 := ((List.range 8).foldl (fun s i => s.retireCoreWork (8 * k + i)) s).dropRequests (clusterRequester k)
    let s2 := { s1 with
      rep.spareCluster := listAdd s1.rep.spareCluster d,
      rep.clusterPhys := Kv.put s1.rep.clusterPhys k 8,
      rep.clusterSwap := listAdd s1.rep.clusterSwap k,
      rep.spareCore := listErase s1.rep.spareCore k,
      rep.corePhys := s1.rep.corePhys.filter fun e => e.1 / 8 != k,
      rep.coreSwap := s1.rep.coreSwap.filter fun c => c / 8 != k,
      rep.swapStart := Kv.put s1.rep.swapStart (1000 + k) s1.now,
      clusters := Kv.del s1.clusters k }
    (s2.dropSources .cluster k).setReady (40 + k) false

/-- Retires a core: the cluster's spare core takes the logical number, or the cluster is retired (R12). -/
def State.swapCore (s : State) (c : Nat) : State :=
  let k := c / 8
  if s.rep.spareCore.contains k then s.swapCluster k
  else
    let s1 := s.retireCoreWork c
    { s1 with
      rep.spareCore := listAdd s1.rep.spareCore k,
      rep.corePhys := Kv.put s1.rep.corePhys c 8,
      rep.coreSwap := listAdd s1.rep.coreSwap c,
      rep.swapStart := Kv.put s1.rep.swapStart c s1.now }

/-- Moves a die's management work to its spare processor (R12, R284). -/
def State.swapDmp (s : State) (d : Nat) : State :=
  { s with
    rep.spareDmp := listAdd s.rep.spareDmp d,
    rep.dmpSwapping := listAdd s.rep.dmpSwapping d }.setReady (56 + d) false

/-- Retires a pan's row or column, and its core when no spare absorbs it (R57). -/
def State.retirePan (s : State) (c p what col : Nat) : State :=
  match (s.pan c p).retire what col with
  | some x =>
    -- the row or column that goes takes its sources with it, of grain and bank faults (R322)
    let gone := if (s.pan c p).col = x.col then what else 256 + x.col
    { s.setPan c p x with
      flt.sources := s.flt.sources.filter fun y => !(y.is 1 .pan (4 * c + p) gone || y.is 2 .pan (4 * c + p) gone) }
  | none => s.swapCore c

/-- At a tile boundary, the rows and columns that waited for it are retired (R56). -/
def State.applyRemap (s : State) (c p : Nat) : State :=
  (s.pan c p).remapNext.foldl (fun s w => s.retirePan c p w.1 w.2) (s.setPan c p { s.pan c p with remapNext := [] })

/-! ## Memory devices (R249 to R255) -/

/-- A stack. -/
def State.stack (s : State) (i : Nat) : StackSt := Kv.getD s.mem.hbm i {}
def State.setStack (s : State) (i : Nat) (x : StackSt) : State := { s with mem.hbm := Kv.setD s.mem.hbm i {} x }

/-- A physical CXL device. -/
def State.dev (s : State) (i : Nat) : CxlSt := Kv.getD s.mem.cxl i {}
def State.setDev (s : State) (i : Nat) (x : CxlSt) : State := { s with mem.cxl := Kv.put s.mem.cxl i x }

/-- Frames of a device kind for ordinary pages: first and one past the last (R245). -/
def frameLo (tier : Nat) : Nat := if tier = 0 then 96 else 0
def frameHi (tier : Nat) : Nat := if tier = 0 then 66518 else 976562

/-- Frames of a device, of those that keys name. -/
def framesOf (tier dev : Nat) (l : List Nat) : List Nat := (l.filter fun k => k / 2 ^ 20 == 16 * tier + dev).map (· % 2 ^ 20)

/-- Frames of a device in use: those with an owner, those that copies go to (R262), and those released that are not free yet (R259). -/
def State.usedFrames (s : State) (tier dev : Nat) : List Nat :=
  framesOf tier dev (s.mem.frames.map (·.1)) ++ ((s.mem.migrating.filter fun e => e.2.tier == tier && e.2.device == dev).map (·.2.frame))
    ++ framesOf tier dev ((s.mem.released.filter fun e => (Kv.find? s.mem.frames e.1).isNone).map (·.1))

/-- A logical CXL device has a physical device behind it (R252). -/
def State.cxlActive (s : State) (n : Nat) : Bool := s.mem.cxl.any fun e => e.2.role == n

/-- Free frames of a device. -/
def State.freeFrames (s : State) (tier dev : Nat) : Nat :=
  if tier = 1 ∧ !s.cxlActive dev then 0 else frameHi tier - frameLo tier - (s.usedFrames tier dev).length

/-- The lowest free frame of a device (R261): at most as many frames precede it as are in use. -/
def State.lowestFrame (s : State) (tier dev : Nat) : Option Nat :=
  if s.freeFrames tier dev = 0 then none
  else
    let used := s.usedFrames tier dev
    ((List.range (used.length + 1)).find? fun i => !used.contains (frameLo tier + i)).map (frameLo tier + ·)

/-- Devices of a tier in the order R261 tries them for a page. -/
def deviceOrder (tier p : Nat) : List Nat :=
  if tier = 0 then (List.range 12).map fun i => (p + i) % 12 else (List.range 11).map fun i => (p + i) % 11

/-- The frame that R261 gives a page on any device of a tier: device and frame. -/
def State.placeAny (s : State) (tier p : Nat) : Option (Nat × Nat) :=
  (deviceOrder tier p).findSome? fun d => (s.lowestFrame tier d).map fun f => (d, f)

/-- Pages count as covered unless crust.mode reads 0 or the crust is stale (R305). -/
def State.crustCovers (s : State) : Bool := decide (s.ent Ent.crustMode ≠ 0) && decide (s.ent Ent.crustState ≠ 3)

/-- Pages that the loaded program names: its image and the extents of its tensors at their compiled maxima (R215, R262). -/
def State.programNames (s : State) (p : Nat) : Bool :=
  match s.prog.loaded with
  | some g => g.inImage p || (List.range g.spans.length).any fun t => g.inSpan t p
  | none => false

/-- No line of a page is poisoned or waits for a rebuild. -/
def State.clearLines (s : State) (p : Nat) : State :=
  { s with
    mem.poison := s.mem.poison.filter fun n => n / 2048 != p,
    mem.lostPages := listErase s.mem.lostPages p,
    mem.rebuildNext := if s.mem.rebuildNext = some p then none else s.mem.rebuildNext }

/-- A page is unmapped and its frame freed; only its generation stays (R257, R262). -/
def State.unmapPage (s : State) (p : Nat) : State :=
  let s1 := (s.setMapEntry p { gen := (s.mapEntry p).gen }).clearLines p
  { s1 with mem.migrating := Kv.del s1.mem.migrating p }

/-- A page without cover is lost: unmapped, its frame freed, a Warning naming it; an event of R266 at an address. -/
def State.losePageAt (s : State) (p addr : Nat) : State :=
  (((s.unmapPage p).bump 64 Ent.memViolations 1).setEnt Ent.memLastViolation addr).conditionAt 1 0x5000 0 (p * pageBytes) p 0 0

/-- A page lost with its lines. -/
def State.losePage (s : State) (p : Nat) : State := s.losePageAt p (p * pageBytes)

/-- Pages mapped on a device. -/
def State.pagesOn (s : State) (tier dev : Nat) : List Nat :=
  (s.mem.map.filter fun e => e.2.v && e.2.tier == tier && e.2.device == dev).map (·.1)

/-- Lost lines of pages: covered pages wait for their rebuild, the others are lost (R250, R255). -/
def State.strikePages (s : State) (pages : List Nat) : State :=
  pages.foldl (fun s p =>
    if s.crustCovers && (s.mapEntry p).cc then
      { s.setMapEntry p { s.mapEntry p with rb := true } with mem.lostPages := listAdd s.mem.lostPages p }
    else s.losePage p) s

/-- Sources of a unit's memory classes are discarded (R322). -/
def State.dropMemSource (s : State) (source : Nat) : State :=
  { s with flt.sources := s.flt.sources.filter fun x => !((x.cls == 0x0B || x.cls == 0x0C) && x.source == source) }

/-- Retires a pseudo-channel at once (R250), or finds the stack unable to hold data (R251). DESIGN CHOICE (log 99): the spare that fails
while it is free takes no data with it, and is free no more; while another pseudo-channel is being copied to it, the spare counts as in
use. -/
def State.retirePc (s0 : State) (st pc : Nat) : State :=
  let s := s0.dropMemSource (32 * st + pc)
  let x := s.stack st
  if pc = 31 ∧ x.spare = 255 then (s.setStack st { x with remap := 4, copying := none }).repairRecord (st / 6) 1 0x5200 pc st pc 0
  else if (x.spare != 255 && x.spare != pc) || (x.copying.isSome && x.copying != some pc) || (x.spare == 255 && x.remap == 4) then
    ((s.setStack st { x with remap := 4, copying := none }).raise { fault 0x0D .die (st / 6) with source := st }).loseCompute
  else if x.spare = pc then s
  else
    let s1 := (s.dropMemSource (32 * st + 31)).setStack st { x with spare := pc, remap := 2, copying := none }
    let s2 := s1.strikePages (s1.pagesOn 0 st)
    let s3 := if (s2.pagesOn 0 st).any (s2.mem.lostPages.contains ·) then s2 else s2.setStack st { s2.stack st with remap := 3 }
    s3.repairRecord (st / 6) 1 0x5200 pc st pc 0

/-- Starts copying a pseudo-channel to the free spare (R249). DESIGN CHOICE (log 99): so also the spare itself, which then reads as
used. -/
def State.copyPc (s : State) (st pc : Nat) : State :=
  let x := s.stack st
  if x.spare = 255 ∧ x.copying = none ∧ x.remap ≠ 4 then
    (s.setStack st { x with remap := 1, copying := some pc }).repairRecord (st / 6) 0 0x5200 pc st pc 0
  else s

/-- The physical CXL device that stands as the free spare. -/
def State.spareDev (s : State) : Option Nat :=
  (s.mem.cxl.find? fun e => e.2.role == 0x80 && s.isReady (20 + e.1)).map (·.1)

/-- A device is being replaced by copy. -/
def State.devCopying (s : State) : Bool := s.mem.cxl.any fun e => e.2.replace == 1

/-- Starts replacing a working device by the free spare (R254). -/
def State.replaceDev (s : State) (d : Nat) : State :=
  if s.spareDev.isSome ∧ !s.devCopying ∧ (s.dev d).role < 11 then
    (s.setDev d { s.dev d with replace := 1 }).repairRecord (d / 6) 0 0x5300 d d 0 0
  else s

/-- A device fails (R255). DESIGN CHOICE (log 99): a spare to which another device is being copied is still free, and that copy is
dropped. -/
def State.failDev (s9 : State) (d : Nat) : State :=
  let s := s9.dropMemSource (cxlSource + d)
  let n := (s.dev d).role
  if 11 ≤ n then (s.setDev d { s.dev d with role := 0xFE }).setReady (20 + d) false
  else
    let s0 := (s.setReady (20 + d) false).repairRecord (d / 6) 1 0x5300 d d n 0
    match s0.spareDev with
    | some sp =>
      let s1 := ((s0.dropMemSource (cxlSource + sp)).setDev d { s0.dev d with role := 0xFE }).setDev sp { s0.dev sp with role := n }
      let s2 := s1.strikePages (s1.pagesOn 1 n)
      let left := s2.pagesOn 1 n
      s2.setDev d { s2.dev d with replace := if left.isEmpty then 3 else 2, pages := left }
    | none =>
      let pages := s0.pagesOn 1 n
      let covered := pages.filter fun p => s0.crustCovers && (s0.mapEntry p).cc
      let s1 := s0.setDev d { s0.dev d with role := 0xFE }
      let room := sumNat (((List.range 11).filter (· != n)).map (s1.freeFrames 1))
      let s2 := s1.setEnt Ent.memFramesCxl (s1.ent Ent.memFramesCxl - 976562)
      if covered.length ≤ room then
        let s3 := s2.strikePages pages
        let s4 := covered.foldl (fun s p =>
          match s.placeAny 1 p with
          | some (dv, f) => s.setMapEntry p { s.mapEntry p with device := dv, frame := f, gen := ((s.mapEntry p).gen + 1) % 256 }
          | none => s) s3
        s4.setDev d { s4.dev d with replace := if covered.isEmpty then 3 else 2, pages := covered }
      else ((s2.strikePages pages).raise { fault 0x0D .die (d / 6) with source := cxlSource + d }).loseCompute

/-! ## Lanes (R388, R389) -/

/-- Node addresses of every member of every defined group, without repeats. -/
def State.knownNodes (s : State) : List Nat :=
  (s.links.groups.flatMap fun e => if e.2.valid then e.2.members.take e.2.p else []).foldl listAdd []

/-- Announces a port's live lanes on every live lane of the port (R388). -/
def State.sendLaneState (s : State) (port : Nat) : State :=
  ((List.range 4).filter fun l => s.laneUp (4 * port + l)).foldl (fun s l =>
    (s.knownNodes.filter (· != s.node)).foldl (fun s n => s.sendOn (4 * port + l) { dst := n, kind := 14 }) s) s

/-- A lane carries no more frames: those not acknowledged go out on the other lanes (R396, R398), and its numbers start again at 0 at both
ends if it comes back, since the numbers of what it leaves will never come (log 23). -/
def State.rerouteLane (s : State) (i : Nat) : State :=
  let fs := (s.lane i).unacked
  let s1 := s.setLane i { s.lane i with unacked := [], psn := [], rxNext := [], rxDue := [] }
  (fs.foldl State.sendFrame s1).bump 64 (Ent.brineResends (i / 4)) fs.length

/-- The same toward one node, at whose end the lane is not live (R388). -/
def State.reroutePath (s : State) (node i : Nat) : State :=
  let l := s.lane i
  let fs := l.unacked.filter fun f => f.dst == node
  let s1 := s.setLane i { l with unacked := l.unacked.filter fun f => f.dst != node, psn := Kv.del l.psn node, rxNext := Kv.del l.rxNext node,
                                 rxDue := Kv.del l.rxDue node }
  if fs.isEmpty then s1 else (fs.foldl State.sendFrame s1).bump 64 (Ent.brineResends (i / 4)) fs.length

/-- Retires a lane; the second retired lane of a port takes the port out of service, and the other ports carry all of its traffic
(R389). -/
def State.retireLane (s : State) (i : Nat) : State :=
  let port := i / 4
  let s1 := s.setLane i { s.lane i with live := false, retired := true }
  let n := ((List.range 4).filter fun l => (s1.lane (4 * port + l)).retired).length
  if 2 ≤ n then
    let s2 := { s1 with links.portsOut := listAdd s1.links.portsOut port }.setReady (32 + port) false
    (List.range 4).foldl (fun s l => s.rerouteLane (4 * port + l)) s2
  else (s1.sendLaneState port).rerouteLane i

/-! ## The host link -/

/-- The host link is down: readiness bits [2] and [1] clear until it is up again. -/
def State.hostDown (s : State) : State :=
  ({ s with links.host.up := false, links.host.rate := 0, links.host.width := 0 }.setReady 2 false).setReady 1 false

/-- The host link's source has reached Severe (R396): the link retrains one rate lower than it runs at, down to 32 GT/s, and goes no higher
until PERST#. -/
def State.lowerHost (s : State) : State :=
  let h := s.links.host
  let r := max 32 ((if h.up then h.rate else h.maxRate) / 2)
  if h.up ∧ r < h.rate then { s.hostDown with links.host.maxRate := r } else { s with links.host.maxRate := min r h.maxRate }

end Sys2Proof.Machine
end

