-- ==== Sys2Proof/Machine/Latch.lean ====
section
/-! DEFINITION. Fault collection (R315 to R328): counting, escalation, slots, records, what each severity does and each class's
action at Severe. -/

namespace Sys2Proof.Machine

/-! ## Collectors (R316, R317, R319) -/

/-- Key of a collector. -/
def colKey (level unit : Nat) : Nat := level * 65536 + unit

/-- A collector. -/
def State.collector (s : State) (k : Nat) : Collector := Kv.getD s.flt.collectors k {}
def State.setCollector (s : State) (k : Nat) (x : Collector) : State :=
  { s with flt.collectors := Kv.setD s.flt.collectors k {} x }

/-- The instance of the level above that a unit belongs to (R276, R324). -/
def parentUnit (level unit : Nat) : Nat :=
  match level with
  | 0 => unit / 4 | 1 => unit / 8 | 2 => unit / 8
  | _ => 0

/-- The die of an instance of a level (R276); the module's own collector stands on die 0 (R13). -/
def dieOfUnit (level unit : Nat) : Nat :=
  match level with
  | 0 => unit / 256 | 1 => unit / 64 | 2 => unit / 8 | 3 => unit
  | _ => 0

/-- Highest severity among a collector's unacknowledged faults. -/
def Collector.unackSev (x : Collector) : Nat := x.unack.foldl (fun m u => max m u.sev) 0

/-- This level's spare is in use (R317). -/
def State.spareUsed (s : State) (level unit : Nat) : Bool :=
  match level with
  | 0 => let p := s.pan (unit / 4) (unit % 4); p.rowA != 255 || p.rowB != 255 || p.col != 63
  | 2 => s.rep.spareCore.contains unit
  | 3 => s.rep.spareCluster.contains unit
  | _ => false

/-- A collector's line: one of its faults, or one it passed up, is not handled yet (R317). -/
def State.lineOn (s : State) (k : Nat) : Bool :=
  let x := s.collector k
  x.slot1.isSome || x.slot2.isSome || !x.waiting.isEmpty ||
    s.flt.collectors.any fun e =>
      (e.2.slot1.toList ++ e.2.slot2.toList ++ e.2.waiting).any fun f => f.origins.contains k

/-- Highest severity among all unacknowledged faults (R367, R378). -/
def State.topSev (s : State) : Nat := s.flt.collectors.foldl (fun m e => max m e.2.unackSev) 0

/-- Word 0 of a status word (R317). -/
def State.word0 (s : State) (level unit : Nat) : Nat :=
  let x := s.collector (colKey level unit)
  let f1 := x.slot1.getD {}
  let f2 := x.slot2.getD {}
  let bits := x.unack.foldl (fun m u => if 1 ≤ u.cls ∧ u.cls ≤ 32 then setBitN m (u.cls - 1) true else m) 0
  f1.cls + f1.sev * 256 + f2.cls * 2 ^ 16 + f2.sev * 2 ^ 24 + bitN x.overflow * 2 ^ 26 + bitN x.cutoff * 2 ^ 27
    + bitN (s.lineOn (colKey level unit)) * 2 ^ 28 + bitN (s.spareUsed level unit) * 2 ^ 29 + x.unackSev * 2 ^ 30 + bits * 2 ^ 32

/-- Root ports of a die with a link down or degraded (R318): below x8 or 64 GT/s. -/
def State.portBits (s : State) (die : Nat) : Nat :=
  sumNat ((List.range 6).map fun i =>
    let l := Kv.getD s.links.cxl (6 * die + i) {}
    if l.up && l.rate == 64 && l.width == 8 then 0 else 2 ^ i)

/-- Word 1 as a pan's, core's or cluster's collector latches it (R318). Bits outside the layout stay 0 (R7), a pan fault that concerns no
grain row shows 0xFF, and the row of a grain or bank fault is its source (R321). -/
def detailWord (r : FaultReport) : Nat :=
  match r.level with
  | .pan => r.detail % 2 ^ 27 + (if (r.cls = 1 ∨ r.cls = 2) ∧ r.source < 146 then r.source else 255) * 2 ^ 27
  | .core => r.detail % 2 ^ 19
  | .cluster => r.detail % 2 ^ 8
  | _ => r.detail

/-- The physical core retired in a cluster (R318): 15 for none. -/
def State.retiredCore (s : State) (k : Nat) : Nat :=
  ((List.range 8).find? fun c => s.rep.corePhys.any fun e => e.1 == 8 * k + c).getD 15

/-- Word 1 of a status word (R318): what the collector last latched, with a cluster's retired core; for a die and the module what stands
now. -/
def State.word1 (s : State) (level unit : Nat) : Nat :=
  match level with
  | 3 =>
    let retired := ((List.range 8).find? fun c => s.rep.clusterPhys.any fun e => e.1 == 8 * unit + c).getD 15
    let stackBits := sumNat ((List.range 6).map fun i => if (s.stack (6 * unit + i)).spare = 255 then 0 else 2 ^ i)
    let brine := sumNat ((List.range 4).map fun p =>
      if ((List.range 4).filter fun l => (s.lane (4 * (4 * unit + p) + l)).retired).length = 1 then 2 ^ p else 0)
    retired + bitN (s.rep.spareDmp.contains unit) * 16 + stackBits * 32 + s.portBits unit * 2 ^ 11 + brine * 2 ^ 17
      + s.rep.d2dSpares % 8 * 2 ^ 21 + bitN (s.flt.dogs.contains unit) * 2 ^ 24
  | 4 =>
    bitN (s.lineOn (colKey 3 0)) + bitN (s.lineOn (colKey 3 1)) * 2 + bitN (s.flt.dogs.contains 1) * 4 + bitN s.clk.lost * 8
      + bitN s.flt.flashFailed * 16 + bitN (!s.computeSet) * 32 + bitN (decide (s.flt.alive = .stopped)) * 64
      + bitN (s.mem.cxl.any fun e => e.1 == 11 && decide (e.2.role < 11)) * 128 + s.flt.fatal * 256
  | 2 => (s.collector (colKey 2 unit)).word1 + s.retiredCore unit * 256
  | _ => (s.collector (colKey level unit)).word1

/-! ## Latching -/

/-- A Severe POWER fault is unacknowledged somewhere (R325, R410). -/
def State.severePower (s : State) : Bool := s.flt.collectors.any fun e => e.2.unack.any fun u => u.cls == 0x12 && decide (2 ≤ u.sev)

/-- What latching decides of a fault. -/
structure Verdict where
  sev : Nat
  count : Nat
  counted : Bool
  escalated : Bool
  times : List Nat
  deriving DecidableEq, Repr

/-- Severity by class, counting, escalation and the special cases of R320, R325 and R410. -/
def State.judge (s : State) (r : FaultReport) : Verdict :=
  let row := classRow r.cls
  let src := if r.cls = 0x10 then r.addr else r.source
  let times := s.countTimes r.cls r.level r.unit src
  let full := decide (s.classN r.cls r.source ≤ times.length)
  let base := max row.base r.atLeast
  let sev1 := if full then (if 2 ≤ row.ceiling then max base 2 else max base row.ceiling) else base
  let x := s.collector (colKey (levelCode r.level) r.unit)
  let meets := x.unack.any (fun u => u.cls == r.cls) || (x.slot1.isSome && x.slot2.isSome)
  let esc := meets && !(full && decide (base < sev1))
  -- a management processor's fault is Fatal only with the die's spare processor in use (R330)
  let top := if r.cls = 0x09 ∧ s.rep.spareDmp.contains r.unit = false then 2 else row.ceiling
  let sev2 := if esc then max sev1 (min (sev1 + 1) top) else sev1
  let fatal := (r.cls == 0x12 && decide (2 ≤ sev2) && s.severePower)
    || (r.cls == 0x09 && s.rep.spareDmp.contains r.unit)
    || (r.cls == 0x0F && decide (2 ≤ sev2) && decide (4 ≤ s.rep.d2dSpares))
  let sev3 := if fatal then 3 else sev2
  { sev := sev3, count := times.length, counted := full, escalated := esc, times := if full || decide (2 ≤ sev3) then [] else times }

/-- Puts a latched fault into its collector's slots, or passes it up (R316, R324). The unacknowledged fault is held by the collector
that takes it. -/
def State.place : Nat → State → Nat → Nat → Latched → State
  | 0, s, _, _, _ => s
  | n + 1, s, level, unit, f =>
    let k := colKey level unit
    let x := s.collector k
    let u : Unack := { cls := f.cls, sev := f.sev, seq := f.seq }
    match x.slot1, x.slot2 with
    | none, _ => s.setCollector k { x with slot1 := some f, unack := x.unack ++ [u] }
    | some _, none => s.setCollector k { x with slot2 := some f, unack := x.unack ++ [u] }
    | some _, some _ =>
      if level ≤ 2 then
        State.place n (s.setCollector k { x with overflow := true }) (level + 1) (parentUnit level unit) { f with origins := f.origins ++ [k] }
      else s.setCollector k { x with overflow := true, waiting := x.waiting ++ [f], unack := x.unack ++ [u] }

/-- Grain rows and columns in a side of a multiplier's square (R52); at Flake a grain serves two columns. -/
def squareSide (rung : Nat) : Nat :=
  match rung with
  | 2 => 2 | 3 => 3 | 4 => 6
  | _ => 1

/-- First grain column of a multiplier column at a rung (R51, R52). -/
def grainColumn (rung col : Nat) : Nat := if rung = 0 then col / 2 else squareSide rung * col

/-- The logical grain column behind a multiplier column of the tile in a pan. -/
def State.grainCol (s : State) (c p col : Nat) : Nat :=
  match (s.pan c p).tile with
  | some t =>
    match s.prog.pool.find? (fun d => d.pos == t.pos) with
    | some d => grainColumn d.d.rung col
    | none => col
  | none => col

/-- The physical column at a pan's logical column (R55). -/
def PanSt.physCol (x : PanSt) (col : Nat) : Nat := if x.col ≤ col then col + 1 else col

/-- A bank-parity fault names the bank that its pan does not use (R81, R318): bit 16 of the detail gives the bank. -/
def PanSt.idleFault (x : PanSt) (detail : Nat) : Bool := x.tile.isSome && detail.testBit 16 != x.bankSel

/-- A grain or bank fault at Severe retires its row or column at a tile boundary (R56, R57): at once where the fault discards the tile, at
the next boundary where the tile runs on, or stands with its core's clock (R81). -/
def State.remapPan (s : State) (r : FaultReport) : State :=
  let c := r.unit / 4
  let p := r.unit % 4
  let x := s.pan c p
  let col := x.physCol (s.grainCol c p (r.detail % 128))
  if x.tile.isSome && ((r.cls == 2 && x.idleFault r.detail) || s.coreStopped c) then
    s.setPan c p { x with remapNext := x.remapNext ++ [(r.source, col)] }
  else s.retirePan c p r.source col

/-- A fault of Severe or above: the class's own action (R320). A function that is lost with it leaves ready.summary (R368). -/
def State.severeAction (s : State) (r : FaultReport) : State :=
  match r.cls with
  | 0x01 => s.remapPan r
  | 0x02 => s.remapPan r
  | 0x03 =>
    match r.level with
    | .pan => s.swapCore (r.unit / 4)
    | .core => s.swapCore r.unit
    | .cluster => s.swapCluster r.unit
    | .die => s.swapCluster (8 * r.unit + r.source % 8)
    | .module => s
  | 0x04 =>
    match r.level with
    | .pan => s.swapCore (r.unit / 4)
    | _ => s.swapCore r.unit
  | 0x06 =>
    match r.level with
    | .cluster => s.swapCluster r.unit
    | _ => s.swapCore r.unit
  | 0x07 =>
    match r.level with
    | .cluster => s.swapCluster r.unit
    | _ => s.swapCore r.unit
  | 0x08 => s.swapCore (8 * r.unit + r.source % 8)
  | 0x09 => if s.rep.spareDmp.contains r.unit then s.setReady (56 + r.unit) false else s.swapDmp r.unit
  | 0x0A => s.loseCompute
  | 0x0B => if r.source < cxlSource then s.copyPc (r.source / 32) (r.source % 32) else s.replaceDev (r.source - cxlSource)
  | 0x0C => if r.source < cxlSource then s.retirePc (r.source / 32) (r.source % 32) else s.failDev (r.source - cxlSource)
  | 0x0D => s.loseCompute
  | 0x0E =>
    if r.source = 0 then s.lowerHost
    else if r.source < 13 then
      if 3 ≤ (s.dev (r.source - 1)).downCount then s.failDev (r.source - 1)
      else if (Kv.getD s.links.cxl (r.source - 1) {}).up then s.replaceDev (r.source - 1)
      else s
    else s.retireLane (r.source - 16)
  | 0x0F => if s.rep.d2dSpares < 4 then { s with rep.d2dSpares := s.rep.d2dSpares + 1 } else s.setReady 3 false
  | 0x10 =>
    if r.source = intMap then
      let p := (r.addr - mapBase) / 16
      { s.losePageAt p r.addr with mem.mapBad := listErase s.mem.mapBad p, mem.mapLost := listErase s.mem.mapLost p }
    else if r.source = intRake then { s with train.rakeHalt := true }
    else if r.source = intDict then
      { s with dict.vals := Kv.del s.dict.vals r.addr, dict.bad := listErase s.dict.bad r.addr, dict.journal := Kv.del s.dict.journal r.addr }
    else if r.source = intCommit ∨ r.source = intKey then s.setEnt Ent.trainHalted 1
    else s
  | 0x15 => s.setEnt Ent.trainHalted 1
  | 0x16 => s.failTest
  | 0x17 => { s with clk.lost := true }.setReady 58 false
  | 0x18 => { s.setEnt Ent.stockState 4 with flt.flashFailed := true }.setReady 5 false
  | _ => s

/-- The class's effect on the step in flight, for a fault recorded at Severe or above (R320, R327, R332). -/
def State.stepEffect (s : State) (r : FaultReport) : State :=
  match r.cls with
  | 0x0A => s.flagFault
  | 0x0D => s.flagFault
  | 0x10 =>
    if r.source = intDescriptor ∨ r.source = intShift ∨ r.source = intTable then s.flagFault
    else if r.source = intMap then (if s.running && s.programNames ((r.addr - mapBase) / 16) then s.flagFault else s)
    else if r.source = intCommit ∨ r.source = intGroup ∨ r.source = intKey then s.noOutcome
    else s
  | 0x14 => s.noOutcome
  | 0x19 => s.noOutcome
  | 0x1A => s.noOutcome
  | _ => s

/-- Writes every record not yet in flash into the mirror (R333). While the recorder reloads it holds no record yet (R339), and the
mirror stays. -/
def State.flushMirror (s : State) : State :=
  if s.flt.flashFailed || s.flt.reloading then s
  else { s with nv.mirror := s.flt.records, flt.mirrorQueue := [] }

/-- What a Fatal fault does once its record is written (R328). -/
def State.fatalStop (s : State) (cls : Nat) : State :=
  let s1 := { s with flt.alive := .stopped, flt.fatal := cls, train.admitStop := true }.changed (s.flt.fatal != cls)
  s1.loseCompute.flushMirror

/-- Shifts on their way to a pan go with the tile that they were for (R80, R105). -/
def State.dropShifts (s : State) (c p : Nat) : State := s.setQueueAt (shiftQueue c p) { s.queueAt (shiftQueue c p) with visible := [], taken := 0 }

/-- Discards a pan's tile for replay, and counts it (R80, R89); that is a tile boundary (R56). -/
def State.replayPan (s : State) (c p : Nat) (grain : Bool) : State :=
  let x := s.pan c p
  let s1 := (s.dropShifts c p).setPan c p (if grain then x.grainReplay else x.replay)
  (if x.tile.isSome then (s1.setCore c (s1.core c).dropBuffers).bump 32 (Ent.panTileReplays c) 1 else s1).applyRemap c p

/-- Discards a sluice pass, which runs again from its start, and counts it (R80, R88, R89). -/
def State.replaySluice (s : State) (c : Nat) : State :=
  if (Kv.find? (s.core c).units 1).isSome then
    let x := s.core c
    (s.setCore c { x with vecBuf := [], lanes := [], ran := Kv.put x.ran 1 (((Kv.find? x.ran 1).elim 0 (·.1)), true) }).bump 32
      (Ent.panTileReplays c) 1
  else s

/-- Discards what the vector unit runs, a chunk of a descriptor, which runs again (R80, R282). -/
def State.replayVector (s : State) (c : Nat) : State :=
  match Kv.find? (s.core c).units 2 with
  | some u => (s.rerunUnit u.pos u.number).setCore c { (s.rerunUnit u.pos u.number).core c with units := Kv.del ((s.rerunUnit u.pos u.number).core c).units 2 }
  | none => s

/-- The idle bank alone is discarded, and loaded again (R81). -/
def PanSt.dropIdleBank (x : PanSt) : PanSt :=
  if x.bankSel then { x with bankA := none, preload := 0 } else { x with bankB := none, preload := 0 }

/-- A pan fault discards its tile (R80, R83), a fault of the idle bank that bank alone (R81), one of the sluice path's queue its pass
(R88, R282); a grain mismatch that recurs in its column and group starts the segment test, after which
the tile replays. MARK, DESIGN CHOICE (log 69): a replay for bank parity (class 0x02) and one after a column-path finding count in
grain_replays too. -/
def State.panFault (s : State) (r : FaultReport) : State :=
  match r.level with
  | .pan =>
    let c := r.unit / 4
    let p := r.unit % 4
    let x := s.pan c p
    if r.cls = 1 then
      let at_ := (r.detail % 128, bitsOf r.detail 7 8)
      if x.testing || x.suspect == some at_ then
        let s1 := (s.dropShifts c p).setPan c p { x.replay with suspect := some at_, testing := true }
        s1.setCore c (s1.core c).dropBuffers
      else (s.replayPan c p true).setPan c p { (s.replayPan c p true).pan c p with suspect := some at_ }
    else if r.cls = 2 then (if x.idleFault r.detail then s.setPan c p x.dropIdleBank else s.replayPan c p true)
    else if r.cls = 3 then s.replayPan c p false
    else if r.cls = 4 then (if r.detail.testBit 26 then s else s.replayPan c p false)
    else s
  | .core =>
    -- a queue entry of the sluice path carries its pass, one of the vector unit its chunk or its combine's operand (R282)
    if r.cls = 3 ∧ bitsOf r.detail 2 2 = 1 then s.replaySluice r.unit
    else if r.cls = 3 ∧ bitsOf r.detail 2 2 = 2 then s.replayVector r.unit
    else s
  | _ => s

/-- The core whose work a fault discards. -/
def faultCore (r : FaultReport) : Option Nat :=
  match r.level with
  | .pan => if r.cls ≤ 4 then some (r.unit / 4) else none
  | .core => if r.cls = 3 then some r.unit else none
  | _ => none

/-- The work that a fault discards goes at once, or, on a core whose clock stands, once the clock returns (R81, R88). -/
def State.workFault (s : State) (r : FaultReport) : State :=
  match faultCore r with
  | some c => if s.coreStopped c then s.setCore c { s.core c with faults := (s.core c).faults ++ [r] } else s.panFault r
  | none => s

/-- A core's clock returns: what its faults discard goes now (R81). -/
def State.thaw (s : State) (c : Nat) : State :=
  if s.coreStopped c then s else (s.core c).faults.foldl State.panFault (s.setCore c { s.core c with faults := [] })

/-- The record of a fault as judged (R334); `x` is its collector before it was placed. -/
def State.faultRecord (s : State) (x : Collector) (r : FaultReport) (v : Verdict) : EvRecord :=
  let lv := levelCode r.level
  { severity := v.sev, kind := 0, code := r.cls, time := s.timeOf lv r.unit, level := lv, escalated := v.escalated,
    queued := x.slot1.isSome && x.slot2.isNone, passedUp := x.slot1.isSome && x.slot2.isSome && decide (lv ≤ 2), counted := v.counted,
    unit := r.unit, physical := r.physical, address := r.addr, space := r.space, cause := r.cause, count := v.count,
    p0 := s.word1 lv r.unit, p1 := r.p1, p2 := r.p2 }

/-- The class counters of a fault (R340). -/
def State.countFault (s : State) (r : FaultReport) (v : Verdict) : State :=
  let s1 := s.bump 64 (Ent.classFaults (r.cls - 1)) 1
  let s2 := if 2 ≤ v.sev then s1.bump 64 (Ent.classSevere (r.cls - 1)) 1 else s1
  if v.escalated then s2.bump 64 (Ent.classEscalations (r.cls - 1)) 1 else s2

/-- What a fault's class freezes or holds as it is latched: event time for EVT (R25), level 0 for a source of POWER counted to Severe
(R410). -/
def State.classHolds (s : State) (r : FaultReport) (v : Verdict) : State :=
  { s with
    clk.lost := s.clk.lost || (decide (r.cls = 0x17) && decide (2 ≤ v.sev)),
    pwr.countHold := s.pwr.countHold || (decide (r.cls = 0x12) && v.counted && decide (v.sev = 2)) }

/-- Latches one fault as judged: it is counted, its unit acts, it takes a slot, and its record is written (R315 to R321). -/
def State.latchIn (s : State) (r : FaultReport) (v : Verdict) : State :=
  let lv := levelCode r.level
  let src := if r.cls = 0x10 then r.addr else r.source
  let x := s.collector (colKey lv r.unit)
  let s1 := ((s.setSource r.cls r.level r.unit src v.times).setCollector (colKey lv r.unit) { x with word1 := detailWord r }).workFault r
  let s2 := (s1.classHolds r v).place 4 lv r.unit { cls := r.cls, sev := v.sev, seq := s1.flt.nextSeq, source := src }
  ((s2.recordAt (dieOfUnit lv r.unit) (s2.faultRecord x r v)).countFault r v).changed (s.topSev != s2.topSev)

/-- What follows a record at Severe or Fatal: the stop (R328), the step's fate (R327), the class's own action (R320). -/
def State.severeEffects (s : State) (r : FaultReport) (v : Verdict) : State :=
  ((if v.sev = 3 then s.fatalStop r.cls else s).stepEffect r).severeAction r

/-- What a fault is latched as: a mismatch that repeats at a group table entry is of class GROUP, and one at a signature state index is a
Fatal fault of class SECURITY (R332). -/
def State.latchedAs (s : State) (r : FaultReport) : FaultReport :=
  if r.cls = 0x10 ∧ 2 ≤ (s.judge r).sev then
    if r.source = intGroup then { r with cls := 0x14, level := .module, unit := 0, source := 0 }
    else if r.source = intSignature then { r with cls := 0x1A, level := .module, unit := 0, source := 0, atLeast := 3 }
    else r
  else r

/-- Latches one fault under the class it is given. -/
def State.latchOne (s : State) (r : FaultReport) : State :=
  let v := s.judge r
  if 2 ≤ v.sev then (s.latchIn r v).severeEffects r v else s.latchIn r v

/-- Latches a fault at a severity that its rule fixes (R418, R423): no counting or escalation changes it. -/
def State.latchAt (s : State) (sev : Nat) (r : FaultReport) : State :=
  s.latchIn r { s.judge r with sev := sev, counted := false, escalated := false }

/-- Latches a fault at Notice whose handling is complete with its latching, so that it holds no slot (R428). -/
def State.latchHandled (s : State) (r : FaultReport) : State :=
  let k := colKey (levelCode r.level) r.unit
  let s1 := s.latchAt 0 r
  s1.setCollector k { s.collector k with word1 := (s1.collector k).word1 }

/-- Latches one fault (R315 to R328, R332). A mismatch latched under another class starts its address's count again (R321). -/
def State.latch (s : State) (r : FaultReport) : State :=
  let q := s.latchedAs r
  (if q.cls = r.cls then s else s.setSource r.cls r.level r.unit r.addr []).latchOne q

/-- Latches the asserted lines, oldest first, then those that the actions have asserted, and so on. What an action asserts is
of class 0x0A or 0x0D, whose own actions assert nothing, so that two rounds leave no line. -/
def State.settle : Nat → State → State
  | 0, s => s
  | n + 1, s => State.settle n (s.flt.lines.foldl State.latch { s with flt.lines := [] })

/-- Latches what a command has raised. -/
def State.latchAll (s : State) : State := State.settle 2 s

/-! ## Handling completes (R316, R323, R324) -/

/-- Slot 1's fault leaves: a Notice or Warning is acknowledged; the next fault moves up (R316, R323, R324). -/
def Collector.complete (x : Collector) : Collector :=
  match x.slot1 with
  | none => x
  | some f =>
    let un := if f.sev < 2 then x.unack.filter (fun u => u.seq != f.seq) else x.unack
    match x.slot2, x.waiting with
    | some g, w :: t => { x with slot1 := some g, slot2 := some w, waiting := t, unack := un }
    | some g, [] => { x with slot1 := some g, slot2 := none, unack := un }
    | none, _ => { x with slot1 := none, unack := un }

/-- A record with a sequence number shows that it is acknowledged (R334). -/
def EvRecord.ackedBy (r : EvRecord) (seq : Nat) : EvRecord := if r.seq = seq then { r with acked := true } else r

/-- Sets the acknowledged flag of a stored record, which goes to the mirror again (R334). -/
def State.markAcked (s : State) (seq : Nat) : State :=
  { s with
    flt.records := s.flt.records.map fun r => r.ackedBy seq,
    flt.held := s.flt.held.map fun r => r.ackedBy seq,
    flt.heldDie1 := s.flt.heldDie1.map fun r => r.ackedBy seq,
    flt.mirrorQueue := listAdd s.flt.mirrorQueue seq }

/-- Acknowledges a Severe or Fatal record (R323, R325, R334). -/
def State.ackSeq (s : State) (seq : Nat) : State :=
  let s1 : State := { s with flt.collectors := s.flt.collectors.map fun (e : Nat × Collector) => (e.1, { e.2 with unack := e.2.unack.filter fun u => u.seq != seq }) }
  (s1.markAcked seq).changed (s.topSev != s1.topSev)

/-! ## Sticky error lines (R21, R22, R317) -/

/-- Synchronised error lines that a fault latched by one collector stands behind, by their keys: a pan's own, and those of a die's SRAM,
networks, stacks and ports, and of the stockpile. -/
def lineKeysOf (k cls source : Nat) : List Nat :=
  let d := dieOfUnit (k / 65536) (k % 65536)
  (if k / 65536 = 0 then [768 + k] else []) ++
    (match cls with
     | 0x03 => if k / 65536 = 3 then
         (if 64 ≤ source ∧ source < 76 then [1820 + (source - 64)]
          else if 128 ≤ source ∧ source < 140 then [1860 + (source - 128)]
          else if 192 ≤ source ∧ source < 200 then [1900 + (source - 192)]
          else if source = 256 then [1911] else []) else []
     | 0x05 => [1794 + d]
     | 0x06 => [1792 + d]
     | 0x07 => [1792 + d]
     | 0x0B => if source < cxlSource then [1820 + source / 32] else [1860 + (source - cxlSource)]
     | 0x0C => if source < cxlSource then [1820 + source / 32] else [1860 + (source - cxlSource)]
     | 0x0D => if source < 12 then [1820 + source] else if cxlSource ≤ source then [1860 + (source - cxlSource)] else []
     | 0x0E => if source = 0 then [1911] else if source < 13 then [1860 + (source - 1)] else [1900 + (source - 16) / 4]
     | 0x18 => [1917]
     | _ => [])

/-- The lines behind which a fault stands that collector `k` holds, those of collectors that passed it up among them. -/
def Latched.lines (f : Latched) (k : Nat) : List Nat := (k :: f.origins).flatMap fun o => lineKeysOf o f.cls f.source

/-- A fault stands behind a line: some collector still holds it. -/
def State.standsBehind (s : State) (key : Nat) : Bool :=
  s.flt.collectors.any fun e => (e.2.slot1.toList ++ e.2.slot2.toList ++ e.2.waiting).any fun f => (f.lines e.1).contains key

/-- The collector clears the lines of a fault that leaves it (R317). -/
def State.clearLinesOf (s : State) (keys : List Nat) : State :=
  { s with clk.syncs := s.clk.syncs.map fun (e : Nat × SyncSt) => if keys.contains e.1 then (e.1, { e.2 with cleared := true }) else e }

/-- Handling of the fault in slot 1 completes (R316, R317, R323, R324, R334). -/
def State.handled (s : State) (k : Nat) : State :=
  match (s.collector k).slot1 with
  | none => s
  | some f =>
    let s1 := (s.setCollector k (s.collector k).complete).clearLinesOf (f.lines k)
    (if f.sev < 2 then s1.markAcked f.seq else s1).changed (s.topSev != s1.topSev)

/-- Severe and Fatal faults not acknowledged (R340). -/
def State.unacked (s : State) : Nat :=
  sumNat (s.flt.collectors.map fun e => (e.2.unack.filter fun u => decide (2 ≤ u.sev)).length)

/-- A sequence number names a record held, of an unacknowledged Severe or Fatal fault (R325). -/
def State.ackable (s : State) (seq : Nat) : Bool :=
  (s.flt.records ++ s.flt.held).any (fun r => r.seq == seq) && s.flt.collectors.any fun e => e.2.unack.any fun u => u.seq == seq && decide (2 ≤ u.sev)

end Sys2Proof.Machine
end

