-- ==== Sys2Proof/Machine/Security.lean ====
section
/-! DEFINITION. Firmware images and the boot ROM's checks, the anti-rollback counter, the identity and attestation keys, operator
keys and tokens, staging (R420 to R437). -/

namespace Sys2Proof.Machine

/-- What an action that a dictionary write starts answers: the state it leaves, the error code (0 for success), and the space and
address that its rule names where it fails (R349 step 7, R351); space 1 names the entry itself. -/
structure Reply where
  s : State
  code : Nat := 0
  space : Nat := 1
  addr : Nat := 0
  deriving DecidableEq, Repr

/-! ## Firmware images (R421) -/

/-- Component `i` of a header: kind, offset, length, digest. -/
def imageComponent (img : List Byte) (i : Nat) : Nat × Nat × Nat × Nat :=
  let o := 0x20 + 48 * i
  (leAt img o 4, leAt img (o + 4) 4, leAt img (o + 8) 4, leAt img (o + 16) 32)

/-- Components in use. -/
def imageComponents (img : List Byte) : List (Nat × Nat × Nat × Nat) := (List.range (leAt img 0x18 4)).map (imageComponent img)

/-- The magic, version, lengths and component table are within their ranges (R423 code 1). -/
def imageShapeOk (img : List Byte) : Bool :=
  let n := leAt img 0x14 4
  let k := leAt img 0x18 4
  let cs := imageComponents img
  let kinds := cs.map (·.1)
  decide (slice img 0 4 = [0x4B#8, 0x5A#8, 0x46#8, 0x57#8]) && decide (leAt img 4 2 = 1) && decide (65536 ≤ n) && decide (n ≤ 67108864)
    && decide (n ≤ img.length) && decide (1 ≤ k) && decide (k ≤ 16)
    && cs.all (fun c => decide (1 ≤ c.1) && decide (c.1 ≤ 6) && decide (4096 ≤ c.2.1) && decide (c.2.1 + c.2.2.1 ≤ n - 2820))
    && (List.range k).all (fun i => decide (leAt img (0x20 + 48 * i + 12) 4 = 0))
    && [1, 2, 3, 4, 5].all (fun j => (kinds.filter (· == j)).length == 1) && decide ((kinds.filter (· == 6)).length ≤ 1)
    && decide (slice img (0x20 + 48 * k) (48 * (16 - k)) = zeros (48 * (16 - k)))
    && decide (leAt img 0x0A 2 = 0) && decide (leAt img 0x12 2 < 16) && decide (slice img 0x320 3296 = zeros 3296)

/-- A component's bytes have the digest that the header gives (R422). -/
def componentOk (img : List Byte) (c : Nat × Nat × Nat × Nat) : Bool := decide (digest256 (slice img c.2.1 c.2.2.1) = c.2.2.2)

/-- Every component of a kind that a predicate names passes. -/
def componentsOk (img : List Byte) (p : Nat → Bool) : Bool :=
  (imageComponents img).all fun c => !p c.1 || componentOk img c

/-- The image digest (R421). -/
def imageDigest (img : List Byte) : Nat := digest256 (img.take 4096)

/-! ## Anti-rollback (R424) -/

/-- An entry is a valid pair of value and complement. -/
def otpValid (w : Nat) : Bool := w % 65536 + w / 65536 == 65535

/-- The counter: the value of the highest-numbered valid entry. -/
def rollbackOf (l : List Nat) : Nat := ((l.reverse.find? otpValid).map (· % 65536)).getD 0

/-- Index of the first blank entry above the last that is not blank. -/
def otpNext (l : List Nat) : Nat := l.length - (l.reverse.takeWhile (· == 0)).length

/-- Blank entries left above the last that is not blank. -/
def otpLeft (l : List Nat) : Nat := 64 - otpNext l

/-- The running image's counter. -/
def State.rollback (s : State) : Nat := rollbackOf s.nv.otp

/-- What a loss of power leaves of an entry that is being programmed (R424, R438): a word that is neither blank nor a valid pair, and is
otherwise free. -/
def spoiledEntry (w : Nat) : Nat := if w % 2 ^ 32 = 0 ∨ otpValid (w % 2 ^ 32) = true then 1 else w % 2 ^ 32

/-- The one-time entries once the rails are gone. -/
def State.otpAfterLoss (s : State) : List Nat :=
  match s.sec.otpWriting with
  | some i => s.nv.otp.set i (spoiledEntry (Config.timing s.clk.freeNext))
  | none => s.nv.otp

/-- Advances the counter and burns the fuses that the running image names; a Warning when no blank entry is left (R424). The entry is being
programmed until the next EVT tick (DESIGN CHOICE, log 96). -/
def State.advanceCounter (s : State) (v : Nat) : State :=
  let i := otpNext s.nv.otp
  if i < 64 then
    { s with nv.otp := s.nv.otp.set i (v + (65535 - v) * 65536), nv.fuses := s.nv.fuses ||| (s.sec.revoke % 16),
             sec.otpWriting := some i }
  else s.condition 1 0x8010 v 0 0

/-! ## Boot (R423) -/

/-- The code with which the ROM refuses an image, or 0 (R423). -/
def State.imageReject (s : State) (img : List Byte) : Nat :=
  if !imageShapeOk img then 1
  else
    let slot := leAt img 0x1C 4
    if 4 ≤ slot ∨ s.nv.fuses.testBit slot then 2
    else if leAt img 0x10 2 < s.rollback then 3
    else if !xmssVerify (Config.vendorKey slot) (img.take 4096) (slice img (leAt img 0x14 4 - 2820) 2820) then 4
    else if !componentsOk img (· == 1) then 5
    else 0

/-- The code with which the ROM refuses a bank. -/
def State.bankReject (s : State) (b : Bool) : Nat :=
  let c := s.imageReject (if b then s.nv.bankB else s.nv.bankA)
  if c ≠ 0 then c else if (if b then s.nv.readFailB else s.nv.readFailA) then 6 else 0

/-- The image that runs. -/
def State.runningImage (s : State) : List Byte :=
  if s.sec.bankBooted = 0 then s.nv.bankA else if s.sec.bankBooted = 1 then s.nv.bankB else []

/-- The components of a kind pass their digests as they are loaded again (R422). -/
def State.loadsComponent (s : State) (kind : Nat) : Bool := componentsOk s.runningImage (· == kind)

/-- Takes over what the running image's header gives. -/
def State.runImage (s : State) (img : List Byte) : State :=
  { s with
    sec.svn := leAt img 0x10 2, sec.revoke := leAt img 0x12 2, sec.fwMajor := leAt img 6 2, sec.fwMinor := leAt img 8 2,
    sec.fwBuild := leAt img 0x0C 4, sec.digest := imageDigest img }

/-- Recovery mode: both banks refused (R423). -/
def State.recoveryMode (s : State) : State :=
  { s with sec.bootState := 3, sec.bankBooted := 255 }.raise { fault 0x1A .module 0 with detail := 3 }

/-- Bank `b` is booted; a bank that is not the selected one writes a Warning (R423). -/
def State.bootBank (s : State) (b other : Bool) : State :=
  let s1 := { s.runImage (if b then s.nv.bankB else s.nv.bankA) with sec.bankBooted := bitN b, sec.bootState := if other then 2 else 1 }
  if other then s1.latchAt 1 (fault 0x1A .module 0) else s1

/-- The boot ROM's choice of bank (R423). A selector that fails its complement takes bank A first. -/
def State.bootRom (s : State) : State :=
  let first := s.nv.selectorOk && s.nv.selector == 1
  let r1 := s.bankReject first
  let setR := fun (s : State) (b : Bool) (c : Nat) => if b then { s with sec.rejectB := c } else { s with sec.rejectA := c }
  if r1 = 0 then s.bootBank first false
  else
    let s1 := setR s first r1
    let r2 := s1.bankReject (!first)
    if r2 = 0 then s1.bootBank (!first) true else (setR s1 (!first) r2).recoveryMode

/-! ## Identity and attestation keys (R428 to R432) -/

/-- The largest next among a ring's valid records. -/
def ringTop (l : List RingRec) : Option Nat :=
  l.foldl (fun m r => if r.valid then some (max (m.getD 0) r.next) else m) none

/-- The stored identity index (R428). -/
def State.storedIndex (s : State) : Option Nat :=
  match ringTop s.nv.ringS0, ringTop s.nv.ringS1 with
  | some a, some b => some (max a b)
  | some a, none => some a
  | none, b => b

/-- Damaged records of a ring (R428): an INTEGRITY fault at Notice each, whose handling, the record's skipping, is complete with it. -/
def State.ringFaults (s : State) (l : List RingRec) (base : Nat) : State :=
  l.foldl (fun s r => if r.valid then s else s.latchHandled (integrity intSignature .module 0 6 (base + 16 * r.slot))) s

/-- A record is written at a ring's next slot and read back; one that fails is written again at the slot after it (R429). -/
def ringPush (bad : List Nat) (n : Nat) : Nat → List RingRec → List RingRec
  | 0, l => l
  | k + 1, l =>
    let slot := l.getLast?.elim 0 fun r => (r.slot + 1) % 4096
    if bad.contains slot then ringPush bad n k (l ++ [{ next := n, valid := false, slot := slot }])
    else l ++ [{ next := n, slot := slot }]

/-- Records in a block of a ring's flash: the spec gives no size, so that it is free. -/
def ringBlock : Nat := 2 ^ (Config.ringBlockLog % 12)

/-- A ring that has filled erases its oldest block (R429). -/
def ringErase (l : List RingRec) : List RingRec := if 4096 ≤ l.length then l.drop ringBlock else l

/-- The message that the identity key certifies (R431). -/
def pad16 (l : List Byte) : List Byte := (l ++ zeros 16).take 16
def State.certMessage (s : State) : List Byte :=
  Config.attestPublic s.nv.boot ++ pad16 Config.serial ++ leBytes 2 s.nv.boot ++ leBytes 32 s.sec.digest ++ leBytes 16 idFingerprint

/-- Identity keys hold 2^20 signatures (R427). -/
def identityLimit : Nat := 1048576

/-- Stores the next index, then signs the attestation key's certificate; a spent key raises SECURITY (R429, R431). -/
def State.createAttestKey (s : State) : State :=
  let s1 := (s.ringFaults s.nv.ringS0 0x8001000).ringFaults s.nv.ringS1 0x8011000
  match s1.storedIndex with
  | none => s1.raise { fault 0x1A .module 0 with atLeast := 3, detail := 1 }
  | some i =>
    if identityLimit ≤ i then s1.raise { fault 0x1A .module 0 with detail := 2 }
    else
      { s1 with
        -- both rings hold the checked record before either erases a block
        nv.ringS0 := ringErase (ringPush s1.nv.ringBad0 (i + 1) 4096 s1.nv.ringS0),
        nv.ringS1 := ringErase (ringPush s1.nv.ringBad1 (i + 1) 4096 s1.nv.ringS1),
        sec.attest := some { index := 0, certIndex := i } }.setReady 59 true

/-- A mismatch of the attestation key's state index destroys the key, with a Severe fault of class SECURITY; bit [59] stays clear until the
next power good (R431). A report that is being signed with it is given up (log 96). -/
def State.destroyAttestKey (s : State) : State :=
  if s.sec.attest.isSome then
    ({ s with sec.attest := none, sec.job := none, sec.reportState := if s.sec.job.isSome then 3 else s.sec.reportState }.setReady 59 false).raise
      { fault 0x1A .module 0 with detail := 4 }
  else s

/-- The certificate (R431): the identity signature with the index that was stored for it. -/
def State.certificate (s : State) : List Byte :=
  match s.sec.attest with
  | some k => Config.identitySign k.certIndex s.certMessage
  | none => []

/-- Operator keys enrolled. -/
def State.opKeyCount (s : State) : Nat := (s.nv.opKeys.filter fun e => !e.2.key.isEmpty).length

/-- Digest of the operator key table (R434). -/
def State.opDigest (s : State) : Nat :=
  digest256 ((List.range 8).flatMap fun i =>
    let k := (Kv.getD s.nv.opKeys i {}).key
    if k.isEmpty then zeros 68 else k)

/-- The settings word (R433). -/
def State.settingsWord (s : State) : Nat :=
  bitN s.nv.rollbackAuto + bitN (s.sec.bootState == 2) * 2 + (if s.sec.bankBooted = 1 then 4 else 0) + s.nv.fuses % 16 * 8
    + s.opKeyCount * 256 + (if s.phase ≠ 0 then 4 else s.ent Ent.progState) * 4096 + otpLeft s.nv.otp * 65536 + s.nv.opGen * 2 ^ 32

/-- The hash of the loaded program, 0 if none. -/
def State.progHash (s : State) : Nat :=
  match s.prog.loaded with
  | some p => p.hash
  | none => 0

/-- The report's first 0xC30 bytes, before its signature (R432). -/
def State.reportHead (s : State) (nonce : List Byte) : List Byte :=
  let k := s.sec.attest.getD {}
  [0x4B#8, 0x5A#8, 0x41#8, 0x54#8] ++ leBytes 2 1 ++ zeros 2 ++ leBytes 4 5620 ++ leBytes 4 k.index ++ leBytes 16 idFingerprint
    ++ (nonce ++ zeros 32).take 32 ++ pad16 Config.serial ++ leBytes 2 s.nv.boot ++ leBytes 2 s.sec.fwMajor ++ leBytes 2 s.sec.fwMinor
    ++ zeros 2 ++ leBytes 4 s.sec.fwBuild ++ leBytes 4 s.sec.svn ++ leBytes 4 s.rollback ++ leBytes 4 k.certIndex
    ++ leBytes 32 s.sec.digest ++ leBytes 32 s.progHash ++ leBytes 8 s.settingsWord ++ leBytes 32 s.opDigest
    ++ leBytes 8 (s.ent Ent.trainStepIndex) ++ zeros 8 ++ (Config.attestPublic s.nv.boot ++ zeros 68).take 68 ++ zeros 4
    ++ (s.certificate ++ zeros 2820).take 2820 ++ zeros 4

/-- Starts a report (R432): 1 to the domain, 2 to a mapped address. -/
def State.attestGo (s : State) (v : Nat) : Reply :=
  match s.sec.attest with
  | none => { s := s, code := 4 }
  | some k =>
    if k.bad then
      -- the state index fails its complement: the key is destroyed (R431)
      { s := s.destroyAttestKey, code := 4 }
    else if s.sec.job.isSome ∨ 1024 ≤ k.index ∨ s.isReady 59 = false then { s := s, code := 4 }
    else
      let a := s.ent Ent.secAttestAddress
      if v = 2 ∧ !s.rangeMapped a 5620 then
        { s := { s with sec.reportState := 3 }, code := 6, space := 0, addr := a }
      else
        let head := s.reportHead ((Kv.find? s.dict.blobs Ent.secAttestNonce).getD [])
        { s := { s with
            sec.attest := some { k with index := k.index + 1 }, sec.reportState := 1,
            sec.job := some { index := k.index, toAddress := if v = 2 then some a else none, bytes := head } } }

/-! ## Operator keys and tokens (R434 to R436) -/

/-- Height of the XMSS key that a 68-byte key's identifier names (R434; the SP 800-208 identifiers are PRESUMED, log 35). -/
def keyHeight (k : List Byte) : Option Nat :=
  if k.length ≠ 68 then none
  else match beNat (k.take 4) with
    | 0x10 => some 10 | 0x11 => some 16 | 0x12 => some 20
    | _ => none

/-- Length of a signature of a height (R435). -/
def sigLength (h : Nat) : Nat := if h = 10 then 2500 else if h = 16 then 2692 else 2820

/-- Enrols a key into a slot; the generation rises (R434). -/
def State.enrol (s : State) (slot : Nat) (k : List Byte) (h : Nat) : State :=
  { s with nv.opKeys := Kv.put s.nv.opKeys slot { key := k, height := h }, nv.opKeysOk := true, nv.opGen := s.nv.opGen + 1 }

/-- sec.enrol_go (R434): the first key, while the table is empty. -/
def State.enrolGo (s : State) : Reply :=
  if s.isReady 4 = false ∨ s.opKeyCount ≠ 0 then { s := s, code := 4 }
  else
    let k := (Kv.find? s.dict.blobs Ent.secEnrolKey).getD []
    match keyHeight k with
    | some h => { s := s.enrol 0 k h }
    | none => { s := s, code := 3 }

/-- A token's fields and signature. -/
structure Token where
  cmd : Nat
  slot : Nat
  arg0 : Nat
  arg1 : Nat
  key : List Byte
  index : Nat
  deriving DecidableEq, Repr

/-- Parses a token and checks its layout, its signer, its signature, its index, its serial and its boot count (R435, R436). -/
def State.checkToken (s : State) (l : List Byte) : Option Token :=
  let b := l.take 128
  let sig := l.drop 128
  let slot := leAt b 6 1
  let k := Kv.getD s.nv.opKeys slot {}
  let index := beNat (sig.take 4)
  let t : Token := { cmd := leAt b 5 1, slot := slot, arg0 := leAt b 0x20 8, arg1 := leAt b 0x28 8, key := slice b 0x30 68, index := index }
  if decide (b.length = 128) && decide (b.take 4 = [0x4B#8, 0x5A#8, 0x54#8, 0x4B#8]) && decide (leAt b 4 1 = 1) && decide (slot < 8)
      && decide (leAt b 7 1 = 0) && decide (leAt b 0x1A 6 = 0) && decide (slice b 0x74 12 = zeros 12)
      && (decide (t.cmd = 2) || decide (t.key = zeros 68)) && !k.key.isEmpty && decide (sig.length = sigLength k.height)
      && xmssVerify k.key b sig && (match k.lastIndex with | some n => decide (n < index) | none => true)
      && decide (slice b 8 16 = pad16 Config.serial) && decide (leAt b 0x18 2 = s.nv.boot % 65536) then some t else none

/-- The command's own conditions (R436); command 1 under R338. -/
def State.tokenAllowed (s : State) (t : Token) : Bool :=
  match t.cmd with
  | 1 => match s.nv.lastClear with | some c => decide (c < t.arg0) | none => true
  | 2 => decide (t.arg0 < 8) && (Kv.getD s.nv.opKeys t.arg0 {}).key.isEmpty && decide (t.arg1 = s.nv.opGen) && (keyHeight t.key).isSome
  | 3 => decide (t.arg0 < 8) && !(Kv.getD s.nv.opKeys t.arg0 {}).key.isEmpty && decide (2 ≤ s.opKeyCount) && decide (t.arg1 = s.nv.opGen)
  | 4 => decide (s.rollback < t.arg0) && decide (t.arg0 ≤ s.sec.svn)
  | 5 => decide (t.arg0 ≤ 1)
  | _ => false

/-- Stores the accepted index before the command takes effect (R436). -/
def State.acceptToken (s : State) (t : Token) : State :=
  { s with nv.opKeys := Kv.put s.nv.opKeys t.slot { Kv.getD s.nv.opKeys t.slot {} with lastIndex := some t.index } }

/-- The effect of an accepted token of commands 2 to 5. -/
def State.tokenEffect (s : State) (t : Token) : State :=
  match t.cmd with
  | 2 => s.enrol t.arg0 t.key ((keyHeight t.key).getD 10)
  | 3 => { s with nv.opKeys := Kv.del s.nv.opKeys t.arg0, nv.opGen := s.nv.opGen + 1 }
  | 4 => s.advanceCounter t.arg0
  | 5 => { s with nv.rollbackAuto := decide (t.arg0 = 1) }
  | _ => s

/-- sec.token_go (R436). -/
def State.tokenGo (s : State) : Reply :=
  if s.isReady 4 = false then { s := s, code := 4 }
  else
    match (s.checkToken ((Kv.find? s.dict.blobs Ent.secToken).getD [])).filter (fun t => t.cmd != 1 && s.tokenAllowed t) with
    | some t =>
      { s := (((s.acceptToken t).tokenEffect t).bump 32 Ent.secTokensAccepted 1).condition 0 0x8040 t.cmd t.slot t.arg0 }
    | none => { s := (s.bump 32 Ent.secTokensRefused 1).condition 1 0x8040 0 0 0, code := 3 }

/-- ev.clear_go (R338): removes what the token allows and writes the protected record, or refuses. -/
def State.clearGo (s : State) : Reply :=
  if s.isReady 4 = false then { s := s, code := 4 }
  else
    match (s.checkToken ((Kv.find? s.dict.blobs Ent.evClearToken).getD [])).filter (fun t => t.cmd == 1 && s.tokenAllowed t) with
    | some t =>
      let s0 := s.acceptToken t
      let gone := s0.flt.records.filter fun r => r.kind != 3 && decide (r.seq ≤ t.arg0)
      let keep := s0.flt.records.filter fun r => !(r.kind != 3 && decide (r.seq ≤ t.arg0))
      let lowest := (gone.map (·.seq)).foldl min ((gone.head?.map (·.seq)).getD 0)
      let s1 := { s0 with
        flt.records := keep, nv.lastClear := some t.arg0,
        flt.mirrorQueue := s0.flt.mirrorQueue.filter fun q => keep.any fun r => r.seq == q,
        nv.mirror := s0.nv.mirror.filter fun r => !(r.kind != 3 && decide (r.seq ≤ t.arg0)) }
      let s2 := s1.bump 32 Ent.evClears 1
      { s := s2.record { severity := 0, kind := 3, code := 1, time := s2.now, level := 4, p0 := lowest, p1 := t.arg0,
                         p2 := t.slot + gone.length * 2 ^ 32 } }
    | none => { s := s.record { severity := 1, kind := 3, code := 2, time := s.now, level := 4 }, code := 3 }

/-! ## Staging (R425, R426) -/

/-- The code with which staging refuses an image: codes 1 to 5, every component's digest checked (R425). -/
def State.stageReject (s : State) (img : List Byte) : Nat :=
  let c := s.imageReject img
  if c ≠ 0 then c else if componentsOk img (fun _ => true) then 0 else 5

/-- The code that a bank draws as it is read back and checked whole (R425, R426), code 6 if its flash does not read (R423). -/
def State.bankCheck (s : State) (b : Bool) : Nat :=
  let c := s.stageReject (if b then s.nv.bankB else s.nv.bankA)
  if c ≠ 0 then c else if (if b then s.nv.readFailB else s.nv.readFailA) then 6 else 0

/-- sec.stage_go (R425, R426). -/
def State.stageGo (s : State) (v : Nat) : Reply :=
  if s.isReady 5 = false ∨ s.sec.staging.isSome then { s := s, code := 4 }
  else if v = 1 then
    if s.sec.bootState = 3 then { s := s, code := 4 }
    else
      let a := s.ent Ent.secStageAddress
      if !s.rangeMapped a 4096 then { s := s, code := 6, space := 0, addr := a }
      else
        let n := min (s.ramNat (a + 0x14) 4) 67108864
        if !s.rangeMapped a (max n 4096) then { s := s, code := 6, space := 0, addr := a }
        else { s := { s.setEnt Ent.secStageState 1 with sec.staging := some (s.ramRead a (max n 4096), s.sec.bankBooted == 0, false) } }
  else if s.sec.bootState ≠ 3 then { s := s, code := 4 }
  else { s := { s.setEnt Ent.secStageState 1 with sec.staging := some (s.nv.bankA, false, true) } }

/-- Bytes written into bank A in recovery mode at an offset (R426). -/
def overlay (l : List Byte) (off : Nat) (b : List Byte) : List Byte :=
  (l ++ zeros (off - l.length)).take off ++ b ++ l.drop (off + b.length)

/-- Staging completes: the image is checked, written to the bank not running, read back and checked, and selected (R425, R426). -/
def State.stageDone (s : State) : State :=
  match s.sec.staging with
  | none => s
  | some (img, toB, inPlace) =>
    let c := s.stageReject img
    let s0 := { s with sec.staging := none }
    let s1 := if inPlace ∨ c ≠ 0 then s0 else if toB then { s0 with nv.bankB := img } else { s0 with nv.bankA := img }
    -- the bank as flash reads it back
    let r := if c ≠ 0 then c else s1.bankCheck toB
    if r ≠ 0 then (s1.setEnt Ent.secStageState 3).setEnt Ent.secStageReject r
    else { (s1.setEnt Ent.secStageState 2) with nv.selector := bitN toB, nv.selectorOk := true }

end Sys2Proof.Machine
end

