-- ==== Sys2Proof/Machine/Supply.lean ====
section
/-! DEFINITION. Supply, sequencing, boot, readiness and the event-time tick: INPUT_APPLIED to PWR_OK_FALL, EVT_TICK, EVT_TICK_LOST,
ALIVE_TOGGLE (R23, R25, R329, R339, R368, R369, R405, R407, R411, R418, R423, R447). -/

namespace Sys2Proof.Machine

/-- The outcome of a meaning. -/
abbrev Out := Host.Outcome State Fault Refusal

/-! ## The rails go -/

/-- The module with its rails off: everything volatile at its reset value. What stays is what flash and one-time storage hold, but for an
entry that was being programmed, the supply's own state, the levels that the tray and host drive, the commands waiting, and the count of
free values drawn. -/
def State.powerOff (s : State) : State :=
  { pending := s.pending
    clk := { freeNext := s.clk.freeNext + bitN s.sec.otpWriting.isSome }
    pwr := { inputOn := s.pwr.inputOn, precharged := s.pwr.precharged, pwrOk := s.pwr.pwrOk }
    comm := { addrIn := s.comm.addrIn }
    links := { host := { perst := s.links.host.perst } }
    stock := { snaps := s.stock.snaps, lifeBytes := s.stock.lifeBytes, wornNoted := s.stock.wornNoted }
    nv := { s.nv with otp := s.otpAfterLoss } }

/-! ## Input and sequencing (R405, R447) -/

/-- INPUT_APPLIED (R447): the input reaches J1, and the precharge starts. -/
def execInputApplied (s : State) : Out :=
  .next (if s.pwr.inputOn then s else { s with pwr.inputOn := true, pwr.precharged := false })

/-- PRECHARGE_DONE (R447): sequencing begins if PWR_OK is already high. -/
def execPrechargeDone (s : State) : Out :=
  .next (if s.pwr.inputOn ∧ s.pwr.precharged = false then { s with pwr.precharged := true, pwr.sequencing := s.pwr.pwrOk } else s)

/-- PWR_OK_RISE (R405, R443): sequencing begins once the precharge is complete. -/
def execPwrOkRise (s : State) : Out :=
  .next (if s.pwr.pwrOk then s else { s with pwr.pwrOk := true, pwr.sequencing := s.pwr.inputOn && s.pwr.precharged && !s.pwr.on })

/-- Power good itself: counters from zero, the boot count risen, the recorder reloading with its next seq at the mark (R339). -/
def State.wake (s : State) : State :=
  let s0 := s.powerOff
  { s0 with
    pwr.on := true,
    nv.boot := satAdd 16 s.nv.boot 1,
    flt.nextSeq := s.nv.mark,
    flt.reloading := true }

/-- POWER_GOOD (R405, R423, R339): rails up, event time from zero, and the boot ROM runs. -/
def execPowerGood (s : State) : Out :=
  .next (if s.pwr.sequencing ∧ s.pwr.on = false then s.wake.bootRom.latchAll else s)

/-- FIRMWARE_START (R423, R422): the management firmware starts, checks the components it loads, and makes the attestation key. A
component that fails refuses the bank with code 5. -/
def execFirmwareStart (s : State) : Out :=
  .next (
    if s.pwr.on ∧ s.sec.fwStarted = false ∧ (s.sec.bootState = 1 ∨ s.sec.bootState = 2) then
      let b := s.sec.bankBooted == 1
      let img := if b then s.nv.bankB else s.nv.bankA
      if componentsOk img (fun _ => true) then { s with sec.fwStarted := true, sec.fwTick := s.now }.createAttestKey.latchAll
      else
        let s1 := if b then { s with sec.rejectB := 5 } else { s with sec.rejectA := 5 }
        if s.sec.bootState = 2 then s1.recoveryMode.latchAll
        else
          let r2 := s1.bankReject (!b)
          let img2 := if b then s.nv.bankA else s.nv.bankB
          let r3 := if r2 = 0 ∧ componentsOk img2 (fun _ => true) = false then 5 else r2
          if r3 = 0 then { s1.bootBank (!b) true with sec.fwStarted := true, sec.fwTick := s.now }.createAttestKey.latchAll
          else (if b then { s1 with sec.rejectA := r3 } else { s1 with sec.rejectB := r3 }).recoveryMode.latchAll
    else s)

/-- RECORDER_RELOAD_DONE (R339): the records of the mirror whose CRC holds, then those held meanwhile; bit [4] sets. -/
def execRecorderReloadDone (s : State) : Out :=
  .next (
    if s.flt.reloading then
      let good := s.nv.mirror.filter fun r => !s.nv.mirrorBad.contains r.seq
      let s1 := { s with flt.reloading := false, flt.records := sortRecords good, flt.held := [] }
      let s2 := s1.setEnt Ent.evCrcDropped (s.nv.mirror.length - good.length)
      (s.flt.held.foldl State.storeRecord s2).setReady 4 true
    else s)

/-! ## Readiness (R368, R369, R418) -/

/-- All 16 logical clusters, all 128 logical cores and both die management processors are ready (R369). -/
def State.allUnitsReady (s : State) : Bool :=
  (List.range 16).all (fun k => s.isReady (40 + k)) && (List.range 128).all s.coreReady && s.isReady 56 && s.isReady 57

/-- The anti-rollback counter advances by itself where it is to (R424). -/
def State.autoAdvance (s : State) : State :=
  if s.nv.rollbackAuto = true ∧ s.rollback < s.sec.svn then s.advanceCounter s.sec.svn else s

/-- Nothing holds the compute bits clear: no Fatal fault, no loss beyond repair, no failed self-test (R12, R181, R328, R369). -/
def State.computeAllowed (s : State) : Bool := s.flt.fatal == 0 && !s.dict.computeBarred && !s.dict.testFailed

/-- Both compute bits set, for the first time since power good (R369). -/
def State.setCompute (s : State) : State :=
  let s0 : State := { s with dict.computeOnce := true }
  (s0.setReady 6 true).setReady 7 true

/-- The compute bits set when their units are all ready for the first time (R369); the anti-rollback counter then advances if it is to
(R424). -/
def State.computeCheck (s : State) : State :=
  if s.allUnitsReady = true ∧ s.dict.computeOnce = false ∧ s.computeAllowed = true then s.setCompute.autoAdvance else s

/-- In recovery mode only the field network, the mailbox, the link, the recorder and the flash that staging needs come ready (R419,
R423, R426). -/
def bitInRecovery (b : Nat) : Bool := b == 0 || b == 1 || b == 2 || b == 4 || b == 5

/-- What a function needs besides its own training (R368, R418). -/
def State.bitAllowed (s : State) (b : Nat) : Bool :=
  if s.sec.bootState = 3 && !bitInRecovery b then false
  else if b = 1 then s.isReady 2 && (s.sec.fwStarted || s.sec.bootState == 3)
  else if b = 2 then !s.links.host.perst
  else if b = 4 then !s.flt.reloading
  else if b = 6 ∨ b = 7 then false
  else if 20 ≤ b ∧ b ≤ 31 then (s.dev (b - 20)).role != 0xFE
  else if 32 ≤ b ∧ b ≤ 39 then !s.links.portsOut.contains (b - 32)
  else if b = 56 ∨ b = 57 then s.sec.fwStarted
  else if b = 58 then s.sec.fwStarted && !s.clk.lost && decide (s.sec.fwTick + 2 ≤ s.clk.evtMgmt)
  else if b = 59 then s.sec.attest.isSome
  else true

/-- Frame f of a CXL device lies at device address f × 512 KiB (R381), and the port's HDM decoder covers its frames (R380): base and size.
-/
def cxlDeviceAddr (frame : Nat) : Nat := frame * 524288
def hdmDecoder : Nat × Nat := (0, cxlDeviceAddr 976562)

/-- What comes up with a bit: the host link, a CXL link with its device, whose decoder is programmed (R381), a port's lanes (R389). A link
that has trained already keeps its rate and width (R382); one that has not is taken at its highest (log 95). -/
def State.bringUp (s : State) (b : Nat) : State :=
  if b = 2 then
    if s.links.host.up then s else { s with links.host.up := true, links.host.rate := s.links.host.maxRate, links.host.width := 16 }
  else if 20 ≤ b ∧ b ≤ 31 then
    let l := Kv.getD s.links.cxl (b - 20) {}
    let l1 : CxlLink := if l.up then { l with hdm := some hdmDecoder } else { up := true, rate := 64, width := 8, hdm := some hdmDecoder }
    { s with links.cxl := Kv.put s.links.cxl (b - 20) l1 }
  else if 32 ≤ b ∧ b ≤ 39 then
    ((List.range 4).foldl (fun s l =>
      let i := 4 * (b - 32) + l
      if (s.lane i).retired then s else s.setLane i { s.lane i with live := true }) s).sendLaneState (b - 32)
  else s

/-- What a bit that sets lets through: with the die-to-die link, what die 1 has recorded (R13). -/
def State.bitSet (s : State) (b : Nat) : State := if b = 3 then s.recordsOfDie1 else s

/-- FUNCTION_READY (R368, R369, R418): the function's bit sets, with its time. -/
def execFunctionReady (f : FnId) (s : State) : Out :=
  .next (
    if s.pwr.on = false then s
    else match f with
      | .core c => if s.sec.bootState = 3 ∨ s.rep.coreSwap.contains c.val then s else (s.setCoreReady c.val true).computeCheck
      | .bit b => if s.bitAllowed b.val then (((s.bringUp b.val).setReady b.val true).bitSet b.val).computeCheck else s)

/-- The class whose fault a function that is late records (R418; the pairing is the model's choice, log 34). -/
def lateClass (b : Nat) : Nat :=
  if b = 0 ∨ b = 1 ∨ b = 2 then 0x0E
  else if b = 3 then 0x0F
  else if b = 4 ∨ b = 5 then 0x18
  else if b = 58 then 0x17
  else if b = 59 then 0x1A
  else if 8 ≤ b ∧ b ≤ 31 then 0x0D
  else if 32 ≤ b ∧ b ≤ 39 then 0x0E
  else if b = 56 ∨ b = 57 then 0x09
  else 0x0A

/-- The collector that latches a late function's class (R320): level and instance. -/
def lateUnit (f : FnId) : Nat × Nat :=
  match f with
  | .core c => (3, c.val / 64)
  | .bit b =>
    if 8 ≤ b.val ∧ b.val ≤ 19 then (3, (b.val - 8) / 6)
    else if 20 ≤ b.val ∧ b.val ≤ 31 then (3, (b.val - 20) / 6)
    else if 32 ≤ b.val ∧ b.val ≤ 39 then (3, (b.val - 32) / 4)
    else if 40 ≤ b.val ∧ b.val ≤ 55 then (3, (b.val - 40) / 8)
    else if b.val = 56 ∨ b.val = 57 then (3, b.val - 56)
    else if b.val ≤ 2 then (3, 0)
    else (4, 0)

/-- The source of a late function within its class (R321): the unit's number as the class's other faults name it. -/
def lateSource (f : FnId) : Nat :=
  match f with
  | .core c => c.val / 8
  | .bit b =>
    if 8 ≤ b.val ∧ b.val ≤ 19 then b.val - 8
    else if 20 ≤ b.val ∧ b.val ≤ 31 then cxlSource + (b.val - 20)
    else if 32 ≤ b.val ∧ b.val ≤ 39 then 16 + 4 * (b.val - 32)
    else if 40 ≤ b.val ∧ b.val ≤ 55 then b.val - 40
    else 0

/-- The fault of a late function: its own class, at Warning, in the collector that latches the class (R315, R418). -/
def State.lateRecord (s : State) (cls : Nat) (f : FnId) : State :=
  s.latchAt 1 { fault cls (if (lateUnit f).1 = 3 then .die else .module) (lateUnit f).2 with source := lateSource f }

/-- A stack that did not come ready cannot hold data (R418, R251). -/
def State.lateStack (s : State) (st : Nat) : State :=
  ((s.setStack st { s.stack st with remap := 4 }).raise { fault 0x0D .die (st / 6) with source := st }).loseCompute

/-- READINESS_DEADLINE (R418): a function still not ready records a fault at Warning and is handled as a failed unit. -/
def execReadinessDeadline (f : FnId) (s : State) : Out :=
  .next (
    if s.pwr.on = false then s
    else match f with
      | .core c => if s.coreReady c.val then s else ((s.lateRecord 0x0A (.core c)).swapCore c.val).latchAll
      | .bit b =>
        if s.isReady b.val ∨ s.bitAllowed b.val = false ∧ (b.val = 6 ∨ b.val = 7) then s
        else
          let s1 := s.lateRecord (lateClass b.val) (.bit b)
          if 40 ≤ b.val ∧ b.val ≤ 55 then (s1.swapCluster (b.val - 40)).latchAll
          else if 8 ≤ b.val ∧ b.val ≤ 19 then (s1.lateStack (b.val - 8)).latchAll
          else if 20 ≤ b.val ∧ b.val ≤ 31 then (s1.failDev (b.val - 20)).latchAll
          else if 32 ≤ b.val ∧ b.val ≤ 39 then
            ((List.range 4).foldl (fun s l =>
              let i := 4 * (b.val - 32) + l
              if (s.lane i).live || (s.lane i).retired then s else s.retireLane i) s1).latchAll
          else if b.val = 56 ∨ b.val = 57 then
            (if s1.rep.spareDmp.contains (b.val - 56) then s1 else s1.swapDmp (b.val - 56)).latchAll
          else s1.latchAll)

/-! ## Loss of supply (R407, R411) -/

/-- PWR_OK_FALL (R407, R430): admission stops, clusters clock-stop, the crust is left, a Notice, the mirror flushed, the attestation key
zeroed, every rail off. -/
def execPwrOkFall (s : State) : Out :=
  .next (
    if s.pwr.pwrOk = false then s
    else
      let s0 := { s with pwr.pwrOk := false, pwr.sequencing := false }
      if s.pwr.on then
        let s1 := { s0 with train.admitStop := true, pwr.stopped := List.replicate 16 true }
        let s2 := s1.withdraw.condition 0 0x2000 0 0 0
        let s3 := { s2 with sec.attest := none, sec.job := none, sec.staging := none }
        s3.flushMirror.powerOff
      else s0)

/-- INPUT_UNDERVOLTAGE (R411, R455): below 48 V a POWER Warning and level 0; below 45 V with PWR_OK high a Fatal POWER fault; below 42 V
the rails fall. A module that is withdrawn loses its input without the hold-up of R407: what is not in flash is lost. -/
def execInputUndervoltage (v : UnderVolt) (s : State) : Out :=
  .next (
    if s.pwr.on = false ∧ v ≠ .withdrawn then s
    else match v with
      | .below48 => ({ s with pwr.voltHold := true, pwr.voltOkUs := 0 }.raise (fault 0x12 .module 0)).latchAll
      | .below45 => if s.pwr.pwrOk then (s.raise { fault 0x12 .module 0 with atLeast := 3 }).latchAll else s
      | .below42 => s.powerOff
      | .withdrawn =>
        { s.powerOff with pwr.inputOn := false, pwr.precharged := false, pwr.pwrOk := false, comm.addrIn := false })

/-- INPUT_OVERVOLTAGE (R411): a POWER Warning, nothing else. -/
def execInputOvervoltage (s : State) : Out :=
  .next (if s.pwr.on then (s.raise (fault 0x12 .module 0)).latchAll else s)

/-- HARDWARE_OVERVOLTAGE_REMOVAL (R411): every rail is removed; no record; ALIVE stops. -/
def execHardwareOvervoltageRemoval (s : State) : Out :=
  .next (if s.pwr.on ∨ s.pwr.sequencing then { s.powerOff with pwr.sequencing := false } else s)

/-! ## Event time (R23, R25) and ALIVE (R329) -/

/-- EVT_TICK (R23): the counters of every domain advance together. -/
def execEvtTick (s : State) : Out :=
  .next (
    if s.pwr.on ∧ s.clk.lost = false then
      { s with
        clk.evtMgmt := s.clk.evtMgmt + 1, clk.evtCtrl0 := s.clk.evtCtrl0 + 1, clk.evtCtrl1 := s.clk.evtCtrl1 + 1,
        clk.evtArith := s.clk.evtArith.map (· + 1), sec.otpWriting := none,
        mem.badMain := s.mem.badMain.filter s.mem.badMirror.contains }
    else s)

/-- EVT_TICK_LOST (R25): 2 ms without a tick; a Severe EVT fault, and every time field freezes. -/
def execEvtTickLost (s : State) : Out :=
  .next (if s.pwr.on ∧ s.clk.lost = false then (s.raise (fault 0x17 .module 0)).latchAll else s)

/-- ALIVE_TOGGLE (R329): ALIVE inverts while the module runs; once stopped it holds its level until power good. -/
def execAliveToggle (s : State) : Out :=
  .next (
    if s.pwr.on ∧ s.flt.alive ≠ .stopped then { s with flt.alive := .running, flt.aliveLevel := !s.flt.aliveLevel } else s)

end Sys2Proof.Machine
end

