-- ==== Sys2Proof/Machine/Brine.lean ====
section
/-! DEFINITION. Brine links: what every received frame does, acknowledgement and resending, lane states and lane errors (R384 to R389,
R396). -/

namespace Sys2Proof.Machine

/-- Index of the lane that a frame came on. -/
def laneIx (h : BrineHdr) : Nat := 4 * h.port.val + h.lane.val

/-- How far a 24-bit sequence number lies ahead of another. -/
def psnAhead (a b : Nat) : Nat := (a + 2 ^ 24 - b % 2 ^ 24) % 2 ^ 24

/-- A number lies at or below another, in 24-bit sequence order. -/
def psnLe (a b : Nat) : Bool := decide (psnAhead b a < 2 ^ 23)

/-- The module takes a frame: on a lane that carries traffic (R384, R389), with the one header version and a whole FCS (R385, R387). What
it drops leaves a gap that the next frame shows. -/
def State.hears (s : State) (h : BrineHdr) : Bool :=
  s.pwr.on && s.node != 0xFFFF && s.laneUp (laneIx h) && h.version == 1 && h.fcsOk

/-- Live lanes of a port, as the psn field carries them (R385, R388). -/
def State.liveMask (s : State) (port : Nat) : Nat :=
  (List.range 4).foldl (fun m l => if s.laneUp (4 * port + l) then m + 2 ^ l else m) 0

/-- The 32-byte header of a frame as a lane sends it now (R385, R386): its ack field holds the highest number received in order. -/
def State.headerBytes (s : State) (i : Nat) (f : TxFrame) : List Byte :=
  let ack := (Kv.getD (s.lane i).rxNext f.dst 0 + 2 ^ 24 - 1) % 2 ^ 24
  leBytes 1 1 ++ leBytes 1 f.kind ++ leBytes 1 (brineClass f.kind) ++ leBytes 1 f.flags ++ leBytes 2 s.node ++ leBytes 2 f.dst
    ++ leBytes 4 (f.psn % 2 ^ 24 + 2 ^ 24 * s.liveMask (i / 4)) ++ leBytes 4 ack ++ leBytes 1 f.group ++ leBytes 1 0
    ++ leBytes 2 f.payload.length ++ leBytes 4 f.epoch ++ leBytes 2 f.step ++ leBytes 2 f.sequence ++ leBytes 4 f.segment

/-- The MAC address of a lane of a node (R384). -/
def laneMac (node i : Nat) : Nat := 0x064657000000 + 256 * node + i

/-- The Ethernet frame that carries a Brine frame on a lane (R384, R385): to the same port and lane of the destination node, untagged, of
EtherType 0x88B5, with its frame check sequence. -/
def State.brineFrame (s : State) (i : Nat) (f : TxFrame) : List Byte :=
  let b := beBytes 6 (laneMac f.dst i) ++ beBytes 6 (laneMac s.node i) ++ beBytes 2 0x88B5 ++ s.headerBytes i f ++ f.payload
  b ++ leBytes 4 (ethernetFcs b)

/-- Frames that an ack field acknowledges leave the lane (R387). -/
def State.takeAck (s : State) (h : BrineHdr) : State :=
  let l := s.lane (laneIx h)
  s.setLane (laneIx h) { l with unacked := l.unacked.filter fun f => f.dst != h.src || !psnLe f.psn h.ack }

/-- The far end's live lanes, as its last frame shows them (R388). A lane that has gone out of use there carries nothing more to that
node; the lane that the frame itself came on is in use there. -/
def State.takeMask (s : State) (h : BrineHdr) : State :=
  let was := Kv.getD s.links.farMask (65536 * h.port.val + h.src) 15
  let gone := (List.range 4).filter fun l => l != h.lane.val && was.testBit l && !h.liveMask.val.testBit l
  gone.foldl (fun s l => s.reroutePath h.src (4 * h.port.val + l))
    { s with links.farMask := Kv.put s.links.farMask (65536 * h.port.val + h.src) h.liveMask.val }

/-- A mirror of a point is on its way to the crust successor, unacknowledged (R296). -/
def State.mirrorOut (s : State) (point : Nat) : Bool :=
  s.links.lanes.any fun e => e.2.unacked.any fun f => f.kind == 12 && f.sequence == point

/-- Mirrors that the successor has acknowledged are waited for no more. -/
def State.settleMirrors (s : State) : State := { s with crust.mirrorWait := s.crust.mirrorWait.filter s.mirrorOut }

/-- What the header of any frame tells. -/
def State.takeHeader (s : State) (h : BrineHdr) : State :=
  ((s.takeMask h).takeAck h).settleMirrors.bump 64 (Ent.brineRxBytes h.port.val) h.payload.length

/-- Next number expected from a node on a lane. -/
def State.rxNext (s : State) (i src : Nat) : Nat := Kv.getD (s.lane i).rxNext src 0

/-- A standalone acknowledgement (R387). -/
def State.sendAck (s : State) (i dst : Nat) : State := s.sendOn i { dst := dst, kind := 2 }

/-- A frame arrives in order: it is counted, and acknowledged after 64 (R387). -/
def State.noteFrame (s : State) (h : BrineHdr) : State :=
  let i := (laneIx h)
  let l := s.lane i
  let due := Kv.getD l.rxDue h.src 0 + 1
  let s1 := s.setLane i { l with rxNext := Kv.put l.rxNext h.src ((h.psn + 1) % 2 ^ 24), rxDue := Kv.setD l.rxDue h.src 0 due }
  if 64 ≤ due then s1.sendAck i h.src else s1

/-- A frame of an acknowledged kind: delivered in order; a gap draws a negative acknowledgement naming the first missing number, a
repetition an acknowledgement (R387). -/
def State.receive (s : State) (h : BrineHdr) (f : State → State) : State :=
  if s.hears h then
    let s1 := s.takeHeader h
    let next := s1.rxNext (laneIx h) h.src
    if h.psn % 2 ^ 24 = next then (f (s1.noteFrame h)).latchAll
    else if psnLe h.psn next then s1.sendAck (laneIx h) h.src
    else s1.sendOn (laneIx h) { dst := h.src, kind := 3, payload := leBytes 4 next }
  else s

/-- A frame of a kind that is never resent. -/
def State.receiveFree (s : State) (h : BrineHdr) (f : State → State) : State :=
  if s.hears h then (f (s.takeHeader h)).latchAll else s

/-! ## Acknowledgement (R387) -/

/-- Frames resent on a lane toward a node, if the module sends at all (R384). -/
def State.resend (s : State) (i : Nat) (p : TxFrame → Bool) : State :=
  let l := s.lane i
  let fs := l.unacked.filter p
  match (if s.node = 0xFFFF then none else fs.getLast?) with
  | none => s
  | some f => (s.setLane i { l with lastTx := some f }).bump 64 (Ent.brineResends (i / 4)) fs.length

/-- BRINE_ACK_RX (R387): the frames acknowledged leave the lane. -/
def execBrineAckRx (h : BrineHdr) (s : State) : Out := .next (s.receiveFree h id)

/-- BRINE_NACK_RX (R387): the sender resends from the number named. -/
def execBrineNackRx (h : BrineHdr) (s : State) : Out :=
  .next (s.receiveFree h fun s => s.resend (laneIx h) fun f => f.dst == h.src && psnLe (leNat (h.payload.take 4)) f.psn)

/-- BRINE_RETX_TIMEOUT (R387): frames toward a node not acknowledged in time are resent. -/
def execBrineRetxTimeout (p : PortId) (l : LaneId) (dst : Nat) (s : State) : Out :=
  .next (if s.pwr.on ∧ s.laneUp (4 * p.val + l.val) then s.resend (4 * p.val + l.val) fun f => f.dst == dst else s)

/-- BRINE_ACK_TIMER (R387): 2 µs after a frame that nothing has acknowledged. -/
def execBrineAckTimer (p : PortId) (l : LaneId) (dst : Nat) (s : State) : Out :=
  .next (
    let i := 4 * p.val + l.val
    if s.pwr.on ∧ s.laneUp i ∧ 0 < Kv.getD (s.lane i).rxDue dst 0 then s.sendAck i dst else s)

/-- LANE_STATE_RX (R388): the far end's live lanes change. -/
def execLaneStateRx (h : BrineHdr) (s : State) : Out := .next (s.receiveFree h id)

/-! ## Lane errors (R396) -/

/-- A LINK error of a lane at Notice. -/
def laneFault (i : Nat) : FaultReport := { fault 0x0E .die (i / 16) with source := 16 + i }

/-- BRINE_LANE_ERROR (R389, R396): the error is latched; lost codewords and timeouts resend, a lane that loses lock leaves its frames to
the others, a lane that fails training is retired at once. Corrected codewords are counted alone (R397). -/
def execBrineLaneError (p : PortId) (l : LaneId) (e : LaneErr) (s : State) : Out :=
  .next (
    let i := 4 * p.val + l.val
    if s.pwr.on ∧ (s.lane i).retired = false then
      match e with
      | .corrected n => s.bump 64 (Ent.brineFecCorrected p.val) n
      | .fec => (((s.bump 64 (Ent.brineFecUncorrected p.val) 1).resend i fun _ => true).raise (laneFault i)).latchAll
      | .resendTimeout => ((s.resend i fun _ => true).raise (laneFault i)).latchAll
      | .lossOfLock =>
        let s1 := ((s.setLane i { s.lane i with live := false }).sendLaneState p.val).rerouteLane i
        (s1.raise (laneFault i)).latchAll
      | .failsTraining => ((s.raise (laneFault i)).latchAll).retireLane i
    else s)

end Sys2Proof.Machine
end

