-- ==== Sys2Proof/Machine/Store.lean ====
section
/-! DEFINITION. How every write reaches memory: access checks (R215, R237, R257, R266, R293), the crust's deltas and seal units
(R291 to R297), the pages a snapshot has still to copy (R307), and waits. -/

namespace Sys2Proof.Machine

/-! ## Access (R257, R266, R293) -/

/-- Parity pages of the region that R291 gives, whatever crust.mode reads (R293). -/
def State.isParity (s : State) (p : Nat) : Bool :=
  decide (s.ent Ent.crustParityFirst ≤ p) && decide (p < s.ent Ent.crustParityFirst + s.ent Ent.crustSpanPages / 8)

/-- Code of the error response that a write to a page draws: 0 for none (R266, R293, R350). `dma` says that the host port or a copy
descriptor writes. -/
def State.pageWriteCode (s : State) (dma : Bool) (p : Nat) : Nat :=
  let e := s.mapEntry p
  if !e.v then 6
  else if firstReserved ≤ p then 2
  else if e.ro || e.img || s.isParity p || (dma && (e.stp || e.fz)) then 2
  else 0

/-- The code that a write of a byte range draws: 6 for an address beyond the map, else the first page's that is refused. -/
def State.writeCode (s : State) (dma : Bool) (a len : Nat) : Nat :=
  if 2 ^ 43 < a + len then 6
  else (((pagesOf a len).map (s.pageWriteCode dma)).find? (· != 0)).getD 0

/-- A memory violation (R266): the error response, its counters, and the frozen groups' (R237). -/
def State.memViolation (s : State) (code addr : Nat) : State :=
  let s1 := ((s.violation code 0 addr 0).bump 64 Ent.memViolations 1).setEnt Ent.memLastViolation addr
  let p := pageOf addr
  if code = 2 ∧ (s.mapEntry p).fz = true then
    (s.frozenGroupsOf p).foldl (fun s g => s.bump 64 (Ent.groupViolations g) 1) s1
  else s1

/-- A page is being copied by a migration engine (R262). -/
def State.pageCopies (s : State) (p : Nat) : Bool := (Kv.find? s.mem.migrating p).any (·.active)

/-! ## Parity places (R291, R292) -/

/-- This member's crust rank. -/
def State.crustRankOf (s : State) : Nat := (s.group (s.ent Ent.crustGroup)).rank

/-- Holder and parity page of a span page of a member, whether covered or not. -/
def State.placeOf (s : State) (rank p : Nat) : Option (Nat × Nat) :=
  let first := s.ent Ent.crustSpanFirst
  let sp := s.ent Ent.crustSpanPages / 8
  if first ≤ p ∧ p < first + 7 * sp then some ((rank + 1 + (p - first) / sp) % 8, (p - first) % sp) else none

/-- Where the parity of a covered page of this member lies. -/
def State.parityPlace (s : State) (p : Nat) : Option (Nat × Nat) :=
  if s.crustMember = true ∧ (s.mapEntry p).v = true ∧ (s.mapEntry p).cc = true then s.placeOf s.crustRankOf p else none

/-- The reduced stream of parity page `i` of a holder has passed this member (R298, R395). -/
def State.streamPassed (s : State) (h i : Nat) : Bool := Kv.getD s.crust.passed (2 ^ 24 * h + i) 0 == 2 ^ 128 - 1

/-- No resync runs, or it has passed a parity page. -/
def State.resyncPassed (s : State) (h i : Nat) : Bool := !s.crust.resync || s.streamPassed h i

/-- Deltas are sent for a parity page: the crust is fresh, folds pages that its resync has passed, or rebuilds a member; toward the rank
that is being rebuilt only once the page's stream has passed. -/
def State.crustSends (s : State) (h i : Nat) : Bool :=
  (s.ent Ent.crustState == 2 || s.ent Ent.crustState == 1 || s.ent Ent.crustState == 4)
    && (!s.crust.lost.contains h || s.streamPassed h i)

/-- Units sent and not sealed. -/
def State.unsealedUnits (s : State) : Nat := s.crust.units.length

/-- A write of a range must wait: for a resync to pass (R298), or in paced mode for a unit to seal (R297). `fresh` says that the write
opens a seal unit. -/
def State.writeWaits (s : State) (fresh : Bool) (a len : Nat) : Bool :=
  (pagesOf a len).any fun p =>
    match s.parityPlace p with
    | none => false
    | some (h, i) =>
      !s.resyncPassed h i
        || (fresh && decide (s.ent Ent.crustMode = 1) && s.crustSends h i && decide (s.ent Ent.crustInflight ≤ s.unsealedUnits))

/-- A write of a range that opens a seal unit waits, in paced mode, for another unit to seal (R297). -/
def State.sealWaits (s : State) (a len : Nat) : Bool :=
  decide (s.ent Ent.crustMode = 1) && decide (s.ent Ent.crustInflight ≤ s.unsealedUnits) &&
    (pagesOf a len).any fun p => match s.parityPlace p with
      | none => false
      | some (h, i) => s.resyncPassed h i && s.crustSends h i

/-- Ranges whose writes wait for a seal: the time waited joins crust.stall_us. How long it is, is a free value (R313). -/
def State.stallSeals (s : State) (l : List (Nat × Nat)) : State :=
  if l.any fun x => s.sealWaits x.1 x.2 then (s.bump 64 Ent.crustStallUs (Config.timing s.clk.freeNext)).draw else s

/-! ## Seal units (R294) -/

/-- Cuts bytes at multiples of `k`. -/
def cutAt (k : Nat) : Nat → Nat → List Byte → List (Nat × List Byte)
  | 0, _, _ => []
  | n + 1, a, l =>
    if l.isEmpty then []
    else
      let m := k - a % k
      (a, l.take m) :: cutAt k n (a + m) (l.drop m)

/-- Cuts bytes at page boundaries: each piece lies in one page. -/
def splitPages : Nat → Nat → List Byte → List (Nat × List Byte)
  | 0, _, _ => []
  | n + 1, a, l =>
    if l.isEmpty then []
    else
      let k := pageBytes - a % pageBytes
      (a, l.take k) :: splitPages n (a + k) (l.drop k)

/-- Drops every unsealed unit. An apply chunk whose deltas are dropped has no seal to wait for, and is done (R230, R297). -/
def State.dropUnits (s : State) : State :=
  { s with train.ledger := s.train.ledger ++ s.crust.units.filterMap (·.chunk), crust.units := [] }

/-- In yield mode a unit beyond the limit makes the crust stale, and every delta of the step is dropped (R297). -/
def State.goStale (s : State) : State := s.dropUnits.setEnt Ent.crustState 3

/-- The snapshot copies a page out of order before it changes; the wait for the copy is a free value (R307). -/
def State.copyBeforeWrite (s : State) (p : Nat) : State :=
  if s.stock.todo.contains p then
    let cells := s.mem.ram.filter fun c => pageOf c.1 == p
    ({ s with
        stock.todo := listErase s.stock.todo p
        stock.writing := s.stock.writing.map fun (w : Snapshot) => { w with pages := w.pages ++ [(p, cells)] } }.bump 64 Ent.stockWaitUs
      (Config.timing s.clk.freeNext)).draw
  else s

/-- Adds a delta to the unit that fills, opening one if none is open. -/
def State.addDelta (s : State) (su : Option Nat) (d : Nat × Nat × Nat × List Byte) : State × Option Nat :=
  match su with
  | some u =>
    ({ s with crust.units := s.crust.units.map fun (x : SealUnit) => if x.number = u then { x with deltas := x.deltas ++ [d] } else x }, su)
  | none =>
    if s.ent Ent.crustMode = 2 ∧ s.ent Ent.crustInflight ≤ s.unsealedUnits then (s.goStale, none)
    else
      let u := s.crust.nextUnit
      let step := s.ent Ent.trainStepIndex % 65536
      let q := if s.crust.unitStep = step then s.crust.unitSeq else 0
      ({ s with
          crust.nextUnit := u + 1, crust.unitStep := step, crust.unitSeq := q + 1
          crust.units := s.crust.units ++ [{ number := u, step := step, seq := q, deltas := [d], filling := true }] }, some u)

/-- Writes bytes within one page, with the delta of a covered page. -/
def State.storePiece (s : State) (su : Option Nat) (a : Nat) (l : List Byte) : State × Option Nat :=
  let p := pageOf a
  let s1 := s.copyBeforeWrite p
  let old := s1.ramRead a l.length
  let r :=
    match s1.parityPlace p with
    | some (h, i) => if s1.crustSends h i then s1.addDelta su (h, i, a % pageBytes, xorBytes old l) else (s1, su)
    | none => (s1, su)
  (r.1.ramWrite a l, r.2)

/-- Writes bytes at a module address as part of a seal unit. -/
def State.storeIn (s : State) (su : Option Nat) (a : Nat) (l : List Byte) : State × Option Nat :=
  (splitPages (l.length / pageBytes + 2) a l).foldl (fun r x => r.1.storePiece r.2 x.1 x.2) (s, su)

/-- Delta frames of at most 4,096 bytes: the parity address, then the delta. -/
def deltaFrames : Nat → Nat → List Byte → List (List Byte)
  | 0, _, _ => []
  | n + 1, a, l => if l.isEmpty then [] else (leBytes 8 a ++ l.take 4088) :: deltaFrames n (a + 4088) (l.drop 4088)

/-- Module address of a byte of a parity page. -/
def State.parityAddr (s : State) (i off : Nat) : Nat := (s.ent Ent.crustParityFirst + i) * pageBytes + off

/-- Sends the payloads of a unit to one holder, the last one flagged. -/
def State.sendDeltas (s : State) (h : Nat) (x : SealUnit) (frames : List (List Byte)) : State :=
  let g := s.ent Ent.crustGroup
  let dst := (s.group g).members.getD h 0xFFFF
  frames.zipIdx.foldl (fun s f =>
    s.sendFrame { s.frame 9 g dst with
      step := x.step, sequence := x.seq % 65536, segment := f.2, flags := if f.2 + 1 = frames.length then 2 else 0, payload := f.1 }) s

/-- Holders of a unit. -/
def SealUnit.holders (x : SealUnit) : List Nat := (x.deltas.map (·.1)).foldl listAdd []

/-- A unit is full: its deltas go to their holders (R294). -/
def State.closeSeal (s : State) (su : Option Nat) (chunk : Option (Nat × Nat)) : State :=
  match su with
  | none => s
  | some u =>
    match s.crust.units.find? (fun (x : SealUnit) => x.number == u) with
    | none => s
    | some x =>
      let s1 := { s with crust.units := s.crust.units.map fun (y : SealUnit) => if y.number = u then { y with filling := false, chunk := chunk } else y }
      let s2 := x.holders.foldl (fun s h =>
        s.sendDeltas h x ((x.deltas.filter fun d => d.1 == h).flatMap fun d =>
          deltaFrames (d.2.2.2.length / 4088 + 1) (s.parityAddr d.2.1 d.2.2.1) d.2.2.2)) s1
      s2.bump 64 Ent.crustDeltaBytes (sumNat (x.deltas.map fun d => d.2.2.2.length))

/-- One whole seal unit: writes, in order, and the deltas sent. -/
def State.storeUnit (s : State) (ws : List (Nat × List Byte)) : State :=
  let r := ws.foldl (fun (r : State × Option Nat) w => r.1.storeIn r.2 w.1 w.2) (s, none)
  r.1.closeSeal r.2 none

/-! ## What the module itself writes (R155, R289, R310, R334, R432) -/

/-- A write of the module to pages that may be covered, as one whole seal unit. It waits for the crust (R297, R298), behind those that wait
already. DESIGN CHOICE (log 102): that it is one unit, where R294 gives the units of other writers only. -/
def State.ownWrite (s : State) (a : Nat) (l : List Byte) : State :=
  let code := s.writeCode false a l.length
  if code ≠ 0 then s.memViolation code a
  else if s.mem.owed ≠ [] ∨ s.writeWaits true a l.length then
    { s.stallSeals [(a, l.length)] with mem.owed := (s.stallSeals [(a, l.length)]).mem.owed ++ [(a, l)] }
  else s.storeUnit [(a, l)]

/-- Writes that go on waiting. -/
def State.owe (s : State) (l : List (Nat × List Byte)) : State := { s with mem.owed := l }

/-- The writes that waited are performed in order, up to the first that still waits. -/
def State.drainOwn : Nat → State → State
  | 0, s => s
  | n + 1, s =>
    match s.mem.owed with
    | [] => s
    | w :: t =>
      if s.writeWaits true w.1 w.2.length then s.stallSeals [(w.1, w.2.length)]
      else State.drainOwn n (({ s with mem.owed := [] }.ownWrite w.1 w.2).owe t)

def State.drainOwed (s : State) : State := State.drainOwn s.mem.owed.length s

/-! ## Mirrors (R296) -/

/-- Sends control state to the crust successor; the point waits for its acknowledgement. -/
def State.sendMirror (s : State) (point : Nat) (l : List Byte) : State :=
  if s.crustMember then
    let g := s.ent Ent.crustGroup
    let dst := (s.group g).members.getD ((s.crustRankOf + 1) % 8) 0xFFFF
    { s.sendBytes { s.frame 0x0C g dst with sequence := point } l with crust.mirrorWait := listAdd s.crust.mirrorWait point }
  else s

/-! ## A step descriptor's write (R266) -/

/-- A refused write of a step descriptor: the violation, and the step's fault flag. -/
def State.refuseStep (s : State) (code a : Nat) : State :=
  let s1 := s.memViolation code a
  if code = 2 then s1.flagFault else s1

/-- A write of a pan, sluice, vector or collective descriptor within a seal unit. -/
def State.stepStore (s : State) (su : Option Nat) (a : Nat) (l : List Byte) : State × Option Nat :=
  let code := s.writeCode false a l.length
  if code = 0 then s.storeIn su a l else (s.refuseStep code a, su)

end Sys2Proof.Machine
end

