-- ==== Sys2Proof/Machine/Operands.lean ====
section
/-! DEFINITION. Every operand form: dimension specs and tensors (R191, R194), stored elements of the six formats (R26 to R34, R54), the
scale a tensor is read or written at (R97, R98, R233), shift tables (R106 to R109), and what a read meets (R210, R266). -/

namespace Sys2Proof.Machine

/-! ## Dimensions and tensors (R188 to R194) -/

/-- Compiled maximum of a dimension spec (R194). -/
def Program.dimMax (g : Program) (sp : Nat) : Nat := if sp.testBit 31 then g.shapeMax.getD (sp % 256) 0 else sp

/-- Run-time value of a dimension spec (R194, R195). -/
def State.dim (s : State) (sp : Nat) : Nat := if sp.testBit 31 then s.prog.shapes.getD (sp % 256) 0 else sp

/-- A tensor table entry; an index that names none has the empty entry. -/
def State.tensor (s : State) (i : Nat) : Tensor :=
  match s.prog.loaded with
  | some g => g.tensors.getD i {}
  | none => {}

/-- Rung a layer runs in the step (R189). -/
def State.rungOf (s : State) (l : Nat) : Nat := Kv.getD s.prog.rungs l 0

/-- Format code of a tensor whose producing layer runs a rung (R191). -/
def Tensor.codeAt (t : Tensor) (rung : Nat) : Nat := if t.producer = 65535 then t.formats % 16 else bitsOf t.formats (4 * rung) 4

/-- Format of a tensor in the step. -/
def State.fmtOf (s : State) (i : Nat) : Fmt :=
  let t := s.tensor i
  (Fmt.ofCode (t.codeAt (s.rungOf t.producer))).getD .fp32

/-- A tensor's class, weight-gradient flag, update-written flag and group-scaled flag (R191). -/
def Tensor.backward (t : Tensor) : Bool := t.flags.testBit 0
def Tensor.weightGrad (t : Tensor) : Bool := t.flags.testBit 1
def Tensor.updWritten (t : Tensor) : Bool := t.flags.testBit 2
def Tensor.groupScaled (t : Tensor) : Bool := t.flags.testBit 3

/-! ## Scales (R32, R97, R98, R233) -/

/-- A record in the table. -/
def State.scaleRec (s : State) (i : Nat) : ScaleRec := Kv.getD s.scale.recs i {}

/-- The t that a tensor's stored elements carry when the step reads it. MARK, DESIGN CHOICE (log 67): an FP8 or Flake-4 tensor whose entry
names no scale record carries t = 0; the spec gives it none. -/
def State.readT (s : State) (i : Nat) : Int :=
  let t := s.tensor i
  let r := s.scaleRec t.scaleRecord
  if t.scaleRecord = 65535 ∨ (s.fmtOf i).scaled = false then 0
  else if t.updWritten then (Kv.find? s.scale.heldT t.scaleRecord).getD r.t
  else
    match Kv.find? s.scale.stepAttempt t.scaleRecord with
    | some a => Kv.getD s.scale.stepT t.scaleRecord r.t + a
    | none => r.t + r.attempt

/-- The t at which an attempt writes a tensor. -/
def State.writeT (s : State) (i attempt : Nat) : Int :=
  let t := s.tensor i
  if t.scaleRecord = 65535 ∨ (s.fmtOf i).scaled = false then 0
  else Kv.getD s.scale.stepT t.scaleRecord (s.scaleRec t.scaleRecord).t + attempt

/-! ## Stored elements (R33, R34) -/

/-- A tensor as memory holds it: format, place of the data, place of the block exponents, elements between rows, and t. -/
structure View where
  fmt : Fmt
  addr : Nat
  expAddr : Nat
  stride : Nat
  t : Int
  deriving DecidableEq, Repr

/-- A tensor's view at a scale. The exponent array follows the data array at its compiled maximum (R191). -/
def State.view (s : State) (i : Nat) (t : Int) : View :=
  let x := s.tensor i
  let rows := match s.prog.loaded with | some g => g.dimMax x.rows | none => 0
  { fmt := s.fmtOf i, addr := x.address, expAddr := x.address + rows * x.rowStride / 2, stride := x.rowStride, t := t }

/-- Place of an element in the arrays. -/
def View.place (v : View) (r c : Nat) : Nat := r * v.stride + c

/-- A Flake-4 element under its block exponent (R30, R31, R33). -/
def flakeVal (e code : Nat) (t : Int) : Val :=
  if e = 0 then .fin false 0 0
  else if e = 255 then .nan
  else (decode .flake4 code).scale ((e : Int) - 127 + t)

/-- The exact value of a stored element (R33). -/
def State.elem (s : State) (v : View) (r c : Nat) : Val :=
  let e := v.place r c
  match v.fmt with
  | .flake4 =>
    flakeVal (s.ramByte (v.expAddr + e / 32)).toNat ((s.ramByte (v.addr + e / 2)).toNat / (if e % 2 = 0 then 1 else 16) % 16) v.t
  | f => (decode f (s.ramNat (v.addr + e * f.bytes) f.bytes)).scale v.t

/-- Bytes of a stored code, for the formats but Flake-4. -/
def codeBytes (f : Fmt) (code : Nat) : List Byte := leBytes f.bytes code

/-- The two nibbles that a Flake-4 data byte holds, one replaced. -/
def nibbleIn (old : Byte) (odd : Bool) (code : Nat) : Byte :=
  if odd then BitVec.ofNat 8 (old.toNat % 16 + 16 * (code % 16)) else BitVec.ofNat 8 (old.toNat / 16 * 16 + code % 16)

/-! ## Shift tables (R105 to R109) -/

/-- A shift entry's value matches its complement (R106). -/
def shiftOk (w : Nat) : Bool := w % 64 + w / 256 % 64 == 63

/-- A shift entry's value. -/
def shiftVal (w : Nat) : Int := if w % 64 < 32 then ((w % 64 : Nat) : Int) else ((w % 64 : Nat) : Int) - 64

/-- Address of entry c of a shift table. -/
def State.shiftAddr (s : State) (i c : Nat) : Nat := (s.tensor i).address + 2 * c

/-- Shift of a channel; a descriptor that names no table has zeros (R105). -/
def State.shift (s : State) (i c : Nat) : Int := if i = 65535 then 0 else shiftVal (s.ramNat (s.shiftAddr i c) 2)

/-- First channel of a range whose entry fails its complement. -/
def State.badShift (s : State) (i lo n : Nat) : Option Nat :=
  if i = 65535 then none else ((List.range n).map (lo + ·)).find? fun c => !shiftOk (s.ramNat (s.shiftAddr i c) 2)

/-! ## What a read meets (R210, R266) -/

/-- Byte ranges that columns `c0` to `c0 + n − 1` of a row take. -/
def View.ranges (v : View) (r c0 n : Nat) : List (Nat × Nat) :=
  if n = 0 then []
  else
    let e0 := v.place r c0
    let e1 := v.place r (c0 + n - 1)
    match v.fmt with
    | .flake4 => [(v.addr + e0 / 2, e1 / 2 - e0 / 2 + 1), (v.expAddr + e0 / 32, e1 / 32 - e0 / 32 + 1)]
    | f => [(v.addr + e0 * f.bytes, n * f.bytes)]

/-- Byte ranges of a rectangle of a stored tensor. -/
def View.region (v : View) (r0 rows c0 cols : Nat) : List (Nat × Nat) :=
  (List.range rows).flatMap fun i => v.ranges (r0 + i) c0 cols

/-- What stands in the way of a read. -/
inductive Trouble where
  /-- An unmapped page, at this address. -/
  | unmapped (addr : Nat)
  /-- A line of this page that has not been rebuilt yet: the read waits (R250, R255). -/
  | pending (page : Nat)
  /-- A poisoned line, at this address (R248). -/
  | poisoned (addr : Nat)
  /-- A shift entry that fails its complement twice, at this address (R107). -/
  | shift (addr : Nat)
  deriving DecidableEq, Repr

/-- Logical pseudo-channel of a line of a frame, the line counted in its page (R247). -/
def logicalPc (frame line : Nat) : Nat := (frame * 2048 + line) % 31

/-- Physical pseudo-channel behind a logical one (R246). -/
def State.physicalPc (s : State) (st pc : Nat) : Nat := if (s.stack st).spare = pc then 31 else pc

/-- A line of a page was lost and has not been rebuilt (R250, R255): in a stack, those of the retired pseudo-channel. -/
def State.lineLost (s : State) (p line : Nat) : Bool :=
  let e := s.mapEntry p
  s.mem.lostPages.contains p && (e.tier != 0 || logicalPc e.frame line == (s.stack e.device).spare)

/-- The port of a CXL device is down. -/
def State.cxlDown (s : State) (d : Nat) : Bool :=
  match Kv.find? s.links.cxl d with
  | some x => !x.up
  | none => false

/-- A page stands on a CXL device whose link is down: reads wait (R396). -/
def State.linkAway (s : State) (p : Nat) : Bool :=
  (s.mapEntry p).v && (s.mapEntry p).tier != 0
    && s.mem.cxl.any fun (x : Nat × CxlSt) => x.2.role == (s.mapEntry p).device && s.cxlDown x.1

/-- First page of a byte range whose bytes a read must wait for: a line of it is lost, or its device's link is down. -/
def State.lostIn (s : State) (a len : Nat) : Option Nat :=
  if (s.mem.lostPages.isEmpty && s.links.cxl.isEmpty) ∨ len = 0 then none
  else
    (((List.range ((a + len - 1) / 256 - a / 256 + 1)).map (a / 256 + ·)).find? fun n =>
      s.lineLost (n / 2048) (n % 2048) || s.linkAway (n / 2048)).map (· / 2048)

/-- A page that a read waits for is rebuilt next, if it has lost lines (R250). -/
def State.rebuildFirst (s : State) (p : Nat) : State :=
  if s.mem.lostPages.contains p then { s with mem.rebuildNext := some p } else s

/-- First trouble of one byte range. -/
def State.rangeTrouble (s : State) (a len : Nat) : Option Trouble :=
  if 2 ^ 43 < a + len then some (.unmapped a)
  else
    match (pagesOf a len).find? (fun p => !(s.mapEntry p).v) with
    | some p => some (.unmapped (max a (p * pageBytes)))
    | none =>
      match s.lostIn a len with
      | some p => some (.pending p)
      | none =>
        match s.mem.poison.find? (fun l => decide (l * 256 < a + len) && decide (a < l * 256 + 256)) with
        | some l => some (.poisoned (max a (l * 256)))
        | none => none

/-- First trouble of a list of byte ranges. -/
def State.readTrouble (s : State) (l : List (Nat × Nat)) : Option Trouble := l.findSome? fun r => s.rangeTrouble r.1 r.2

/-- First trouble of a shift table's channels. -/
def State.shiftTrouble (s : State) (i lo n : Nat) : Option Trouble := (s.badShift i lo n).map fun c => .shift (s.shiftAddr i c)

/-- A covered page with a poisoned line is rebuilt while the crust is fresh; until then the line stays poisoned (R266). -/
def State.rebuildLine (s : State) (p : Nat) : State :=
  if s.crustCovers && (s.mapEntry p).cc then s.setMapEntry p { s.mapEntry p with rb := true } else s

/-- An event of R266 at an address. -/
def State.memEvent (s : State) (addr : Nat) : State := (s.bump 64 Ent.memViolations 1).setEnt Ent.memLastViolation addr

/-- A read met an uncorrectable or poisoned line: its device counts it, MEM_UE is latched for its source, and the line's page is rebuilt
where it is covered (R248, R253, R266). -/
def State.uncorrectable (s : State) (addr : Nat) : State :=
  let p := pageOf addr
  let e := s.mapEntry p
  let line := addr % pageBytes / 256
  let s1 := (s.memEvent addr).rebuildLine p
  if e.tier = 0 then
    let pc := s.physicalPc e.device (logicalPc e.frame line)
    (s1.bump 64 (Ent.hbmUeTotal e.device) 1).raise
      { fault 0x0C .die (e.device / 6) with source := 32 * e.device + pc, physical := pc, addr := addr, space := 0 }
  else
    match s.mem.cxl.find? (fun (x : Nat × CxlSt) => x.2.role == e.device) with
    | some x =>
      (s1.bump 64 (Ent.cxlUeTotal x.1) 1).raise
        { fault 0x0C .die (x.1 / 6) with source := cxlSource + x.1, physical := x.1, addr := addr, space := 0 }
    | none => s1

/-- A step unit's read fails: an error response for an unmapped page; the fault flag for a poisoned line; for a shift entry, two integrity faults of the core, of which the second is Severe and sets the fault flag (R107, R266). -/
def State.troubled (s : State) (core : Nat) (x : Trouble) : State :=
  match x with
  | .unmapped a => s.memViolation 6 a
  | .pending p => s.rebuildFirst p
  | .poisoned a => (s.uncorrectable a).flagFault
  | .shift a =>
    let f := integrity intShift .core core 0 a
    ((s.bump 64 Ent.scaleIntegrityFaults 2).raise f).raise f

end Sys2Proof.Machine
end

