-- ==== Sys2Proof/Machine/Flags.lean ====
section
/-! DEFINITION. Every count and flag a computation sets: conversion counts (R41, R94, R130, R131), block encoding (R44, R45), group
sums and accumulators (R63 to R68, R172), exception windows (R174, R175), salinometer records (R132, R133) and the step's flags
(R117, R118, R122, R123, R173). -/

namespace Sys2Proof.Machine

/-! ## Conversion counts -/

/-- A magnitude rounded toward +∞ to FP32, the largest finite value where it lies beyond (R94). -/
def amaxOf (v : Val) : F32 :=
  match v with
  | .fin _ m e =>
    if m = 0 then 0
    else
      let q := gridExp .fp32 m e
      let r := if q ≤ e then m <<< (e - q).toNat else ((m + (1 <<< (q - e).toNat) - 1) >>> (q - e).toNat)
      BitVec.ofNat 32 (min ((q - Fmt.fp32.qMin).toNat * 2 ^ 23 + r) Fmt.fp32.maxCode)
  | _ => 0

/-- The larger of two amax patterns; patterns of magnitudes order as numbers. -/
def amaxMax (a b : F32) : F32 := if a.toNat < b.toNat then b else a

/-- Histogram bin of a value in true units, stored at a scale (R131). -/
def histBin (v : Val) (t : Int) : Nat :=
  match v with
  | .fin _ m e =>
    if m = 0 then 0
    else
      let x := e + Nat.log2 m - t
      if x ≤ -16 then 1 else if 13 ≤ x then 30 else (x + 17).toNat
  | _ => 31

/-- A truth value counted. -/
def one (b : Bool) : Nat := if b then 1 else 0

/-- One more in a histogram bin. -/
def histAdd (h : KV Nat) (bin n : Nat) : KV Nat := Kv.setD h bin 0 (Kv.getD h bin 0 + n)

/-- Sum of two histograms. -/
def histSum (a b : KV Nat) : KV Nat := b.foldl (fun h e => histAdd h e.1 e.2) a

/-- Counts combined (R133). -/
def Counts.add (a b : Counts) : Counts :=
  { elements := a.elements + b.elements
    saturations := a.saturations + b.saturations
    nonzeroPre := a.nonzeroPre + b.nonzeroPre
    flushes := a.flushes + b.flushes
    zeroBlocks := a.zeroBlocks + b.zeroBlocks
    nonzeroStored := a.nonzeroStored + b.nonzeroStored
    amax := amaxMax a.amax b.amax
    hist := histSum a.hist b.hist
    infSource := a.infSource + b.infSource
    nanStored := a.nanStored + b.nanStored
    finiteSat := a.finiteSat + b.finiteSat
    outElements := a.outElements + b.outElements }

/-- The element was an infinity. -/
def Val.isInf : Val → Bool
  | .inf _ => true
  | _ => false

/-- One element at an output conversion point: its value in true units, the scale, what the conversion gave, and whether a nonzero
code is stored. -/
def Counts.output (k : Counts) (v : Val) (t : Int) (c : Conv) (stored : Bool) : Counts :=
  { k with
    elements := k.elements + 1
    outElements := k.outElements + 1
    saturations := k.saturations + one c.saturated
    nonzeroPre := k.nonzeroPre + one v.finiteNonzero
    flushes := k.flushes + one c.flushed
    nonzeroStored := k.nonzeroStored + one stored
    amax := amaxMax k.amax (amaxOf v)
    hist := histAdd k.hist (histBin v t) 1
    infSource := k.infSource + one c.infSource
    nanStored := k.nanStored + one (decide (v = .nan))
    finiteSat := k.finiteSat + one c.finiteSat }

/-- One element at a load (R41). -/
def Counts.load (k : Counts) (v : Val) (c : Conv) : Counts :=
  { k with
    elements := k.elements + 1
    saturations := k.saturations + one c.saturated
    nonzeroPre := k.nonzeroPre + one v.finiteNonzero
    flushes := k.flushes + one c.flushed }

/-- A code is a zero of either sign. -/
def zeroCode (f : Fmt) (code : Nat) : Bool := code % f.signBit == 0

/-- Rounding of magnitudes for an element: to nearest, or by generator bits (R238). -/
def rounder (draw : Option Nat) (f : Fmt) : Nat → Int → Nat :=
  match draw with
  | none => roundCode f
  | some u => roundCodeStoch f u

/-- One element converted into a format other than Flake-4 at a scale (R35 to R42), counted. -/
def outElem (k : Counts) (f : Fmt) (t : Int) (draw : Option Nat) (v : Val) : Nat × Counts :=
  let c := convertWith (rounder draw f) f (v.scale (-t))
  (c.code, k.output v t c (!zeroCode f c.code))

/-! ## Flake-4 blocks (R44, R45) -/

/-- The smallest `e` for which `m × 2^x × 2^(−e) ≤ 6`, kept in its range. -/
def blockExp (m : Nat) (x : Int) : Int :=
  let l := Nat.log2 m
  let e := if 2 * m ≤ 3 * 2 ^ l then x + l - 2 else x + l - 1
  min (max e (-126)) 127

/-- The largest finite magnitude among values, as mantissa and exponent. -/
def largest (l : List Val) : Nat × Int :=
  l.foldl (fun b v => match v with
    | .fin _ m e => if (Val.fin false b.1 b.2).lt (.fin false m e) then (m, e) else b
    | _ => b) (0, 0)

/-- What a block's encoding gives: its exponent byte, its element codes, and its counts. -/
structure BlockOut where
  e : Nat
  codes : List Nat
  counts : Counts
  deriving DecidableEq, Repr

/-- Elements of a block counted with codes of zero written for them. -/
def flatBlock (k : Counts) (t : Int) (xs : List Val) (nanBlock : Bool) : Counts :=
  xs.foldl (fun k v =>
    let k1 := k.output v t { code := 0 } nanBlock
    if nanBlock then { k1 with nanStored := k.nanStored + 1 } else k1) k

/-- Encodes the non-pad values of a block at a tensor scale; `draws` gives each element's generator bits where it rounds
stochastically. -/
def encodeBlock (k : Counts) (t : Int) (xs : List Val) (draws : List (Option Nat)) : BlockOut :=
  if xs.any (fun v => decide (v = .nan)) then
    { e := 255, codes := xs.map fun _ => 0, counts := flatBlock k t xs true }
  else
    let b := largest xs
    if b.1 = 0 ∧ xs.any Val.isInf = false then
      { e := 0, codes := xs.map fun _ => 0, counts := { flatBlock k t xs false with zeroBlocks := k.zeroBlocks + 1 } }
    else
      let e := if b.1 = 0 then 127 else blockExp b.1 (b.2 - t)
      let r := (xs.zip draws).foldl (fun (r : List Nat × Counts) x =>
        let c := convertWith (rounder x.2 .flake4) .flake4 (x.1.scale (-t - e))
        (r.1 ++ [c.code], r.2.output x.1 t c (!zeroCode .flake4 c.code))) ([], k)
      { e := (e + 127).toNat, codes := r.1, counts := r.2 }

/-! ## Groups and accumulators (R63 to R68, R172) -/

/-- One product joins a group; `sh` is the input shift (R54, R109). -/
def GroupSum.join (g : GroupSum) (a b : Val) (sh : Int) : GroupSum :=
  let g1 := { g with n := g.n + 1 }
  match a.mul b with
  | .nan =>
    if (a.isZero && b.isInf) || (a.isInf && b.isZero) then { g1 with nan := true, zeroInf := true } else { g1 with nan := true }
  | .inf neg => { g1 with posInf := g.posInf || !neg, negInf := g.negInf || neg, allNegZero := false }
  | .fin neg m e0 =>
    let e := e0 + sh
    if m = 0 then { g1 with allNegZero := g.allNegZero && neg }
    else if g.mant = 0 then { g1 with mant := atExp neg m e e, exp := e, allNegZero := false }
    else
      let x := min e g.exp
      { g1 with mant := g.mant * 2 ^ (g.exp - x).toNat + atExp neg m e x, exp := x, allNegZero := false }

/-- The exact sum of a closed group (R67). -/
def GroupSum.value (g : GroupSum) : Val :=
  if g.nan || (g.posInf && g.negInf) then .nan
  else if g.posInf then .inf false
  else if g.negInf then .inf true
  else ofInt g.mant g.exp g.allNegZero

/-- Kind of the invalid operation that a group sum holds; 0 for none (R172). -/
def GroupSum.kind (g : GroupSum) : Nat := if g.zeroInf then 1 else if g.posInf && g.negInf then 2 else 0

/-- The addition of two values is that of opposite infinities. -/
def opposite (a b : Val) : Bool :=
  match a, b with
  | .inf x, .inf y => x != y
  | _, _ => false

/-- What one output's accumulation has met: invalid operations, overflows, and the least group with an invalid one, with its kind. -/
structure Foot where
  acc : AccSt := {}
  invalid : Nat := 0
  overflows : Nat := 0
  event : Option (Nat × Nat) := none
  deriving DecidableEq, Repr

/-- An invalid operation in a group joins the foot's counts; the first stays the event. -/
def Foot.note (f : Foot) (g kind : Nat) : Foot :=
  if kind = 0 then f
  else { f with invalid := f.invalid + 1, event := match f.event with | none => some (g, kind) | some e => some e }

/-- A group closes: its exact sum is rounded into a fresh accumulator, or added with one rounding (R64, R67). -/
def Foot.close (f : Foot) (g : Nat) : Foot :=
  let x := f.acc.openGroup
  if x.n = 0 then f
  else
    let v := x.value
    let f1 := f.note g x.kind
    match f.acc.val with
    | none =>
      let r := roundF32 v
      { f1 with acc := { val := some r.1, openGroup := {} }, overflows := f1.overflows + one r.2 }
    | some a =>
      let r := roundF32 ((f32Val a).add v)
      let f2 := if opposite (f32Val a) v then f1.note g 3 else f1
      { f2 with acc := { val := some r.1, openGroup := {} }, overflows := f2.overflows + one r.2 }

/-- The product at K index `j` of the tile, counted from its first, of `kt` in all; the last index of a group closes it. -/
def Foot.product (kt : Nat) (f : Foot) (j : Nat) (a b : Val) (sh : Int) : Foot :=
  let f1 := { f with acc := { f.acc with openGroup := f.acc.openGroup.join a b sh } }
  if j % 16 = 15 ∨ j + 1 = kt then f1.close (j / 16) else f1

/-! ## Exception windows (R174, R175) -/

/-- The key of R175, compared field by field. -/
def ExWindow.key (w : ExWindow) : List Nat := [w.layer, w.sequence, w.source, w.pan, w.group, w.column, w.slot]

/-- Lexicographic order. -/
def keyLt : List Nat → List Nat → Bool
  | a :: s, b :: t => if a < b then true else if b < a then false else keyLt s t
  | _, _ => false

/-- The window with the lesser key; an empty one gives way. MARK, DESIGN CHOICE (log 75): of two events with equal keys the one processed
first stays. -/
def ExWindow.least (a b : ExWindow) : ExWindow :=
  if b.kind = 0 then a else if a.kind = 0 then b else if keyLt b.key a.key then b else a

/-- Completed work reports its least event and its invalid operations to the core's window and counts (R152, R175). -/
def State.reportInvalid (s : State) (c layer n : Nat) (w : ExWindow) : State :=
  if n = 0 then s
  else
    let x := s.core c
    let w1 := x.window.least w
    s.setCore c { x with
      window := { w1 with count := satAdd 32 x.window.count n },
      invalidBy := Kv.setD x.invalidBy layer 0 (Kv.getD x.invalidBy layer 0 + n) }

/-! ## Salinometer records (R132, R133) -/

/-- Flushes of a count exceed a fraction, given as an FP32 pattern, of its nonzero elements (R125). -/
def flushAbove (k : Counts) (pattern : Nat) : Bool :=
  decide (0 < k.nonzeroPre) && ((f32Val (BitVec.ofNat 32 pattern)).mul (.fin false k.nonzeroPre 0)).lt (.fin false k.flushes 0)

/-- A tile's flush fraction lies above rake.flush_tile. -/
def State.flushTile (s : State) (k : Counts) : Bool := flushAbove k (s.ent Ent.rakeFlushTile)

/-- Key of a core's totals. -/
def totalsKey (pos attempt : Nat) (backward : Bool) : Nat := pos * 8 + attempt * 2 + bitN backward

/-- A record joins totals. -/
def Totals.join (t : Totals) (r : SalRec) : Totals :=
  { layer := r.layer
    backward := r.backward
    counts := t.counts.add r.counts
    invalid := t.invalid + r.invalid
    accumOverflows := t.accumOverflows + r.accumOverflows
    gradElements := t.gradElements + r.gradElements
    gradNonzero := t.gradNonzero + r.gradNonzero
    candidate := t.candidate || r.flushTile }

/-- The summary entry of a record (R132). -/
def SalRec.summary (r : SalRec) : List Byte :=
  let k := r.counts
  leBytes 2 r.layer ++ leBytes 1 r.source
    ++ leBytes 1 (bitN r.backward + 2 * bitN r.weightGrad + 4 * bitN r.flushTile + 8 * bitN r.invalidSeen + 16 * bitN r.overflowSeen
        + 32 * (r.attempt % 4))
    ++ leBytes 4 k.elements ++ leBytes 4 k.saturations ++ leBytes 4 k.nonzeroPre ++ leBytes 4 k.flushes ++ leBytes 4 k.zeroBlocks
    ++ leBytes 4 r.invalid ++ leBytes 4 r.accumOverflows ++ leBytes 4 k.nonzeroStored ++ leBytes 4 k.amax.toNat
    ++ leBytes 2 r.scaleRecord ++ zeros 2 ++ leBytes 4 r.sequence ++ zeros 16

/-- The histogram entry of a record (R132): bins 0 to 31 as 16-bit counts. -/
def SalRec.histogram (r : SalRec) : List Byte := (List.range 32).flatMap fun i => leBytes 2 (Kv.getD r.counts.hist i 0)

/-- A record's summary entry and then its histogram entry enter the core's salinometer queue (R22, R132). -/
def State.queueRecord (s : State) (c : Nat) (r : SalRec) : State := s.sendQueue (salQueue c) [leNat r.summary, leNat r.histogram]

/-- A record joins its core's totals (R133). -/
def State.joinRecord (s : State) (c : Nat) (r : SalRec) : State :=
  let k := totalsKey r.pos r.attempt r.backward
  let x := s.core c
  s.setCore c { x with totals := Kv.put x.totals k ((Kv.getD x.totals k {}).join r) }

/-- A record is sent to its core's control processor. -/
def State.sendRecord (s : State) (c : Nat) (r : SalRec) : State := (s.queueRecord c r).joinRecord c r

/-- Key of the records of an output's K ranges: the descriptor, and the output's number within it. -/
def heldKey (pos output : Nat) : Nat := 2 ^ 32 * pos + output

/-- A record of work that a swap would run again is sent, and joins the totals once its output is finished (R175, R217). -/
def State.holdRecord (s : State) (c key : Nat) (r : SalRec) : State :=
  let s1 := s.queueRecord c r
  s1.setCore c { s1.core c with held := (s1.core c).held ++ [(key, r)] }

/-- An output is finished: the records held for it join the totals. -/
def State.joinHeld (s : State) (c key : Nat) : State :=
  let l := (s.core c).held.filter fun e => e.1 == key
  l.foldl (fun s e => s.joinRecord c e.2) (s.setCore c { s.core c with held := (s.core c).held.filter fun e => e.1 != key })

/-! ## Flags of the step (R117, R123, R173) -/

/-- A backward saturation: the step counts once, and its non-finite flag is set (R123). -/
def State.backwardSat (s : State) : State :=
  let s1 := if s.train.bwdSat then s else { s with train.bwdSat := true }.bump 64 Ent.scaleBwdOverflows 1
  s1.flagNonFinite

/-- A descriptor's run is changed in the pool. -/
def State.mapDesc (s : State) (pos : Nat) (f : DescRun → DescRun) : State :=
  { s with prog.pool := s.prog.pool.map fun d => if d.pos = pos then f d else d }

/-- A descriptor in flight. -/
def State.desc? (s : State) (pos : Nat) : Option DescRun := s.prog.pool.find? fun d => d.pos == pos

/-- Accumulator overflows, infinities and NaNs of a unit's results set the non-finite flag (R117, R173). -/
def State.unitFlags (s : State) (overflows : Nat) (k : Counts) : State :=
  let n := overflows + k.infSource
  let s1 := if n = 0 then s else (s.bump 64 Ent.scaleAccumOverflows n).flagNonFinite
  if k.nanStored = 0 then s1 else s1.flagNonFinite

/-- Finite saturations at an output of a descriptor of the forward or backward phase (R118, R123). -/
def State.unitSats (s : State) (pos : Nat) (backward : Bool) (k : Counts) : State :=
  if k.finiteSat = 0 then s
  else if backward then s.backwardSat
  else s.mapDesc pos fun d => { d with saturated := true }

/-- A layer is marked for widening (R121). -/
def State.markLayer (s : State) (l : Nat) : State := s.setRake l { s.rakeOf l with marked := true }

end Sys2Proof.Machine
end

