-- ==== Sys2Proof/Machine/Plan.lean ====
section
/-! DEFINITION. How a descriptor is cut into units of work and which core runs each (R61, R200 to R207, R456), and what a completed
unit leaves behind. -/

namespace Sys2Proof.Machine

/-- Quotient rounded up. -/
def ceilDiv (a b : Nat) : Nat := if b = 0 then 0 else (a + b - 1) / b

/-- Multiplier rows and columns of a pan at a rung (R202). -/
def panK (rung : Nat) : Nat :=
  match rung with
  | 0 => 144 | 1 => 144 | 2 => 72 | 3 => 48
  | _ => 24
def panN (rung : Nat) : Nat :=
  match rung with
  | 0 => 72 | 1 => 36 | 2 => 18 | 3 => 12
  | _ => 6

/-- Stationary load entries of a pass (R61); Flake's scale entries among them. -/
def loadEntries (rung : Nat) : Nat :=
  match rung with
  | 0 => 40 | 1 => 36 | 2 => 18 | 3 => 12
  | _ => 6

/-- How a pan descriptor is cut (R203): K ranges, passes in a full range, rows of a full block, blocks along M and along N. -/
structure PanCut where
  t : Nat
  q : Nat
  mt : Nat
  nm : Nat
  nn : Nat
  deriving DecidableEq, Repr

/-- The cut of R203. -/
def panCut (m n k kp np mCap : Nat) : PanCut :=
  let passes := ceilDiv k kp
  let t := ceilDiv passes 24
  let mt := min mCap (32 * ceilDiv m 32)
  { t := t, q := ceilDiv passes t, mt := mt, nm := ceilDiv m mt, nn := ceilDiv n (4 * np) }

/-- A core block (R203): its place along M, N and K, its first row and its rows, its first column, its first K index and its K length. -/
structure Block where
  mi : Nat
  ni : Nat
  j : Nat
  m0 : Nat
  rows : Nat
  n0 : Nat
  k0 : Nat
  kt : Nat
  deriving DecidableEq, Repr

/-- Block `b` in the order the procedure of R203 emits. -/
def panBlock (c : PanCut) (m k kp np b : Nat) : Block :=
  let mi := b / (c.nn * c.t)
  let ni := b / c.t % c.nn
  let j := b % c.t
  let k0 := j * c.q * kp
  { mi := mi, ni := ni, j := j, m0 := mi * c.mt, rows := min c.mt (m - mi * c.mt), n0 := ni * 4 * np, k0 := k0,
    kt := min (c.q * kp) (k - k0) }

/-- How a sluice descriptor is cut (R207): vector groups, column blocks, K ranges and a full range's length. -/
structure SluiceCut where
  v : Nat
  c : Nat
  j : Nat
  len : Nat
  deriving DecidableEq, Repr

def sluiceCut (m n k mCap : Nat) : SluiceCut :=
  let j := ceilDiv k 12288
  { v := ceilDiv m mCap, c := ceilDiv n 256, j := j, len := ceilDiv (ceilDiv k j) 16 * 16 }

/-- Elements of a vector chunk (R200). -/
def chunkElems : Nat := 32768

/-- A run's cuts. -/
def DescRun.panCut (r : DescRun) : PanCut := Machine.panCut r.m r.n r.k (panK r.d.rung) (panN r.d.rung) r.d.mCap
def DescRun.sluiceCut (r : DescRun) : SluiceCut := Machine.sluiceCut r.m r.n r.k r.d.mCap
def DescRun.panBlock (r : DescRun) (b : Nat) : Block := Machine.panBlock r.panCut r.m r.k (panK r.d.rung) (panN r.d.rung) b

/-- Units of a descriptor (R200): core blocks, sluice passes, chunks; a collective or copy is one. -/
def DescRun.unitCount (r : DescRun) : Nat :=
  match r.d.kind with
  | 0 => let c := r.panCut; c.nm * c.nn * c.t
  | 1 => let c := r.sluiceCut; c.v * c.c * c.j
  | 2 => ceilDiv (r.m * r.n) chunkElems
  | _ => 1

/-- Cores of a descriptor's set (R192). -/
def Desc.setSize (d : Desc) : Nat := d.gridM * d.gridN

/-- Logical core of member `i` of a descriptor's core set (R204, R11). -/
def Desc.member (d : Desc) (i : Nat) : Nat := 64 * d.die + d.firstCore + i

/-- The core that runs a unit (R204, R207). -/
def DescRun.unitCore (r : DescRun) (number : Nat) : Nat :=
  match r.d.kind with
  | 0 => let b := r.panBlock number; r.d.member (b.mi % r.d.gridM * r.d.gridN + b.ni % r.d.gridN)
  | 1 => let c := r.sluiceCut; r.d.member (number / c.j % c.c % r.d.setSize)
  | 2 => r.d.member (number % r.d.setSize)
  | _ => r.d.member 0

/-- Engine of a core that runs a kind: 0 its pans, 1 its sluice path, 2 its vector unit. -/
def engineOf (kind : Nat) : Nat :=
  match kind with
  | 0 => 0 | 1 => 1
  | _ => 2

/-- Every unit has completed. -/
def DescRun.allDone (r : DescRun) : Bool := (List.range r.unitCount).all fun i => r.finished.contains i

/-- The update of R227 to R233 is an update-phase descriptor of kind 2; other kinds in an update entry run as they do elsewhere. -/
def DescRun.isUpdate (r : DescRun) : Bool := r.update && r.d.kind == 2

/-- A forward-class producer (R118). Unscaled outputs carry a class too (R116); their t is 0 in every attempt (R32). -/
def DescRun.forward (r : DescRun) : Bool := !r.d.flags.testBit 0

/-- An attempt that counts a finite saturation is retried (R118, R219). -/
def State.retriable (s : State) (r : DescRun) : Bool :=
  r.forward && !r.update && !r.amaxPass && decide (r.attempt < 2) && decide (s.writeT r.d.c r.attempt < 127)
    && !s.train.abandoned

/-- Descriptors in flight that produce the same tensor in the same phase: one producer (R118). -/
def State.producers (s : State) (r : DescRun) : List DescRun :=
  s.prog.pool.filter fun x => x.pos == r.pos || (x.d.c == r.d.c && decide (r.d.c ≠ 65535) && x.update == r.update && decide (x.d.kind < 3))

/-- The producer's attempt has counted a finite saturation. -/
def State.producerSat (s : State) (r : DescRun) : Bool := (s.producers r).any (·.saturated)

/-- A unit completes: its core is free of it, and the descriptor holds it as finished. -/
def State.finishUnit (s : State) (c engine pos number : Nat) : State :=
  let x := s.core c
  let s1 := s.setCore c { x with units := if Kv.find? x.units engine = some ⟨pos, number⟩ then Kv.del x.units engine else x.units }
  s1.mapDesc pos fun d => { d with finished := listAdd d.finished number, rerun := listErase d.rerun number }

/-- The largest magnitudes that a descriptor's outputs have presented to conversion, by tensor (R94). -/
def DescRun.gatherAmax (r : DescRun) (tensor : Nat) (a : F32) : DescRun :=
  { r with amaxes := Kv.put r.amaxes tensor (amaxMax (Kv.getD r.amaxes tensor 0) a) }

/-- A record's fields that its descriptor gives (R132). -/
def DescRun.salRec (r : DescRun) (s : State) (source seq : Nat) : SalRec :=
  { pos := r.pos, layer := r.d.layer, source := source, backward := r.d.flags.testBit 0, weightGrad := r.d.flags.testBit 1, attempt := r.attempt,
    scaleRecord := (s.tensor r.d.c).scaleRecord, sequence := seq }

/-- The weight-gradient counts of a record whose conversions all write one tensor (R130). -/
def SalRec.withGrad (r : SalRec) (grad : Bool) : SalRec :=
  if grad then { r with gradElements := r.counts.outElements, gradNonzero := r.counts.nonzeroStored } else r

/-- Number of a unit's output within its descriptor: K ranges of one output share it (R203, R207). -/
def DescRun.outputOf (r : DescRun) (number : Nat) : Nat :=
  match r.d.kind with
  | 0 => number / r.panCut.t
  | 1 => number / r.sluiceCut.j
  | _ => number

/-- The unit is the last K range of its output. -/
def DescRun.lastRange (r : DescRun) (number : Nat) : Bool :=
  match r.d.kind with
  | 0 => number % r.panCut.t + 1 == r.panCut.t
  | 1 => number % r.sluiceCut.j + 1 == r.sluiceCut.j
  | _ => true

/-- A unit completes for good: the last K range of an output brings in the records held for the output. -/
def State.finishOutput (s : State) (c engine pos number : Nat) : State :=
  let s1 := s.finishUnit c engine pos number
  match s1.desc? pos with
  | some r => if r.lastRange number then s1.joinHeld c (heldKey pos (r.outputOf number)) else s1
  | none => s1

end Sys2Proof.Machine
end

