-- ==== Sys2Proof/Machine/VecOps.lean ====
section
/-! DEFINITION. The vector unit's operations (R163, R172, R458), the generator (R239, R240), reductions (R164), the canonical tree
(R166), and vector code (R201, R227): the spec gives no encoding of an instruction, so the code's bytes are read by an uninterpreted
decoder into the numbers that `vecOpOf` reads. -/

namespace Sys2Proof.Machine

/-- The arithmetic of R163. -/
inductive VecFn where
  | add | sub | mul | fma | div | sqrt | rcp | rsqrt | exp2 | log2
  | min | max | abs | neg | copysign
  | lt | le | eq | ne | gt | ge | select
  deriving DecidableEq, Repr

/-- One instruction of a body; instruction i's result is register i. -/
inductive VecOp where
  | load (tensor : Nat)
  | store (tensor r : Nat)
  | const (bits : Nat)
  /-- Step size, decay and the four free constants of the update's group (R234). -/
  | param (i : Nat)
  /-- Result `j` of the gather stage (R229). -/
  | gathered (j : Nat)
  /-- The element's 16 generator bits for an output tensor, as a number (R240). -/
  | draw (tensor : Nat)
  /-- The lane step of a reduction (R164): of the values, or of their squares; its result goes to a tensor's first element, or from
  65,536 up to the sum of squares of the update and of the weights (R136), or beyond that to the gather results alone. -/
  | reduce (squares : Bool) (id r dest : Nat)
  | mul2n (n : Int) (r : Nat)
  /-- Multiply or divide by 2^λ (R124). -/
  | loss (divide : Bool) (r : Nat)
  | fn (f : VecFn) (x y z : Nat)
  deriving DecidableEq, Repr

/-- The operations of R163 by number. -/
def vecFnOf (n : Nat) : Option VecFn :=
  [VecFn.add, .sub, .mul, .fma, .div, .sqrt, .rcp, .rsqrt, .exp2, .log2, .min, .max, .abs, .neg, .copysign, .lt, .le, .eq, .ne, .gt,
   .ge, .select][n]?

/-- The instruction that an uninterpreted decoder's numbers name. -/
def vecOpOf (l : List Nat) : Option VecOp :=
  let g := fun i => l.getD i 0
  match g 0 with
  | 0 => some (.load (g 1))
  | 1 => some (.store (g 1) (g 2))
  | 2 => some (.const (g 1 % 2 ^ 32))
  | 3 => if g 1 < 6 then some (.param (g 1)) else none
  | 4 => some (.gathered (g 1))
  | 5 => some (.draw (g 1))
  | 6 => some (.reduce (g 1 % 2 == 1) (g 2) (g 3) (g 4))
  | 7 => some (.mul2n (ofTwos 4 (g 1 % 2 ^ 32)) (g 2))
  | 8 => some (.loss (g 1 % 2 == 1) (g 2))
  | n => (vecFnOf (n - 9)).map fun f => .fn f (g 1) (g 2) (g 3)

/-- Code as instructions, if every one is known. -/
def vecOpsOf (l : List Byte) : Option (List VecOp) := (Config.vectorCode l).bind fun c => c.mapM vecOpOf

/-! ## Arithmetic (R163, R172, R458) -/

/-- FP32 1.0. -/
def f32One : F32 := 0x3F800000#32

/-- Canonical NaN. -/
def f32Nan : F32 := BitVec.ofNat 32 Fmt.fp32.nanCode

/-- A condition as FP32 (R458). -/
def f32Bool (b : Bool) : F32 := if b then f32One else 0

/-- A result rounded once, with the kind of its invalid operation; 0 for none. -/
def res (v : Val) (kind : Nat) : F32 × Nat := (if kind = 0 then (roundF32 v).1 else f32Nan, kind)

/-- The product is `0 × ∞`. -/
def zeroTimesInf (a b : Val) : Bool := (a.isZero && b.isInf) || (a.isInf && b.isZero)

/-- Sign of a value; a NaN has none. -/
def Val.sign : Val → Bool
  | .fin s _ _ => s
  | .inf s => s
  | .nan => false

/-- The quotient. -/
def divVal (a b : Val) : F32 × Nat :=
  match a, b with
  | .nan, _ => res .nan 0
  | _, .nan => res .nan 0
  | .inf _, .inf _ => res .nan 5
  | .inf s, .fin t _ _ => res (.inf (s != t)) 0
  | .fin s _ _, .inf t => res (.fin (s != t) 0 0) 0
  | .fin s m e, .fin t n d =>
    if m = 0 then (if n = 0 then res .nan 5 else res (.fin (s != t) 0 0) 0)
    else if n = 0 then res (.inf (s != t)) 0
    else let q := divMag m e n d; res (.fin (s != t) q.1 q.2) 0

/-- The square root. -/
def sqrtVal (a : Val) : F32 × Nat :=
  match a with
  | .nan => res .nan 0
  | .inf s => if s then res .nan 6 else res (.inf false) 0
  | .fin s m e =>
    if m = 0 then res (.fin s 0 0) 0
    else if s then res .nan 6
    else let q := sqrtMag m e; res (.fin false q.1 q.2) 0

/-- The reciprocal square root. -/
def rsqrtVal (a : Val) : F32 × Nat :=
  match a with
  | .nan => res .nan 0
  | .inf s => if s then res .nan 6 else res (.fin false 0 0) 0
  | .fin s m e =>
    if m = 0 then res (.inf s) 0
    else if s then res .nan 6
    else let q := rsqrtMag m e; res (.fin false q.1 q.2) 0

/-- The logarithm to base 2. -/
def log2Val (a : Val) : F32 × Nat :=
  match a with
  | .nan => res .nan 0
  | .inf s => if s then res .nan 6 else res (.inf false) 0
  | .fin s m e =>
    if m = 0 then res (.inf true) 0
    else if s then res .nan 6
    else ((log2F32 m e).1, 0)

/-- Order of min and max: −0 below +0. -/
def below (a b : Val) : Bool := a.lt b || (a.isZero && b.isZero && a.sign && !b.sign)

/-- One operation: its result and the kind of its invalid operation (R172). -/
def vecFn (f : VecFn) (x y z : F32) : F32 × Nat :=
  let a := f32Val x
  let b := f32Val y
  let c := f32Val z
  let nan2 := decide (a = .nan) || decide (b = .nan)
  match f with
  | .add => res (a.add b) (if opposite a b then 4 else 0)
  | .sub => res (a.add b.neg) (if opposite a b.neg then 4 else 0)
  | .mul => res (a.mul b) (if zeroTimesInf a b then 4 else 0)
  | .fma => res ((a.mul b).add c) (if zeroTimesInf a b || opposite (a.mul b) c then 4 else 0)
  | .div => divVal a b
  | .sqrt => sqrtVal a
  | .rcp => divVal (.fin false 1 0) a
  | .rsqrt => rsqrtVal a
  | .exp2 => ((exp2F32 x).1, 0)
  | .log2 => log2Val a
  | .min => if nan2 then (f32Nan, 0) else (if below b a then y else x, 0)
  | .max => if nan2 then (f32Nan, 0) else (if below a b then y else x, 0)
  | .abs => res a.abs 0
  | .neg => res a.neg 0
  | .copysign => if nan2 then (f32Nan, 0) else res (if b.sign then a.abs.neg else a.abs) 0
  | .lt => (f32Bool (a.lt b), 0)
  | .le => (f32Bool (!nan2 && !(b.lt a)), 0)
  | .eq => (f32Bool (a.eq b), 0)
  | .ne => (f32Bool (!(a.eq b)), 0)
  | .gt => (f32Bool (b.lt a), 0)
  | .ge => (f32Bool (!nan2 && !(a.lt b)), 0)
  | .select => (if a.isZero || decide (a = .nan) then z else y, 0)

/-! ## The generator (R239, R240) -/

/-- Rotations of R239. -/
def genRot : List Nat := [17, 41, 9, 53, 29, 13, 47, 23, 37, 5, 59, 31]

/-- One round of R239. -/
def genRound (keyLo keyHi : BitVec 64) (ab : BitVec 64 × BitVec 64) (r : Nat) : BitVec 64 × BitVec 64 :=
  let a := ab.1 + ab.2
  let b := ab.2.rotateLeft (genRot.getD r 0) ^^^ a
  let a1 := a * 0x9C5A3F1EB7D24E6B#64
  if r = 5 then (a1 ^^^ keyHi, b ^^^ keyLo) else (a1, b)

/-- The generator. -/
def generate (keyLo keyHi c0 c1 : BitVec 64) : BitVec 64 :=
  let r := (List.range 12).foldl (genRound keyLo keyHi) (c0 ^^^ keyLo, c1 ^^^ keyHi)
  r.1 ^^^ r.2

/-- rng.step and the run key: those in force, or the recorded ones in a diagnostic replay (R239, R290). -/
def State.genInputs (s : State) : Nat × Nat × Nat :=
  if s.train.replaying then s.train.replayRng else (s.ent Ent.rngStep, s.ent Ent.rngKeyLo, s.ent Ent.rngKeyHi)

/-- The 16 bits of an element of a tensor, drawn under a layer. -/
def State.drawBits (s : State) (layer tensor e : Nat) : Nat :=
  let c1 := layer % 4096 * 2 ^ 52 + tensor % 65536 * 2 ^ 36 + e / 4 % 2 ^ 36
  let i := s.genInputs
  let g := generate (BitVec.ofNat 64 i.2.1) (BitVec.ofNat 64 i.2.2) (BitVec.ofNat 64 i.1) (BitVec.ofNat 64 c1)
  bitsOf g.toNat (16 * (e % 4)) 16

/-! ## Reductions (R164, R166) -/

/-- What a reduction gives: its value, and each invalid addition: the lane, with the element in the lane stage and none in the tree
stage (R459). -/
structure Reduced where
  val : F32 := 0
  bad : List (Nat × Option Nat) := []
  deriving DecidableEq, Repr

/-- Lane stage: element i to lane i mod 256, one rounding per addition. -/
def laneStage (squares : Bool) (xs : List F32) : KV F32 × List (Nat × Option Nat) :=
  xs.zipIdx.foldl (fun (r : KV F32 × List (Nat × Option Nat)) x =>
    let l := x.2 % 256
    let y :=
      match Kv.find? r.1 l with
      | none => if squares then vecFn .fma x.1 x.1 0 else (x.1, 0)
      | some a => if squares then vecFn .fma x.1 x.1 a else vecFn .add a x.1 0
    (Kv.put r.1 l y.1, if y.2 = 0 then r.2 else r.2 ++ [(l, some x.2)])) ([], [])

/-- One level of the tree over lane values, each the sum of `stride` lanes. -/
def treeLevel (stride : Nat) : Nat → List F32 → List F32 × List (Nat × Option Nat)
  | j, a :: b :: t =>
    let y := vecFn .add a b 0
    let r := treeLevel stride (j + 2) t
    (y.1 :: r.1, if y.2 = 0 then r.2 else (j * stride, none) :: r.2)
  | _, l => (l, [])

/-- Tree stage: levels until one value is left. -/
def treeStage : Nat → Nat → List F32 → List F32 × List (Nat × Option Nat)
  | 0, _, l => (l, [])
  | n + 1, stride, l =>
    let r := treeLevel stride 0 l
    let t := treeStage n (2 * stride) r.1
    (t.1, r.2 ++ t.2)

/-- A vector-unit reduction (R164). -/
def vecReduce (squares : Bool) (xs : List F32) : Reduced :=
  let l := laneStage squares xs
  let t := treeStage 8 1 ((List.range 256).map fun i => Kv.getD l.1 i 0)
  { val := t.1.getD 0 0, bad := l.2 ++ t.2 }

/-- Largest power of two below `n`, for `n` of 2 or more. -/
def halfPow (n : Nat) : Nat := 2 ^ Nat.log2 (n - 1)

/-- The canonical tree over members (R166), by fuel. -/
def treeSum : Nat → List F32 → F32
  | 0, _ => 0
  | _ + 1, [] => 0
  | _ + 1, [a] => a
  | f + 1, l =>
    let m := halfPow l.length
    (vecFn .add (treeSum f (l.take m)) (treeSum f (l.drop m)) 0).1

/-- The canonical tree of R166. -/
def canonicalSum (l : List F32) : F32 := treeSum l.length l

/-! ## Vector code (R201, R227) -/

/-- An update preamble (R227). -/
structure Preamble where
  group : Nat := 0
  states : Nat := 0
  gradient : Nat := 65535
  state : List Nat := []
  gatherOps : Nat := 0
  applyOps : Nat := 0
  deriving DecidableEq, Repr

/-- The preamble that 32 bytes spell. -/
def preambleOf (l : List Byte) : Preamble :=
  { group := leAt l 0 1, states := leAt l 1 1, gradient := leAt l 2 2, state := (List.range 6).map fun i => leAt l (4 + 2 * i) 2,
    gatherOps := leAt l 0x10 4, applyOps := leAt l 0x14 4 }

/-- Module address of a descriptor's code. -/
def Program.codeAt (g : Program) (d : Desc) : Nat := g.base + g.codeArea + d.code

/-- Body of a vector descriptor's code, after its 8-byte header (R201). -/
def State.bodyOf (s : State) (d : Desc) : Option (List VecOp) :=
  match s.prog.loaded with
  | none => none
  | some g => vecOpsOf (s.ramRead (g.codeAt d + 8) (s.ramNat (g.codeAt d + 4) 4))

/-- Preamble of an update descriptor. -/
def State.preamble (s : State) (d : Desc) : Preamble :=
  match s.prog.loaded with
  | none => {}
  | some g => preambleOf (s.ramRead (g.codeAt d) 32)

/-- Update code: what follows the preamble, up to the image's end; its gather operations, then its apply operations. -/
def State.updateCode (s : State) (d : Desc) : Option (List VecOp) :=
  match s.prog.loaded with
  | none => none
  | some g => vecOpsOf (s.ramRead (g.codeAt d + 32) (g.base + g.bytes - (g.codeAt d + 32)))

/-- Body of a stage of an update. -/
def State.stageOf (s : State) (d : Desc) (apply : Bool) : List VecOp :=
  let p := s.preamble d
  match s.updateCode d with
  | some l => if apply then (l.drop p.gatherOps).take p.applyOps else l.take p.gatherOps
  | none => []

/-- Instructions that a run's chunks execute now. -/
def State.codeOf (s : State) (r : DescRun) : List VecOp :=
  if r.isUpdate then s.stageOf r.d r.gathered else (s.bodyOf r.d).getD []

/-- Tensors that code loads, and that it stores or reduces into. -/
def loadsOf (l : List VecOp) : List Nat := l.filterMap fun o => match o with | .load t => some t | _ => none
def storesOf (l : List VecOp) : List Nat :=
  l.filterMap fun o => match o with
    | .store t _ => some t
    | .reduce _ _ _ d => if d < 65535 then some d else none
    | _ => none

end Sys2Proof.Machine
end

