-- ==== Sys2Proof/Machine/Load.lean ====
section
/-! DEFINITION. The step program's image: its layout, the checks of a load, what a load sets, and PROG_LOAD_CHECK_DONE (R48, R109, R111,
R139, R184 to R192, R201, R206, R228, R265, R392, R393). -/

namespace Sys2Proof.Machine

/-! ## The image's tables (R184 to R192) -/

/-- The layer entry that 48 bytes spell (R188). -/
def layerOf (l : List Byte) : Layer :=
  { ladder := leAt l 0 4, coreRegion := leAt l 4 4, coreBytes := leAt l 8 4, clusterRegion := leAt l 0xC 4, clusterBytes := leAt l 0x10 4,
    variants := (List.range 5).map fun r => leAt l (0x14 + 4 * r) 4 }

/-- The tensor entry that 32 bytes spell (R191). -/
def tensorOf (l : List Byte) : Tensor :=
  { address := leAt l 0 8, formats := leAt l 8 4, scaleRecord := leAt l 0xC 2, producer := leAt l 0xE 2, rows := leAt l 0x10 4,
    cols := leAt l 0x14 4, rowStride := leAt l 0x18 4, flags := leAt l 0x1C 4 }

/-- The descriptor that 64 bytes spell (R192). -/
def descOf (l : List Byte) : Desc :=
  { kind := leAt l 0 1, flags := leAt l 1 1, layer := leAt l 2 2, rung := leAt l 4 1, priority := leAt l 5 1, die := leAt l 6 1,
    firstCore := leAt l 7 1, gridM := leAt l 8 1, gridN := leAt l 9 1, mCap := leAt l 0xA 2, m := leAt l 0xC 4, n := leAt l 0x10 4,
    k := leAt l 0x14 4, a := leAt l 0x18 2, b := leAt l 0x1A 2, c := leAt l 0x1C 2, shiftIn := leAt l 0x1E 2, shiftOut := leAt l 0x20 2,
    code := leAt l 0x24 4 }

/-- The parameter block of a collective, from its 32 bytes (R392). -/
structure CollBlock where
  op : Nat
  group : Nat
  inFormat : Nat
  outFormat : Nat
  src : Nat
  dst : Nat
  count : Spec
  root : Nat
  deriving DecidableEq, Repr

def collBlockOf (l : List Byte) : CollBlock :=
  { op := leAt l 0 1, group := leAt l 1 1, inFormat := leAt l 2 1, outFormat := leAt l 3 1, src := leAt l 4 2, dst := leAt l 6 2,
    count := leAt l 8 4, root := leAt l 0xC 2 }

/-- The parameter block of a copy, from its 32 bytes (R265). -/
structure CopyBlock where
  src : Nat
  dst : Nat
  rows : Nat
  rowBytes : Nat
  srcStride : Nat
  dstStride : Nat
  deriving DecidableEq, Repr

def copyBlockOf (l : List Byte) : CopyBlock :=
  { src := leAt l 0 8, dst := leAt l 8 8, rows := leAt l 0x10 4, rowBytes := leAt l 0x14 4, srcStride := leAt l 0x18 4,
    dstStride := leAt l 0x1C 4 }

/-- Bytes that a copy's source and destination span. -/
def CopyBlock.srcSpan (x : CopyBlock) : Nat := (x.rows - 1) * x.srcStride + x.rowBytes
def CopyBlock.dstSpan (x : CopyBlock) : Nat := (x.rows - 1) * x.dstStride + x.rowBytes

/-- Header counts. -/
def hdrLayers (l : List Byte) : Nat := leAt l 6 2
def hdrBytes (l : List Byte) : Nat := leAt l 8 4
def hdrDescs (l : List Byte) : Nat := leAt l 0xC 4
def hdrTensors (l : List Byte) : Nat := leAt l 0x10 4
def hdrRecords (l : List Byte) : Nat := leAt l 0x14 4
def hdrParams (l : List Byte) : Nat := leAt l 0x18 2
def hdrSeq (l : List Byte) : Nat := leAt l 0x1A 2
/-- Header offsets of the tables. -/
def hdrLayerTable (l : List Byte) : Nat := leAt l 0x20 8
def hdrVariantTable (l : List Byte) : Nat := leAt l 0x28 8
def hdrDescArea (l : List Byte) : Nat := leAt l 0x30 8
def hdrTensorTable (l : List Byte) : Nat := leAt l 0x38 8
def hdrShapeTable (l : List Byte) : Nat := leAt l 0x40 8
def hdrSeqTable (l : List Byte) : Nat := leAt l 0x48 8
def hdrCode (l : List Byte) : Nat := leAt l 0x50 8

/-- No variant (R188). -/
def noVariant : Nat := 0xFFFFFFFF

/-- The variant record that 24 bytes spell: first index and count of each phase. -/
def variantOf (l : List Byte) : List (Nat × Nat) := (List.range 3).map fun i => (leAt l (8 * i) 4, leAt l (8 * i + 4) 4)

/-- The tables of an image at an address; what its code gives is added by `State.finishProgram`. -/
def programOf (base : Nat) (l : List Byte) : Program :=
  let layers := (List.range (hdrLayers l)).map fun i => layerOf (slice l (hdrLayerTable l + 48 * i) 48)
  let top := (layers.flatMap (·.variants)).foldl (fun m v => if v = noVariant then m else max m (v + 1)) 0
  { base := base, bytes := hdrBytes l, hash := leAt l 0x60 32, layers := layers
    tensors := (List.range (hdrTensors l)).map fun i => tensorOf (slice l (hdrTensorTable l + 64 * i) 32)
    descs := (List.range (hdrDescs l)).map fun i => descOf (slice l (hdrDescArea l + 128 * i) 64)
    variants := (List.range top).map fun i => variantOf (slice l (hdrVariantTable l + 24 * i) 24)
    shapeMax := (List.range (hdrParams l)).map fun i => leAt l (hdrShapeTable l + 4 * i) 4
    sequence := (List.range (hdrSeq l)).map fun i => let w := leAt l (hdrSeqTable l + 4 * i) 4; (w % 65536, w / 65536 % 4)
    scaleRecords := hdrRecords l, descArea := hdrDescArea l, tensorArea := hdrTensorTable l, codeArea := hdrCode l
    layerArea := hdrLayerTable l }

/-! ## Failures (R186) -/

/-- A check that fails gives an error code and an image offset. -/
abbrev Fails := Option (Nat × Nat)

/-- A check. -/
def check (ok : Bool) (code off : Nat) : Fails := if ok then none else some (code, off)

/-- The first failure of a list. -/
def firstFail (l : List Fails) : Fails := l.findSome? id

/-- Check 1's header ranges (R184). Every table lies inside the image. -/
def headerFails (l : List Byte) : Fails :=
  let n := hdrBytes l
  firstFail [
    check (decide (l.take 4 = [0x53#8, 0x4C#8, 0x54#8, 0x4E#8])) 3 0,
    check (leAt l 4 2 == 1) 3 4,
    check (decide (1 ≤ hdrLayers l)) 3 6,
    check (decide (hdrLayers l ≤ 4096)) 3 (hdrLayerTable l),
    check (decide (4096 ≤ n) && decide (n ≤ 2 ^ 30)) 3 8,
    check (decide (1 ≤ hdrTensors l) && decide (hdrTensors l ≤ 65535)) 3 0x10,
    check (decide (hdrRecords l ≤ 65535)) 3 0x14,
    check (decide (hdrParams l ≤ 256)) 3 0x18,
    check (decide (1 ≤ hdrSeq l) && decide (hdrSeq l ≤ 12288)) 3 0x1A,
    check (leAt l 0x1C 4 == 0) 3 0x1C,
    check (decide (hdrLayerTable l + 48 * hdrLayers l ≤ n)) 3 0x20,
    check (decide (hdrVariantTable l ≤ n)) 3 0x28,
    check (decide (hdrDescArea l + 128 * hdrDescs l ≤ n)) 3 0x30,
    check (decide (hdrTensorTable l + 64 * hdrTensors l ≤ n)) 3 0x38,
    check (decide (hdrShapeTable l + 4 * hdrParams l ≤ n)) 3 0x40,
    check (decide (hdrSeqTable l + 4 * hdrSeq l ≤ n)) 3 0x48,
    check (decide (hdrCode l ≤ n)) 3 0x50,
    check (leAt l 0x58 8 == 0) 3 0x58,
    check (leAt l 0x80 128 == 0) 3 0x80]

/-! ## Places of descriptors in the step (R188, R189) -/

/-- A rung's descriptors of a phase in a layer's variant. -/
def Program.phaseDescs (g : Program) (layer rung phase : Nat) : List Nat :=
  match g.layers[layer]? with
  | none => []
  | some x =>
    match g.variants[x.variants.getD rung noVariant]? with
    | none => []
    | some v => let p := v.getD phase (0, 0); (List.range p.2).map (p.1 + ·)

/-- Rungs on a layer's ladder. -/
def Program.ladderOf (g : Program) (layer : Nat) : List Nat :=
  match g.layers[layer]? with
  | none => []
  | some x => (List.range 5).filter (onLadder x.ladder)

/-- Where a descriptor can stand in a step: sequence entry, layer, rung, phase, place in its list, index. -/
structure Place where
  entry : Nat
  layer : Nat
  rung : Nat
  phase : Nat
  order : Nat
  index : Nat
  deriving DecidableEq, Repr

/-- Every place of every possible step. -/
def Program.places (g : Program) : List Place :=
  g.sequence.zipIdx.flatMap fun e => (g.ladderOf e.1.1).flatMap fun r =>
    (g.phaseDescs e.1.1 r e.1.2).zipIdx.map fun i =>
      { entry := e.2, layer := e.1.1, rung := r, phase := e.1.2, order := i.2, index := i.1 }

/-- Every descriptor of every variant: layer, rung, phase, index. -/
def Program.uses (g : Program) : List (Nat × Nat × Nat × Nat) :=
  (List.range g.layers.length).flatMap fun l => (g.ladderOf l).flatMap fun r => (List.range 3).flatMap fun p =>
    (g.phaseDescs l r p).map fun i => (l, r, p, i)

/-- A descriptor by index. -/
def Program.desc (g : Program) (i : Nat) : Desc := g.descs.getD i {}
/-- Image offsets of a layer entry, tensor entry and descriptor. -/
def Program.layerOff (g : Program) (i : Nat) : Nat := g.layerArea + 48 * i
def Program.tensorOff (g : Program) (i : Nat) : Nat := g.tensorArea + 64 * i
def Program.descOff (g : Program) (i : Nat) : Nat := g.descArea + 128 * i

/-- Two places belong to one possible step. -/
def Place.together (a b : Place) : Bool := a.layer != b.layer || a.rung == b.rung

/-- A place comes before another. -/
def Place.before (a b : Place) : Bool := decide (a.entry < b.entry) || (a.entry == b.entry && decide (a.order < b.order))

/-! ## What descriptors read and write (R199) -/

/-- Code that an update descriptor or a vector descriptor carries. -/
def State.anyCode (s : State) (d : Desc) (update : Bool) : List VecOp := ((if update then s.updateCode d else s.bodyOf d).getD [])

/-- Tensors that a descriptor reads. -/
def State.readsOf (s : State) (d : Desc) (update : Bool) : List Nat :=
  (match d.kind with
   | 2 => let p := s.preamble d
          [d.a, d.b, d.shiftIn, d.shiftOut] ++ loadsOf (s.anyCode d update) ++ (if update then p.gradient :: p.state else [])
   | 3 => [d.a]
   | 4 => [d.a]
   | _ => [d.a, d.b, d.shiftIn, d.shiftOut]).filter (· != 65535)

/-- Tensors that a descriptor produces. -/
def State.writesOf (s : State) (d : Desc) (update : Bool) : List Nat :=
  (match d.kind with
   | 2 => d.c :: storesOf (s.anyCode d update) ++ (if update then (s.preamble d).state else [])
   | _ => [d.c]).filter (· != 65535)

/-! ## Check 2: layers, variants and the sequence (R139, R188, R189) -/

/-- A ladder word's own conditions. -/
def ladderOk (w : Nat) : Bool :=
  w % 32 != 0 && bitsOf w 5 3 == 0 && !w.testBit 11 && !w.testBit 15 && bitsOf w 17 15 == 0 && onLadder w (ladderStart w)
    && onLadder w (ladderFloor w) && decide (ladderFloor w ≤ ladderStart w)

/-- A layer entry and its variants. -/
def layerFails (l : List Byte) (i : Nat) : Fails :=
  let off := hdrLayerTable l + 48 * i
  let x := layerOf (slice l off 48)
  firstFail ([
    check (ladderOk x.ladder) 3 off,
    check (decide (x.coreRegion + x.coreBytes ≤ 4194304)) 3 (off + 4),
    check (decide (x.clusterRegion + x.clusterBytes ≤ 16777216)) 3 (off + 0xC),
    check (leAt l (off + 0x28) 8 == 0) 3 (off + 0x28)]
    ++ (List.range 5).map fun r =>
      let v := x.variants.getD r noVariant
      let at_ := hdrVariantTable l + 24 * v
      let inside := decide (at_ + 24 ≤ hdrBytes l)
        && (variantOf (slice l at_ 24)).all fun p => p.2 == 0 || decide (p.1 + p.2 ≤ hdrDescs l)
      check (if onLadder x.ladder r then v != noVariant && inside else v == noVariant) 3 (if onLadder x.ladder r && v == noVariant then off else off + 0x14 + 4 * r))

/-- Sequence entries: fields in range, updates after the rest. -/
def sequenceFails (l : List Byte) : Fails :=
  let w := fun i => leAt l (hdrSeqTable l + 4 * i) 4
  firstFail ((List.range (hdrSeq l)).map fun i =>
    check (decide (w i % 65536 < hdrLayers l) && decide (w i / 65536 ≤ 2)
      && (i == 0 || w (i - 1) / 65536 != 2 || w i / 65536 == 2)) 3 (hdrSeqTable l + 4 * i))

/-! ## Check 3: complements, fields and shapes (R191, R192, R194, R265, R392, R393) -/

/-- A dimension spec's form. -/
def specOk (g : Program) (x : Nat) : Bool := !x.testBit 31 || (bitsOf x 8 23 == 0 && decide (x % 256 < g.shapeMax.length))

/-- A tensor index that may be none. -/
def tensorOk (g : Program) (i : Nat) : Bool := i == 65535 || decide (i < g.tensors.length)

/-- Format codes that a tensor can have: those of its producing layer's ladder. -/
def Program.codesOf (g : Program) (t : Tensor) : List Nat :=
  if t.producer = 65535 then [t.formats % 16] else (g.ladderOf t.producer).map fun r => bitsOf t.formats (4 * r) 4

/-- A tensor of shift entries (R191). -/
def Tensor.isShift (t : Tensor) : Bool := t.formats % 2 ^ 20 == 0x66666

/-- A tensor's format word: a code on every rung of the ladder, 0xF off it; one code where the step writes it nowhere; 6 everywhere or
nowhere. -/
def Program.formatsOk (g : Program) (t : Tensor) : Bool :=
  let f := fun r => bitsOf t.formats (4 * r) 4
  bitsOf t.formats 20 12 == 0 &&
    (t.isShift ||
      if t.producer = 65535 then decide (f 0 ≤ 5) && (List.range 5).all fun r => f r == f 0
      else (List.range 5).all fun r => if (g.ladderOf t.producer).contains r then decide (f r ≤ 5) else f r == 0xF)

/-- A tensor entry. Blocks never span two rows (R34), so a Flake-4 row stride is a whole number of blocks. -/
def tensorFails (g : Program) (l : List Byte) (i : Nat) : Fails :=
  let off := g.tensorOff i
  let t := g.tensors.getD i {}
  let cols := g.dimMax t.cols
  let flake := (g.codesOf t).contains 2
  firstFail [
    check (decide (slice l (off + 32) 32 = flipBytes (slice l off 32))) 5 off,
    check (g.formatsOk t) 3 (off + 8),
    check (t.scaleRecord == 65535 || decide (t.scaleRecord < g.scaleRecords)) 3 (off + 0xC),
    check (t.producer == 65535 || decide (t.producer < g.layers.length)) 3 (off + 0xE),
    check (specOk g t.rows && (!t.isShift || t.rows == 1)) 3 (off + 0x10),
    check (specOk g t.cols) 3 (off + 0x14),
    check (t.isShift || (decide (cols ≤ t.rowStride) && (!flake || t.rowStride % 32 == 0))) 3 (off + 0x18),
    check (decide (t.flags < 16)) 3 (off + 0x1C)]

/-- Each scale record is named by exactly one tensor: one named twice fails at the second entry, one unnamed at the header's field. -/
def recordFails (g : Program) : Fails :=
  let names := g.tensors.map (·.scaleRecord)
  firstFail (names.zipIdx.map (fun x => check (x.1 == 65535 || !(names.take x.2).contains x.1) 3 (g.tensorOff x.2 + 0xC))
    ++ (List.range g.scaleRecords).map fun r => check (names.contains r) 3 0x14)

/-- Rows and cols specs of a tensor equal to two dimensions of its descriptor, in the orientation given (R185, R192). -/
def Program.shaped (g : Program) (t : Nat) (swap : Bool) (r c : Spec) : Bool :=
  let x := g.tensors.getD t {}
  if swap then x.rows == c && x.cols == r else x.rows == r && x.cols == c

/-- A shift table field: none, or a tensor of shift entries. -/
def Program.shiftOkAt (g : Program) (t : Nat) : Bool := t == 65535 || (decide (t < g.tensors.length) && (g.tensors.getD t {}).isShift)

/-- A collective's parameter block, at an image offset. -/
def collFails (g : Program) (l : List Byte) (d : Desc) : Fails :=
  let off := d.code
  let b := collBlockOf (slice l off 32)
  let arith := b.op == 1 || b.op == 2 || b.op == 5 || b.op == 6
  firstFail [
    check (decide (off + 64 ≤ g.bytes)) 3 off,
    check (decide (slice l (off + 32) 32 = flipBytes (slice l off 32))) 5 off,
    check (decide (1 ≤ b.op) && decide (b.op ≤ 9)) 3 off,
    check (!arith || [0, 1, 3, 4, 5].contains b.inFormat) 3 (off + 2),
    check (if arith then decide (b.outFormat ≤ 5) else if b.op = 3 ∨ b.op = 4 then b.outFormat == b.inFormat && decide (b.inFormat ≤ 6) else true)
      3 (off + 3),
    check (decide (b.src < g.tensors.length) && b.src == d.a) 3 (off + 4),
    check (decide (b.dst < g.tensors.length) && b.dst == d.c) 3 (off + 6),
    check (specOk g b.count) 3 (off + 8),
    check (b.op != 4 || decide (b.root < 256)) 3 (off + 0xC),
    check (leAt l (off + 0xE) 18 == 0) 3 (off + 0xE)]

/-- A copy's parameter block (R265). -/
def State.copyFails (s : State) (g : Program) (l : List Byte) (d : Desc) : Fails :=
  let off := d.code
  let b := copyBlockOf (slice l off 32)
  let apart := decide (b.src + b.srcSpan ≤ b.dst) || decide (b.dst + b.dstSpan ≤ b.src)
  let clear := decide (b.dst + b.dstSpan ≤ g.base) || decide (g.base + g.bytes ≤ b.dst)
  firstFail [
    check (decide (off + 64 ≤ g.bytes)) 3 off,
    check (decide (slice l (off + 32) 32 = flipBytes (slice l off 32))) 5 off,
    check (decide (1 ≤ b.rows) && decide (b.rows ≤ 16777216) && decide (1 ≤ b.rowBytes) && decide (b.rowBytes ≤ 16777216)
      && decide (b.rowBytes ≤ b.srcStride) && decide (b.rowBytes ≤ b.dstStride)
      && s.rangeOrdinary b.src b.srcSpan && s.rangeOrdinary b.dst b.dstSpan && apart && clear) 3 off]

/-- A descriptor's own fields (R192). -/
def State.descFails (s : State) (g : Program) (l : List Byte) (i : Nat) : Fails :=
  let off := g.descOff i
  let d := g.desc i
  let pan := d.kind == 0
  let mul := d.kind == 0 || d.kind == 1
  let named := fun t => if mul then decide (t < g.tensors.length) else tensorOk g t
  firstFail [
    check (decide (slice l (off + 64) 64 = flipBytes (slice l off 64))) 5 off,
    check (decide (d.kind ≤ 4)) 3 off,
    check (decide (d.flags < 32) && (pan || bitsOf d.flags 2 3 == 0)) 3 (off + 1),
    check (decide (d.layer < g.layers.length)) 3 (off + 2),
    check (decide (d.rung ≤ 4)) 3 (off + 4),
    check (decide (d.priority ≤ 3)) 3 (off + 5),
    check (decide (d.die ≤ 1)) 3 (off + 6),
    check (decide (d.firstCore ≤ 63)) 3 (off + 7),
    check (decide (1 ≤ d.gridM) && decide (d.gridM ≤ 32)) 3 (off + 8),
    check (decide (1 ≤ d.gridN) && decide (d.gridN ≤ 32) && decide (d.firstCore + d.gridM * d.gridN ≤ 64)) 3 (off + 9),
    check (!pan || decide (d.mCap ≤ 512)) 3 off,
    check (if pan then d.mCap % 32 == 0 && decide (32 ≤ d.mCap)
           else d.kind != 1 || (decide (1 ≤ d.mCap) && decide (d.mCap ≤ 4))) 3 (off + 0xA),
    check (specOk g d.m && (d.kind != 3 || d.m == 1)) 3 (off + 0xC),
    check (specOk g d.n && (d.kind != 3 || d.n == 1)) 3 (off + 0x10),
    check (specOk g d.k && (d.kind != 3 || d.k == 1)) 3 (off + 0x14),
    check (named d.a && (!mul || g.shaped d.a (d.flags.testBit 2) d.m d.k)) 3 (off + 0x18),
    check (named d.b && (d.kind != 3 || d.b == 65535) && (!mul || g.shaped d.b (d.flags.testBit 3) d.k d.n)) 3 (off + 0x1A),
    check (named d.c && (!mul || g.shaped d.c (d.flags.testBit 4) d.m d.n)) 3 (off + 0x1C),
    check (g.shiftOkAt d.shiftIn && (d.kind != 3 || d.shiftIn == 65535)) 3 (off + 0x1E),
    check (g.shiftOkAt d.shiftOut && (d.kind != 3 || d.shiftOut == 65535)) 3 (off + 0x20),
    check (leAt l (off + 0x22) 2 == 0) 3 (off + 0x22),
    check (if mul then d.code == 0 else d.kind != 2 || decide (g.codeArea + d.code + 8 ≤ g.bytes)) 3 (off + 0x24),
    check (leAt l (off + 0x28) 24 == 0) 3 (off + 0x28),
    if d.kind = 3 then collFails g l d else if d.kind = 4 then s.copyFails g l d else none]

/-- A pan or sluice descriptor's rung is that of the variant that holds it, and every descriptor's layer is its variant's. -/
def Program.useFails (g : Program) : Fails :=
  firstFail (g.uses.map fun u =>
    let d := g.desc u.2.2.2
    check (d.layer == u.1 && (decide (2 ≤ d.kind) || d.rung == u.2.1)) 3 (g.descOff u.2.2.2 + 2 + (if d.layer = u.1 then 2 else 0)))

/-! ## Check 4: pairings (R46 to R48, R109, R111) -/

/-- The pans' pairings. -/
def pairOk (rung a b : Nat) : Bool :=
  let fp8 := fun x => x == 0 || x == 1
  match rung with
  | 0 => a == 2 && b == 2
  | 1 => fp8 a && fp8 b
  | 2 => (a == 3 && (b == 3 || fp8 b)) || (fp8 a && b == 3)
  | 3 => a == 4 && b == 4
  | _ => a == 5 && b == 5

/-- Format codes of a descriptor's output: its own rung's where its own layer produces it. -/
def Program.outCodes (g : Program) (d : Desc) : List Nat :=
  let t := g.tensors.getD d.c {}
  if t.producer = d.layer then [bitsOf t.formats (4 * d.rung) 4] else g.codesOf t

/-- Check 4 of one descriptor. -/
def Program.pairFails (g : Program) (i : Nat) : Fails :=
  let d := g.desc i
  let off := g.descOff i
  let pairs := (g.codesOf (g.tensors.getD d.a {})).flatMap fun a => (g.codesOf (g.tensors.getD d.b {})).map fun b => (a, b)
  if d.kind = 0 then
    firstFail [
      check (pairs.all fun p => pairOk d.rung p.1 p.2) 3 off,
      check (!(g.outCodes d).contains 2 || d.flags.testBit 4) 3 off]
  else if d.kind = 1 then
    firstFail [check (pairs.all fun p => pairOk 1 p.1 p.2) 3 off, check (d.shiftIn == 65535) 3 off]
  else none

/-! ## Check 5: footprints (R61, R206) -/

/-- Thirty-seconds of a byte per streaming element. -/
def streamBytes32 (code : Nat) : Nat :=
  match code with
  | 2 => 17 | 0 => 32 | 1 => 32 | 3 => 64 | 4 => 64
  | _ => 128

/-- Stationary bytes of a pan per pass (R61). -/
def stationaryBytes (rung : Nat) : Nat :=
  match rung with
  | 0 => 5544 | 1 => 5184 | 2 => 2592 | 3 => 1152
  | _ => 576

/-- Staging that a member core needs, in thirty-seconds of a byte. -/
def Program.staging32 (g : Program) (d : Desc) : Nat :=
  let a := ((g.codesOf (g.tensors.getD d.a {})).map streamBytes32).foldl max 0
  2 * d.mCap * panK d.rung * a + 32 * 8 * stationaryBytes d.rung

/-- Footprint of a core block at the cap, likewise. -/
def Program.footprint32 (g : Program) (d : Desc) : Nat := g.staging32 d + 32 * (32 * d.mCap * panN d.rung)

/-- A die-local core holds a block of a pan descriptor at its compiled maxima (R203, R204). -/
def Program.holdsBlock (g : Program) (d : Desc) (core : Nat) : Bool :=
  let m := g.dimMax d.m
  let n := g.dimMax d.n
  let c := panCut m n (g.dimMax d.k) (panK d.rung) (panN d.rung) d.mCap
  let i := core - d.firstCore
  d.kind == 0 && decide (d.firstCore ≤ core) && decide (i < d.setSize) && m != 0 && n != 0 && g.dimMax d.k != 0
    && decide (i / d.gridN < c.nm) && decide (i % d.gridN < c.nn)

/-- Staging of a cluster for a variant: each core once, at its largest. -/
def Program.clusterStaging32 (g : Program) (ds : List Desc) (die cluster : Nat) : Nat :=
  sumNat ((List.range 8).map fun i =>
    (ds.filter fun d => d.die == die && g.holdsBlock d (8 * cluster + i)).foldl (fun m d => max m (g.staging32 d)) 0)

/-- Check 5 of one variant. -/
def Program.planFails (g : Program) (layer rung : Nat) : Fails :=
  let x := g.layers.getD layer {}
  let ds := ((List.range 3).flatMap (g.phaseDescs layer rung)).map g.desc
  let pans := ds.filter fun d => d.kind == 0
  firstFail [
    check (pans.all fun d => decide (g.footprint32 d ≤ 32 * x.coreBytes)) 3 (g.layerOff layer),
    check ((List.range 16).all fun k => decide (g.clusterStaging32 pans (k / 8) (k % 8) ≤ 32 * x.clusterBytes)) 3 (g.layerOff layer)]

/-! ## Check 6: producers before readers -/

/-- A place's writer stands in the way of a reader: it writes a tensor read, belongs to the same step, and does not come earlier. An
update's write does not count for a reader of another phase unless that step also writes the tensor before its update. -/
def State.blocked (s : State) (g : Program) (all : List Place) (r w : Place) (t : Nat) : Bool :=
  (s.writesOf (g.desc w.index) (w.phase == 2)).contains t && r.together w && !(w.before r) &&
    (if w.phase != 2 then true
     else if r.phase == 2 then false
     else all.any fun x => x.phase != 2 && x.together r && x.together w && (s.writesOf (g.desc x.index) false).contains t)

/-- Check 6 of one reader. -/
def State.orderFails (s : State) (g : Program) (all : List Place) (r : Place) : Fails :=
  check ((s.readsOf (g.desc r.index) (r.phase == 2)).all fun t => !(all.any fun w => s.blocked g all r w t)) 3 (g.descOff r.index)

/-! ## Check 7: places in memory -/

/-- Bytes of a tensor at its compiled maximum and widest format. MARK, DESIGN CHOICE (log 107): every format spans rows times row stride, as
R191 states it for Flake-4 data, so the gap after the last row must lie in mapped pages too. -/
def Program.tensorBytes (g : Program) (t : Tensor) : Nat :=
  let rows := g.dimMax t.rows
  if t.isShift then 2 * g.dimMax t.cols
  else ((g.codesOf t).map fun c =>
    if c = 2 then rows * t.rowStride / 2 + rows * t.rowStride / 32 else rows * t.rowStride * (streamBytes32 c / 32)).foldl max 0

/-- Check 7 of one tensor. -/
def State.spanFails (s : State) (g : Program) (i : Nat) : Fails :=
  let t := g.tensors.getD i {}
  check (s.rangeOrdinary t.address (g.tensorBytes t)) 6 (g.tensorOff i)

/-! ## Check 8 and R228: code -/

/-- Kind 2 descriptors of the update phase and of the others. -/
def Program.updates (g : Program) : List Nat := (g.uses.filter fun u => u.2.2.1 == 2 && (g.desc u.2.2.2).kind == 2).map (·.2.2.2)
def Program.bodies (g : Program) : List Nat := (g.uses.filter fun u => u.2.2.1 != 2 && (g.desc u.2.2.2).kind == 2).map (·.2.2.2)

/-- A vector program's count. -/
def State.bodyFails (s : State) (g : Program) (i : Nat) : Fails :=
  let d := g.desc i
  let n := s.ramNat (g.codeAt d) 4
  let ok := match s.bodyOf d with | some c => c.length == n && decide (n ≤ 112) | none => false
  check (ok && decide (g.codeArea + d.code + 8 + s.ramNat (g.codeAt d + 4) 4 ≤ g.bytes)) 3 (g.codeArea + d.code)

/-- An update's preamble and count. -/
def State.preambleFails (s : State) (g : Program) (i : Nat) : Fails :=
  let d := g.desc i
  let p := s.preamble d
  let used := p.state.take p.states
  let narrow := fun t => let x := g.tensors.getD t {}; (g.codesOf x).any (· != 5)
  let ok := decide (g.codeArea + d.code + 32 ≤ g.bytes) && decide (p.group < 64) && decide (1 ≤ p.states) && decide (p.states ≤ 6)
    && decide (p.gradient < g.tensors.length) && used.all (fun t => decide (t < g.tensors.length)) && (p.state.drop p.states).all (· == 65535)
    && decide (1 ≤ p.applyOps) && decide (p.gatherOps + p.applyOps ≤ 112) && s.ramNat (g.codeAt d + 0x18) 8 == 0
    && (match s.updateCode d with | some c => c.length == p.gatherOps + p.applyOps | none => false)
    && used.all fun t => !narrow t || decide (g.dimMax (g.tensors.getD t {}).rows * g.dimMax (g.tensors.getD t {}).cols ≤ 2 ^ 38)
  check ok 3 (g.codeArea + d.code)

/-- Preambles, once each: code offset and preamble. -/
def State.preambles (s : State) (g : Program) : List (Nat × Preamble) :=
  g.updates.foldl (fun l i =>
    let d := g.desc i
    if l.any fun x => x.1 == d.code then l else l ++ [(d.code, s.preamble d)]) []

/-- Preambles of a layer. -/
def State.layerPreambles (s : State) (g : Program) (layer : Nat) : List (Nat × Preamble) :=
  (s.preambles g).filter fun p => g.updates.any fun i => (g.desc i).layer == layer && (g.desc i).code == p.1

/-- State tensors of a preamble. -/
def Preamble.tensors (p : Preamble) : List Nat := p.state.take p.states

/-- The first state tensor that a descriptor of the update phase reads and that is not its own (R228). -/
def State.strayState (s : State) (states : List Nat) (d : Desc) : Option Nat :=
  let own := if d.kind = 2 then (s.preamble d).tensors else []
  (s.readsOf d true).find? fun t => states.contains t && !own.contains t

/-- Conditions over all preambles (R228), each failing at the offset of a preamble: the second one that names a tensor, one whose group
differs, or the one that names the state tensor read. An update-written tensor that no preamble names fails at its own entry. -/
def State.updateFails (s : State) (g : Program) : Fails :=
  let ps := s.preambles g
  let states := ps.flatMap fun p => p.2.tensors
  let naming := fun t => ps.filter fun p => p.2.tensors.contains t
  let at_ := fun (p : Option (Nat × Preamble)) (other : Nat) => match p with | some p => g.codeArea + p.1 | none => other
  firstFail (
    (g.tensors.zipIdx.map fun t => check (!t.1.updWritten || (states.filter (· == t.2)).length == 1) 3
      (at_ (match naming t.2 with | _ :: p :: _ => some p | l => l.head?) (g.tensorOff t.2)))
    ++ ((List.range g.layers.length).flatMap fun layer =>
      let l := s.layerPreambles g layer
      l.map fun p => check (l.all fun q => q.2.group == p.2.group) 3 (g.codeArea + p.1))
    ++ (g.uses.filter fun u => u.2.2.1 == 2).map fun u =>
      match s.strayState states (g.desc u.2.2.2) with
      | none => none
      | some t => some (3, at_ (naming t).head? (g.descOff u.2.2.2)))

/-! ## The whole check -/

/-- Image offset of the first unmapped byte of the image. -/
def State.firstUnmapped (s : State) (a n : Nat) : Nat :=
  match (pagesOf a n).find? (fun p => !(s.mapEntry p).v) with
  | some p => max a (p * pageBytes) - a
  | none => 2 ^ 43 - a

/-- Checks 2 to 8, with the program in place so that its code can be read. -/
def State.tableFails (s : State) (g : Program) (l : List Byte) : Fails :=
  let n := List.range g.descs.length
  match firstFail ((List.range (hdrLayers l)).map (layerFails l) ++ [sequenceFails l]) with
  | some x => some x
  | none =>
    match firstFail ((List.range g.tensors.length).map (tensorFails g l) ++ [recordFails g] ++ n.map (s.descFails g l) ++ [g.useFails]) with
    | some x => some x
    | none =>
      match firstFail (n.map g.pairFails
          ++ (List.range g.layers.length).flatMap (fun i => (g.ladderOf i).map (g.planFails i))
          ++ g.places.map (s.orderFails g g.places)
          ++ (List.range g.tensors.length).map (s.spanFails g)
          ++ g.bodies.map (s.bodyFails g)) with
      | some x => some x
      | none =>
        match firstFail (g.updates.map (s.preambleFails g)) with
        | some x => some x
        | none => s.updateFails g

/-- Bytes of an image at an address, its hash field set to zero. -/
def hashInput (l : List Byte) : List Byte := l.take 0x60 ++ zeros 32 ++ l.drop 0x80

/-- The first failing check of the image at an address (R185). -/
def State.loadFails (s : State) (a : Nat) : Fails :=
  if !s.rangeMapped a 256 then some (6, s.firstUnmapped a 256)
  else
    match headerFails (s.ramRead a 256) with
    | some x => some x
    | none =>
      let n := hdrBytes (s.ramRead a 256)
      if !s.rangeMapped a n then some (6, s.firstUnmapped a n)
      else
        let l := s.ramRead a n
        if digest256 (hashInput l) ≠ leAt l 0x60 32 then some (5, 0x60)
        else { s with prog.loaded := some (programOf a l) }.tableFails (programOf a l) l

/-! ## A load that passes (R186, R187) -/

/-- What the tables and the code give together: spans of pages, groups, released inputs. -/
def State.finishProgram (s : State) (g : Program) : Program :=
  let ps := s.preambles g
  let ups := g.updates.map g.desc
  let groups := ps.foldl (fun (m : KV (List Nat)) p =>
    let old := Kv.getD m p.2.group []
    Kv.put m p.2.group (if old.isEmpty then p.2.state else old ++ p.2.tensors)) []
  { g with
    spans := g.tensors.map fun t =>
      let n := g.tensorBytes t
      if n = 0 then (1, 0) else (pageOf t.address, pageOf (t.address + n - 1))
    groups := groups
    inputs := (List.range g.tensors.length).filter fun i =>
      (g.tensors.getD i {}).producer == 65535 && ups.all fun d => !(s.readsOf d true).contains i && !(s.writesOf d true).contains i }

/-- A record as a load leaves it. -/
def freshRecord (g : Program) (i : Nat) : ScaleRec :=
  match g.tensors.find? (fun t => t.scaleRecord == i) with
  | none => {}
  | some t =>
    let c := t.codeAt (ladderStart (g.layers.getD t.producer {}).ladder)
    { t := 0, backward := t.backward, grouped := t.groupScaled, updWritten := t.updWritten, format := if c ≤ 2 then c else 3,
      layer := t.producer, reason := some 0 }

/-- The first step of a fresh run (R187). -/
def State.freshRun (s : State) (g : Program) : State :=
  let s1 := { s with
    scale := { recs := (List.range g.scaleRecords).map fun i => (i, freshRecord g i) }
    rake := { layers := g.layers.zipIdx.map fun (x : Layer × Nat) =>
      (x.2, ({ rung := ladderStart x.1.ladder, floor := ladderFloor x.1.ladder } : RakeSt)) }
    train.rakeHalt := false
    cores := s.cores.map fun (e : Nat × CoreSt) => (e.1, { e.2 with window := {}, windowBad := false }) }
  ((s1.setEnt Ent.lossScaleExp (min (s.ent Ent.lossInitialExp) (s.ent Ent.lossMaxExp))).setEnt Ent.lossCleanSteps 0).setEnt Ent.scalePresentRecords 0

/-- The image passes: the program is loaded. -/
def State.acceptProgram (s : State) (a : Nat) : State :=
  let g := programOf a (s.ramRead a (hdrBytes (s.ramRead a 256)))
  let h := { s with prog.loaded := some g }.finishProgram g
  let s1 := { s with prog := { loaded := some h } }
  ((s1.freshRun h).setEnt Ent.progState 2).setEnt Ent.progErrorOffset 0xFFFFFFFF |>.protect

/-- Writing 2 to prog.load: no program remains (R211). -/
def State.unload (s : State) : State :=
  ({ s with prog := {}, scale := {}, rake := {} }.setEnt Ent.progState 0).setEnt Ent.scalePresentRecords 0 |>.protect

/-- Writing 1 to prog.load starts the checks. -/
def State.startLoad (s : State) : State :=
  let a := s.ent Ent.progImageAddress
  { s with prog.checking := some a, prog.verdict := s.loadFails a }.setEnt Ent.progState 1

/-- PROG_LOAD_CHECK_DONE (R185 to R187): a load that fails a check keeps the previous program. -/
def execProgLoadCheckDone (s : State) : Out :=
  .next (
    match s.prog.checking with
    | none => s
    | some a =>
      let s0 := { s with prog.checking := none, prog.verdict := none }
      match s.prog.verdict.or (s.loadFails a) with
      | some v => (s0.setEnt Ent.progState 3).setEnt Ent.progErrorOffset v.2
      | none => s0.acceptProgram a)

end Sys2Proof.Machine
end

