-- ==== Sys2Proof/Machine/Pans.lean ====
section
/-! DEFINITION. The pans: TIDE_RAMP_START to SEGMENT_TEST_DONE (R50 to R83, R105 to R115, R205, R210). -/

namespace Sys2Proof.Machine

/-! ## Conditions -/


/-- Native start mode (R75, R89); otherwise Polwin mode. -/
def State.native (s : State) : Bool := decide (s.ent Ent.panStartMode = 0)

/-- Rung of a tile's descriptor. -/
def State.tileRung (s : State) (t : TileRun) : Nat :=
  match s.desc? t.pos with
  | some r => r.d.rung
  | none => 0

/-- The bank that is not selected (R50). -/
def PanSt.idleBank (x : PanSt) : Option Bank := if x.bankSel then x.bankA else x.bankB

/-- Fills the bank that is not selected. -/
def PanSt.setIdleBank (x : PanSt) (b : Bank) : PanSt := if x.bankSel then { x with bankA := some b } else { x with bankB := some b }

/-- Entries of the shift queue that a pass needs (R105): a tile's output shifts before its first pass, and the pass's input shifts. -/
def outEntries (rung done : Nat) : Nat := if done = 0 then ceilDiv (panN rung) 10 else 0
def shiftEntriesOf (rung done : Nat) : Nat := outEntries rung done + ceilDiv (panK rung) 10

/-- The stationary tile of the next pass has been admitted whole (R71). -/
def State.stationaryReady (s : State) (x : PanSt) : Bool :=
  match x.tile, x.idleBank with
  | some t, some b => decide (t.done < t.passes) && decide (b.pass = t.done) && decide (loadEntries (s.tileRung t) ≤ b.admitted)
  | _, _ => false

/-- A buffer holds the operands of a tile's next pass. -/
def TileBuf.serves (b : TileBuf) (t : TileRun) (index range : Nat) : Bool :=
  b.pos == t.pos && b.index == index && b.range == range && b.pass == t.done

/-- The buffered streaming rows and stationary tiles of a tile's next pass (R206). -/
def CoreSt.rowsFor (x : CoreSt) (r : DescRun) (t : TileRun) : Option TileBuf :=
  x.rowBuf.find? fun b => b.serves t (r.panBlock t.block).mi (r.panBlock t.block).j
def CoreSt.statFor (x : CoreSt) (r : DescRun) (t : TileRun) : Option TileBuf :=
  x.statBuf.find? fun b => b.serves t (r.panBlock t.block).ni (r.panBlock t.block).j

/-- The next pass of a pan's tile may start (R71): its stationary tile has been admitted, its shifts have arrived, and its rows are
there, the first of them in the streaming-row queue. -/
def State.passReady (s : State) (c p : Nat) : Bool :=
  let x := s.pan c p
  match x.tile with
  | none => false
  | some t =>
    match s.desc? t.pos with
    | none => false
    | some r =>
      x.rowsDue == 0 && s.stationaryReady x && decide (shiftEntriesOf r.d.rung t.done ≤ x.shiftEntries) && ((s.core c).rowsFor r t).isSome
        && s.queueReady (rowQueue c p)

/-- The half in which a tile accumulates is free (R72, R74). -/
def PanSt.halfFree (x : PanSt) (t : TileRun) : Bool := if t.half then x.halfB.isNone else x.halfA.isNone

/-! ## Ramps (R75 to R78, R88) -/

/-- Work of a sluice path is ready. -/
def State.sluiceReady (s : State) (c : Nat) : Bool := (Kv.find? (s.core c).units 1).isSome

/-- Cycles that a row takes from its entry until it leaves grain (143, 35) (R75, R76). -/
def crossCycles : Nat := 178

/-- TIDE_RAMP_START (R75, R88): from rest to full activity through 32 cycles of dummy operations, which go on until the first real row
has filled the array. -/
def execTideRampStart (u : StreamUnit) (s : State) : Out :=
  .next (
    match u with
    | .pan c p =>
      let x := s.pan c p
      if s.coreLive c ∧ s.native ∧ x.motion = .rest ∧ s.passReady c p then
        (s.setPan c p { x with motion := .filling, flipCycles := 40 }).bump 64 (Ent.panDummyCycles c p) (s.ent Ent.panTideCycles)
      else s
    | .sluice c =>
      if s.coreLive c ∧ s.native ∧ (s.core c).sluice = .rest ∧ s.sluiceReady c then s.setCore c { s.core c with sluice := .running }
      else s)

/-- Dummy cycles of a stop ramp (R76): those of the last real row's way through the array, if one is in it, and the steps but the last,
in which no grain row runs. -/
def State.stopCycles (s : State) (x : PanSt) : Nat :=
  (if x.motion = .running then crossCycles else 0) + (s.ent Ent.panTideCycles - 4)

/-- TIDE_RAMP_STOP (R76, R88): down to rest; a pass that has become ready reverses the ramp from the step it has reached, which is a free
value. -/
def execTideRampStop (u : StreamUnit) (s : State) : Out :=
  .next (
    match u with
    | .pan c p =>
      let x := s.pan c p
      if s.coreLive c ∧ s.native ∧ x.motion ≠ .rest ∧ x.rowsDue = 0 then
        if s.passReady c p then
          ((s.setPan c p { x with motion := .filling, flipCycles := 40 }).bump 64 (Ent.panDummyCycles c p)
            (Config.timing s.clk.freeNext % (s.stopCycles x + s.ent Ent.panTideCycles))).draw
        else (s.setPan c p { x with motion := .rest }).bump 64 (Ent.panDummyCycles c p) (s.stopCycles x)
      else s
    | .sluice c =>
      if s.coreLive c ∧ s.native ∧ (s.core c).sluice = .running ∧ s.sluiceReady c = false then
        s.setCore c { s.core c with sluice := .rest }
      else s)

/-- POLWIN_IDLE_STOP (R78): after 64 cycles of dummy rows a Polwin-mode unit stops at once; the cycles that its waits have counted
already are among them. -/
def execPolwinIdleStop (u : StreamUnit) (s : State) : Out :=
  .next (
    match u with
    | .pan c p =>
      let x := s.pan c p
      if s.coreLive c ∧ s.native = false ∧ x.motion ≠ .rest ∧ s.passReady c p = false then
        (s.setPan c p { x with motion := .rest, idle := 0 }).bump 64 (Ent.panDummyCycles c p) (s.ent Ent.panPolwinFill - x.idle)
      else s
    | .sluice c =>
      if s.coreLive c ∧ s.native = false ∧ (s.core c).sluice = .running ∧ s.sluiceReady c = false then
        s.setCore c { s.core c with sluice := .rest }
      else s)

/-! ## Stationary loads (R70) -/

/-- The elements that load entry `e` of a pass brings into a pan's bank: one multiplier column, or at Flake, where each block of nine data
entries follows its scale entry, the two of a grain column. -/
def entryCols (rung e : Nat) : List Nat :=
  if rung = 0 then (if e % 10 = 0 then [] else let n := e - e / 10 - 1; [2 * n, 2 * n + 1]) else [e]

/-- A load entry enters a bank. -/
def Bank.load (b : Bank) (buf : TileBuf) (rung p : Nat) : Bank :=
  { b with
    admitted := b.admitted + 1
    vals := (entryCols rung b.admitted).foldl (fun m col =>
      (buf.vals.filter fun e => e.1 / 256 == p * panN rung + col).foldl (fun m e => Kv.put m (256 * col + e.1 % 256) e.2) m) b.vals }

/-- The bank that loads for a tile's next pass. -/
def PanSt.loadingBank (x : PanSt) (t : TileRun) : Bank :=
  match x.idleBank with
  | some b => if b.pass = t.done then b else { pass := t.done }
  | none => { pass := t.done }

/-- A pan's tile that has a pass to come, with its descriptor. -/
def State.tileToCome (s : State) (c p : Nat) : Option (TileRun × DescRun) :=
  match (s.pan c p).tile with
  | some t => if t.done < t.passes then (s.desc? t.pos).map fun r => (t, r) else none
  | none => none

/-- The largest load, of the Flake rung (R61). -/
def mostEntries : Nat := 40

/-- STATIONARY_LOAD_ADMIT (R70): one entry of the next pass's stationary tile leaves the stationary queue and enters the idle bank; while
that bank cannot take it the load stalls. Between tiles the idle bank takes the entries of a tile to come, whose elements are known with
its buffer. -/
def execStationaryLoadAdmit (c : CoreId) (p : PanId) (s : State) : Out :=
  .next (
    let x := s.pan c p
    if s.coreLive c ∧ x.testing = false ∧ s.queueReady (stationaryQueue c p) then
      match s.tileToCome c p with
      | none =>
        if mostEntries ≤ x.preload then s.bump 64 (Ent.panLoadStallCycles c p) 1
        else (s.readQueue (stationaryQueue c p) 1).setPan c p { x with preload := x.preload + 1 }
      | some (t, r) =>
        if loadEntries r.d.rung ≤ (x.loadingBank t).admitted then s.bump 64 (Ent.panLoadStallCycles c p) 1
        else
          match (s.core c).statFor r t with
          | none => s
          | some buf => (s.readQueue (stationaryQueue c p) 1).setPan c p (x.setIdleBank ((x.loadingBank t).load buf r.d.rung p))
    else s)

/-- The entries that a bank admitted before its tile's buffer had come are those of its next pass (R70). -/
def State.settlePreload (s : State) (c p : Nat) : State :=
  let x := s.pan c p
  match s.tileToCome c p with
  | none => s
  | some (t, r) =>
    match (s.core c).statFor r t with
    | none => s
    | some buf =>
      if x.preload = 0 then s
      else
        let n := min x.preload (loadEntries r.d.rung - (x.loadingBank t).admitted)
        s.setPan c p { x.setIdleBank ((List.range n).foldl (fun b _ => b.load buf r.d.rung p) (x.loadingBank t)) with preload := x.preload - n }

/-! ## Per-channel shifts (R105, R107) -/

/-- A shift as a register holds it. -/
def shiftReg (v : Int) : ShiftReg := let n := (v % 64).toNat; { value := n, compl := 63 - n }

/-- A register's shift, and its check. -/
def ShiftReg.shift (x : ShiftReg) : Int := shiftVal x.value
def ShiftReg.ok (x : ShiftReg) : Bool := x.value + x.compl == 63

/-- The table, the first channel and the channels of a tile's output shifts, or of its next pass's input shifts. -/
def TileRun.channels (t : TileRun) (r : DescRun) (out : Bool) : Nat × Nat × Nat :=
  if out then (r.d.shiftOut, t.n0, t.cols)
  else (r.d.shiftIn, t.k0 + t.done * panK r.d.rung, min (panK r.d.rung) (t.kt - t.done * panK r.d.rung))

/-- The registers that the shift tables give a tile. -/
def State.tileRegs (s : State) (r : DescRun) (t : TileRun) (out : Bool) : List ShiftReg :=
  let x := t.channels r out
  (List.range (if out then panN r.d.rung else panK r.d.rung)).map fun i => shiftReg (if i < x.2.2 then s.shift x.1 (x.2.1 + i) else 0)

/-- An entry of the shift queue (R105): shift i of up to ten at bits [6i+5:6i]; bits [63:60] are 0. -/
def packShifts (l : List ShiftReg) : Nat := sumNat ((l.take 10).zipIdx.map fun e => e.1.value % 64 * 2 ^ (6 * e.2))

/-- The ten registers that an entry brings, with their complements. -/
def unpackShifts (payload : Nat) : List ShiftReg :=
  (List.range 10).map fun i => { value := payload / 2 ^ (6 * i) % 64, compl := 63 - payload / 2 ^ (6 * i) % 64 }

/-- Which registers an entry of the shift queue is for, by its number among those of a pass: the tile's output registers or the pass's input
registers, and the first of them. -/
def shiftSlot (rung done n : Nat) : Bool × Nat :=
  let outs := outEntries rung done
  if n < outs then (true, 10 * n) else (false, 10 * (n - outs))

/-- A pan takes an entry of the shift queue: a pass of its tile is still to come and not all its shifts are in. -/
def State.wantsShifts (s : State) (c p : Nat) : Bool :=
  let x := s.pan c p
  match x.tile with
  | none => false
  | some t => decide (t.done < t.passes) && decide (x.shiftEntries < shiftEntriesOf (s.tileRung t) t.done)

/-! ## A pass (R60 to R71) -/

/-- Indices of an element in a tensor stored as its descriptor's orientation bit says (R192). -/
def oriented (swapped : Bool) (r c : Nat) : Nat × Nat := if swapped then (c, r) else (r, c)

/-- One output's accumulation through a pass: the rows in the tile buffer, the bank's column, and the input shift of each multiplier
row. -/
def TileRun.passFoot (t : TileRun) (regs : List ShiftReg) (rows : TileBuf) (bank : Bank) (kp row col : Nat) : Foot :=
  (List.range (min kp (t.kt - t.done * kp))).foldl (fun f i =>
    f.product t.kt (t.done * kp + i) (Kv.getD rows.vals (256 * row + i) (.fin false 0 0)) (Kv.getD bank.vals (256 * col + i) (.fin false 0 0))
      (regs.getD i {}).shift) { acc := Kv.getD t.acc (512 * col + row) {} }

/-- The window entry of an invalid operation in a pan tile (R174). -/
def tileEvent (r : DescRun) (t : TileRun) (p col : Nat) (e : Nat × Nat) : ExWindow :=
  { layer := r.d.layer, source := 0, kind := e.2, pan := p, slot := 255, column := col, group := e.1, tileM := t.m0, tileN := t.n0,
    tileK := t.k0, sequence := 4 * t.block + p }

/-- One output's pass joins the tile. -/
def DescRun.passOne (r : DescRun) (p : Nat) (regs : List ShiftReg) (rows : TileBuf) (bank : Bank) (t t1 : TileRun) (row col : Nat) : TileRun :=
  let f := t.passFoot regs rows bank (panK r.d.rung) row col
  { t1 with
    acc := Kv.put t1.acc (512 * col + row) f.acc
    invalid := t1.invalid + f.invalid
    overflows := t1.overflows + f.overflows
    window := match f.event with | some e => t1.window.least (tileEvent r t p col e) | none => t1.window }

/-- The tile after its next pass. -/
def DescRun.passTile (r : DescRun) (p : Nat) (regs : List ShiftReg) (rows : TileBuf) (bank : Bank) (t : TileRun) : TileRun :=
  let t2 := (List.range t.rows).foldl (fun t1 row =>
    (List.range t.cols).foldl (fun t1 col => r.passOne p regs rows bank t t1 row col) t1) t
  { t2 with done := t.done + 1 }

/-- Buffers that no tile of the block needs any more are free (R206): every tile of the block has run their passes. -/
def CoreSt.freeBuffers (x : CoreSt) (t : TileRun) : CoreSt :=
  let needed := fun (b : TileBuf) => x.pans.any fun p => match p.2.tile with
    | some y => y.pos == t.pos && y.block == t.block && decide (y.done ≤ b.pass) && decide (b.pass < y.passes)
    | none => false
  { x with rowBuf := x.rowBuf.filter needed, statBuf := x.statBuf.filter needed }

/-- A core without a combine. -/
def CoreSt.dropCombine (x : CoreSt) (pos : Nat) : CoreSt := { x with combines := Kv.del x.combines pos }

/-- A core block holds work in some pan. -/
def CoreSt.holdsTile (x : CoreSt) (pos block : Nat) : Bool :=
  x.pans.any fun p => match p.2.tile with | some t => t.pos == pos && t.block == block | none => false

/-- A core block's results drain in some pan. -/
def CoreSt.holdsHalf (x : CoreSt) (pos block : Nat) : Bool :=
  x.pans.any fun p => (p.2.halfA.toList ++ p.2.halfB.toList).any fun w => w.pos == pos && w.block == block

/-- The pans take another unit once none holds a tile of the block; the block is finished once none drains it either. -/
def State.settleBlock (s : State) (c pos block : Nat) : State :=
  let x := s.core c
  if x.holdsTile pos block then s
  else
    let s1 := s.setCore c { x with units := if Kv.find? x.units 0 = some ⟨pos, block⟩ then Kv.del x.units 0 else x.units }
    if x.holdsHalf pos block then s1 else s1.finishOutput c 0 pos block

/-- A core block whose read met trouble is dropped without results: its tiles, its combine and its unit (R107, R266). -/
def State.dropBlock (s : State) (c pos block : Nat) : State :=
  let x := s.core c
  let pans := x.pans.map fun p => match p.2.tile with
    | some t => if t.pos = pos ∧ t.block = block then (p.1, { p.2 with tile := none, bankA := none, bankB := none }) else p
    | none => p
  let output := match s.desc? pos with | some r => r.outputOf block | none => block
  ((s.setCore c { x with pans := pans, combines := Kv.del x.combines pos }.dropBuffers).settleBlock c pos block).joinHeld c (heldKey pos output)

/-- Least cycles between flips: a pass holds 36 rows, bubble rows among them, and at Flake a load takes 40 cycles (R61, R62). -/
def minRows : Nat := 36
def flipDistance (rung : Nat) : Nat := if rung = 0 then 40 else 36

/-- Bubble rows of a pass (R62): those before its flip, after as many cycles since the last one, and those after its last row. -/
def bubbles (rung rows since : Nat) : Nat := (flipDistance rung - since) + (minRows - rows)

/-- The tag of a block of a Flake-4 stream (R113). -/
def blockTag (block : Nat) : Nat := block % 16

/-- Detail of a stream-tag mismatch: tags, and the bit of the edge or of writeback (R318). -/
def tagDetail (x : TagSlip) (bit : Nat) : Nat := blockTag x.dataBlock * 2 ^ 17 + blockTag x.scaleBlock * 2 ^ 21 + 2 ^ bit

/-- The tags of the two streams differ (R114); a slip of a multiple of 16 blocks passes the check (R115). -/
def slipped (x : TagSlip) : Bool := blockTag x.dataBlock != blockTag x.scaleBlock

/-- A tag that arrives at a store engine is not that of the engine's own address sequence (R115). -/
def storeSlipped (x : TagSlip) : Bool := blockTag x.dataBlock != blockTag x.block || blockTag x.scaleBlock != blockTag x.block

/-- A stream-tag mismatch in a pan (R114, R115). -/
def State.tagFault (s : State) (c p : Nat) (x : TagSlip) (bit : Nat) : State :=
  let again := (s.pan c p).slipBlock == some x.block
  let s1 := (s.bump 64 Ent.scaleStreamTagFaults 1).setPan c p { s.pan c p with slipBlock := some x.block }
  (s1.raise { fault 0x04 .pan (4 * c + p) with detail := tagDetail x bit, atLeast := if again then 1 else 0 }).latchAll

/-- Rows that the streaming-row queue holds and the pan has not read. -/
def State.rowsThere (s : State) (c p : Nat) : Nat := (s.queueAt (rowQueue c p)).visible.length - (s.queueAt (rowQueue c p)).taken

/-- Cycles for which the streaming-row queue runs empty in mid-pass (R91): none where it holds all the rows of the pass, else a free
value. -/
def State.rowGap (s : State) (c p rows : Nat) : Nat := if rows ≤ s.rowsThere c p then 0 else Config.timing s.clk.freeNext

/-- Cycles since the last flip, for the distance that the next one keeps. -/
def PanSt.sinceFlip (x : PanSt) : Nat := if x.motion = .running then x.flipCycles else 40

/-- A pass without trouble: bank flip, sums, and the cycles without a real row: bubbles between flips, dummy rows in Polwin mode, and the
dummy operations of an array that fills (R62, R75, R78, R91). -/
def State.runPass (s : State) (c p : Nat) (r : DescRun) (t : TileRun) (rows : TileBuf) : State :=
  let x := s.pan c p
  let t1 := r.passTile p x.inRegs rows (x.idleBank.getD {}) t
  let n := bubbles r.d.rung t.rows x.sinceFlip
  let gap := s.rowGap c p t.rows
  let s1 := (s.readQueue (rowQueue c p) t.rows).setPan c p { x with
    bankSel := !x.bankSel, motion := .running, tile := some t1, shiftEntries := 0, idle := 0, flipCycles := max t.rows minRows + gap
    rowsDue := t.rows - s.rowsThere c p
    invalidFlag := x.invalidFlag || (decide (t.invalid < t1.invalid) && !r.amaxPass) }
  let s2 := s1.setCore c ((s1.core c).freeBuffers t1)
  let s3 := s2.bump 64 (Ent.panBubbleCycles c p) (if s.native then n + gap else n)
  (s3.bump 64 (Ent.panDummyCycles c p) (if s.native then (if x.motion = .filling then crossCycles else 0) else n + gap)).draw

/-- A pan that moves takes a bubble row, since no pass can start (R71, R74, R91): a dummy row in Polwin mode, and in native mode a cycle
of dummy operations while the array fills (R75, R78). -/
def State.waitRow (s : State) (c p : Nat) : State :=
  let x := s.pan c p
  let s1 := (s.setPan c p { x with flipCycles := x.flipCycles + 1, idle := if s.native then x.idle else x.idle + 1 }).bump 64
    (Ent.panBubbleCycles c p) 1
  if s.native = false ∨ x.motion = .filling then s1.bump 64 (Ent.panDummyCycles c p) 1 else s1

/-- The first register of a pan that fails its complement, of those that a pass uses (R107): output shifts, then input shifts. -/
def PanSt.badReg (x : PanSt) : Option Nat :=
  ((x.outRegs ++ x.inRegs).zipIdx.find? fun e => !e.1.ok).map (·.2)

/-- Trouble of the shift table entries of a tile, all of them or ten from `first` on. -/
def State.tileShiftTrouble (s : State) (r : DescRun) (t : TileRun) (out : Bool) (first n : Nat) : Option Trouble :=
  let ch := t.channels r out
  s.shiftTrouble ch.1 (ch.2.1 + first) (min n (ch.2.2 - first))

/-- A register fails its complement: an integrity fault that names the register, and the tile waits while the shifts are read from
memory again (R107, R335). An entry that fails its own complement there ends the block, as on its first way to the pan. -/
def State.badRegister (s : State) (c p : Nat) (r : DescRun) (t : TileRun) (i : Nat) : State :=
  let s1 := ((s.bump 64 Ent.scaleIntegrityFaults 1).raise (integrity intShift .core c 3 i)).latchAll
  match (s1.tileShiftTrouble r t true 0 (panN r.d.rung)).orElse fun _ => s1.tileShiftTrouble r t false 0 (panK r.d.rung) with
  | some y => ((s1.dropBlock c t.pos t.block).troubled c y).latchAll
  | none => s1.setPan c p { s1.pan c p with outRegs := s1.tileRegs r t true, inRegs := s1.tileRegs r t false }

/-- The next entry that the control processor sends to a pan (R105): its payload, or the trouble of the table that it reads. -/
def State.nextShifts (s : State) (c p : Nat) : Option (TileRun × Except Trouble Nat) :=
  let x := s.pan c p
  let q := s.queueAt (shiftQueue c p)
  match s.tileToCome c p with
  | none => none
  | some (t, r) =>
    let n := x.shiftEntries + (q.visible.length - q.taken)
    if shiftEntriesOf r.d.rung t.done ≤ n then none
    else
      let e := shiftSlot r.d.rung t.done n
      match s.tileShiftTrouble r t e.1 e.2 10 with
      | some y => some (t, .error y)
      | none => some (t, .ok (packShifts ((s.tileRegs r t e.1).drop e.2)))

/-- An entry of the shift queue reaches a pan: up to ten registers take their shifts, output shifts first (R105). -/
def State.takeShifts (s : State) (c p payload : Nat) : State :=
  let x := s.pan c p
  match x.tile with
  | none => s
  | some t =>
    match s.desc? t.pos with
    | none => s
    | some r =>
      let e := shiftSlot r.d.rung t.done x.shiftEntries
      s.setPan c p (
        if e.1 then { x with shiftEntries := x.shiftEntries + 1, outRegs := (x.outRegs.take e.2 ++ unpackShifts payload).take (panN r.d.rung) }
        else { x with shiftEntries := x.shiftEntries + 1, inRegs := (x.inRegs.take e.2 ++ unpackShifts payload).take (panK r.d.rung) })

/-- A Polwin pan that moves and has no pass to run takes a dummy row (R78, R89). -/
def State.fillRow (s : State) (c p : Nat) : State :=
  let x := s.pan c p
  if s.coreLive c ∧ x.testing = false ∧ s.native = false ∧ x.motion ≠ .rest then
    (s.setPan c p { x with flipCycles := x.flipCycles + 1, idle := x.idle + 1 }).bump 64 (Ent.panDummyCycles c p) 1
  else s

/-- PASS_START (R69, R71, R74, R78, R107, R114): a pass runs once the rows of the last have all come, its stationary tile has been
admitted, its shifts and rows have arrived, the half it accumulates in is free and the pan moves; a tag mismatch at the edge discards the
tile. -/
def execPassStart (c : CoreId) (p : PanId) (slip : Option TagSlip) (s : State) : Out :=
  .next (
    let x := s.pan c p
    match x.tile with
    | none => s.fillRow c p
    | some t =>
      match s.desc? t.pos with
      | none => s
      | some r =>
        if 0 < x.rowsDue then s
        else if t.passes ≤ t.done then s.fillRow c p
        else if s.coreLive c ∧ x.testing = false then
          match (s.core c).rowsFor r t with
          | some rows =>
            if s.passReady c p ∧ x.halfFree t ∧ (x.motion ≠ .rest ∨ s.native = false) then
              match slip.filter (fun y => decide (r.d.rung = 0) && slipped y), x.badReg with
              | some y, _ => s.tagFault c p y 25
              | none, some i => s.badRegister c p r t i
              | none, none => s.runPass c p r t rows
            else if x.motion = .rest then s
            else s.waitRow c p
          | none => if x.motion = .rest then s else s.waitRow c p
        else s)

/-! ## A tile completes (R73, R205) -/

/-- The tile's results, by `512 × column + row`. -/
def TileRun.results (t : TileRun) : KV F32 := t.acc.map fun e => (e.1, (e.2.val).getD 0)

/-- One partial joins a core block's combine at the key of its column within the block (R165, R205). -/
def Combine.join (x : Combine) (first : Bool) (key : Nat) (v : F32) : Combine :=
  if first then { x with vals := Kv.put x.vals key v, inv := listErase x.inv key }
  else
    let a := Kv.getD x.vals key 0
    let y := { x with vals := Kv.put x.vals key (roundF32 ((f32Val a).add (f32Val v))).1 }
    if opposite (f32Val a) (f32Val v) then { y with inv := listAdd y.inv key } else y

/-- A pan tile's partials join. -/
def Combine.joinTile (x : Combine) (first : Bool) (np p block : Nat) (vals : KV F32) : Combine :=
  let y := { x with units := if first && !x.units.contains block then [block] else listAdd x.units block }
  vals.foldl (fun y e => y.join first (e.1 + 512 * np * p) e.2) y

/-- The combine's results of one pan, at the keys of its tile. -/
def Combine.ofPan (x : Combine) (np p : Nat) : KV F32 :=
  (x.vals.filter fun e => decide (512 * np * p ≤ e.1) && decide (e.1 < 512 * np * (p + 1))).map fun e => (e.1 - 512 * np * p, e.2)

/-- Keys of one pan's outputs whose combine was invalid. -/
def Combine.invOfPan (x : Combine) (np p : Nat) : List Nat :=
  x.inv.filter fun k => decide (512 * np * p ≤ k) && decide (k < 512 * np * (p + 1))

/-- Window entry of an invalid combine (R459). -/
def combineEvent (r : DescRun) (t : TileRun) (p key : Nat) : ExWindow :=
  { layer := r.d.layer, source := 2, kind := 4, pan := 255, slot := 255, column := key / 512, group := key % 512, tileM := t.m0,
    tileN := t.n0, tileK := t.k0, sequence := 4 * t.block + p }

/-- Values of an output that a conversion meets: after the per-channel shift (R73, R108); of a pan's, by its registers. -/
def shiftedBy (shifts : List Int) (col : Nat) (v : F32) : Val := (f32Val v).scale (shifts.getD col 0)
def State.shifted (s : State) (r : DescRun) (n : Nat) (v : F32) : Val := (f32Val v).scale (s.shift r.d.shiftOut n)

/-- Step amax of a tile's results. -/
def tileAmax (shifts : List Int) (vals : KV F32) : F32 :=
  vals.foldl (fun a e => amaxMax a (amaxOf (shiftedBy shifts (e.1 / 512) e.2))) 0

/-- The tile leaves the pan; its results go into the tile's half, if any are released. -/
def PanSt.finishTile (x : PanSt) (half : Bool) (w : Option Writeback) : PanSt :=
  let y := { x with tile := none, bankA := none, bankB := none, shiftEntries := 0, slipBlock := none, suspect := none }
  match w with
  | none => y
  | some v =>
    if half then { y with halfB := some v, drainB := y.halfA.isNone } else { y with halfA := some v, drainB := y.halfB.isSome }

/-- What a completed tile reports: invalid operations, overflows, and its record where no conversion follows. -/
def State.reportTile (s : State) (c : Nat) (r : DescRun) (sr : SalRec) (w : ExWindow) (send : Bool) : State :=
  let s1 := (s.reportInvalid c r.d.layer sr.invalid w).unitFlags sr.accumOverflows {}
  if send then s1.holdRecord c (heldKey r.pos (r.outputOf (sr.sequence / 4))) sr else s1

/-- A tile whose last pass has been added completes. -/
def State.completeTile (s : State) (c p : Nat) (r : DescRun) (t : TileRun) : State :=
  let x := s.core c
  let pan := s.pan c p
  let np := panN r.d.rung
  let ranges := r.panCut.t
  let j := t.block % ranges
  let last := decide (j + 1 = ranges)
  let cmb := if ranges = 1 then {} else (Kv.getD x.combines t.pos {}).joinTile (decide (j = 0)) np p t.block t.results
  let s0 := if ranges = 1 then s else s.setCore c { x with combines := Kv.put x.combines t.pos cmb }
  let vals := if ranges = 1 then t.results else cmb.ofPan np p
  let inv := if last then cmb.invOfPan np p else []
  let event := inv.foldl (fun w k => w.least (combineEvent r t p k)) t.window
  let sr : SalRec := { r.salRec s 0 (4 * t.block + p) with
    invalid := t.invalid + inv.length, accumOverflows := t.overflows,
    invalidSeen := decide (0 < t.invalid + inv.length), overflowSeen := decide (0 < t.overflows) }
  let w : Writeback := {
    pos := t.pos, block := t.block, m0 := t.m0, n0 := t.n0, rows := t.rows, cols := t.cols, vals := vals, ranges := ranges, sal := sr
    shifts := pan.outRegs.map ShiftReg.shift }
  let s1 :=
    if r.amaxPass then
      let s1 := s0.setPan c p (pan.finishTile t.half none)
      if last then s1.mapDesc t.pos fun d => d.gatherAmax r.d.c (tileAmax (pan.outRegs.map ShiftReg.shift) vals) else s1
    else (s0.setPan c p (pan.finishTile t.half (if last then some w else none))).reportTile c r sr event (!last)
  let s2 := if last && !(s1.core c).holdsTile t.pos t.block then s1.setCore c (CoreSt.dropCombine (s1.core c) t.pos)
            else s1
  s2.settleBlock c t.pos t.block

/-- TILE_COMPLETE (R73, R205, R132, R175): the tile's results are released, rows and columns that waited for the tile's end are retired
(R56), and tile done is reported (R281). A tile of a K range before the
last sends its record, for which the salinometer queue must have room. -/
def execTileComplete (c : CoreId) (p : PanId) (s : State) : Out :=
  .next (
    let x := s.pan c p
    match x.tile with
    | none => s
    | some t =>
      match s.desc? t.pos with
      | none => s
      | some r =>
        if s.coreLive c ∧ x.testing = false ∧ t.passes ≤ t.done ∧ x.rowsDue = 0 ∧ x.halfFree t then
          if s.salRoom c then (((s.completeTile c p r t).applyRemap c p).pendEvent (tileDoneKey c p)).latchAll else s.stallQueue (salQueue c)
        else s)

/-! ## Writeback (R73, R74, R111, R112, R115) -/

/-- Two nibbles to a byte. -/
def packNibbles : List Nat → List Byte
  | [] => []
  | [a] => [BitVec.ofNat 8 (a % 16)]
  | a :: b :: t => BitVec.ofNat 8 (a % 16 + 16 * (b % 16)) :: packNibbles t

/-- The 16 data bytes and the exponent byte of a block at its place (R34). -/
def View.blockWrites (v : View) (r c : Nat) (b : BlockOut) : List (Nat × List Byte) :=
  [(v.addr + v.place r c / 2, (packNibbles b.codes ++ zeros 16).take 16), (v.expAddr + v.place r c / 32, [BitVec.ofNat 8 b.e])]

/-- One output row in a format other than Flake-4: its writes and counts. -/
def DescRun.drainPlain (r : DescRun) (w : Writeback) (v : View) (k : Counts) : List (Nat × List Byte) × Counts :=
  let row := w.drained
  (List.range w.cols).foldl (fun (a : List (Nat × List Byte) × Counts) col =>
    let x := outElem a.2 v.fmt v.t none (shiftedBy w.shifts col (Kv.getD w.vals (512 * col + row) 0))
    let i := oriented (r.d.flags.testBit 4) (w.m0 + row) (w.n0 + col)
    (a.1 ++ [(v.addr + v.place i.1 i.2 * v.fmt.bytes, codeBytes v.fmt x.1)], x.2)) ([], k)

/-- A column's block of 32 rows, or of those left, from `r0` on (R111, R112): the output is stored N × M. -/
def Writeback.colBlock (w : Writeback) (v : View) (k : Counts) (col r0 : Nat) : BlockOut :=
  let xs := (List.range (min 32 (w.rows - r0))).map fun i => shiftedBy w.shifts col (Kv.getD w.vals (512 * col + r0 + i) 0)
  encodeBlock k v.t xs (xs.map fun _ => none)

/-- The blocks that end with the row being drained (R111). -/
def Writeback.drainFlake (w : Writeback) (v : View) (k : Counts) : List (Nat × List Byte) × Counts :=
  let row := w.drained
  if row % 32 = 31 ∨ row + 1 = w.rows then
    let r0 := row / 32 * 32
    (List.range w.cols).foldl (fun (a : List (Nat × List Byte) × Counts) col =>
      let b := w.colBlock v a.2 col r0
      (a.1 ++ v.blockWrites (w.n0 + col) (w.m0 + r0) b, b.counts)) ([], k)
  else ([], k)

/-- The entry of a row of Flake-4 output: its codes, which the first pass over the block has found (R112). DESIGN CHOICE (log 103): column
`i` has its code at bits [4i+3:4i] and its block's exponent at bits [8i+295:8i+288]. -/
def Writeback.flakeEntry (w : Writeback) (v : View) : Nat :=
  sumNat ((List.range w.cols).map fun col =>
    let b := w.colBlock v {} col (w.drained / 32 * 32)
    b.codes.getD (w.drained % 32) 0 * 2 ^ (4 * col) + b.e * 2 ^ (288 + 8 * col))

/-- Writes of one drained row, in the tile's seal unit. -/
def State.storeRow (s : State) (su : Option Nat) (ws : List (Nat × List Byte)) : State × Option Nat :=
  ws.foldl (fun (r : State × Option Nat) w => r.1.stepStore r.2 w.1 w.2) (s, su)

/-- The half that drains first, and the pan without it. -/
def PanSt.draining (x : PanSt) : Option Writeback := if x.drainB then x.halfB else x.halfA
def PanSt.setDraining (x : PanSt) (w : Option Writeback) : PanSt := if x.drainB then { x with halfB := w } else { x with halfA := w }

/-- The draining half is empty: the other one drains next. -/
def PanSt.endDrain (x : PanSt) : PanSt :=
  let y := x.setDraining none
  { y with drainB := if y.halfB.isSome then true else false, slipBlock := none }

/-- The tile's last row is converted: its record is complete and sent, and the tile's part in the step amax and the retry joins its
descriptor (R94, R118, R132). -/
def State.endRows (s : State) (c : Nat) (r : DescRun) (w : Writeback) (su : Option Nat) : State :=
  let sr := ({ w.sal with flushTile := s.flushTile w.sal.counts } : SalRec).withGrad (s.tensor r.d.c).weightGrad
  let s1 := (s.holdRecord c (heldKey w.pos (r.outputOf w.block)) sr).mapDesc w.pos fun d => d.gatherAmax d.d.c w.sal.counts.amax
  s1.closeSeal su none

/-- An entry of the writeback queue is read, and so acknowledged; the half of a tile whose rows have all been drained is free once its
last entry is (R73, R80). -/
def State.ackWriteback (s : State) (c p : Nat) : State :=
  let x := s.pan c p
  match x.draining with
  | none => s
  | some w =>
    let w1 := { w with waiting := w.waiting - 1 }
    if w1.waiting = 0 ∧ w1.rows ≤ w1.drained then (s.setPan c p x.endDrain).settleBlock c w.pos w.block
    else s.setPan c p (x.setDraining (some w1))

/-- Entries of one output row (R61): two for FP32 output at Flake, one otherwise. -/
def rowEntries (rung : Nat) (f : Fmt) : Nat := if rung = 0 ∧ f = .fp32 then 2 else 1

/-- A row's entries of 1,152 bits, from the bytes that the row writes. -/
def entriesOf (n : Nat) (ws : List (Nat × List Byte)) : List Nat :=
  let x := leNat (ws.flatMap (·.2))
  (List.range n).map fun i => x / 2 ^ (1152 * i) % 2 ^ 1152

/-- One output row drains: it is shifted, converted, counted and written, and its entries enter the writeback queue. -/
def State.drainRow (s : State) (c p : Nat) (r : DescRun) (w : Writeback) : State :=
  let v := s.view r.d.c (s.writeT r.d.c r.attempt)
  let n := rowEntries r.d.rung v.fmt
  let out := if v.fmt = .flake4 then w.drainFlake v {} else r.drainPlain w v {}
  let st := s.storeRow w.sealUnit out.1
  let s1 := (st.1.unitFlags 0 out.2).unitSats w.pos (r.d.flags.testBit 0) out.2
  let w1 := { w with drained := w.drained + 1, waiting := w.waiting + n, sealUnit := st.2, sal := { w.sal with counts := w.sal.counts.add out.2 } }
  let s2 := (s1.setPan c p ((s1.pan c p).setDraining (some w1))).sendQueue (writebackQueue c p) (if v.fmt = .flake4 then [w.flakeEntry v] else entriesOf n out.1)
  if w1.rows ≤ w1.drained then s2.endRows c r w1 st.2 else s2

/-- The queues have room for the next row's entries, and for the tile's record if the row is its last. -/
def State.drainRoom (s : State) (c p : Nat) (r : DescRun) (w : Writeback) : Bool :=
  s.queueRoom (writebackQueue c p) 16 (rowEntries r.d.rung (s.fmtOf r.d.c)) && (decide (w.drained + 1 < w.rows) || s.salRoom c)

/-- Byte ranges that a row's writes take, for the waits of the crust. -/
def State.rowRanges (s : State) (r : DescRun) (w : Writeback) : List (Nat × Nat) :=
  let v := s.view r.d.c 0
  if r.d.flags.testBit 4 then v.region w.n0 w.cols (w.m0 + w.drained) 1 else v.ranges (w.m0 + w.drained) w.n0 w.cols

/-- WRITEBACK_DRAIN (R73, R74, R112, R115): one output row is shifted, converted, counted, written and sent; a full queue stalls the
drain, and a tag mismatch at the store writes nothing and keeps the half. -/
def execWritebackDrain (c : CoreId) (p : PanId) (slip : Option TagSlip) (s : State) : Out :=
  .next (
    match (s.pan c p).draining with
    | none => s
    | some w =>
      match s.desc? w.pos with
      | none => s
      | some r =>
        if s.coreLive c ∧ w.drained < w.rows then
          match slip.filter (fun y => decide (s.fmtOf r.d.c = .flake4) && storeSlipped y) with
          | some y => s.tagFault c p y 26
          | none =>
            if s.drainRoom c p r w = false then s.stallSender (writebackQueue c p) 0 (4 * c + p) 0
            else if (s.rowRanges r w).any (fun x => s.writeWaits w.sealUnit.isNone x.1 x.2) then
              (if w.sealUnit.isNone then s.stallSeals (s.rowRanges r w) else s)
            else (s.drainRow c p r w).latchAll
        else s)

/-! ## The segment test (R57, R83) -/

/-- SEGMENT_TEST_DONE (R83): the faulty row or column is retired, and the tile replays once more; the core is retired where no spare
absorbs the fault, and the tile replays on the spare core (R80). -/
def execSegmentTestDone (c : CoreId) (p : PanId) (found : SegFinding) (s : State) : Out :=
  .next (
    let x := s.pan c p
    if s.coreLive c ∧ x.testing = true then
      let s1 := s.setPan c p { x with testing := false, suspect := none }
      let s2 :=
        match found with
        | .grain row k => s1.retirePan c p row.val k.val
        | .columnPath k => s1.retirePan c p (256 + k.val) k.val
      (if s2.rep.coreSwap.contains c.val then s2.bump 32 (Ent.panTileReplays c) 1 else s2.replayPan c p true).latchAll
    else s)

end Sys2Proof.Machine
end

