-- ==== Sys2Proof/Machine/Sluice.lean ====
section
/-! DEFINITION. The sluice path: SLUICE_PASS_COMPLETE (R84 to R88, R207). -/

namespace Sys2Proof.Machine

/-- A sluice pass (R207): its vectors, its columns and its K range. -/
structure SluicePass where
  j : Nat
  m0 : Nat
  rows : Nat
  n0 : Nat
  cols : Nat
  k0 : Nat
  kt : Nat
  deriving DecidableEq, Repr

/-- Pass `number` of a descriptor. -/
def DescRun.sluicePass (r : DescRun) (number : Nat) : SluicePass :=
  let c := r.sluiceCut
  let m0 := number / (c.c * c.j) * r.d.mCap
  let n0 := number / c.j % c.c * 256
  let k0 := number % c.j * c.len
  { j := number % c.j, m0 := m0, rows := min r.d.mCap (r.m - m0), n0 := n0, cols := min 256 (r.n - n0), k0 := k0, kt := min c.len (r.k - k0) }

/-- Place of an element in the vector buffer (R84). -/
def vecKey (vec j : Nat) : Nat := 16384 * vec + j

/-- The vectors of a pass, as its vector buffer holds them (R84). -/
def State.vectorsOf (s : State) (r : DescRun) (x : SluicePass) : KV Val :=
  let va := s.view r.d.a (s.readT r.d.a)
  (List.range x.rows).flatMap fun vec => (List.range x.kt).map fun j => (vecKey vec j, s.elem va (x.m0 + vec) (x.k0 + j))

/-- One lane's sum for one vector of the buffer (R86). -/
def State.laneFoot (s : State) (x : SluicePass) (buf : KV Val) (vb : View) (vec lane : Nat) : Foot :=
  (List.range x.kt).foldl (fun f j =>
    f.product x.kt j (Kv.getD buf (vecKey vec j) (.fin false 0 0)) (s.elem vb (x.k0 + j) (x.n0 + lane)) 0) {}

/-- Window entry of an invalid operation in a sluice pass (R459); `source` 2 and kind 4 name its combine. -/
def sluiceEvent (r : DescRun) (x : SluicePass) (number source kind vec lane group : Nat) : ExWindow :=
  { layer := r.d.layer, source := source, kind := kind, pan := 255, slot := vec, column := lane, group := group, tileM := x.m0,
    tileN := x.n0, tileK := x.k0, sequence := number }

/-- What the lanes of a pass give: sums by `4 × lane + vector`, invalid operations, overflows, and the least event. -/
structure LaneOut where
  vals : KV F32 := []
  invalid : Nat := 0
  overflows : Nat := 0
  window : ExWindow := {}
  deriving DecidableEq, Repr

/-- One lane's sum for one vector joins. -/
def State.laneJoin (s : State) (r : DescRun) (x : SluicePass) (number : Nat) (buf : KV Val) (vb : View) (o : LaneOut) (lane vec : Nat) : LaneOut :=
  let f := s.laneFoot x buf vb vec lane
  { vals := Kv.put o.vals (4 * lane + vec) (f.acc.val.getD 0)
    invalid := o.invalid + f.invalid
    overflows := o.overflows + f.overflows
    window := match f.event with
      | some e => o.window.least (sluiceEvent r x number 1 e.2 vec lane e.1)
      | none => o.window }

/-- The sums of a pass: the matrix streams past the vectors that the buffer holds (R84, R87). -/
def State.laneSums (s : State) (r : DescRun) (x : SluicePass) (number : Nat) (buf : KV Val) : LaneOut :=
  let vb := s.view r.d.b (s.readT r.d.b)
  (List.range x.cols).foldl (fun o lane => (List.range x.rows).foldl (fun o vec => s.laneJoin r x number buf vb o lane vec) o) {}

/-- The 16 result entries of 2,048 bits that a pass leaves in (R87): 64 results each, by `4 × lane + vector`, at 32 bits each. -/
def resultEntries (vals : KV Nat) : List Nat :=
  (List.range 16).map fun i => (vals.filter fun e => e.1 / 64 == i).foldl (fun n e => n + e.2 * 2 ^ (32 * (e.1 % 64))) 0

/-- Codes of a row of results. DESIGN CHOICE (log 103): a Flake-4 code has its block's exponent above it, at bits [15:8]. -/
def View.rowCodes (v : View) (xs : List Val) : List Nat :=
  match v.fmt with
  | .flake4 =>
    (List.range (ceilDiv xs.length 32)).flatMap fun i =>
      let b := encodeBlock {} v.t ((xs.drop (32 * i)).take 32) (List.replicate 32 none)
      b.codes.map (· + 256 * b.e)
  | f => xs.map fun x => (outElem {} f v.t none x).1

/-- What a pass leaves (R87): converted results where it covers the whole K range, else its accumulators as FP32 partials. -/
def State.passResults (s : State) (r : DescRun) (x : SluicePass) (vals : KV F32) : KV Nat :=
  if r.sluiceCut.j = 1 then
    let v := s.view r.d.c (s.writeT r.d.c r.attempt)
    let rows := (List.range x.rows).map fun vec => (vec, v.rowCodes ((List.range x.cols).map fun lane =>
      s.shifted r (x.n0 + lane) (Kv.getD vals (4 * lane + vec) 0)))
    rows.flatMap fun e => e.2.zipIdx.map fun y => (4 * y.2 + e.1, y.1)
  else vals.map fun e => (e.1, e.2.toNat)

/-- The queues have room for a pass's results and its record (R22, R87). -/
def State.passRoom (s : State) (c : Nat) (r : DescRun) : Bool := s.queueRoom (sluiceResultQueue c) 16 16 && (r.amaxPass || s.salRoom c)

/-- Partials of a later K range join the combine (R86, R165). -/
def Combine.joinPass (x : Combine) (first : Bool) (number : Nat) (vals : KV F32) : Combine :=
  let y : Combine := if first then { units := [number] } else { x with units := listAdd x.units number }
  vals.foldl (fun y e => y.join first e.1 e.2) y

/-- A row of results in columns that begin at a block: its writes and counts. -/
def View.rowOut (v : View) (k : Counts) (row c0 : Nat) (xs : List Val) : List (Nat × List Byte) × Counts :=
  match v.fmt with
  | .flake4 =>
    (List.range (ceilDiv xs.length 32)).foldl (fun (a : List (Nat × List Byte) × Counts) i =>
      let b := encodeBlock a.2 v.t ((xs.drop (32 * i)).take 32) (List.replicate 32 none)
      (a.1 ++ v.blockWrites row (c0 + 32 * i) b, b.counts)) ([], k)
  | f =>
    let r := xs.foldl (fun (a : List Byte × Counts) x =>
      let y := outElem a.2 f v.t none x
      (a.1 ++ codeBytes f y.1, y.2)) ([], k)
    ([(v.addr + v.place row c0 * f.bytes, r.1)], r.2)

/-- The results of a pass that ends its columns' last K range: writes and counts. -/
def State.sluiceOut (s : State) (r : DescRun) (x : SluicePass) (vals : KV F32) : List (Nat × List Byte) × Counts :=
  let v := s.view r.d.c (s.writeT r.d.c r.attempt)
  (List.range x.rows).foldl (fun (a : List (Nat × List Byte) × Counts) vec =>
    let o := v.rowOut a.2 (x.m0 + vec) x.n0 ((List.range x.cols).map fun lane => s.shifted r (x.n0 + lane) (Kv.getD vals (4 * lane + vec) 0))
    (a.1 ++ o.1, o.2)) ([], {})

/-- Step amax of a pass's results. -/
def State.sluiceAmax (s : State) (r : DescRun) (x : SluicePass) (vals : KV F32) : F32 :=
  vals.foldl (fun a e => amaxMax a (amaxOf (s.shifted r (x.n0 + e.1 / 4) e.2))) 0

/-- Byte ranges that a pass reads. -/
def State.sluiceTrouble (s : State) (r : DescRun) (x : SluicePass) : Option Trouble :=
  match s.readTrouble ((s.view r.d.a 0).region x.m0 x.rows x.k0 x.kt ++ (s.view r.d.b 0).region x.k0 x.kt x.n0 x.cols) with
  | some y => some y
  | none => s.shiftTrouble r.d.shiftOut x.n0 x.cols

/-- Writes of a whole unit, in one seal unit (R294). -/
def State.storeAll (s : State) (ws : List (Nat × List Byte)) : State :=
  let r := s.storeRow none ws
  r.1.closeSeal r.2 none

/-- A sluice pass that meets no trouble completes. -/
def State.completePass (s : State) (c : Nat) (u : RunUnit) (r : DescRun) : State :=
  let x := r.sluicePass u.number
  let core := s.core c
  let ranges := r.sluiceCut.j
  let last := decide (x.j + 1 = ranges)
  let buf := s.vectorsOf r x
  let o := s.laneSums r x u.number buf
  let cmb := if ranges = 1 then {} else (Kv.getD core.combines u.pos {}).joinPass (decide (x.j = 0)) u.number o.vals
  let vals := if ranges = 1 then o.vals else cmb.vals
  let inv := if last then cmb.inv else []
  let event := inv.foldl (fun w k => w.least (sluiceEvent r x u.number 2 4 (k % 4) (k / 4) 0)) o.window
  let s0 := s.setCore c { core with
    sluice := .running, vecBuf := buf, lanes := o.vals
    combines := if ranges = 1 then core.combines else if last then Kv.del core.combines u.pos else Kv.put core.combines u.pos cmb }
  let s1 := (((s0.bump 64 (Ent.sluiceBusyCycles c) x.kt).bump 64 (Ent.sluiceIdleCycles c) (Config.timing s.clk.freeNext)).draw).sendQueue
    (sluiceResultQueue c) (resultEntries (s.passResults r x o.vals))
  let s2 :=
    if r.amaxPass then (if last then s1.mapDesc u.pos fun d => d.gatherAmax r.d.c (s.sluiceAmax r x vals) else s1)
    else
      let out := if last then s.sluiceOut r x vals else ([], {})
      let n := o.invalid + inv.length
      let sr := ({ r.salRec s 1 u.number with
        counts := out.2, invalid := n, accumOverflows := o.overflows, flushTile := s.flushTile out.2,
        invalidSeen := decide (0 < n), overflowSeen := decide (0 < o.overflows) } : SalRec).withGrad (s.tensor r.d.c).weightGrad
      let s2 := ((s1.reportInvalid c r.d.layer n event).storeAll out.1).unitFlags o.overflows out.2
      let s3 := (s2.unitSats u.pos (r.d.flags.testBit 0) out.2).holdRecord c (heldKey u.pos (r.outputOf u.number)) sr
      if last then s3.mapDesc u.pos fun d => d.gatherAmax r.d.c out.2.amax else s3
  s2.finishOutput c 1 u.pos u.number

/-- A sluice pass whose read met trouble ends without results, and with it the combine of its output. -/
def State.dropPass (s : State) (c : Nat) (u : RunUnit) (r : DescRun) : State :=
  ((s.setCore c ((s.core c).dropCombine u.pos)).finishUnit c 1 u.pos u.number).joinHeld c (heldKey u.pos (r.outputOf u.number))

/-- SLUICE_PASS_COMPLETE (R86, R87, R205): a pass's sums are shifted, converted and written, or handed on as partials; its results leave
in 16 entries, for which the queue must have room. -/
def execSluicePassComplete (c : CoreId) (s : State) : Out :=
  .next (
    match Kv.find? (s.core c).units 1 with
    | none => s
    | some u =>
      match s.desc? u.pos with
      | none => s
      | some r =>
        let x := r.sluicePass u.number
        let ranges := (s.view r.d.c 0).region x.m0 x.rows x.n0 x.cols
        let waits := ranges.any fun y => s.writeWaits true y.1 y.2
        let moves := decide ((s.core c).sluice = .running) || !s.native
        if s.coreLive c ∧ moves ∧ s.passRoom c r = false then s.stallQueue (sluiceResultQueue c)
        else if s.coreLive c ∧ moves ∧ (r.amaxPass ∨ waits = false) then
          match s.sluiceTrouble r x with
          | some (.pending q) => s.troubled c (.pending q)
          | some y =>
            ((s.dropPass c u r).troubled c y).latchAll
          | none => (s.completePass c u r).latchAll
        else if s.coreLive c ∧ moves then s.stallSeals ranges
        else s)

end Sys2Proof.Machine
end

