-- ==== Sys2Proof/Machine/Vector.lean ====
section
/-! DEFINITION. The vector units: chunks of vector descriptors and of update stages (R163, R200, R207, R229, R230, R238),
and VECTOR_CHUNK_COMPLETE. -/

namespace Sys2Proof.Machine

/-! ## One element -/

/-- What a chunk has gathered while its elements run: the registers of the element in hand, load counts, invalid operations with the
least event, the values to store by tensor and element, and the values that reductions take. -/
structure ChunkRun where
  regs : List F32 := []
  loads : Counts := {}
  invalid : Nat := 0
  window : ExWindow := {}
  stores : List (Nat × Nat × F32) := []
  reds : List (Nat × F32) := []
  deriving DecidableEq, Repr

/-- A register; a number that names none reads as zero. -/
def ChunkRun.reg (x : ChunkRun) (i : Nat) : F32 := x.regs.getD i 0

/-- The next register takes a value. -/
def ChunkRun.push (x : ChunkRun) (v : F32) : ChunkRun := { x with regs := x.regs ++ [v] }

/-- Run-time rows and columns of a tensor. -/
def State.rowsOf (s : State) (t : Nat) : Nat := s.dim (s.tensor t).rows
def State.colsOf (s : State) (t : Nat) : Nat := s.dim (s.tensor t).cols

/-- Place in a tensor that an element of the descriptor reads; a tensor of one row or one column serves every row or column. -/
def State.srcPlace (s : State) (t row col : Nat) : Option (Nat × Nat) :=
  let i := if s.rowsOf t ≤ 1 then 0 else row
  let j := if s.colsOf t ≤ 1 then 0 else col
  if i < s.rowsOf t ∧ j < s.colsOf t then some (i, j) else none

/-- A load's exact value, with the input shift of its channel (R109); nothing beyond the tensor's bounds (R210). -/
def State.loadElem (s : State) (r : DescRun) (t row col : Nat) : Option Val :=
  (s.srcPlace t row col).map fun p => (s.elem (s.view t (s.readT t)) p.1 p.2).scale (s.shift r.d.shiftIn col)

/-- A group's step size, decay or free constant, as an FP32 pattern (R234). -/
def State.groupParam (s : State) (g i : Nat) : F32 :=
  BitVec.ofNat 32 (s.ent (if i = 0 then Ent.groupStepSize g else if i = 1 then Ent.groupDecay g else Ent.groupHyper g (i - 2)))

/-- A value times a power of two, rounded where it must be. -/
def mulPow (v : F32) (n : Int) : F32 := (roundF32 ((f32Val v).scale n)).1

/-- An operation's result, with an invalid one counted and its event kept if it is the least. -/
def ChunkRun.result (x : ChunkRun) (r : DescRun) (lo number e : Nat) (y : F32 × Nat) : ChunkRun :=
  if y.2 = 0 then x.push y.1
  else
    { x.push y.1 with
      invalid := x.invalid + 1
      window := x.window.least {
        layer := r.d.layer, source := 2, kind := y.2, pan := 255, slot := 255, column := e % 256, group := e, tileM := lo,
        sequence := number } }

/-- One instruction of one element. MARK, DESIGN CHOICE (log 108): a draw's 16 bits (R240) enter the register as the FP32 value of the integer
they spell, from 0 to 65,535. -/
def State.vecStep (s : State) (r : DescRun) (p : Preamble) (lo number e : Nat) (x : ChunkRun) (o : VecOp) : ChunkRun :=
  match o with
  | .load t =>
    match s.loadElem r t (e / r.n) (e % r.n) with
    | some v => let c := convert .fp32 v; { x.push (BitVec.ofNat 32 c.code) with loads := x.loads.load v c }
    | none => x.push 0
  | .store t i => { x.push (x.reg i) with stores := x.stores ++ [(t, e, x.reg i)] }
  | .const b => x.push (BitVec.ofNat 32 b)
  | .param i => x.push (s.groupParam p.group i)
  | .gathered j => x.push (Kv.getD r.sums j 0)
  | .draw t => x.push (roundF32 (.fin false (s.drawBits r.d.layer t (e / r.n * s.colsOf t + e % r.n)) 0)).1
  | .reduce _ id i _ => { x.push (x.reg i) with reds := x.reds ++ [(id, x.reg i)] }
  | .mul2n n i => x.push (mulPow (x.reg i) n)
  | .loss d i => x.push (mulPow (x.reg i) (if d then -(s.train.lambda : Int) else s.train.lambda))
  | .fn f a b c => x.result r lo number e (vecFn f (x.reg a) (x.reg b) (x.reg c))

/-- Elements of a chunk: first and one past the last. -/
def DescRun.chunkLo (number : Nat) : Nat := number * chunkElems
def DescRun.chunkHi (r : DescRun) (number : Nat) : Nat := min ((number + 1) * chunkElems) (r.m * r.n)

/-- Every element of a chunk. -/
def State.runChunk (s : State) (r : DescRun) (number : Nat) : ChunkRun :=
  let code := s.codeOf r
  let p := s.preamble r.d
  let lo := DescRun.chunkLo number
  (List.range (r.chunkHi number - lo)).foldl (fun x i => code.foldl (s.vecStep r p lo number (lo + i)) { x with regs := [] }) {}

/-! ## Stores -/

/-- A tensor that an update's apply stage rounds stochastically (R238): a state tensor narrower than FP32. -/
def State.stochastic (s : State) (r : DescRun) (t : Nat) : Bool :=
  r.isUpdate && r.gathered && (s.preamble r.d).state.contains t && decide (s.fmtOf t ≠ .fp32)

/-- Generator bits of a stored element, where it draws them. -/
def State.storeDraw (s : State) (r : DescRun) (t row col : Nat) : Option Nat :=
  if s.stochastic r t then some (s.drawBits r.d.layer t (row * s.colsOf t + col)) else none

/-- What a chunk stores: writes, counts by tensor, and elements of Flake-4 blocks that are not complete. -/
structure ChunkOut where
  writes : List (Nat × List Byte) := []
  counts : KV Counts := []
  blocks : KV F32 := []
  deriving DecidableEq, Repr

/-- Key of an element kept for its block. -/
def blockKey (t e : Nat) : Nat := 2 ^ 40 * t + e

/-- Counts of a tensor join. -/
def ChunkOut.count (o : ChunkOut) (t : Nat) (k : Counts) : ChunkOut := { o with counts := Kv.put o.counts t k }

/-- The block that holds an element, once every element of it is at hand: encoded, written and counted (R34, R44, R457). MARK, DESIGN CHOICE
(log 68): a block of which the descriptor stores only some non-pad elements is never encoded, written or counted. -/
def State.storeBlock (s : State) (r : DescRun) (t row b : Nat) (o : ChunkOut) : ChunkOut :=
  let cols := s.colsOf t
  let n := min 32 (cols - 32 * b)
  let keys := (List.range n).map fun i => blockKey t (row * cols + 32 * b + i)
  if keys.all fun k => (Kv.find? o.blocks k).isSome then
    let v := s.view t (s.writeT t r.attempt)
    let xs := (List.range n).map fun i => s.shifted r (32 * b + i) (Kv.getD o.blocks (blockKey t (row * cols + 32 * b + i)) 0)
    let draws := (List.range 32).map fun i => s.storeDraw r t row (32 * b + i)
    let e := encodeBlock (Kv.getD o.counts t {}) v.t xs draws
    { writes := o.writes ++ v.blockWrites row (32 * b) e, counts := Kv.put o.counts t e.counts, blocks := keys.foldl Kv.del o.blocks }
  else o

/-- One stored element; beyond the tensor's bounds it is masked (R210). -/
def State.storeElem (s : State) (r : DescRun) (o : ChunkOut) (x : Nat × Nat × F32) : ChunkOut :=
  let t := x.1
  let row := x.2.1 / r.n
  let col := x.2.1 % r.n
  if row < s.rowsOf t ∧ col < s.colsOf t then
    let v := s.view t (s.writeT t r.attempt)
    match v.fmt with
    | .flake4 => s.storeBlock r t row (col / 32) { o with blocks := Kv.put o.blocks (blockKey t (row * s.colsOf t + col)) x.2.2 }
    | f =>
      let y := outElem (Kv.getD o.counts t {}) f v.t (s.storeDraw r t row col) (s.shifted r col x.2.2)
      { o.count t y.2 with writes := o.writes ++ [(v.addr + v.place row col * f.bytes, codeBytes f y.1)] }
  else o

/-- Stores of a chunk. -/
def State.chunkOut (s : State) (r : DescRun) (x : ChunkRun) : ChunkOut := x.stores.foldl (s.storeElem r) { blocks := r.blocks }

/-- Magnitude that a store presents to conversion (R94): after the per-channel shift; none beyond the tensor's bounds (R210). -/
def State.storeAmax (s : State) (r : DescRun) (y : Nat × Nat × F32) : Option F32 :=
  if y.2.1 / r.n < s.rowsOf y.1 ∧ y.2.1 % r.n < s.colsOf y.1 then some (amaxOf (s.shifted r (y.2.1 % r.n) y.2.2)) else none

/-- Largest magnitudes of a chunk's stores, by tensor, for an amax pass (R100). -/
def State.chunkAmax (s : State) (r : DescRun) (x : ChunkRun) : DescRun :=
  x.stores.foldl (fun d y => match s.storeAmax r y with | some a => d.gatherAmax y.1 a | none => d) r

/-- Values that the chunk's reductions take join the run. -/
def DescRun.takeReds (r : DescRun) (number : Nat) (x : ChunkRun) : DescRun :=
  x.reds.foldl (fun d y => { d with reds := Kv.put d.reds (2 ^ 32 * y.1 + number) (Kv.getD d.reds (2 ^ 32 * y.1 + number) [] ++ [y.2]) })
    { r with reds := r.reds.filter fun e => e.1 % 2 ^ 32 != number }

/-! ## Reads and waits -/

/-- First trouble of a chunk's loads and shifts. -/
def State.chunkTrouble (s : State) (r : DescRun) (number : Nat) : Option Trouble :=
  let code := s.codeOf r
  let lo := DescRun.chunkLo number
  let n := r.chunkHi number - lo
  let loads := loadsOf code
  let ranges := (List.range n).flatMap fun i => loads.flatMap fun t =>
    match s.srcPlace t ((lo + i) / r.n) ((lo + i) % r.n) with
    | some p => (s.view t 0).ranges p.1 p.2 1
    | none => []
  match s.readTrouble ranges with
  | some x => some x
  | none => (List.range (min n r.n)).findSome? fun i =>
    match s.shiftTrouble r.d.shiftIn ((lo + i) % r.n) 1 with
    | some x => some x
    | none => s.shiftTrouble r.d.shiftOut ((lo + i) % r.n) 1

/-- A chunk that starts inside a Flake-4 block waits for the chunk before it, which holds the block's other elements (R457). -/
def State.chunkAfter (s : State) (r : DescRun) (number : Nat) : Bool :=
  number = 0 || r.finished.contains (number - 1) || DescRun.chunkLo number % r.n % 32 == 0
    || (storesOf (s.codeOf r)).all fun t => decide (s.fmtOf t ≠ .flake4)

/-- A write of the chunk must wait. -/
def State.chunkWaits (s : State) (o : ChunkOut) : Bool := o.writes.any fun w => s.writeWaits true w.1 w.2.length

/-- Code loads a Flake-4 tensor. -/
def State.loadsFlake (s : State) (r : DescRun) : Bool := (loadsOf (s.codeOf r)).any fun t => decide (s.fmtOf t = .flake4)

/-- A stream-tag mismatch in a vector unit: the chunk runs again (R114). -/
def State.vectorTag (s : State) (c : Nat) (x : TagSlip) : State :=
  let y := s.core c
  let again := y.slipBlock == some x.block
  let s1 := (s.bump 64 Ent.scaleStreamTagFaults 1).setCore c { y with slipBlock := some x.block }
  (s1.raise { fault 0x04 .core c with
    source := 4, detail := 8 + blockTag x.dataBlock * 16 + blockTag x.scaleBlock * 256 + 2 ^ 12, atLeast := if again then 1 else 0 }).latchAll

/-! ## Completion of a chunk -/

/-- Finite saturations in the update's state tensors: counted, the layer marked, a Warning (R122). -/
def State.updateSats (s : State) (r : DescRun) (counts : KV Counts) : State :=
  counts.foldl (fun s e =>
    if e.2.finiteSat = 0 ∨ (s.tensor e.1).updWritten = false then s
    else ((s.bump 64 Ent.scaleUpdateSaturations e.2.finiteSat).markLayer r.d.layer).condition 1 0x3020 r.d.layer e.1 e.2.finiteSat) s

/-- The first non-finite value that the update writes into a state tensor is kept for its end (R232). -/
def State.updateNonFinite (s : State) (r : DescRun) (counts : KV Counts) : State :=
  let p := s.preamble r.d
  match counts.find? (fun e => p.state.contains e.1 && decide (0 < e.2.infSource + e.2.nanStored)) with
  | some e => if s.train.badUpdate.isNone then { s with train.badUpdate := some (r.d.layer, e.1) } else s
  | none => s

/-- Counts of every tensor together. -/
def sumCounts (l : KV Counts) : Counts := l.foldl (fun k e => k.add e.2) {}

/-- The weight-gradient counts of a record, from the counts of each stored tensor (R130). -/
def SalRec.withGrads (r : SalRec) (s : State) (l : KV Counts) : SalRec :=
  let k := sumCounts (l.filter fun e => (s.tensor e.1).weightGrad)
  { r with gradElements := k.outElements, gradNonzero := k.nonzeroStored }

/-! ## Reductions (R164, R459) -/

/-- Values that a reduction takes from the chunks before one, in element order. -/
def DescRun.redValsTo (r : DescRun) (id hi : Nat) : List F32 :=
  (r.reds.filter fun e => e.1 / 2 ^ 32 == id && decide (e.1 % 2 ^ 32 < hi)).flatMap (·.2)

/-- Values that a reduction takes, in element order. -/
def DescRun.redVals (r : DescRun) (id : Nat) : List F32 := r.redValsTo id r.unitCount

/-- The reductions of code: squares, number, destination. -/
def reducesOf (l : List VecOp) : List (Bool × Nat × Nat) :=
  l.filterMap fun o => match o with | .reduce q id _ d => some (q, id, d) | _ => none

/-- Chunks, from the first, that have all completed. -/
def DescRun.chunkPrefix (r : DescRun) : Nat := ((List.range r.unitCount).find? fun i => !r.finished.contains i).getD r.unitCount

/-- Invalid additions of a descriptor's reductions in chunks `lo` to `hi − 1`: the chunk, the lane, and the element (R459). The lanes run
through the chunks in order. MARK, DESIGN CHOICE (log 76): the tree runs in the descriptor's last chunk. -/
def State.reduceBad (s : State) (r : DescRun) (lo hi : Nat) : List (Nat × Nat × Option Nat) :=
  (reducesOf (s.codeOf r)).flatMap fun x =>
    (vecReduce x.1 (r.redValsTo x.2.1 hi)).bad.filterMap fun b =>
      let chunk := match b.2 with | some i => i / chunkElems | none => r.unitCount - 1
      if lo ≤ chunk ∧ chunk < hi then some (chunk, b) else none

/-- Window entry of an invalid addition of a reduction (R459). -/
def reduceWindow (r : DescRun) (x : Nat × Nat × Option Nat) : ExWindow :=
  { layer := r.d.layer, source := 2, kind := 4, pan := 255, slot := 255, column := x.2.1, group := (x.2.2).getD 0xFFFFFFFF,
    tileM := x.1 * chunkElems, sequence := x.1 }

/-- One such addition is reported by the core of its chunk (R175), and counted in the record of that chunk: the one that completes now,
or one that has been sent and joins it. -/
def State.reduceEvent (s : State) (r : DescRun) (number : Nat) (x : Nat × Nat × Option Nat) : State :=
  let c := r.unitCore x.1
  let s1 := s.reportInvalid c r.d.layer 1 (reduceWindow r x)
  if x.1 = number then s1 else s1.joinRecord c { r.salRec s 2 x.1 with invalid := 1, invalidSeen := true }

/-- The reductions' invalid additions that a chunk's completion brings in: those of every chunk that now has all chunks before it. -/
def State.newReduceBad (s : State) (r : DescRun) (number : Nat) : List (Nat × Nat × Option Nat) :=
  s.reduceBad r r.redDone { r with finished := listAdd r.finished number }.chunkPrefix

/-- A chunk's reports: invalid operations, its record, flags, saturations, and its part of each output's step amax. -/
def State.reportChunk (s : State) (c number : Nat) (r : DescRun) (x : ChunkRun) (counts : KV Counts) : State :=
  let out := sumCounts counts
  let d := r.takeReds number x
  let bad := s.newReduceBad d number
  let n := x.invalid + (bad.filter fun b => b.1 == number).length
  let sr := { r.salRec s 2 number with
    counts := x.loads.add out, invalid := n, invalidSeen := decide (0 < n),
    flushTile := counts.any fun e => s.flushTile e.2 }.withGrads s counts
  let s0 := bad.foldl (State.reduceEvent · d number ·) (s.reportInvalid c r.d.layer x.invalid x.window)
  let s1 := ((s0.sendRecord c sr).mapDesc r.pos fun e => { e with
    redDone := max e.redDone { d with finished := listAdd d.finished number }.chunkPrefix }).unitFlags 0 out
  let s2 :=
    if r.update then (s1.updateSats r counts).updateNonFinite r counts
    else s1.unitSats r.pos (r.d.flags.testBit 0) out
  s2.mapDesc r.pos fun d => counts.foldl (fun d e => d.gatherAmax e.1 e.2.amax) d

/-- Clears the vector unit's mark of a tag mismatch. -/
def State.clearSlip (s : State) (c : Nat) : State := s.setCore c { s.core c with slipBlock := none }

/-- A chunk completes: in an amax pass only its magnitudes are kept. -/
def State.completeChunk (s : State) (c : Nat) (u : RunUnit) (r : DescRun) (chunk : Option (Nat × Nat)) : State :=
  let x := s.runChunk r u.number
  let s0 := s.clearSlip c
  let s1 :=
    if r.amaxPass then s0.mapDesc u.pos fun d => (s.chunkAmax d x).takeReds u.number x
    else
      let o := s.chunkOut r x
      let st := s0.storeRow none o.writes
      let s2 := st.1.mapDesc u.pos fun d => { d.takeReds u.number x with blocks := o.blocks }
      let s3 :=
        match chunk with
        | none => s2.closeSeal st.2 none
        | some k => if st.2.isSome && (s2.crust.units.any fun y => some y.number == st.2) then s2.closeSeal st.2 (some k)
                    else { s2 with train.ledger := s2.train.ledger ++ [k] }
      s3.reportChunk c u.number r x o.counts
  s1.finishUnit c 2 u.pos u.number

/-- The unit that a core's vector unit runs, with its descriptor. -/
def State.vectorUnit (s : State) (c : Nat) : Option (RunUnit × DescRun) :=
  match Kv.find? (s.core c).units 2 with
  | none => none
  | some u => (s.desc? u.pos).map fun r => (u, r)

/-- A chunk's read met trouble: no results. A chunk of the update runs again from its unchanged inputs (R230). -/
def State.dropChunk (s : State) (c : Nat) (u : RunUnit) (r : DescRun) (y : Trouble) : State :=
  let s1 := s.troubled c y
  (if r.update then s1 else s1.finishUnit c 2 u.pos u.number).latchAll

/-- VECTOR_CHUNK_COMPLETE (R132, R163, R200, R229): a chunk of a vector descriptor, or of an update's gather stage, completes. -/
def execVectorChunkComplete (c : CoreId) (slip : Option TagSlip) (s : State) : Out :=
  .next (
    match s.vectorUnit c with
    | none => s
    | some (u, r) =>
      if s.coreLive c ∧ (r.isUpdate = false ∨ r.gathered = false) ∧ s.chunkAfter r u.number then
        match slip.filter (fun y => slipped y && s.loadsFlake r) with
        | some y => s.vectorTag c y
        | none =>
          match s.chunkTrouble r u.number with
          | some (.pending q) => s.troubled c (.pending q)
          | some y => s.dropChunk c u r y
          | none =>
            if r.amaxPass = false ∧ s.salRoom c = false then s.stallQueue (salQueue c)
            else if r.amaxPass = false ∧ s.chunkWaits (s.chunkOut r (s.runChunk r u.number)) then
              s.stallSeals ((s.chunkOut r (s.runChunk r u.number)).writes.map fun w => (w.1, w.2.length))
            else (s.completeChunk c u r none).latchAll
      else s)

end Sys2Proof.Machine
end

