-- ==== Sys2Proof/Machine/Scaling.lean ====
section
/-! DEFINITION. Scales, attempts and the completion of descriptors: choice of t (R97), reductions at a descriptor's end (R132, R164),
retries (R118, R119), staging (R95), present mode (R100): FORWARD_ATTEMPT_DONE and AMAX_PASS_DONE. -/

namespace Sys2Proof.Machine

/-! ## Choice of t (R97) -/

/-- Largest finite stored value of a scaled format, as mantissa and exponent: 448, 57,344, 6. -/
def fmtLargest : Fmt → Nat × Int
  | .e4m3 => (7, 6)
  | .e5m2 => (7, 13)
  | _ => (3, 1)

/-- `m ≤ v × 2^k`. -/
def fitsAt (m v : Nat) (k : Int) : Bool := if 0 ≤ k then decide (m ≤ v <<< k.toNat) else decide (m <<< (-k).toNat ≤ v)

/-- The smallest `k` for which `m ≤ v × 2^k`, for `m` above 0 and `v` of 3 or 7. -/
def smallestFit (m v : Nat) : Int :=
  let k : Int := (Nat.log2 m : Int) - Nat.log2 v
  if fitsAt m v k then k else k + 1

/-- choose_scale (R97): from the largest magnitude of a history, as an FP32 pattern. -/
def chooseScale (h : F32) (f : Fmt) (margin : Nat) (t : Int) : Int :=
  match f32Val h with
  | .fin _ m e =>
    if m = 0 then t
    else
      let v := fmtLargest f
      min (max (smallestFit m v.1 + e - v.2 + margin) (-127)) 127
  | _ => 127

/-- Index of the step in flight: after the commit the entry has moved on (R224). -/
def State.stepNow (s : State) : Nat := if s.phase = 4 then s.train.commit.step else s.ent Ent.trainStepIndex

/-- The t of a present-mode record's amax pass goes into the step's scales and its replay record; the record is complete, and mirrored,
once the last one is in (R100, R104, R287, R296). After the commit the record's own t follows (R233). -/
def State.settleT (s : State) (i : Nat) (t : Int) : State :=
  let slot := s.stepNow % 64
  let left := listErase s.scale.presentLeft i
  let s0 := { s with scale.stepT := Kv.put s.scale.stepT i t, scale.presentLeft := left }
  let s1 := if s.phase = 4 then { s0 with scale.recs := Kv.put s0.scale.recs i { s0.scaleRec i with t := t } } else s0
  if s.train.replaying ∨ s.scale.presentLeft.contains i = false then s1
  else
    match Kv.find? s1.train.ring slot with
    | none => s1
    | some r =>
      let r1 := { r with ts := Kv.setD r.ts i 0 t, complete := left.isEmpty }
      let s2 := { s1 with train.ring := Kv.put s1.train.ring slot r1 }
      if left.isEmpty then { s2 with train.newest := r1.step }.sendMirror 1 r1.bytes else s2

/-! ## Reductions at a descriptor's end (R132, R164, R459) -/

/-- The update slot pair of a layer takes a sum (R136): the half of the step's parity. -/
def State.putNorm (s : State) (layer : Nat) (upd : Bool) (v : F32) : State :=
  let q := s.stepNow % 2
  let old := Kv.getD (if q = 0 then s.rake.norms0 else s.rake.norms1) layer {}
  let new := if upd then { old with updSq := v } else { old with wSq := v }
  if q = 0 then { s with rake.norms0 := Kv.setD s.rake.norms0 layer {} new } else { s with rake.norms1 := Kv.setD s.rake.norms1 layer {} new }

/-- One reduction ends: its value is kept for the apply stage, and goes to its destination. -/
def State.endReduce (s : State) (r : DescRun) (k : KV Counts) (x : Bool × Nat × Nat) : State × KV Counts :=
  let red := vecReduce x.1 (r.redVals x.2.1)
  let s2 := s.mapDesc r.pos fun d => { d with sums := Kv.put d.sums x.2.1 red.val }
  if x.2.2 < 65535 then
    let o := s2.storeElem { r with n := 1 } { counts := k } (x.2.2, 0, red.val)
    (s2.storeAll o.writes, o.counts)
  else if x.2.2 = 65536 then (s2.putNorm r.d.layer true red.val, k)
  else if x.2.2 = 65537 then (s2.putNorm r.d.layer false red.val, k)
  else (s2, k)

/-- The salinometer queues have room for the last pairs of a list of vector descriptors (R132, R456); a queue holds four pairs. -/
def State.endRoom (s : State) (l : List DescRun) : Bool :=
  l.all fun r =>
    let c := r.unitCore (r.unitCount - 1)
    let n := (l.filter fun x => x.d.kind == 2 && x.unitCore (x.unitCount - 1) == c).length
    decide (r.d.kind ≠ 2) || s.queueRoom (salQueue c) 8 (min 8 (2 * n))

/-- The end of a vector descriptor's stage: its reductions, and its last record, numbered 0xFFFFFFFF (R456). -/
def State.endVector (s : State) (r : DescRun) : State :=
  if r.d.kind = 2 ∧ r.amaxPass = false then
    let e := (reducesOf (s.codeOf r)).foldl (fun (a : State × KV Counts) x => a.1.endReduce r a.2 x) (s, [])
    let out := sumCounts e.2
    let sr := { r.salRec s 2 0xFFFFFFFF with counts := out, flushTile := e.2.any fun k => s.flushTile k.2 }.withGrads s e.2
    let s1 := (e.1.sendRecord (r.unitCore (r.unitCount - 1)) sr).unitFlags 0 out
    let s2 := if r.update then (s1.updateSats r e.2).updateNonFinite r e.2 else s1.unitSats r.pos (r.d.flags.testBit 0) out
    s2.mapDesc r.pos fun d => e.2.foldl (fun d k => d.gatherAmax k.1 k.2.amax) d
  else s

/-! ## Attempts (R118, R119, R134) -/

/-- A producer of the same tensor has not been admitted yet. -/
def State.producerToCome (s : State) (r : DescRun) : Bool :=
  !s.train.abandoned && (s.prog.stream0 ++ s.prog.stream1).any fun it =>
    it.update == r.update && decide (r.d.c ≠ 65535) && (s.descAt it.index).c == r.d.c && decide ((s.descAt it.index).kind < 3)

/-- A descriptor's units are all in: every unit, or those that were running when a saturation stopped the attempt (R119). -/
def DescRun.attemptOver (r : DescRun) (stopped : Bool) : Bool :=
  r.ready && r.issued.all (fun i => r.finished.contains i) && (r.allDone || stopped)

/-- A producer's attempt or pass is over. -/
def State.producerOver (s : State) (r : DescRun) : Bool :=
  !s.producerToCome r && (s.producers r).all fun x => x.attemptOver (s.producerSat r && s.retriable r)

/-- What the roll-up keeps of a retried attempt: accumulator overflows and invalid operations (R134); the rest of it is dropped. -/
def State.retireTotals (s : State) (pos attempt layer : Nat) : State :=
  let mine := fun (e : Nat × Totals) => e.1 / 2 == pos * 4 + attempt
  let all := s.cores.flatMap fun c => (c.2.totals.filter mine).map (·.2)
  let old := Kv.getD s.rake.retried layer (0, 0, 0)
  { s with
    rake.retried := Kv.put s.rake.retried layer
      (old.1 + sumNat (all.map (·.accumOverflows)), old.2.1 + sumNat (all.map (·.invalid)), old.2.2)
    cores := s.cores.map fun c => (c.1, { c.2 with totals := c.2.totals.filter fun e => !mine e }) }

/-- Counts one overflow recompute of a layer. -/
def State.countRecompute (s : State) (layer : Nat) : State :=
  let old := Kv.getD s.rake.retried layer (0, 0, 0)
  { s.bump 64 Ent.scaleFwdRecomputes 1 with rake.retried := Kv.put s.rake.retried layer (old.1, old.2.1, old.2.2 + 1) }

/-- A descriptor starts its next run from nothing. -/
def DescRun.again (r : DescRun) : DescRun :=
  { r with saturated := false, issued := [], finished := [], sums := [], reds := [], blocks := [], amaxes := [], rerun := [], redDone := 0 }

/-- The producer runs again at t + 1: its retried attempt's energy, statistics and magnitudes are set aside (R118, R119, R134, R414). -/
def State.retryProducer (s : State) (r : DescRun) : State :=
  let ps := s.producers r
  let s1 := ps.foldl (fun s x => s.retireTotals x.pos x.attempt x.d.layer) (s.countRecompute r.d.layer)
  ps.foldl (fun s x =>
    let e := Kv.getD s.pwr.attemptUj x.pos 0
    { s.mapDesc x.pos fun d => { d.again with attempt := d.attempt + 1 } with
        pwr.attemptUj := Kv.del s.pwr.attemptUj x.pos, pwr.stepRetriedUj := s.pwr.stepRetriedUj + e }) s1

/-- Stages the step amax of a tensor's record (R94, R95), and keeps the attempt that completed it. -/
def State.stageTensor (s : State) (attempt : Nat) (e : Nat × F32) : State :=
  let i := (s.tensor e.1).scaleRecord
  if i = 65535 then s
  else
    { s with
      scale.staged := Kv.put s.scale.staged i { amax := amaxMax (Kv.getD s.scale.staged i {}).amax e.2 }
      scale.stepAttempt := Kv.put s.scale.stepAttempt i attempt }

/-- A descriptor leaves its slot; what it read and wrote is settled (R198, R199). -/
def State.freeDesc (s : State) (pos : Nat) : State :=
  { s with prog.pool := s.prog.pool.filter fun d => d.pos != pos, prog.completed := listAdd s.prog.completed pos }

/-- A present-mode pass of a descriptor ends: what was booked to it so far is the step's own (R414), whatever its write pass does. -/
def State.keepPass (s : State) (pos : Nat) : State :=
  { s with pwr.stepUj := s.pwr.stepUj + Kv.getD s.pwr.attemptUj pos 0, pwr.attemptUj := Kv.del s.pwr.attemptUj pos }

/-- A descriptor's final attempt completes. -/
def State.completeDesc (s : State) (r : DescRun) : State :=
  ((r.amaxes.foldl (fun s a => s.stageTensor r.attempt a) s).freeDesc r.pos).keepPass r.pos

/-- A forward tensor left with saturations after its last attempt: counted, the layer marked, a Warning (R118, R119). -/
def State.exhausted (s : State) (r : DescRun) : State :=
  if s.producerSat r && r.forward && !r.update && (decide (2 ≤ r.attempt) || decide (127 ≤ s.writeT r.d.c r.attempt)) then
    let n := sumNat (s.cores.flatMap fun c => (c.2.totals.filter fun e => e.1 / 8 == r.pos).map fun e => e.2.counts.finiteSat)
    ((s.bump 64 Ent.scaleFwdExhausted 1).markLayer r.d.layer).condition 1 0x3020 r.d.layer r.d.c n
  else s

/-- Reductions of every producer, once their units are in. -/
def State.endProducers (s : State) (r : DescRun) : State :=
  (s.producers r).foldl (fun s x => match s.desc? x.pos with | some y => s.endVector y | none => s) s

/-- The attempt ends: a retry, or completion. -/
def State.decideAttempt (s : State) (r : DescRun) : State :=
  if s.producerSat r && s.retriable r then s.retryProducer r
  else
    let s1 := s.exhausted r
    (s.producers r).foldl (fun s x => match s.desc? x.pos with | some y => s.completeDesc y | none => s) s1

/-- FORWARD_ATTEMPT_DONE (R118 to R121, R134): the attempt of a descriptor's producer completes; a finite saturation retries it at
t + 1 or t + 2, or marks the layer. A producer of any class, or of an unscaled tensor, has one attempt. -/
def execForwardAttemptDone (slot : Nat) (s : State) : Out :=
  .next (
    match s.desc? slot with
    | none => s
    | some r =>
      if s.pwr.on ∧ r.d.kind < 3 ∧ r.isUpdate = false ∧ r.amaxPass = false ∧ s.producerOver r ∧ s.endRoom (s.producers r) then
        let stopped := s.producerSat r && s.retriable r
        let s1 := if stopped then s else s.endProducers r
        ((s1.decideAttempt ((s1.desc? slot).getD r))).latchAll
      else s)

/-! ## Present mode (R100, R101, R233) -/

/-- Magnitudes of a producer's pass, by tensor, over its descriptors; a reduction's destination among them. -/
def State.passAmaxes (s : State) (r : DescRun) : KV F32 :=
  (s.producers r).foldl (fun m x =>
    let reds := (reducesOf (s.codeOf x)).filterMap fun q =>
      if q.2.2 < 65535 ∧ x.d.kind = 2 then
        (s.storeAmax { x with n := 1 } (q.2.2, 0, (vecReduce q.1 (x.redVals q.2.1)).val)).map fun a => (q.2.2, a)
      else none
    (x.amaxes ++ reds).foldl (fun m e => Kv.put m e.1 (amaxMax (Kv.getD m e.1 0) e.2)) m) []

/-- The t of one tensor whose record is in present mode, from its magnitude and, for a group-scaled record, the group's. -/
def State.presentT (s : State) (others : List (Nat × F32)) (e : Nat × F32) : State :=
  let t := s.tensor e.1
  if s.scale.presentLeft.contains t.scaleRecord then
    let h := if t.groupScaled then (others.filter fun o => o.1 == t.scaleRecord).foldl (fun h o => amaxMax h o.2) e.2 else e.2
    s.settleT t.scaleRecord (chooseScale h (s.fmtOf e.1) 0 (Kv.getD s.scale.stepT t.scaleRecord 0))
  else s

end Sys2Proof.Machine
end

