-- ==== Sys2Proof/Machine/Collect.lean ====
section
/-! DEFINITION. Collectives: their exchange, reduction and result (R166 to R168, R196, R219, R220, R304, R392 to R394), and
COLLECTIVE_DATA_RX. -/

namespace Sys2Proof.Machine

/-! ## The parameter block at run time -/

/-- Parameter block of a collective descriptor of the loaded program. -/
def State.collBlock (s : State) (d : Desc) : CollBlock :=
  match s.prog.loaded with
  | some g => collBlockOf (s.ramRead (g.base + d.code) 32)
  | none => collBlockOf []

/-- Elements that each member contributes. -/
def State.collCount (s : State) (d : Desc) : Nat := s.dim (s.collBlock d).count

/-- A collective's number within the step: the collectives before it in the stream (R385). -/
def State.collSeq (s : State) (pos : Nat) : Nat :=
  (s.prog.all.filter fun it => decide (it.pos < pos) && (s.descAt it.index).kind == 3).length % 65536

/-- Ops that reduce: all but the copies. -/
def reduces (op : Nat) : Bool := op != 3 && op != 4

/-- A slice of `n` elements: first and one past the last of rank `r` of `p` (R394). -/
def sliceLo (n p r : Nat) : Nat := r * n / p
def sliceHi (n p r : Nat) : Nat := (r + 1) * n / p

/-- A format code's format. -/
def fmtOfCode (c : Nat) : Fmt := (Fmt.ofCode c).getD .fp32

/-- A tensor's view in a given format. -/
def State.collView (s : State) (tensor code : Nat) (t : Int) : View := { s.view tensor t with fmt := fmtOfCode code }

/-! ## Contributions -/

/-- Stored bytes of elements `lo` to `hi − 1`, in row-major order. -/
def State.elemBytes (s : State) (v : View) (cols lo hi : Nat) : List Byte :=
  (List.range (hi - lo)).flatMap fun i =>
    s.ramRead (v.addr + v.place ((lo + i) / cols) ((lo + i) % cols) * v.fmt.bytes) v.fmt.bytes

/-- Blocks of a Flake-4 tensor's first `n` elements: 16 data bytes and the exponent of each, row by row. -/
def State.blockBytes (s : State) (v : View) (cols n : Nat) : List Byte :=
  (List.range (ceilDiv n cols)).flatMap fun row => (List.range (ceilDiv (min cols (n - row * cols)) 32)).flatMap fun b =>
    s.ramRead (v.addr + v.place row (32 * b) / 2) 16 ++ s.ramRead (v.expAddr + v.place row (32 * b) / 32) 1

/-- Bytes of the source that elements `lo` to `hi − 1` of a collective's contribution take. -/
def State.collBytes (s : State) (b : CollBlock) (lo hi : Nat) : List Byte :=
  let v := s.collView b.src b.inFormat 0
  let cols := max 1 (s.colsOf b.src)
  if 7 ≤ b.op then s.ramRead (v.addr + 8 * lo) (8 * (hi - lo))
  else if b.inFormat = 2 then s.blockBytes v cols hi
  else s.elemBytes v cols lo hi

/-- What stands in the way of reading a contribution. -/
def State.collTrouble (s : State) (b : CollBlock) (n : Nat) : Option Trouble :=
  let v := s.collView b.src b.inFormat 0
  let cols := max 1 (s.colsOf b.src)
  if 7 ≤ b.op then s.rangeTrouble v.addr (8 * n)
  else s.readTrouble ((List.range (ceilDiv n cols)).flatMap fun row => v.ranges row 0 (min cols (n - row * cols)))

/-- First segment number of a result. -/
def resultSegment : Nat := 2 ^ 31

/-- A frame of a collective. -/
def State.collFrame (s : State) (g dst seq : Nat) : TxFrame := { s.frame 1 g dst with sequence := seq }

/-- A collective's key and pieces. -/
def State.coll? (s : State) (g seq : Nat) : Option Collective :=
  s.links.collectives.find? fun c => c.group == g && c.sequence == seq

def State.mapColl (s : State) (pos : Nat) (f : Collective → Collective) : State :=
  { s with links.collectives := s.links.collectives.map fun c => if c.pos = pos then f c else c }

/-- A piece joins: a segment of a rank's contribution, or of its result; the last one gives the count. -/
def Collective.put (c : Collective) (rank segment : Nat) (last : Bool) (bytes : List Byte) : Collective :=
  let res := decide (resultSegment ≤ segment)
  { c with
    pieces := Kv.put c.pieces (2 ^ 32 * rank + segment) bytes
    counts := if last then Kv.put c.counts (if res then 256 + rank else rank) ((if res then segment - resultSegment else segment) + 1)
              else c.counts }

/-- The whole of a rank's contribution (`res = false`) or result, once every segment is in. -/
def Collective.whole (c : Collective) (rank : Nat) (res : Bool) : Option (List Byte) :=
  match Kv.find? c.counts (if res then 256 + rank else rank) with
  | none => none
  | some n =>
    let parts := (List.range n).map fun i => Kv.find? c.pieces (2 ^ 32 * rank + (if res then resultSegment else 0) + i)
    if parts.all (·.isSome) then some (parts.flatMap fun x => x.getD []) else none

/-! ## The reduction -/

/-- FP32 leaf of an element's stored bytes (R43, R167). -/
def leafOf (f : Fmt) (t : Int) (l : List Byte) : F32 := BitVec.ofNat 32 (convert .fp32 ((decode f (leNat l)).scale t)).code

/-- One element's result over the members, in rank order, as the bytes that travel: FP32, or 8 bytes. -/
def reduceElem (b : CollBlock) (t : Int) (parts : List (List Byte)) : List Byte :=
  let f := fmtOfCode b.inFormat
  let leaves := parts.map (leafOf f t)
  let fold := fun (op : VecFn) => match leaves with | [] => 0 | x :: l => l.foldl (fun a y => (vecFn op a y 0).1) x
  let words := parts.map leNat
  match b.op with
  | 1 => leBytes 4 (canonicalSum leaves).toNat
  | 2 => leBytes 4 (canonicalSum leaves).toNat
  | 5 => leBytes 4 (fold .max).toNat
  | 6 => leBytes 4 (fold .min).toNat
  | 7 => leBytes 8 (sumNat words)
  | 8 => leBytes 8 (words.foldl (· ||| ·) 0)
  | _ => leBytes 8 (words.foldl (· ^^^ ·) 0)

/-- Bytes of an element as contributed, and as it travels once reduced. -/
def CollBlock.inBytes (b : CollBlock) : Nat := if 7 ≤ b.op then 8 else (fmtOfCode b.inFormat).bytes
def CollBlock.outBytes (b : CollBlock) : Nat := if 7 ≤ b.op then 8 else 4

/-- The slice that the owner reduces, from every member's contribution. -/
def reduceSlice (b : CollBlock) (t : Int) (n : Nat) (parts : List (List Byte)) : List Byte :=
  (List.range n).flatMap fun i => reduceElem b t (parts.map fun l => slice l (i * b.inBytes) b.inBytes)

/-! ## The result (R167, R394) -/

/-- FP32 values of result bytes. -/
def resultVals (l : List Byte) : List F32 := (List.range (l.length / 4)).map fun i => BitVec.ofNat 32 (leAt l (4 * i) 4)

/-- The root conversion at a scale: the whole result, row by row. -/
def State.rootOut (s : State) (b : CollBlock) (vals : List F32) (t : Int) : List (Nat × List Byte) × Counts :=
  let v := s.collView b.dst b.outFormat t
  let cols := max 1 (s.colsOf b.dst)
  (List.range (ceilDiv vals.length cols)).foldl (fun (a : List (Nat × List Byte) × Counts) row =>
    let o := v.rowOut a.2 row 0 (((vals.drop (row * cols)).take cols).map f32Val)
    (a.1 ++ o.1, o.2)) ([], {})

/-- The attempts of a forward-class result (R118): every member converts the same FP32 values, at t, t + 1 and t + 2. -/
def State.rootAttempts : Nat → State → DescRun → CollBlock → List F32 → State × DescRun
  | 0, s, r, _, _ => (s, r)
  | n + 1, s, r, b, vals =>
    if (s.rootOut b vals (s.writeT r.d.c r.attempt)).2.finiteSat ≠ 0 ∧ s.retriable r then
      State.rootAttempts n (s.countRecompute r.d.layer) { r with attempt := r.attempt + 1 } b vals
    else (s, r)

/-- The largest magnitude of a result. -/
def rootAmax (vals : List F32) : F32 := vals.foldl (fun a v => amaxMax a (amaxOf (f32Val v))) 0

/-- In present mode the values themselves choose t, with margin 0 (R100). -/
def State.presentRoot (s : State) (r : DescRun) (vals : List F32) : State :=
  let i := (s.tensor r.d.c).scaleRecord
  if s.scale.presentLeft.contains i then s.settleT i (chooseScale (rootAmax vals) (s.fmtOf r.d.c) 0 (Kv.getD s.scale.stepT i 0)) else s

/-- What the root conversion leaves: its flags, a saturation left over, its record and its step amax (R41, R117, R119, R123, R173). -/
def State.reportRoot (s : State) (r : DescRun) (k : Counts) : State :=
  let sr := ({ r.salRec s 2 0 with counts := k, flushTile := s.flushTile k } : SalRec).withGrad (s.tensor r.d.c).weightGrad
  let s1 := (s.unitFlags 0 k).sendRecord (r.d.member 0) sr
  let s2 :=
    if k.finiteSat = 0 then s1
    else if r.d.flags.testBit 0 then s1.backwardSat
    else ((s1.bump 64 Ent.scaleFwdExhausted 1).markLayer r.d.layer).condition 1 0x3020 r.d.layer r.d.c k.finiteSat
  s2.completeDesc (r.gatherAmax r.d.c k.amax)

/-- A collective leaves the links. -/
def State.dropColl (s : State) (pos : Nat) : State :=
  { s with links.collectives := s.links.collectives.filter fun c => c.pos != pos }

/-- A reduced result's scale and attempt are settled, once: it is converted at the attempt that its descriptor holds from then on. -/
def State.settleRoot (s : State) (r : DescRun) (b : CollBlock) (vals : List F32) : State :=
  let x := State.rootAttempts 3 (s.presentRoot r vals) r b vals
  (x.1.mapDesc r.pos fun d => { d with attempt := x.2.attempt }).mapColl r.pos fun c => { c with settled := true }

/-- Writes of elements or blocks that a copy brings from a rank. -/
def copyWrites (v : View) (code cols off n : Nat) (l : List Byte) : List (Nat × List Byte) :=
  if code = 2 then
    let per := ceilDiv cols 32
    (List.range (l.length / 17)).flatMap fun i =>
      let e := off + i / per * cols + 32 * (i % per)
      let x := v.place (e / cols) (e % cols)
      [(v.addr + x / 2, slice l (17 * i) 16), (v.expAddr + x / 32, slice l (17 * i + 16) 1)]
  else
    let w := (fmtOfCode code).bytes
    (List.range n).map fun i => (v.addr + v.place ((off + i) / cols) ((off + i) % cols) * w, slice l (w * i) w)

/-- The values of an arithmetic result. -/
def collVals (b : CollBlock) (parts : List (List Byte)) : List F32 := if reduces b.op ∧ b.op < 7 then resultVals (parts.flatMap id) else []

/-- What a result writes, and what its root conversion counts: a copy's bits, 8-byte words, or converted values. -/
def State.collWrites (s : State) (r : DescRun) (b : CollBlock) (n : Nat) (parts : List (List Byte)) : List (Nat × List Byte) × Counts :=
  if !reduces b.op then
    (parts.zipIdx.flatMap fun x => copyWrites (s.collView b.dst b.outFormat 0) b.outFormat (max 1 (s.colsOf b.dst)) (x.2 * n) n x.1, {})
  else if 7 ≤ b.op then ([((s.tensor b.dst).address, parts.flatMap id)], {})
  else s.rootOut b (collVals b parts) (s.writeT r.d.c r.attempt)

/-- Segments of a result as it is written, each a seal unit (R294). MARK, DESIGN CHOICE (log 81): 4,096 bytes as stored, the length of a
segment on Brine. -/
def resultSegments (ws : List (Nat × List Byte)) : List (Nat × List Byte) := ws.flatMap fun w => cutAt 4096 (w.2.length / 4096 + 2) w.1 w.2

/-- Segments are stored in order, up to the first that waits for the crust: how many of them have been. -/
def State.storeOn : List (Nat × List Byte) → State → Nat → State × Nat
  | [], s, n => (s, n)
  | w :: t, s, n =>
    if s.writeWaits true w.1 w.2.length then (s.stallSeals [(w.1, w.2.length)], n) else State.storeOn t (s.storeAll [w]) (n + 1)

/-- Every part is in: the result is written, segment by segment, and the descriptor completes with the last one. -/
def State.finishColl (s : State) (c : Collective) (r : DescRun) (b : CollBlock) (n : Nat) (parts : List (List Byte)) : State :=
  let s1 := if c.settled then s else s.settleRoot r b (collVals b parts)
  let r1 := (s1.desc? r.pos).getD r
  let w := s1.collWrites r1 b n parts
  let l := resultSegments w.1
  let x := State.storeOn (l.drop c.stored) s1 c.stored
  if x.2 < l.length then x.1.mapColl r.pos fun c => { c with stored := x.2 }
  else if reduces b.op ∧ b.op < 7 then (x.1.dropColl r.pos).reportRoot r1 w.2
  else (x.1.dropColl r.pos).completeDesc r1

/-- Ranks whose contributions a member needs, and whose results. -/
def needParts (b : CollBlock) (p : Nat) : List Nat := if b.op = 4 then [b.root] else List.range p
def needResults (b : CollBlock) (p rank : Nat) : List Nat := if b.op = 2 then [rank] else List.range p

/-- The own slice is reduced and sent once every contribution is in (R394 steps 3 to 5). -/
def State.reduceOwn (s : State) (c : Collective) (r : DescRun) (b : CollBlock) (n : Nat) : State :=
  let e := s.group c.group
  let parts := (List.range e.p).map fun q => c.whole q false
  if (c.whole e.rank true).isNone ∧ parts.all (·.isSome) then
    let bytes := reduceSlice b (s.readT b.src) (sliceHi n e.p e.rank - sliceLo n e.p e.rank) (parts.map fun x => x.getD [])
    let s1 := s.mapColl r.pos fun c => c.put e.rank resultSegment true bytes
    if b.op = 2 then s1
    else (s.others c.group).foldl (fun s d => s.sendBytes { s.collFrame c.group d c.sequence with segment := resultSegment } bytes) s1
  else s

/-- The result's t waits for the group's magnitude: its record is group-scaled and in present mode without a t (R100). -/
def State.groupPresent (s : State) (r : DescRun) (b : CollBlock) : Bool :=
  reduces b.op && decide (b.op < 7) && (s.tensor r.d.c).groupScaled && s.scale.presentLeft.contains (s.tensor r.d.c).scaleRecord

/-- A collective moves on as far as what is in allows. Its result is held until a group-scaled record's t is chosen. -/
def State.advanceColl (s : State) (pos : Nat) : State :=
  match s.links.collectives.find? (fun c => c.pos == pos), s.desc? pos with
  | some c, some r =>
    let b := s.collBlock r.d
    let n := s.collCount r.d
    let e := s.group c.group
    let s1 := if reduces b.op then s.reduceOwn c r b n else s
    let c1 := (s1.links.collectives.find? fun c => c.pos == pos).getD c
    let parts :=
      if reduces b.op then (needResults b e.p e.rank).map fun q => c1.whole q true
      else (needParts b e.p).map fun q => c1.whole q false
    if parts.all (·.isSome) ∧ r.amaxPass = false then
      let l := parts.map fun x => x.getD []
      if s1.groupPresent r b then
        s1.mapDesc r.pos fun d => { d.gatherAmax r.d.c (rootAmax (resultVals (l.flatMap id))) with amaxPass := true }
      else s1.finishColl c1 r b n l
    else s1
  | _, _ => s

/-! ## Hollow and empty collectives (R196, R220) -/

/-- A descriptor completes without a result: it stages nothing. -/
def State.endWithout (s : State) (r : DescRun) : State := (s.dropColl r.pos).completeDesc { r with amaxes := [] }

/-- This member contributes hollow. -/
def State.contributeHollow (s : State) (r : DescRun) : State :=
  let g := (s.collBlock r.d).group
  let seq := s.collSeq r.pos
  let s1 := (s.others g).foldl (fun s d => s.sendFrame { s.collFrame g d seq with flags := 3 }) s
  (s1.bump 64 Ent.commitHollowCollectives 1).endWithout r

/-- An empty collective sends a zero-length contribution to every member (R394). -/
def State.sendEmpty (s : State) (d : Desc) (pos : Nat) : State :=
  let g := (s.collBlock d).group
  (s.others g).foldl (fun s m => s.sendFrame { s.collFrame g m (s.collSeq pos) with flags := 2 }) s

/-- Bytes that this member expects of another's contribution. -/
def CollBlock.expects (b : CollBlock) (n p rank : Nat) : Nat :=
  if reduces b.op then sliceHi n p rank - sliceLo n p rank else n

/-- One frame of a collective in progress: hollow ends it and brings abandon; a zero-length contribution where elements were due ends it
empty; any other joins. -/
def State.deliver (s : State) (c : Collective) (h : BrineHdr) : State :=
  let e := s.group c.group
  match s.desc? c.pos, e.members.findIdx? (· == h.src) with
  | some r, some rank =>
    let b := s.collBlock r.d
    if h.hollow then (s.endWithout r).enterAbandon false
    else if h.payload.isEmpty ∧ h.last ∧ h.segment = 0 ∧ b.expects (s.collCount r.d) e.p e.rank ≠ 0 then
      (s.bump 64 Ent.descEmpty 1).endWithout r
    else (s.mapColl c.pos fun c => c.put rank h.segment h.last h.payload).advanceColl c.pos
  | _, _ => s

/-- A contribution of another epoch: a Severe GROUP fault naming the group, and no outcome (R304). -/
def State.wrongEpoch (s : State) (h : BrineHdr) : State :=
  s.raise { fault 0x14 .module 0 with addr := h.group.val + 256 * h.epoch, space := 4 }

/-- Frames that came before the descriptor started. -/
def State.takeEarly (s : State) (pos g seq : Nat) : State :=
  let mine := fun (h : BrineHdr) => h.group.val == g && h.sequence == seq
  let hs := s.links.early.filter mine
  hs.foldl (fun s h =>
    if h.epoch ≠ (s.group g).epoch then s.wrongEpoch h
    else match s.links.collectives.find? (fun c => c.pos == pos) with | some c => s.deliver c h | none => s)
    { s with links.early := s.links.early.filter fun h => !mine h }

/-- A collective descriptor starts (R394 steps 1 and 2): each slice goes to its owner, or the whole to every member. -/
def State.startColl (s : State) (r : DescRun) : State :=
  let b := s.collBlock r.d
  let n := s.collCount r.d
  let e := s.group b.group
  let seq := s.collSeq r.pos
  let s0 := s.mapDesc r.pos fun d => { d with issued := [0] }
  if r.hollow then s0.contributeHollow r
  else
    match s.collTrouble b n with
    | some (.pending q) => s.troubled (r.d.member 0) (.pending q)
    | some y => (s0.troubled (r.d.member 0) y).contributeHollow r
    | none =>
      let own := if reduces b.op then s.collBytes b (sliceLo n e.p e.rank) (sliceHi n e.p e.rank) else s.collBytes b 0 n
      let c : Collective := { pos := r.pos, group := b.group, sequence := seq }
      let s1 := { s0 with links.collectives := s0.links.collectives ++ [c.put e.rank 0 true own] }
      let s2 := (e.members.take e.p).zipIdx.foldl (fun (s : State) m =>
        if m.2 = e.rank ∨ (b.op = 4 ∧ b.root ≠ e.rank) then s
        else
          let bytes := if reduces b.op then s.collBytes b (sliceLo n e.p m.2) (sliceHi n e.p m.2) else own
          s.sendBytes (s.collFrame b.group m.1 seq) bytes) s1
      (s2.takeEarly r.pos b.group seq).advanceColl r.pos

/-! ## AMAX_PASS_DONE (R100) -/

/-- AMAX_PASS_DONE (R100, R104, R233, R287): the pass's magnitudes choose t with margin 0, and the write pass starts. `others` holds
the records and magnitudes of the group's other members; a collective's result is written at the t that they give. -/
def execAmaxPassDone (slot : Nat) (others : List (Nat × F32)) (s : State) : Out :=
  .next (
    match s.desc? slot with
    | none => s
    | some r =>
      if s.pwr.on ∧ r.amaxPass ∧ r.d.kind = 3 then
        let s1 := r.amaxes.foldl (fun s e => s.presentT others e) s
        (((s1.keepPass r.pos).mapDesc r.pos fun d => { d with amaxPass := false, amaxes := [] }).advanceColl r.pos).latchAll
      else if s.pwr.on ∧ r.amaxPass ∧ s.producerOver r then
        let s1 := (s.passAmaxes r).foldl (fun s e => s.presentT others e) s
        ((s.producers r).foldl (fun s x => (s.keepPass x.pos).mapDesc x.pos fun d => { d.again with sums := d.sums, amaxPass := false }) s1).latchAll
      else s)

/-! ## COLLECTIVE_DATA_RX -/

/-- A collective of this number has completed in the step. -/
def State.collDone (s : State) (g seq : Nat) : Bool :=
  s.prog.all.any fun it =>
    let d := s.descAt it.index
    d.kind == 3 && (s.collBlock d).group == g && s.collSeq it.pos == seq && s.prog.completed.contains it.pos

/-- A contribution or result arrives (R394). One for a collective not started waits for it; a hollow one brings abandon at once; one of
another epoch ends the step that runs, or the next one once its collective starts (R304). -/
def State.takeContribution (s : State) (h : BrineHdr) : State :=
  let e := s.group h.group.val
  if !e.valid then s
  else if h.epoch ≠ e.epoch ∧ (s.running = true ∨ s.phase = 3) then s.wrongEpoch h
  else if !(e.members.take e.p).contains h.src then s
  else if h.step ≠ s.ent Ent.trainStepIndex % 65536 ∨ s.phase = 4 then { s with links.early := s.links.early ++ [h] }
  else
    match s.coll? h.group.val h.sequence with
    | some c => s.deliver c h
    | none =>
      if s.running && s.collDone h.group.val h.sequence then s
      else
        let s1 := { s with links.early := s.links.early ++ [h] }
        if h.hollow && s.running then s1.enterAbandon false else s1

/-- COLLECTIVE_DATA_RX (R166 to R168, R220, R394). -/
def execCollectiveDataRx (h : BrineHdr) (s : State) : Out := .next (s.receive h fun s => s.takeContribution h)

end Sys2Proof.Machine
end

