-- ==== Sys2Proof/Machine/StepStart.lean ====
section
/-! DEFINITION. The start of a step or of a diagnostic replay (R97, R100, R102, R143, R189, R195, R213, R214, R287 to R290, R298, R393). -/

namespace Sys2Proof.Machine

/-! ## The shape block (R195, R393) -/

/-- Address of a parameter of the shape block. -/
def shapeAddr (i : Nat) : Nat := shapeBase + 8 * i

/-- The code of a parameter's fault: a complement mismatch, or a value above its compiled maximum; 0 for none. -/
def State.shapeCode (s : State) (g : Program) (i : Nat) : Nat :=
  if !s.complOk (shapeAddr i) 4 then 5
  else if g.shapeMax.getD i 0 < s.ramNat (shapeAddr i) 4 then 3 else 0

/-- A dimension spec names a parameter. -/
def specNames (sp i : Nat) : Bool := sp.testBit 31 && sp % 256 == i

/-- A descriptor names a parameter, a collective by its count too. -/
def State.descNames (s : State) (d : Desc) (i : Nat) : Bool :=
  specNames d.m i || specNames d.n i || specNames d.k i || (d.kind == 3 && specNames (s.collBlock d).count i)

/-- The descriptors that a refused start names are logged, up to 16, and all of them counted (R195). -/
def State.rejectDescs (s : State) (g : Program) (l : List Nat) : State :=
  ((l.take 16).foldl (fun s i => s.conditionAt 0 0x3400 0 (g.base + g.descOff i) i 0 0) s).bump 64 Ent.descRejected l.length

/-- A collective's destination holds what its op gives: p × count elements for op 3, count / p for op 2 (R393). -/
def State.collFits (s : State) (d : Desc) : Bool :=
  let b := s.collBlock d
  let p := (s.group b.group).p
  let room := s.rowsOf b.dst * s.colsOf b.dst
  if b.op = 3 then room == p * s.collCount d else if b.op = 2 then room == s.collCount d / p else true

/-- A collective's conditions at step start (R393). -/
def State.collStarts (s : State) (d : Desc) : Bool :=
  let b := s.collBlock d
  let e := s.group b.group
  d.kind != 3 || (e.valid && e.rank != 0xFFFF && (b.op != 2 || s.collCount d % e.p == 0) && (b.op != 4 || decide (b.root < e.p))
    && s.collFits d)

/-! ## Scales (R97, R100, R102, R126) -/

/-- The tensor that names a record. -/
def Program.recordTensor (g : Program) (i : Nat) : Option Tensor := g.tensors.find? fun t => t.scaleRecord == i

/-- Format code that a record shows: the scaled formats, or 3 for any other (R93). -/
def recordFormat (code : Nat) : Nat := if code ≤ 2 then code else 3

/-- Every record shows the format of the rung that its layer runs next. -/
def State.syncFormats (s : State) (g : Program) (rung : Nat → Nat) : State :=
  { s with scale.recs := s.scale.recs.map fun (e : Nat × ScaleRec) =>
      match g.recordTensor e.1 with
      | some t => (e.1, { e.2 with format := recordFormat (t.codeAt (rung t.producer)) })
      | none => e }

/-- A record or staged value that fails its complement: an integrity fault, and the record starts over (R126). -/
def State.lostRecord (s : State) (i addr : Nat) : State :=
  ((s.bump 64 Ent.scaleIntegrityFaults 1).raise (integrity intScale .die 0 0 addr)).resetRecord i 3

/-- Every record that fails its complement when read. -/
def State.checkRecords (s : State) : State :=
  (s.scale.recs.filter fun e => e.2.bad).foldl (fun s e => s.lostRecord e.1 (scaleTableBase + 160 * e.1)) s

/-- A record's stored format is scaled. -/
def ScaleRec.isScaled (r : ScaleRec) : Bool := decide (r.format < 3)

/-- The largest amax of a record's history. -/
def ScaleRec.top (r : ScaleRec) : F32 := r.amax.foldl amaxMax 0

/-- t of a record at step start (R97): 0 where its tensor is stored unscaled. -/
def ScaleRec.startT (r : ScaleRec) (margin : Nat) : Int :=
  if !r.isScaled then 0
  else if r.count = 16 then chooseScale r.top ((Fmt.ofCode r.format).getD .fp32) margin r.t
  else r.t

/-- A record is in present mode in the step that starts (R100). -/
def ScaleRec.presentNow (r : ScaleRec) : Bool := r.isScaled && decide (r.count < 16)

/-- Records that newly enter present mode for a reason. -/
def State.entering (s : State) (reason : Nat) : List Nat :=
  (s.scale.recs.filter fun e => e.2.presentNow && !e.2.present && e.2.reason.getD 0 == reason).map (·.1)

/-- The Notice of one reason (R102). -/
def State.presentNotice (s : State) (n reason : Nat) : State :=
  if n = 0 then s else s.condition 0 0x3000 n reason (s.ent Ent.trainStepIndex)

/-- Scales of the step that starts: t of every record, present mode and its Notices. -/
def State.chooseScales (s : State) : State :=
  let left := (s.scale.recs.filter fun e => e.2.presentNow).map (·.1)
  let s1 := (List.range 4).foldl (fun a r => a.presentNotice (s.entering r).length r) s
  let was := s.ent Ent.scalePresentRecords
  let s2 := if was ≠ 0 ∧ left = [] then s1.condition 0 0x3000 0 4 (s.ent Ent.trainStepIndex) else s1
  ({ s2 with
    scale.stepT := s.scale.recs.map fun (e : Nat × ScaleRec) => (e.1, e.2.startT (s.ent Ent.scaleMargin))
    scale.stepAttempt := [], scale.heldT := [], scale.staged := []
    scale.presentLeft := left
    scale.recs := s.scale.recs.map fun (e : Nat × ScaleRec) => (e.1, { e.2 with present := e.2.presentNow }) }).setEnt
      Ent.scalePresentRecords left.length

/-! ## The stream (R189) -/

/-- The step's items, in order. -/
def Program.stream (g : Program) (rung : Nat → Nat) (updates : Bool) : List Item :=
  ((g.sequence.zipIdx.filter fun e => updates || e.1.2 != 2).flatMap fun e =>
    (g.phaseDescs e.1.1 (rung e.1.1) e.1.2).map fun i => (i, e.2, e.1.2 == 2)).zipIdx.map fun x =>
      { pos := x.2, index := x.1.1, entry := x.1.2.1, update := x.1.2.2 }

/-- Each die's dispatcher holds its share of the stream. -/
def State.layStream (s : State) (g : Program) (items : List Item) : State :=
  { s with
    prog.all := items, prog.pool := [], prog.completed := [], prog.entryNow := 0
    prog.stream0 := items.filter fun it => (g.desc it.index).die == 0
    prog.stream1 := items.filter fun it => (g.desc it.index).die != 0 }

/-! ## The replay record (R287, R288) -/

/-- The replay record of the step that starts. -/
def State.replayRecord (s : State) (g : Program) (shapes rungs : List Nat) : ReplayRec :=
  let e := s.group (s.ent Ent.trainRunGroup)
  { step := s.ent Ent.trainStepIndex, samples := s.ent Ent.trainCursorSamples, stamp := s.ent Ent.trainCursorStamp
    rngStep := s.ent Ent.rngStep, keyLo := s.ent Ent.rngKeyLo, keyHi := s.ent Ent.rngKeyHi, hash := g.hash
    lambda := s.ent Ent.lossScaleExp, margin := s.ent Ent.scaleMargin, present := !s.scale.presentLeft.isEmpty
    runGroup := s.ent Ent.trainRunGroup, rank := e.rank, p := e.p, epoch := e.epoch, groupsCrc := s.groupsCrc
    frozen := s.ent Ent.commitFrozenMask, clean := s.ent Ent.lossCleanSteps, layers := g.layers.length, records := g.scaleRecords
    params := g.shapeMax.length, shapes := shapes, rungs := rungs
    ts := s.scale.stepT.filter fun e => e.2 != 0 && !s.scale.presentLeft.contains e.1
    complete := s.scale.presentLeft.isEmpty }

/-- The record goes into the ring; a complete one is mirrored (R296). -/
def State.putReplay (s : State) (r : ReplayRec) : State :=
  let s1 := { s with train.ring := Kv.put s.train.ring (r.step % 64) r, train.lastStep := some r.step }
  if r.complete then { s1 with train.newest := r.step }.sendMirror 1 r.bytes else s1

/-! ## The crust at a step start (R297, R298) -/

/-- Bytes of a covered page as the resync streams it: a page that is not covered counts as zeros (R292). -/
def State.streamBytes (s : State) (p : Nat) : List Byte :=
  if (s.mapEntry p).v && (s.mapEntry p).cc then s.ramRead (p * pageBytes) pageBytes else zeros pageBytes

/-- Segments of a page in a reduced stream (R395). -/
def pageSegments : Nat := 128

/-- The first rank that contributes to a stream toward a rank, and the one after a contributor: ascending ranks, the receiver left out;
none after the last. -/
def firstRank (rcv : Nat) : Nat := if rcv = 0 then 1 else 0
def nextRank (rcv m : Nat) : Option Nat := (List.range 8).find? fun r => decide (m < r) && decide (r ≠ rcv)

/-- The page that a member contributes to parity page `i` of a holder (R292). -/
def State.contribPage (s : State) (m holder i : Nat) : Nat :=
  s.ent Ent.crustSpanFirst + (holder + 7 - m) % 8 * (s.ent Ent.crustSpanPages / 8) + i

/-- One segment of a reduced stream, on its way from a rank: to the next contributor, or to the receiving rank (R395). The frame names
the stream in its sequence field, and page and segment in its segment field (layout of the model, log 54). -/
def State.sendStream (s : State) (stream page seg rank : Nat) (l : List Byte) : State :=
  let g := s.ent Ent.crustGroup
  let rcv := stream % 256
  let dst := (s.group g).members.getD ((nextRank rcv rank).getD rcv) 0xFFFF
  let k := 2 ^ 24 * stream + page
  { s.sendFrame { s.frame 13 g dst with sequence := stream, segment := page * pageSegments + seg, flags := 4, payload := l } with
    crust.passed := Kv.put s.crust.passed k (setBitN (Kv.getD s.crust.passed k 0) seg true) }

/-- The first contributor starts a page's stream. -/
def State.startStream (s : State) (stream page : Nat) (l : List Byte) : State :=
  (List.range pageSegments).foldl (fun s k => s.sendStream stream page k s.crustRankOf (slice l (4096 * k) 4096)) s

/-- The streams of every parity page that this member is the first to contribute to (R298). -/
def State.startParity (s : State) (holder : Nat) : State :=
  if s.crustRankOf = firstRank holder then
    (List.range (s.ent Ent.crustSpanPages / 8)).foldl (fun s i =>
      s.startStream holder i (s.streamBytes (s.contribPage s.crustRankOf holder i))) s
  else s

/-- A resync that is due begins; one that did not end begins again (R297, R298). -/
def State.startResync (s : State) : State :=
  let st := s.ent Ent.crustState
  if s.ent Ent.crustMode ≠ 0 ∧ (st = 3 ∨ st = 1 ∨ (s.crust.resyncDue ∧ st = 2)) then
    let s1 := { s with crust.resync := true, crust.resyncDue := false, crust.passed := [], crust.heldDeltas := [] }.setEnt Ent.crustState 1
    if s1.crustMember then (List.range 8).foldl State.startParity s1 else s1
  else s

/-! ## train.step_start (R213, R214) -/

/-- The conditions whose failure is answered busy. -/
def State.startBusy (s : State) : Bool :=
  s.phase != 0 || s.ent Ent.progState != 2 || s.prog.loaded.isNone || !s.computeSet
    || (decide (1 < s.groupP (s.ent Ent.trainRunGroup)) && !(List.range 8).any fun p => s.isReady (32 + p))

/-- The conditions whose failure is an out-of-range value. -/
def State.startRefused (s : State) (v : Nat) : Bool :=
  v != s.ent Ent.trainStepIndex || s.ent Ent.rngResumeCheck != 0 || s.ent Ent.trainHalted != 0 || s.train.rakeHalt

/-- What a step in flight starts from. -/
def State.freshStep (s : State) : State :=
  { s with
    train.nonFinite := false, train.fault := false, train.abandoned := false, train.bwdSat := false, train.contributed := false
    train.outcome := 0, train.updating := false, train.updateDone := false, train.badUpdate := none, train.masksAgree := false
    train.uncovered := false
    train.grew := false, train.lambda := s.ent Ent.lossScaleExp, train.mask := s.ent Ent.commitFrozenPending
    train.marksBefore := (s.rake.layers.filter fun e => e.2.marked).map (·.1)
    rake.roll := [], rake.retried := [], rake.done := false
    pwr.stepAllUj := 0, pwr.layerUj := [] }

/-- An accepted step begins (R214 steps 2 to 4). -/
def State.beginStep (s : State) (g : Program) (shapes : List Nat) : State :=
  let rungs := (List.range g.layers.length).map fun l => (s.rakeOf l).rung
  let s1 := { s with prog.shapes := shapes, prog.rungs := rungs.zipIdx.map fun (r : Nat × Nat) => (r.2, r.1) }.freshStep
  let s2 := ((s1.syncFormats g fun l => rungs.getD l 0).checkRecords).chooseScales
  let s3 := s2.putReplay (s2.replayRecord g shapes rungs)
  ((s3.layStream g (g.stream (fun l => rungs.getD l 0) true)).startResync).setPhase 1

/-- A Rake state entry that fails its complement when read: Severe at once (R143, R332). -/
def State.badRake (s : State) (l : Nat) : State :=
  s.raise { integrity intRake .die 0 0 (rakeTableBase + 16 * l) with atLeast := 2 }

/-- A step start is refused after its first checks, with the descriptors it names. -/
def State.refuseStart (s : State) (g : Program) (code : Nat) (l : List Nat) : Reply := { s := s.rejectDescs g l, code := code }

/-- A write of train.step_start. -/
def State.stepStart (s : State) (v : Nat) : Reply :=
  if s.startBusy then { s := s, code := 4 }
  else if s.startRefused v then { s := s, code := 3 }
  else
    match s.prog.loaded with
    | none => { s := s, code := 4 }
    | some g =>
      let codes := (List.range g.shapeMax.length).map fun i => (i, s.shapeCode g i)
      let n := List.range g.descs.length
      match codes.find? (fun c => c.2 != 0) with
      | some c =>
        s.refuseStart g c.2 (n.filter fun i => (codes.filter fun c => c.2 != 0).any fun c => s.descNames (g.desc i) c.1)
      | none =>
        let shapes := (List.range g.shapeMax.length).map fun i => s.ramNat (shapeAddr i) 4
        let wrong := n.filter fun i => !{ s with prog.shapes := shapes }.collStarts (g.desc i)
        if wrong ≠ [] then s.refuseStart g 3 wrong
        else
          match (List.range g.layers.length).find? (fun l => (s.rakeOf l).bad) with
          | some l => { s := s.badRake l, code := 3 }
          | none => { s := s.beginStep g shapes }

/-! ## Diagnostic replay (R290) -/

/-- A replay begins at the recorded rungs, shapes and t. -/
def State.beginReplay (s : State) (g : Program) (r : ReplayRec) : State :=
  let rung := fun l => r.rungs.getD l 0
  let s1 := { s with
    prog.shapes := r.shapes, prog.rungs := r.rungs.zipIdx.map fun (x : Nat × Nat) => (x.2, x.1) }.freshStep
  let s2 := { s1 with
    scale.stepT := (List.range g.scaleRecords).map fun i => (i, Kv.getD r.ts i 0)
    scale.stepAttempt := [], scale.heldT := [], scale.staged := [], scale.presentLeft := []
    train.replaying := true, train.replayRng := (r.rngStep, r.keyLo, r.keyHi), train.lambda := r.lambda }
  ((s2.layStream g (g.stream rung false)).setEnt Ent.replayState 5).setPhase 1

/-- The record that a replay request names: in the ring, or at an address; one that supplies a t of −128 is out of range (R32). MARK, DESIGN
CHOICE (log 110): a record whose step is not the one asked for, in the ring or at the address, is an out-of-range value. -/
def State.replaySourceRec (s : State) (v : Nat) : Option ReplayRec × Nat :=
  let a := s.ent Ent.replaySource
  if a = 0 then
    match Kv.find? s.train.ring (v % 64) with
    | some r => if r.step = v ∧ r.complete then (if r.bad then (none, 5) else (some r, 0)) else (none, 3)
    | none => (none, 3)
  else if !s.rangeMapped a 163840 then (none, 6)
  else
    match replayRecOf (s.memRead a 163840) with
    | some r => if r.step = v ∧ r.reservedT = false then (some r, 0) else (none, 3)
    | none => (none, 5)

/-- Where a replay request takes its record from: its slot of the ring, or replay.source. -/
def State.replayPlace (s : State) (v : Nat) : Nat :=
  if s.ent Ent.replaySource = 0 then 0xFFFFE0 * pageBytes + 163840 * (v % 64) else s.ent Ent.replaySource

/-- A write of replay.request. A record that fails its complement or names another program is rejected with its address logged (R290);
MARK, DESIGN CHOICE (log 110): the address is that of the record, and a value out of range for want of a record logs none. -/
def State.replayRequest (s : State) (v : Nat) : Reply :=
  if s.phase ≠ 0 ∨ s.ent Ent.progState ≠ 2 ∨ s.computeSet = false then { s := s, code := 4 }
  else
    match s.prog.loaded, s.replaySourceRec v with
    | some g, (some r, _) =>
      if r.hash ≠ g.hash then { s := s, code := 3, space := 0, addr := s.replayPlace v } else { s := s.beginReplay g r }
    | some _, (none, c) =>
      if c = 3 then { s := s, code := 3 } else { s := s, code := c, space := 0, addr := s.replayPlace v }
    | none, _ => { s := s, code := 4 }

end Sys2Proof.Machine
end

