-- ==== Sys2Proof/Machine/Programs.lean ====
section
/-! DEFINITION. Admission, readiness, scheduling and multicast: DESC_ADMIT, DESC_READY, UNIT_SCHEDULE, MCAST_DELIVERY (R189, R193, R196 to
R200, R208, R209, R219, R220, R236, R262, R265, R394). -/

namespace Sys2Proof.Machine

/-! ## Admission (R198, R219, R262) -/

/-- A die's share of the stream. -/
def State.streamOf (s : State) (d : Nat) : List Item := if d = 0 then s.prog.stream0 else s.prog.stream1
def State.setStream (s : State) (d : Nat) (l : List Item) : State :=
  if d = 0 then { s with prog.stream0 := l } else { s with prog.stream1 := l }

/-- Slots of a die's pool (R198). -/
def poolSlots : Nat := 2048

/-- Descriptors that hold slots of a die. -/
def State.inFlight (s : State) (d : Nat) : Nat := (s.prog.pool.filter fun r => r.die == d).length

/-- Pages that the program names migrate (R262). -/
def State.programMigrates (s : State) : Bool := s.mem.migrating.any fun e => s.programNames e.1

/-- Admission is open: a step that has not reached its finite check, or the update of a committed one. -/
def State.admits (s : State) (it : Item) : Bool :=
  s.pwr.on && !s.train.admitStop && (if it.update then s.phase == 4 && s.train.updating else s.running && !s.train.snapHold)

/-- An item comes after the sequence entry in which the step was abandoned (R219). -/
def State.afterAbandon (s : State) (it : Item) : Bool := s.train.abandoned && decide (s.prog.entryNow < it.entry)

/-- Outputs of a descriptor whose records are in present mode without a t (R100). -/
def State.needsPass (s : State) (d : Desc) (update : Bool) : Bool :=
  decide (d.kind < 3) && (s.writesOf d update).any fun t => s.scale.presentLeft.contains (s.tensor t).scaleRecord

/-- The descriptor run that an item starts. An update's amax pass belongs to its apply stage (R233). -/
def State.runOf (s : State) (it : Item) (die : Nat) : DescRun :=
  let d := s.descAt it.index
  { pos := it.pos, die := die, index := it.index, d := d, update := it.update, m := s.dim d.m, n := s.dim d.n, k := s.dim d.k
    hollow := s.afterAbandon it, amaxPass := s.needsPass d it.update && !(it.update && d.kind == 2) }

/-- An item takes a slot. -/
def State.admitItem (s : State) (d : Nat) (it : Item) (rest : List Item) : State :=
  let s1 := s.setStream d rest
  let s2 := { s1 with
    prog.pool := s1.prog.pool ++ [s.runOf it d]
    prog.entryNow := if s.train.abandoned then s.prog.entryNow else max s.prog.entryNow it.entry }
  s2.setEnt Ent.descInFlightPeak (max (s.ent Ent.descInFlightPeak) s2.prog.pool.length)

/-- DESC_ADMIT (R198): the next descriptor of a die's stream takes a slot; with the pool full, or pages of the program migrating, it
waits; after abandon only collectives are admitted. -/
def execDescAdmit (d : DieId) (s : State) : Out :=
  .next (
    match s.streamOf d.val with
    | [] => s
    | it :: rest =>
      if s.admits it = false then s
      else if s.afterAbandon it && decide ((s.descAt it.index).kind ≠ 3) then s.setStream d.val rest
      else if s.programMigrates then (s.bump 64 Ent.memMigrateWaitUs (Config.timing s.clk.freeNext)).draw
      else if poolSlots ≤ s.inFlight d.val then s.bump 64 Ent.descFullCycles 1
      else s.admitItem d.val it rest)

/-! ## Readiness (R196, R199, R236) -/

/-- Parameter group of a layer's updates. -/
def State.layerGroup (s : State) (l : Nat) : Option Nat :=
  match s.prog.loaded with
  | none => none
  | some g => (g.updates.find? fun i => (g.desc i).layer == l).map fun i => (s.preamble (g.desc i)).group

/-- A layer belongs to a frozen group. -/
def State.layerFrozen (s : State) (l : Nat) : Bool :=
  match s.layerGroup l with
  | some g => (s.ent Ent.commitFrozenMask).testBit g
  | none => false

/-- A tensor is a weight gradient of a frozen layer. -/
def State.frozenGradient (s : State) (t : Nat) : Bool :=
  match s.prog.loaded with
  | none => false
  | some g => g.descs.any fun d => d.flags.testBit 1 && d.c == t && s.layerFrozen d.layer

/-- A descriptor completes empty: a zero dimension, a collective of no elements, or work for a frozen group's gradient. -/
def State.isEmpty (s : State) (r : DescRun) : Bool :=
  r.m == 0 || r.n == 0 || r.k == 0
    || (r.d.kind == 3 && (s.collCount r.d == 0 || s.frozenGradient r.d.a))
    || (!r.update && r.d.kind != 3 && r.d.flags.testBit 1 && s.layerFrozen r.d.layer)

/-- An update of a frozen group completes as a no-op (R236). -/
def State.noopUpdate (s : State) (r : DescRun) : State :=
  let g := (s.preamble r.d).group
  let s1 := (s.freeDesc r.pos).bump 64 (Ent.groupNoopUpdates g) 1
  if s1.prog.noopNoted.contains g then s1
  else { s1 with prog.noopNoted := s1.prog.noopNoted ++ [g] }.condition 0 (0x3480 + g) g r.d.layer 0

/-- An empty descriptor completes at once (R196); an empty collective tells the others (R394). -/
def State.completeEmpty (s : State) (r : DescRun) : State :=
  let s1 := if r.d.kind = 3 then s.sendEmpty r.d r.pos else s
  (s1.endWithout r).bump 64 Ent.descEmpty 1

/-- Every descriptor of the step that produces a tensor has completed (R199). -/
def State.tensorReady (s : State) (r : DescRun) (t : Nat) : Bool :=
  s.prog.all.all fun it =>
    it.pos == r.pos || s.prog.completed.contains it.pos || (it.update && !r.update)
      || !(s.writesOf (s.descAt it.index) it.update).contains t

/-- DESC_READY (R199): a descriptor whose tensors are all ready goes to its cores; an empty one, and a frozen group's update, complete at
once. -/
def execDescReady (slot : Nat) (s : State) : Out :=
  .next (
    match s.desc? slot with
    | none => s
    | some r =>
      if s.pwr.on = false ∨ r.ready then s
      else if r.hollow then s.mapDesc slot fun d => { d with ready := true }
      else if r.isUpdate ∧ s.layerFrozen r.d.layer then s.noopUpdate r
      else if s.isEmpty r then (s.completeEmpty r).latchAll
      else if (s.readsOf r.d r.update).all (s.tensorReady r) then s.mapDesc slot fun d => { d with ready := true }
      else s)

/-! ## Scheduling (R200) -/

/-- Units of a descriptor that a core has still to take, lowest first. -/
def DescRun.unitsLeft (r : DescRun) (c : Nat) : List Nat :=
  (List.range r.unitCount).filter fun i => !r.issued.contains i && r.unitCore i == c

/-- An update waits for its gather stage to end where it has no operations (R229). -/
def State.idleGather (s : State) (r : DescRun) : Bool := r.isUpdate && !r.gathered && (s.preamble r.d).gatherOps == 0

/-- An earlier descriptor of the same layer still has units for the core (R200). -/
def State.behind (s : State) (c : Nat) (r : DescRun) : Bool :=
  s.prog.pool.any fun x => x.d.layer == r.d.layer && decide (x.pos < r.pos) && decide (x.d.kind < 3) && !s.idleGather x && !(x.unitsLeft c).isEmpty

/-- A descriptor offers a unit to an engine of a core. -/
def State.offers (s : State) (c engine : Nat) (r : DescRun) : Bool :=
  r.ready && decide (r.d.kind < 3) && engineOf r.d.kind == engine && !(r.unitsLeft c).isEmpty && !s.idleGather r
    && !(s.producerSat r && s.retriable r) && !s.behind c r

/-- The offer that a core takes: highest priority, then earliest in the stream. -/
def bestOffer (l : List DescRun) : Option DescRun :=
  l.foldl (fun b r =>
    match b with
    | none => some r
    | some x =>
      if x.d.priority < r.d.priority ∨ (x.d.priority = r.d.priority ∧ r.pos < x.pos) then some r else some x) none

/-- Half of the accumulator store that a new tile takes: a free one, or the one that drains first. -/
def PanSt.nextHalf (x : PanSt) : Bool := if x.halfA.isNone then false else if x.halfB.isNone then true else x.drainB

/-- The tile of a core block on a pan (R203). -/
def DescRun.tileOf (r : DescRun) (b : Block) (number p : Nat) (x : PanSt) : TileRun :=
  let np := panN r.d.rung
  { pos := r.pos, block := number, m0 := b.m0, n0 := b.n0 + p * np, k0 := b.k0, kt := b.kt, rows := b.rows
    cols := min np (r.n - (b.n0 + p * np)), passes := ceilDiv b.kt (panK r.d.rung), half := x.nextHalf }

/-- A core block's tiles go to the pans that have columns; the tile buffers wait for its operands. -/
def State.startBlock (s : State) (c : Nat) (r : DescRun) (number : Nat) : State :=
  let b := r.panBlock number
  (List.range 4).foldl (fun s p =>
    if b.n0 + p * panN r.d.rung < r.n then
      let x := s.pan c p
      (s.dropShifts c p).setPan c p { x with tile := some (r.tileOf b number p x), bankA := none, bankB := none, shiftEntries := 0, rowsDue := 0 }
    else s) (s.setCore c (s.core c).dropBuffers)

/-- A unit goes to an engine. -/
def State.startUnit (s : State) (c engine : Nat) (r : DescRun) (number : Nat) : State :=
  let x := s.core c
  let s1 := (s.setCore c { x with
    units := Kv.put x.units engine ⟨r.pos, number⟩, ran := Kv.put x.ran engine (r.pos, r.rerun.contains number) }).mapDesc r.pos fun d => { d with issued := d.issued ++ [number] }
  if r.d.kind = 0 then s1.startBlock c r number else s1

/-- The unit runs ahead of a descriptor that has started on the core and gives way to it: one of lower priority, or of equal priority and
later in the stream (R200). -/
def State.preempts (s : State) (c : Nat) (r : DescRun) : Bool :=
  s.prog.pool.any fun x =>
    engineOf x.d.kind == engineOf r.d.kind && x.d.layer != r.d.layer
      && (decide (x.d.priority < r.d.priority) || (decide (x.d.priority = r.d.priority) && decide (r.pos < x.pos))) && x.ready
      && !(x.unitsLeft c).isEmpty && x.issued.any fun i => x.unitCore i == c

/-- A pre-emption is counted, with its wait (R211). -/
def State.countPreemption (s : State) : State :=
  ((s.bump 64 Ent.descPreemptions 1).setEnt Ent.descPreemptWaitPeakNs
    (max (s.ent Ent.descPreemptWaitPeakNs) (Config.timing s.clk.freeNext % 2 ^ 32))).draw

/-- The control processor reads a descriptor that fails its complement, and again: two integrity faults, the second Severe. The
descriptor ends without results (R193). -/
def State.badDesc (s : State) (c : Nat) (r : DescRun) (addr : Nat) : State :=
  let f := integrity intDescriptor .core c 0 addr
  let s1 := (s.raise f).raise f
  if r.d.kind = 3 then s1.contributeHollow r else s1.endWithout r

/-- Address of a descriptor. -/
def State.descAddr (s : State) (i : Nat) : Nat :=
  match s.prog.loaded with
  | some g => g.base + g.descOff i
  | none => 0

/-- What still waited for the end of a tile that a core's pans no longer hold (R56). -/
def State.remapIdle (s : State) (c : Nat) : State :=
  (List.range 4).foldl (fun s p => if (s.pan c p).tile.isNone then s.applyRemap c p else s) s

/-- One engine of a core takes its next unit, if it is idle. -/
def State.scheduleEngine (s : State) (c engine : Nat) : State :=
  if (Kv.find? (s.core c).units engine).isSome then s
  else
    match bestOffer (s.prog.pool.filter (s.offers c engine)) with
    | none => s
    | some r =>
      match r.unitsLeft c with
      | [] => s
      | n :: _ =>
        if s.complOk (s.descAddr r.index) 64 then
          let s1 := s.startUnit c engine r n
          if s.preempts c r then s1.countPreemption else s1
        else s.badDesc c r (s.descAddr r.index)

/-! ## Copies (R265) -/

/-- Parameter block of a copy descriptor of the loaded program. -/
def State.copyBlock (s : State) (d : Desc) : CopyBlock :=
  match s.prog.loaded with
  | some g => copyBlockOf (s.ramRead (g.base + d.code) 32)
  | none => copyBlockOf []

/-- The writes of a copy: transactions of at most 256 bytes, row by row (R263, R265). -/
def State.copyTxns (s : State) (b : CopyBlock) : List (Nat × List Byte) :=
  (List.range b.rows).flatMap fun i =>
    cutAt 256 (b.rowBytes / 256 + 2) (b.dst + i * b.dstStride) (s.ramRead (b.src + i * b.srcStride) b.rowBytes)

/-- Trouble of a copy's reads. -/
def State.copyTrouble (s : State) (b : CopyBlock) : Option Trouble :=
  s.readTrouble ((List.range b.rows).map fun i => (b.src + i * b.srcStride, b.rowBytes))

/-- One transaction of a copy, a seal unit of its own (R294): a refused one draws a violation, and one that meets a protected page the
fault flag (R266). -/
def State.copyTxn (s : State) (w : Nat × List Byte) : State :=
  let code := s.writeCode true w.1 w.2.length
  if code = 0 then s.storeUnit [w] else if code = 2 then (s.memViolation code w.1).flagFault else s.memViolation code w.1

/-- A transaction of a copy waits for a page that migrates, and for the crust (R262, R297, R298). -/
def State.copyWaits (s : State) (w : Nat × List Byte) : Bool :=
  (pagesOf w.1 w.2.length).any s.pageCopies || s.writeWaits true w.1 w.2.length

/-- Transactions in order, up to the first that waits: how many of them have been written. -/
def State.copyOn : List (Nat × List Byte) → State → Nat → State × Nat
  | [], s, n => (s, n)
  | w :: t, s, n => if s.copyWaits w then (s.stallSeals [(w.1, w.2.length)], n) else State.copyOn t (s.copyTxn w) (n + 1)

/-- A copy descriptor runs, on from where it waited. -/
def State.runCopy (s : State) (r : DescRun) : State :=
  let b := s.copyBlock r.d
  match s.copyTrouble b with
  | some (.pending q) => s.troubled (r.d.member 0) (.pending q)
  | some y => (s.troubled (r.d.member 0) y).endWithout r
  | none =>
    let ws := s.copyTxns b
    let x := State.copyOn (ws.drop r.moved) s r.moved
    if ws.length ≤ x.2 then x.1.endWithout r else x.1.mapDesc r.pos fun d => { d with moved := x.2 }

/-! ## UNIT_SCHEDULE -/

/-- The first ready descriptor of a kind that starts from this core and has not started. -/
def State.nextOf (s : State) (c kind : Nat) : Option DescRun :=
  bestOffer (s.prog.pool.filter fun r => r.ready && r.d.kind == kind && r.issued.isEmpty && r.d.member 0 == c)

/-- The core starts its next collective; those whose results waited for the crust are written. -/
def State.scheduleColl (s : State) (c : Nat) : State :=
  let s1 := s.links.collectives.foldl (fun s x =>
    match s.desc? x.pos with
    | some r => if r.d.member 0 = c then s.advanceColl x.pos else s
    | none => s) s
  match s1.nextOf c 3 with
  | some r => if s.complOk (s.descAddr r.index) 64 then s1.startColl r else s1.badDesc c r (s.descAddr r.index)
  | none => s1

/-- The cluster DMA engine takes the core's next copy. -/
def State.scheduleCopy (s : State) (c : Nat) : State :=
  match s.nextOf c 4 with
  | none => s
  | some r =>
    if !s.complOk (s.descAddr r.index) 64 then s.badDesc c r (s.descAddr r.index)
    else s.runCopy r

/-- A core takes work: its rails are up, its clock runs, and it is ready. -/
def State.coreTakes (s : State) (c : Nat) : Bool := s.coreLive c && s.coreReady c && !s.pwr.dieOff.getD (c / 64) false

/-- UNIT_SCHEDULE (R200): each idle engine of a core takes the next unit of its best ready descriptor; a collective or copy that starts
from the core starts. -/
def execUnitSchedule (c : CoreId) (s : State) : Out :=
  .next (
    let s0 := s.remapIdle c.val
    if s0.coreTakes c.val then
      let s1 := (List.range 3).foldl (fun s e => s.scheduleEngine c.val e) s0
      ((s1.scheduleColl c.val).scheduleCopy c.val).latchAll
    else s0.latchAll)

/-! ## Multicast (R208, R209) -/

/-- A multicast set (R208): streaming rows of (mi, j) for a grid row, or stationary tiles of (ni, j) for a grid column, of one pass. A
member that runs several blocks of the same mi takes the rows once for each, as it comes to them: `round` counts them. -/
structure McastSet where
  pos : Nat
  index : Nat
  round : Nat
  range : Nat
  pass : Nat
  rows : Bool
  deriving DecidableEq, Repr

/-- The set of a number (the model's own numbering, log 53): from bit 0, one bit clear for rows, five of the pass, 24 each of the K range,
the round and mi or ni, and the stream position. -/
def mcastSet (n : Nat) : McastSet :=
  { pos := n / 2 ^ 78, index := n / 2 ^ 54 % 2 ^ 24, round := n / 2 ^ 30 % 2 ^ 24, range := n / 2 ^ 6 % 2 ^ 24, pass := n / 2 % 32
    rows := n % 2 == 0 }

/-- The block for which member `i` of a descriptor's core set needs a set's data, if it has one (R204, R209). -/
def DescRun.mcastBlock (r : DescRun) (x : McastSet) (i : Nat) : Option Nat :=
  let c := r.panCut
  let mi := if x.rows then x.index else x.round * r.d.gridM + i / r.d.gridN
  let ni := if x.rows then x.round * r.d.gridN + i % r.d.gridN else x.index
  let b := (mi * c.nn + ni) * c.t + x.range
  if mi < c.nm ∧ ni < c.nn ∧ x.range < c.t ∧ r.unitCore b = r.d.member i ∧ x.pass * panK r.d.rung < (r.panBlock b).kt then some b else none

/-- The passes that the pans' tiles of a block have still to run: each tile's next pass. -/
def CoreSt.nextPasses (x : CoreSt) (pos block : Nat) : List Nat :=
  x.pans.filterMap fun p => match p.2.tile with
    | some t => if t.pos = pos ∧ t.block = block ∧ t.done < t.passes then some t.done else none
    | none => none

/-- A core runs a block. -/
def CoreSt.runs (x : CoreSt) (pos block : Nat) : Bool := Kv.find? x.units 0 == some ⟨pos, block⟩

/-- The tile buffers that a set is delivered to. -/
def CoreSt.bufs (x : CoreSt) (rows : Bool) : List TileBuf := if rows then x.rowBuf else x.statBuf
def CoreSt.setBufs (x : CoreSt) (rows : Bool) (l : List TileBuf) : CoreSt := if rows then { x with rowBuf := l } else { x with statBuf := l }

/-- A core still needs a set's data for a block: the block is not finished, and where it runs, some tile has the pass to come and the
core does not hold its data. -/
def State.mcastNeeds (s : State) (r : DescRun) (x : McastSet) (c b : Nat) : Bool :=
  let y := s.core c
  !r.finished.contains b
    && (!y.runs r.pos b
      || ((y.nextPasses r.pos b).any (fun n => decide (n ≤ x.pass))
        && !(y.bufs x.rows).any fun z => z.pos == r.pos && z.index == x.index && z.range == x.range && z.pass == x.pass))

/-- The members that receive a set, with their blocks, lowest first; those without a block that needs it are left out (R209). -/
def State.mcastReceivers (s : State) (r : DescRun) (x : McastSet) : List (Nat × Nat) :=
  (List.range r.d.setSize).filterMap fun i =>
    match r.mcastBlock x i with
    | some b => if s.mcastNeeds r x (r.d.member i) b then some (r.d.member i, b) else none
    | none => none

/-- A receiving member has room in its tile buffer (R206, R209): it runs the block, is neither swapped nor clock-stopped, and one of the
two places is free for the pass, which is the next one of the block or the one after. -/
def State.mcastRoom (s : State) (r : DescRun) (x : McastSet) (c b : Nat) : Bool :=
  let y := s.core c
  s.coreReady c && !s.coreStopped c && y.runs r.pos b && decide ((y.bufs x.rows).length < 2)
    && (y.nextPasses r.pos b).all fun n => decide (x.pass ≤ n + 1)

/-- The K range that a pass of a block takes: its first index, and its length. -/
def DescRun.passRange (r : DescRun) (b : Block) (pass : Nat) : Nat × Nat :=
  let kp := panK r.d.rung
  (b.k0 + pass * kp, min kp (b.kt - pass * kp))

/-- Byte ranges that a set's fetch reads, masked at the tensors' bounds (R210). -/
def State.fetchRanges (s : State) (r : DescRun) (x : McastSet) (number : Nat) : List (Nat × Nat) :=
  let b := r.panBlock number
  let k := r.passRange b x.pass
  let cols := min (4 * panN r.d.rung) (r.n - b.n0)
  if x.rows then
    let v := s.view r.d.a 0
    if r.d.flags.testBit 2 then v.region k.1 k.2 b.m0 b.rows else v.region b.m0 b.rows k.1 k.2
  else
    let v := s.view r.d.b 0
    if r.d.flags.testBit 3 then v.region b.n0 cols k.1 k.2 else v.region k.1 k.2 b.n0 cols

/-- What a set's fetch brings: the elements as memory holds them (R192, R206). -/
def State.fetchSet (s : State) (r : DescRun) (x : McastSet) (number : Nat) : TileBuf :=
  let b := r.panBlock number
  let k := r.passRange b x.pass
  let vals :=
    if x.rows then
      let v := s.view r.d.a (s.readT r.d.a)
      (List.range b.rows).flatMap fun row => (List.range k.2).map fun i =>
        let e := oriented (r.d.flags.testBit 2) (b.m0 + row) (k.1 + i)
        (256 * row + i, s.elem v e.1 e.2)
    else
      let v := s.view r.d.b (s.readT r.d.b)
      (List.range (min (4 * panN r.d.rung) (r.n - b.n0))).flatMap fun col => (List.range k.2).map fun i =>
        let e := oriented (r.d.flags.testBit 3) (k.1 + i) (b.n0 + col)
        (256 * col + i, s.elem v e.1 e.2)
  { pos := r.pos, index := x.index, range := x.range, pass := x.pass, vals := vals }

/-- A cluster. -/
def State.cluster (s : State) (k : Nat) : ClusterSt := Kv.getD s.clusters k {}
def State.setCluster (s : State) (k : Nat) (x : ClusterSt) : State := { s with clusters := Kv.setD s.clusters k {} x }

/-- A core's tile buffer takes a set; entries that its pans admitted before belong to it (R70, R209). -/
def State.takeSet (s : State) (rows : Bool) (buf : TileBuf) (c : Nat) : State :=
  (List.range 4).foldl (fun s p => s.settlePreload c p) (s.setCore c ((s.core c).setBufs rows ((s.core c).bufs rows ++ [buf])))

/-- A staged set goes to its receivers once every one of them has room; a member that lags holds it for a cycle (R208, R209). -/
def State.deliverSet (s : State) (k set : Nat) (r : DescRun) (buf : TileBuf) (l : List (Nat × Nat)) : State :=
  let x := mcastSet set
  if l.all fun m => s.mcastRoom r x m.1 m.2 then
    let s1 := s.setCluster k { s.cluster k with staging := Kv.del (s.cluster k).staging set }
    let s2 := l.foldl (fun s m => s.takeSet x.rows buf m.1) s1
    { s2 with prog.mcastWait := Kv.del s2.prog.mcastWait set }.bump 64 Ent.mcastDeliveries 1
  else
    { s.setCluster k { s.cluster k with staging := Kv.put (s.cluster k).staging set buf } with
      prog.mcastWait := Kv.put s.prog.mcastWait set (Kv.getD s.prog.mcastWait set 0 + 1) }.bump 64 Ent.mcastWaitCycles 1

/-- A set's fetch met trouble: the blocks that wait for it end without results (R266). -/
def State.fetchTrouble (s : State) (r : DescRun) (l : List (Nat × Nat)) (c : Nat) (y : Trouble) : State :=
  let s1 := l.foldl (fun s m => if (s.core m.1).runs r.pos m.2 then s.dropBlock m.1 r.pos m.2 else s) s
  (s1.troubled c y).latchAll

/-- MCAST_DELIVERY (R208, R209): the lowest member that needs a set has its cluster's DMA engine fetch it once into the cluster's staging,
and it leaves staging once every receiving member has room. -/
def execMcastDelivery (d : DieId) (set : Nat) (s : State) : Out :=
  .next (
    let x := mcastSet set
    match s.desc? x.pos with
    | none => s
    | some r =>
      if s.pwr.on ∧ r.ready ∧ r.d.kind = 0 ∧ r.d.die = d.val then
        match s.mcastReceivers r x with
        | [] => s
        | (c, b) :: t =>
          match Kv.find? (s.cluster (c / 8)).staging set with
          | some buf => s.deliverSet (c / 8) set r buf ((c, b) :: t)
          | none =>
            match s.readTrouble (s.fetchRanges r x b) with
            | some (.pending q) => s.troubled c (.pending q)
            | some y => s.fetchTrouble r ((c, b) :: t) c y
            | none => s.deliverSet (c / 8) set r (s.fetchSet r x b) ((c, b) :: t)
      else s)

end Sys2Proof.Machine
end

