-- ==== Sys2Proof/Machine/RakeDecide.lean ====
section
/-! DEFINITION. The layer roll-up (R133 to R135), spans (R145), decision vectors (R141, R142), the Rake's decision (R146 to R150), the
statistics windows and ring (R153 to R155). -/

namespace Sys2Proof.Machine

/-! ## The roll-up (R133 to R135) -/

/-- One core's totals of one descriptor and attempt join a layer. -/
def Roll.take (r : Roll) (t : Totals) : Roll :=
  { r with
    fwd := if t.backward then r.fwd else r.fwd.add t.counts
    bwd := if t.backward then r.bwd.add t.counts else r.bwd
    invalid := r.invalid + t.invalid
    accumOverflows := r.accumOverflows + t.accumOverflows
    gradElements := r.gradElements + t.gradElements
    gradNonzero := r.gradNonzero + t.gradNonzero
    candidate := r.candidate || t.candidate
    exhausted := r.exhausted || (!t.backward && decide (0 < t.counts.finiteSat))
    bwdOverflow := r.bwdOverflow || (t.backward && decide (0 < t.counts.finiteSat)) }

/-- Overflow tallies of retried attempts join. -/
def Roll.takeRetried (r : Roll) (x : Nat × Nat × Nat) : Roll :=
  { r with accumOverflows := r.accumOverflows + x.1, invalid := r.invalid + x.2.1, recomputes := r.recomputes + x.2.2 }

/-- Overflow tallies alone (R135). -/
def Roll.tallies (r : Roll) : Roll :=
  { invalid := r.invalid, accumOverflows := r.accumOverflows, recomputes := r.recomputes, bwdOverflow := r.bwdOverflow }

/-- Every core's totals, which the cores then hold no more. -/
def State.rollUp (s : State) : State :=
  let all := s.cores.flatMap fun e => e.2.totals.map (·.2)
  let m := all.foldl (fun (m : KV Roll) t => Kv.put m t.layer ((Kv.getD m t.layer {}).take t)) s.rake.roll
  let m1 := s.rake.retried.foldl (fun (m : KV Roll) e => Kv.put m e.1 ((Kv.getD m e.1 {}).takeRetried e.2)) m
  { s with
    rake.roll := m1, rake.retried := []
    cores := s.cores.map fun (e : Nat × CoreSt) => (e.1, { e.2 with totals := [] }) }

/-- A layer's roll-up. -/
def State.rollOf (s : State) (l : Nat) : Roll := Kv.getD s.rake.roll l {}

/-! ## Fractions -/

/-- A count exceeds a fraction, an FP32 pattern, of another. -/
def aboveFraction (n pattern of_ : Nat) : Bool :=
  ((f32Val (BitVec.ofNat 32 pattern)).mul (.fin false of_ 0)).lt (.fin false n 0)

/-- A count is below a fraction of another. -/
def belowFraction (n pattern of_ : Nat) : Bool :=
  (Val.fin false n 0).lt ((f32Val (BitVec.ofNat 32 pattern)).mul (.fin false of_ 0))

/-! ## Spans (R145) -/

/-- Values in bins 1 to `b`. -/
def histUpTo (h : KV Nat) (b : Nat) : Nat := sumNat ((List.range b).map fun i => Kv.getD h (i + 1) 0)

/-- A histogram's span. -/
def spanOf (h : KV Nat) (tail : Nat) : Nat :=
  let n := histUpTo h 30
  if n = 0 then 0
  else
    let bins := (List.range 30).map (· + 1)
    let top := (bins.filter fun b => decide (0 < Kv.getD h b 0)).foldl max 1
    let lo := min top ((bins.filter fun b => !aboveFraction (histUpTo h (b - 1)) tail n).foldl max 1)
    if top = 30 ∨ lo = 1 then 31 else top - lo + 1

/-! ## Decision vectors (R141, R142) -/

/-- The pair of update norms that a step's Rake reads: those of the step before (R136, R141). -/
def State.normsOf (s : State) (step l : Nat) : Norms := Kv.getD (if step % 2 = 0 then s.rake.norms1 else s.rake.norms0) l {}

/-- This module's decision vector of a layer; a spare has that of the member it replaces. -/
def State.decVec (s : State) (l : Nat) : DecVec :=
  if !s.train.vectors.isEmpty then s.train.vectors.getD l {} else
  let r := s.rollOf l
  let k := r.fwd.add r.bwd
  let n := s.normsOf s.stepNow l
  { elements := k.elements, saturations := k.saturations, nonzeroPre := k.nonzeroPre, flushes := k.flushes
    gradElements := r.gradElements, gradNonzero := r.gradNonzero, invalid := r.invalid, updSq := n.updSq, wSq := n.wSq
    spanFwd := spanOf r.fwd.hist (s.ent Ent.rakeSpanTail), spanBwd := spanOf r.bwd.hist (s.ent Ent.rakeSpanTail)
    candidate := r.candidate, marked := (s.rakeOf l).marked, amaxFwd := r.fwd.amax, amaxBwd := r.bwd.amax }

/-- The 80 bytes of a decision vector. -/
def decBytes (v : DecVec) : List Byte :=
  leBytes 8 v.elements ++ leBytes 8 v.saturations ++ leBytes 8 v.nonzeroPre ++ leBytes 8 v.flushes ++ leBytes 8 v.gradElements
    ++ leBytes 8 v.gradNonzero ++ leBytes 4 v.invalid ++ leBytes 4 v.updSq.toNat ++ leBytes 4 v.wSq.toNat ++ leBytes 1 v.spanFwd
    ++ leBytes 1 v.spanBwd ++ leBytes 1 (bitN v.candidate + 2 * bitN v.marked) ++ zeros 1 ++ leBytes 4 v.amaxFwd.toNat
    ++ leBytes 4 v.amaxBwd.toNat ++ zeros 8

/-- The reduction of one layer's vectors, given in rank order. -/
def reduceVecs (vs : List DecVec) : DecVec :=
  let sum := fun (f : DecVec → Nat) => sumNat (vs.map f)
  let top := fun (f : DecVec → Nat) => (vs.map f).foldl max 0
  { elements := sum (·.elements), saturations := sum (·.saturations), nonzeroPre := sum (·.nonzeroPre), flushes := sum (·.flushes)
    gradElements := sum (·.gradElements), gradNonzero := sum (·.gradNonzero), invalid := sum (·.invalid)
    updSq := canonicalSum (vs.map (·.updSq)), wSq := canonicalSum (vs.map (·.wSq)), spanFwd := top (·.spanFwd), spanBwd := top (·.spanBwd)
    candidate := vs.any (·.candidate), marked := vs.any (·.marked), amaxFwd := (vs.map (·.amaxFwd)).foldl amaxMax 0
    amaxBwd := (vs.map (·.amaxBwd)).foldl amaxMax 0 }

/-- A layer's vectors of every member, in rank order, its own among them. -/
def State.memberVecs (s : State) (others : List RakeContribution) (l : Nat) : List DecVec :=
  let e := s.group (s.ent Ent.trainRunGroup)
  if s.groupP (s.ent Ent.trainRunGroup) ≤ 1 then [s.decVec l]
  else (List.range e.p).map fun r =>
    if r = e.rank then s.decVec l
    else match others.find? (fun x => x.rank == r) with
      | some x => x.vectors.getD l {}
      | none => {}

/-! ## The decision (R146, R147) -/

/-- Next rung of a ladder wider, and narrower, than a rung. -/
def widerRung (ladder r : Nat) : Option Nat := (List.range 5).find? fun u => decide (r < u) && onLadder ladder u
def narrowerRung (ladder r : Nat) : Option Nat := ((List.range 5).filter fun d => decide (d < r) && onLadder ladder d).getLast?

/-- What the Rake decides of a layer. -/
structure Choice where
  st : RakeSt
  reason : Nat
  deriving DecidableEq, Repr

/-- move_up. -/
def State.moveUp (s : State) (ladder : Nat) (x : RakeSt) (why : Nat) : Choice :=
  let y := { x with marked := false, streak := 0 }
  match widerRung ladder x.rung with
  | none => { st := y, reason := 8 }
  | some u =>
    if why = 6 then { st := { y with rung := u }, reason := why }
    else
      { st := { y with
          rung := u, hold := min (s.ent Ent.rakeHoldBase * 2 ^ x.retreats) (s.ent Ent.rakeHoldMax), retreats := min (x.retreats + 1) 15 }
        reason := why }

/-- A value is a finite number. -/
def Val.isFin : Val → Bool
  | .fin _ _ _ => true
  | _ => false

/-- clean(v, p). -/
def State.cleanVec (s : State) (v : DecVec) : Bool :=
  let u := f32Val v.updSq
  let w := f32Val v.wSq
  let ratio := f32Val (BitVec.ofNat 32 (s.ent Ent.rakeRatioHi))
  !aboveFraction v.saturations (s.ent Ent.rakeSatLo) v.elements && !aboveFraction v.flushes (s.ent Ent.rakeFlushLo) v.nonzeroPre
    && v.invalid == 0 && u.isFin && w.isFin && (w.isZero || !(((ratio.mul ratio).mul w).lt u))

/-- span_fits(d, v, p). -/
def State.spanFits (s : State) (d : Nat) (v : DecVec) : Bool :=
  if d = 1 then decide (v.spanFwd ≤ s.ent Ent.rakeSpanE4m3) && decide (v.spanBwd ≤ s.ent Ent.rakeSpanE5m2)
  else if d = 3 then
    let m := f32Val (BitVec.ofNat 32 (s.ent Ent.rakeRockAmax))
    !(m.lt (f32Val v.amaxFwd)) && !(m.lt (f32Val v.amaxBwd))
  else true

/-- The part of the procedure that follows a clean or unhealthy vector of a committed step. -/
def State.rakeHealthy (s : State) (ladder : Nat) (x : RakeSt) (v : DecVec) : Choice :=
  if aboveFraction v.saturations (s.ent Ent.rakeSatHi) v.elements then s.moveUp ladder x 3
  else if v.candidate || aboveFraction v.flushes (s.ent Ent.rakeFlushHi) v.nonzeroPre then s.moveUp ladder x 4
  else if !s.cleanVec v then { st := { x with streak := 0 }, reason := 0 }
  else
    let y := { x with streak := min (x.streak + 1) 65535 }
    match narrowerRung ladder x.rung with
    | some d =>
      if s.ent Ent.rakeMode = 1 ∧ y.hold = 0 ∧ s.ent Ent.rakeNarrowAfter ≤ y.streak ∧ y.floor ≤ d ∧ s.spanFits d v then
        { st := { y with rung := d, streak := 0 }, reason := 1 }
      else { st := y, reason := 0 }
    | none => { st := y, reason := 0 }

/-- rake_layer. -/
def State.rakeLayer (s : State) (ladder : Nat) (x : RakeSt) (due committed : Bool) (v : DecVec) : Choice :=
  if s.ent Ent.rakeMode = 0 then { st := x, reason := 7 }
  else
    let y := if committed then { x with hold := x.hold - 1 } else x
    if y.rung < y.floor then s.moveUp ladder y 6
    else if y.marked || v.marked then s.moveUp ladder y 2
    else if due then s.moveUp ladder y 5
    else if !committed then { st := y, reason := 9 }
    else s.rakeHealthy ladder y v

/-! ## Silent gradients (R148, R149) -/

/-- What one layer's silent count comes to: the state, whether a Warning is due, and whether Severe is. -/
structure Silent where
  st : RakeSt
  warn : Bool := false
  severe : Bool := false
  count : Nat := 0
  deriving DecidableEq, Repr

/-- The count of R148 and the thresholds of R149. MARK, DESIGN CHOICE (log 72): an event fires when the count comes to equal its entry; where
the entry is lowered to or below the present count none fires until the count has returned to 0. -/
def State.silentLayer (s : State) (ladder : Nat) (x : RakeSt) (v : DecVec) : Silent :=
  if !ladderGrad ladder ∨ v.gradElements = 0 then { st := x }
  else if belowFraction v.gradNonzero (s.ent Ent.rakeSilentFraction) v.gradElements then
    let n := min (x.silent + 1) 65535
    let on := s.ent Ent.rakeSilentWindow ≠ 0
    let severe := decide on && decide (n = s.ent Ent.rakeSilentSevere)
    { st := { x with silent := if severe then 0 else n }, warn := decide on && decide (n = s.ent Ent.rakeSilentWindow), severe := severe, count := n }
  else { st := { x with silent := 0 } }

/-- The events of R149: layer, count, fraction. -/
def State.silentEvents (s : State) (l : Nat) (x : Silent) (v : DecVec) : State :=
  let f := f32OfRatio v.gradNonzero v.gradElements
  let s1 := if x.warn then s.condition 1 0x3120 l x.count f else s
  if x.severe then s1.condition 2 0x3120 l x.count f else s1

/-! ## Windows and ring (R153 to R155) -/

/-- win.update_ratio: the root of the quotient; 0 without a ratio. MARK, DESIGN CHOICE (log 74): the quotient is rounded to FP32, and then its
root. -/
def ratioBits (v : DecVec) : F32 :=
  if (f32Val v.wSq).isZero then 0 else (vecFn .sqrt (vecFn .div v.updSq v.wSq 0).1 0 0).1

/-- A layer's window after its decision. MARK, DESIGN CHOICE (log 74): flag [4] holds while the silent count stands at or above a nonzero
silent window after the decision, so that it drops at Severe. -/
def State.newWindow (s : State) (l ladder : Nat) (committed severe : Bool) (before : RakeSt) (own v : DecVec) (c : Choice) : WinSt :=
  let old := Kv.getD s.rake.windows l {}
  let r := s.rollOf l
  let rung := s.rungOf l
  let on := s.ent Ent.rakeSilentWindow ≠ 0 ∧ s.ent Ent.rakeSilentWindow ≤ c.st.silent
  let k := r.fwd.add r.bwd
  { step := s.stepNow, status := if committed then 1 else 2, rung := rung, nextRung := c.st.rung, reason := c.reason, streak := c.st.streak
    hold := c.st.hold, retreats := c.st.retreats, silent := c.st.silent
    flags := bitN r.candidate + 2 * bitN before.marked + 4 * bitN r.exhausted + 8 * bitN (decide (0 < r.invalid)) + 16 * bitN (decide on)
      + 32 * bitN severe + 64 * bitN (!ladderGrad ladder) + 128 * bitN (f32Val v.wSq).isZero
    counts := if committed then { k with hist := r.fwd.hist } else { hist := old.counts.hist }
    bwdHist := if committed then r.bwd.hist else old.bwdHist
    invalid := r.invalid, fwdRecomputes := r.recomputes, accumOverflows := r.accumOverflows
    gradElements := r.gradElements, gradNonzero := r.gradNonzero, amaxFwd := own.amaxFwd, amaxBwd := own.amaxBwd
    updateRatio := if committed then ratioBits v else 0
    energyUj := if committed then Kv.getD s.pwr.layerUj l 0 else 0, spanFwd := own.spanFwd, spanBwd := own.spanBwd
    stepsAt := if committed then old.stepsAt.set rung (old.stepsAt.getD rung 0 + 1) else old.stepsAt
    invalidTotal := old.invalidTotal }

/-- A committed step's window with what the update has added to the layer's roll-up and energy since the Rake ran (R130, R137). -/
def WinSt.late (w : WinSt) (r : Roll) (uj tail : Nat) : WinSt :=
  { w with
    counts := { r.fwd.add r.bwd with hist := r.fwd.hist }, bwdHist := r.bwd.hist, invalid := r.invalid
    flags := w.flags + (if 0 < r.invalid ∧ w.flags.testBit 3 = false then 8 else 0)
    accumOverflows := r.accumOverflows, gradElements := r.gradElements, gradNonzero := r.gradNonzero
    amaxFwd := r.fwd.amax, amaxBwd := r.bwd.amax, spanFwd := spanOf r.fwd.hist tail, spanBwd := spanOf r.bwd.hist tail, energyUj := uj }

/-- A window as the whole roll-up leaves it. -/
def State.fullWindow (s : State) (l : Nat) (w : WinSt) : WinSt :=
  let r := s.rollOf l
  let w1 := if w.status = 1 then w.late r (Kv.getD s.pwr.layerUj l 0) (s.ent Ent.rakeSpanTail) else w
  { w1 with invalidTotal := w1.invalidTotal + r.invalid }

/-- All windows change together (R154). DEDUCED (log 77): at the boundary, which is when the step's roll-up, the update's records among it, is
whole. -/
def State.changeWindows (s : State) : State :=
  { s with
    rake.windows := s.rake.next.foldl (fun (m : KV WinSt) e => Kv.put m e.1 (s.fullWindow e.1 e.2)) s.rake.windows
    rake.next := [] }

/-- The 128-byte ring record of a layer (R155). -/
def ringRecord (l : Nat) (w : WinSt) (own : DecVec) : List Byte :=
  leBytes 8 w.step ++ leBytes 2 l ++ leBytes 1 w.status ++ leBytes 1 w.rung ++ leBytes 1 w.nextRung ++ leBytes 1 w.reason ++ zeros 2
    ++ decBytes own ++ leBytes 8 w.counts.zeroBlocks ++ leBytes 4 (f32OfRatio w.energyUj 1000000) ++ leBytes 4 w.accumOverflows
    ++ leBytes 1 w.fwdRecomputes ++ zeros 15

/-- The step's slot of the ring, at a boundary at which the Rake has run (R155). MARK, DESIGN CHOICE (log 78): where the slot's pages are
no longer all mapped, which the spec does not treat, the slot is not written and the head stays; one that may not be written is a
violation (R266, R293). -/
def State.writeRing (s : State) : State :=
  let depth := s.ent Ent.salRingSteps
  let n := s.layerCount
  let a := s.ent Ent.salRingBase + s.stepNow % max depth 1 * (128 * n)
  if depth = 0 ∨ s.rake.own = [] ∨ !s.rangeMapped a (128 * n) then s
  else
    let bytes := (List.range n).flatMap fun l => ringRecord l (Kv.getD s.rake.windows l {}) (s.rake.own.getD l {})
    if s.writeCode false a (128 * n) ≠ 0 then s.memViolation (s.writeCode false a (128 * n)) a
    else (s.ownWrite a bytes).setEnt Ent.salRingHead s.stepNow

/-! ## One run of the Rake (R144) -/

/-- One layer: its silent count, its decision, its counters and its window. -/
def State.rakeOne (s : State) (g : Program) (committed : Bool) (l : Nat) (own v : DecVec) : State × Bool :=
  let ladder := (g.layers.getD l {}).ladder
  let x := s.rakeOf l
  let q : Silent := if committed then s.silentLayer ladder x v else { st := x }
  let s1 := s.silentEvents l q v
  let c := s1.rakeLayer ladder q.st q.severe committed v
  let s2 := s1.setRake l c.st
  let s3 := (s2.bump 64 Ent.rakeNarrowings (bitN (decide (c.st.rung < x.rung)))).bump 64 Ent.rakeWidenings (bitN (decide (x.rung < c.st.rung)))
  ({ s3 with rake.next := Kv.put s3.rake.next l (s3.newWindow l ladder committed q.severe x own v c) }, q.severe)

/-- Layers whose silent count stands at or above the window (R156). -/
def State.silentLayers (s : State) : Nat :=
  if s.ent Ent.rakeSilentWindow = 0 then 0
  else ((List.range s.layerCount).filter fun l => decide (s.ent Ent.rakeSilentWindow ≤ (s.rakeOf l).silent)).length

/-- λ rises once where any layer is due (R150). -/
def State.silentRaise (s : State) (due : Bool) : State :=
  if due ∧ s.ent Ent.rakeMode ≠ 0 then
    let v := if s.train.grew then s.ent Ent.lossScaleExp else min (s.ent Ent.lossScaleExp + 1) (s.ent Ent.lossMaxExp)
    let s1 := (s.setEnt Ent.lossScaleExp v).setEnt Ent.lossCleanSteps 0
    { s1 with train.commit := { s1.train.commit with lambda := v, clean := 0 } }
  else s

/-- Every layer. -/
def State.rakeAll (s : State) (g : Program) (committed : Bool) (vs : List (DecVec × DecVec)) : State × Bool :=
  vs.zipIdx.foldl (fun (a : State × Bool) x =>
    let r := a.1.rakeOne g committed x.2 x.1.1 x.1.2
    (r.1, a.2 || r.2)) (s, false)

/-- The Rake runs on the reduced vectors. -/
def State.runRake (s : State) (g : Program) (others : List RakeContribution) : State :=
  let committed := decide (s.train.outcome = 1)
  let own := (List.range g.layers.length).map s.decVec
  let vs := (List.range g.layers.length).map fun l => (s.decVec l, reduceVecs (s.memberVecs others l))
  let r := s.rakeAll g committed vs
  { (r.1.silentRaise r.2).syncFormats g fun l => (r.1.rakeOf l).rung with rake.own := own }

/-- A pending floor is installed before the reduction's check and the decision (R140). -/
def State.installFloors (s : State) : State :=
  let floor := fun (p : Nat × Nat) => decide (0xA000 ≤ p.1 / 256) && decide (p.1 / 256 < 0xB000) && p.1 % 256 == 5
  (s.dict.pend.filter floor).foldl (fun s p => s.settlePending p.1 p.2) { s with dict.pend := s.dict.pend.filter fun p => !floor p }

end Sys2Proof.Machine
end

