-- ==== Sys2Proof/Machine/Train.lean ====
section
/-! DEFINITION. The end of a step: the finite check, the commit, the Rake's run, the update and the step boundary, and the numerics
self-test (R95, R96, R124, R126, R135, R136, R142, R181, R216, R222 to R236, R290, R296, R297, R306, R308, R312). -/

namespace Sys2Proof.Machine

/-! ## FINITE_CHECK (R216, R221, R222, R296) -/

/-- Every admitted forward and backward descriptor has completed, and none is still to be admitted. -/
def State.forwardDone (s : State) : Bool :=
  (s.prog.stream0 ++ s.prog.stream1).all (fun it => it.update) && s.prog.pool.all fun r => r.update

/-- This member's 16 bytes of the finite check (R222). -/
def State.checkBytes (s : State) : List Byte :=
  leBytes 1 (bitN s.train.nonFinite + 2 * bitN s.train.fault) ++ zeros 3 ++ leBytes 4 (maskCrc s.train.mask)
    ++ leBytes 8 (s.ent Ent.trainStepIndex)

/-- The M2 mirror: contribution, staging array, decision vectors (R296). -/
def State.mirrorM2 (s : State) : List Byte :=
  s.checkBytes ++ ((List.range s.recordCount).flatMap fun i => (Kv.getD s.scale.staged i {}).bytes)
    ++ (List.range s.layerCount).flatMap fun l => decBytes (s.decVec l)

/-- FINITE_CHECK (R222): with every admitted descriptor complete, phase 3 begins; the member contributes once its M2 mirror is
acknowledged. -/
def execFiniteCheck (s : State) : Out :=
  .next (
    if s.pwr.on ∧ s.running ∧ s.forwardDone then
      let s1 := { s.rollUp with train.mask := s.ent Ent.commitFrozenPending }.setPhase 3
      let s2 := if s.train.replaying then s1 else s1.sendMirror 2 s1.mirrorM2
      { s2 with train.contributed := !s2.crust.mirrorWait.contains 2 }
    else if s.pwr.on ∧ s.phase = 3 ∧ s.train.contributed = false ∧ s.crust.mirrorWait.contains 2 = false then
      { s with train.contributed := true }
    else s)

/-! ## The lost predecessor's part (R303) -/

/-- Entries of `n` bytes of value with their complements: the values. -/
def pairsOf (n : Nat) (l : List Byte) : List (List Byte) := (List.range (l.length / (2 * n))).map fun i => slice l (2 * n * i) n

/-- Sections of an M3 mirror (R296): scale table, Rake states, commit record, ledger, groups, masks; the ledger takes what is left. -/
structure M3Parts where
  scales : List Byte
  rake : List Byte
  commit : List Byte
  ledger : List Byte
  groups : List Byte
  masks : List Byte
  deriving DecidableEq, Repr

def State.m3Parts (s : State) (l : List Byte) : M3Parts :=
  let a := 160 * s.recordCount
  let b := a + 16 * s.layerCount
  let c := b + 128
  let e := l.length - 16
  let d := e - 256 * 1056
  { scales := slice l 0 a, rake := slice l a (b - a), commit := slice l b 128, ledger := slice l c (d - c), groups := slice l d (e - d),
    masks := slice l e 16 }

/-- The decision vector that 80 bytes spell (R141). -/
def decVecOf (l : List Byte) : DecVec :=
  { elements := leAt l 0 8, saturations := leAt l 8 8, nonzeroPre := leAt l 16 8, flushes := leAt l 24 8, gradElements := leAt l 32 8,
    gradNonzero := leAt l 40 8, invalid := leAt l 48 4, updSq := BitVec.ofNat 32 (leAt l 52 4), wSq := BitVec.ofNat 32 (leAt l 56 4),
    spanFwd := leAt l 60 1, spanBwd := leAt l 61 1, candidate := (leAt l 62 1).testBit 0, marked := (leAt l 62 1).testBit 1,
    amaxFwd := BitVec.ofNat 32 (leAt l 64 4), amaxBwd := BitVec.ofNat 32 (leAt l 68 4) }

/-- The M2 mirror of the predecessor, where that is lost and had completed it for the step in flight: this successor contributes it. -/
def State.standIn (s : State) : Option (List Byte) :=
  if s.crustMember && s.crust.lost.contains ((s.crustRankOf + 7) % 8) then
    (Kv.find? s.crust.mirrors 2).filter fun l => leAt l 8 8 == s.stepNow
  else none

/-- The predecessor's M3 mirror. -/
def State.standInM3 (s : State) : Option M3Parts := (Kv.find? s.crust.mirrors 3).map s.m3Parts

/-- This module's epoch of the run group. -/
def State.runEpoch (s : State) : Nat := (s.group (s.ent Ent.trainRunGroup)).epoch

/-- Staged magnitudes of group-scaled records in an M2 mirror, with their counts as M3 gives them. -/
def State.mirroredAmax (s : State) (l : List Byte) : List (Nat × F32 × Nat) :=
  ((List.range s.recordCount).filter fun i => (s.scaleRec i).grouped && leAt l (16 + 8 * i) 4 != 0).map fun i =>
    (i, BitVec.ofNat 32 (leAt l (16 + 8 * i) 4),
      match s.standInM3 with | some m => leAt m.scales (160 * i + 0x41) 1 | none => (s.scaleRec i).count)

/-- The lost predecessor's contribution to the finite check. -/
def State.mirroredCheck (s : State) : Option FcContribution :=
  s.standIn.map fun l => {
    nonFinite := (leAt l 0 1).testBit 0, fault := (leAt l 0 1).testBit 1, frozenCrc := leAt l 4 4, step := leAt l 8 8
    groupAmax := s.mirroredAmax l, epoch := s.runEpoch }

/-- Check of the Rake table in a member's M3 mirror; without one, that of this member, which agreed with it. -/
def State.mirroredCrc (s : State) : Nat :=
  match s.standInM3 with
  | some m => crc32c ((pairsOf 8 m.rake).flatMap fun l => ({ rakeStOf (leNat l) with marked := false } : RakeSt).bytes)
  | none => s.rakeCrc

/-- The lost predecessor's contribution to the Rake's reduction. -/
def State.mirroredVecs (s : State) : Option RakeContribution :=
  let node := (s.group (s.ent Ent.crustGroup)).members.getD ((s.crustRankOf + 7) % 8) 0xFFFF
  s.standIn.bind fun l => ((s.group (s.ent Ent.trainRunGroup)).members.findIdx? (· == node)).map fun rank => {
    rank := rank, step := leAt l 8 8, stateCrc := s.mirroredCrc
    vectors := (List.range s.layerCount).map fun i => decVecOf (slice l (16 + 8 * s.recordCount + 80 * i) 80), epoch := s.runEpoch }

/-! ## The outcome (R222) -/

/-- Outcome of the check: 1 committed, 2 skipped for a non-finite value, 3 skipped for a fault. -/
def State.checkOutcome (s : State) (others : List FcContribution) : Nat :=
  if s.train.nonFinite || others.any (·.nonFinite) then 2 else if s.train.fault || others.any (·.fault) then 3 else 1

/-- Every member gave the same step index in this module's epoch, and the same CRC of its pending mask. -/
def State.stepsEqual (s : State) (others : List FcContribution) : Bool :=
  others.all fun x => x.step == s.ent Ent.trainStepIndex && x.epoch == s.runEpoch
def State.masksEqual (s : State) (others : List FcContribution) : Bool :=
  others.all fun x => x.frozenCrc == maskCrc s.train.mask

/-- A GROUP fault (R142, R222, R223): Severe, and the step has no outcome. -/
def State.groupFault (s : State) : State :=
  s.raise { fault 0x14 .module 0 with addr := s.ent Ent.trainRunGroup + 256 * (s.group (s.ent Ent.trainRunGroup)).epoch, space := 4 }

/-! ## Amax histories (R95, R96, R126, R128) -/

/-- A record takes a pushed amax. -/
def ScaleRec.push (r : ScaleRec) (a : F32) : ScaleRec :=
  { r with amax := r.amax.set r.head a, head := (r.head + 1) % 16, count := min (r.count + 1) 16 }

/-- The group's magnitude of a group-scaled record, and whether the members' counts agree (R96, R128). -/
def groupAmaxOf (others : List FcContribution) (i : Nat) (own : F32) (count : Nat) : F32 × Bool :=
  (others.flatMap (·.groupAmax)).foldl (fun (a : F32 × Bool) x =>
    if x.1 = i then (amaxMax a.1 x.2.1, a.2 && x.2.2 == count) else a) (own, true)

/-- A reset that records of unequal counts take: reason reset, from the next step. -/
def State.pushStaged (s : State) (others : List FcContribution) (i : Nat) (x : Staged) : State :=
  let r := s.scaleRec i
  let s0 := { s with scale.staged := Kv.del s.scale.staged i }
  if r.bad then s0.lostRecord i (scaleTableBase + 160 * i)
  else if x.bad then s0.lostRecord i (stagingBase + 8 * i)
  else
    let g := if r.grouped then groupAmaxOf others i x.amax r.count else (x.amax, true)
    if g.2 then { s0 with scale.recs := Kv.put s0.scale.recs i (r.push g.1) } else s0.resetRecord i 2

/-- t and attempt of a record as its step ends; memory of an update-written tensor keeps the old t until the update writes it.
MARK, DESIGN CHOICE (log 109): the record takes the step's t at every commit (R98, R226), and later steps read the tensor at that field
(R233, third bullet), also where its group is frozen and the update rewrites nothing. -/
def State.settleRecord (s : State) (i : Nat) : State :=
  let r := s.scaleRec i
  let s1 := if r.updWritten then { s with scale.heldT := Kv.put s.scale.heldT i r.t } else s
  { s1 with scale.recs := Kv.put s1.scale.recs i { r with t := Kv.getD s.scale.stepT i r.t, attempt := Kv.getD s.scale.stepAttempt i 0 } }

/-- Group-scaled records that this member pushes nothing to in the step, and whose counts differ among the members (R128). -/
def State.unequalRecords (s : State) (others : List FcContribution) : List Nat :=
  (s.scale.recs.filter fun e =>
    e.2.grouped && !e.2.bad && (Kv.find? s.scale.staged e.1).isNone && !(groupAmaxOf others e.1 0 e.2.count).2).map (·.1)

/-- Move 1 of R224, for a committed step. -/
def State.commitScales (s : State) (others : List FcContribution) : State :=
  let s1 := (s.scale.recs.filter fun e => !e.2.bad).foldl (fun s e => s.settleRecord e.1) s
  let s2 := s.scale.staged.foldl (fun s e => s.pushStaged others e.1 e.2) s1
  let s3 := (s.unequalRecords others).foldl (fun s i => s.resetRecord i 2) s2
  s3.checkRecords

/-! ## Loss scale (R124), tokens (R415) -/

/-- λ and the clean count after the move, and whether λ grew. -/
def State.lossMove (s : State) (committed : Bool) : Nat × Nat × Bool :=
  let l := s.ent Ent.lossScaleExp
  if committed then
    let n := s.ent Ent.lossCleanSteps + 1
    if s.ent Ent.lossGrowthInterval ≠ 0 ∧ s.ent Ent.lossGrowthInterval ≤ n then
      (min (l + 1) (s.ent Ent.lossMaxExp), 0, true)
    else (l, n, false)
  else (l - 1, 0, false)

/-- Samples that the step adds to the cursor. -/
def State.samplesAdded (s : State) : Nat :=
  if s.ent Ent.trainBatchParam = 0xFF then 1 else s.prog.shapes.getD (s.ent Ent.trainBatchParam) 0

/-- Tokens of the step. -/
def State.stepTokens (s : State) : Nat :=
  if s.ent Ent.energyTokensParam = 0xFF then s.samplesAdded * s.ent Ent.energyTokensPerSample
  else s.prog.shapes.getD (s.ent Ent.energyTokensParam) 0

/-! ## The commit (R224, R225) -/

/-- The commit record, from the values after the moves. -/
def State.newCommit (s : State) (outcome : Nat) (updates : Bool) : CommitRec :=
  let m := s.lossMove (outcome == 1)
  { step := s.ent Ent.trainStepIndex, outcome := outcome, lambda := m.1, clean := m.2.1
    samples := (s.ent Ent.trainCursorSamples + s.samplesAdded) % 2 ^ 64, stamp := (s.ent Ent.trainStepIndex + 1) % 2 ^ 64
    rngStep := (s.ent Ent.rngStep + 1) % 2 ^ 64, frozenCrc := maskCrc (s.ent Ent.commitFrozenMask)
    update := if outcome = 1 ∧ updates then 1 else 0 }

/-- The step's items of the update phase. -/
def State.updateItems (s : State) : Bool := (s.prog.stream0 ++ s.prog.stream1).any fun it => it.update

/-- Moves 2 and 3 of R224. -/
def State.moveCounters (s : State) (c : CommitRec) (grew : Bool) : State :=
  let s1 := { (s.setEnt Ent.lossScaleExp c.lambda).setEnt Ent.lossCleanSteps c.clean with train.grew := grew }
  (((s1.setEnt Ent.trainStepIndex c.stamp).setEnt Ent.rngStep c.rngStep).setEnt Ent.trainCursorSamples c.samples).setEnt
    Ent.trainCursorStamp c.stamp

/-- What the outcome counts (R242, R415, R416). -/
def State.countOutcome (s : State) (outcome tokens : Nat) : State :=
  let s1 := s.setEnt Ent.trainLastOutcome outcome
  let s2 := (s1.setEnt Ent.energyLastStep s.train.commit.step).setEnt Ent.energyLastStepTokens (if outcome = 1 then tokens % 2 ^ 32 else 0)
  if outcome = 1 then (s2.bump 64 Ent.trainCommitted 1).bump 64 Ent.energyWindowTokens tokens else s2.bump 64 Ent.trainSkipped 1

/-- In yield mode a resync that has not ended when the apply stage begins starts over at the next step (R297). -/
def State.dropResync (s : State) : State :=
  if s.ent Ent.crustMode = 2 ∧ s.ent Ent.crustState = 1 then { s.goStale with crust.resync := false, crust.passed := [] } else s

/-- A spare whose step has committed needs a gradient that is not covered: a Severe fault, and its update does not run (R303, R314). -/
def State.stopUncovered (s : State) : State :=
  if s.train.uncovered && s.train.updating then
    { (s.raise (fault 0x13 .module 0)).setEnt Ent.crustState 5 with train.updating := false }
  else s

/-- The commit record, then the moves. -/
def State.commitStep (s : State) (others : List FcContribution) (outcome : Nat) : State :=
  let committed := outcome == 1
  let tokens := s.stepTokens
  let updates := s.updateItems
  let c := s.newCommit outcome updates
  let grew := (s.lossMove committed).2.2
  let s1 := if !committed && s.ent Ent.lossScaleExp == 0 then s.condition 1 0x3010 c.step 0 0 else s
  let s2 := ({ s1 with
    train.commit := c, train.ledger := if s.train.vectors.isEmpty then [] else s.train.ledger, train.outcome := outcome
    train.updating := committed && updates, train.updateDone := !(committed && updates)
    train.masksAgree := s.masksEqual others }).setPhase 4
  let s3 := if committed then (s2.commitScales others).dropResync
            else { s2 with
              scale.staged := [], prog.stream0 := [], prog.stream1 := []
              rake.roll := s2.rake.roll.map fun (e : Nat × Roll) => (e.1, e.2.tallies) }
  let s4 := ((s3.moveCounters c grew).countOutcome outcome tokens).stopUncovered
  if s.masksEqual others then s4 else s4.condition 1 0x3420 s.train.mask 0 0

/-- A replay ends with its finite check: its outcome shows, its Notices are written, and boundary values take effect (R216, R290). -/
def State.endReplay (s : State) (outcome : Nat) : State :=
  (((((s.setEnt Ent.replayState outcome).invalidNotices).settleEnergy false).restoreMarks).clearStep).phaseZero

/-- FINITE_CHECK_RESULT (R222, R224, R225): the outcome, the commit record and the moves; members at different steps or epochs have no
outcome (R304). A lost predecessor's part comes from its mirror (R303). -/
def execFiniteCheckResult (heard : List FcContribution) (s : State) : Out :=
  let others := heard ++ s.mirroredCheck.toList
  .next (
    if s.pwr.on ∧ s.phase = 3 ∧ s.train.contributed ∧ others.length + 1 = max 1 (s.groupP (s.ent Ent.trainRunGroup)) then
      let s0 := (s.setEnt Ent.commitFiniteCheckUs (Config.timing s.clk.freeNext % 2 ^ 32)).draw
      if !s.stepsEqual others then s0.groupFault.latchAll
      else if s.train.replaying then (s0.endReplay (s.checkOutcome others)).latchAll
      else (s0.commitStep others (s.checkOutcome others)).latchAll
    else s)

/-- FINITE_CHECK_TIMEOUT (R223): a Severe GROUP fault, and the step ends with no outcome. -/
def execFiniteCheckTimeout (s : State) : Out :=
  .next (if s.pwr.on ∧ s.phase = 3 then s.groupFault.latchAll else s)

/-! ## RAKE_REDUCTION_DONE (R142, R144) -/

/-- The members that the reduction needs have all contributed. -/
def State.rakeMembers (s : State) (others : List RakeContribution) : Bool :=
  let e := s.group (s.ent Ent.trainRunGroup)
  decide (s.groupP (s.ent Ent.trainRunGroup) ≤ 1)
    || (List.range e.p).all fun r => r == e.rank || others.any fun x => x.rank == r

/-- The members' steps, epochs or Rake states differ: a Severe GROUP fault, and the next step does not start (R142, R304). -/
def State.rakeDiverged (s : State) (others : List RakeContribution) : Bool :=
  others.any fun x => x.step != s.stepNow || x.stateCrc != s.rakeCrc || x.epoch != s.runEpoch

/-- A member has asked for rake.reset, this one by a value still pending perhaps: it is due at this boundary on every member (R156). -/
def State.askReset (s : State) (others : List RakeContribution) : State :=
  { s with
    rake.resetDue := s.rake.resetDue || s.rake.resetAsked || s.dict.pend.any (fun p => p.1 == Ent.rakeReset) || others.any (·.reset)
    rake.resetAsked := false, dict.pend := s.dict.pend.filter fun p => p.1 != Ent.rakeReset }

/-- RAKE_REDUCTION_DONE (R142 to R150): state agreement is checked and every layer decided, once the die management processor of die 0
can run it. -/
def execRakeReductionDone (heard : List RakeContribution) (micros : Nat) (s : State) : Out :=
  let others := heard ++ s.mirroredVecs.toList
  .next (
    match s.prog.loaded with
    | none => s
    | some g =>
      if s.pwr.on ∧ s.phase = 4 ∧ s.rake.done = false ∧ s.rep.dmpSwapping.contains 0 = false ∧ s.rakeMembers others then
        let s1 := s.installFloors.askReset others
        let s2 := { s1 with rake.done := true }.setEnt Ent.rakeLastUs (micros % 2 ^ 32)
        if s1.rakeDiverged others then ({ s2 with train.rakeHalt := true }.groupFault).latchAll
        else
          match (List.range g.layers.length).find? (fun l => (s1.rakeOf l).bad) with
          | some l => (s2.badRake l).latchAll
          | none => (s2.runRake g others).latchAll
      else s)

/-! ## The update (R227 to R233) -/

/-- Update descriptors of a layer in flight. -/
def State.layerUpdates (s : State) (l : Nat) : List DescRun := s.prog.pool.filter fun r => r.isUpdate && r.d.layer == l

/-- Update descriptors of a layer still to be admitted. -/
def State.updatesToCome (s : State) (l : Nat) : Bool :=
  (s.prog.stream0 ++ s.prog.stream1).any fun it => it.update && (s.descAt it.index).kind == 2 && (s.descAt it.index).layer == l

/-- One update's gather stage is complete. -/
def State.gatherOver (s : State) (r : DescRun) : Bool :=
  r.gathered || (r.ready && (s.idleGather r || r.allDone))

/-- Chunks of an update that the ledger marks done before its apply stage starts: on a spare, those that the lost member had sealed
(R295, R303). -/
def State.sealedChunks (s : State) (pos : Nat) : List Nat := (s.train.ledger.filter fun k => k.1 == pos).map (·.2)

/-- The apply stage of one update starts (R229, R233); on a spare it resumes with the chunks that the ledger does not mark done (R231). -/
def State.startApply (s : State) (r : DescRun) : State :=
  let s1 := if s.idleGather r then s else s.endVector r
  let done := s.sealedChunks r.pos
  let s2 := if s.train.vectors.isEmpty then s1 else s1.bump 64 Ent.commitUpdateChunksResumed (r.unitCount - done.length)
  s2.mapDesc r.pos fun d =>
    { d.again with sums := d.sums, gathered := true, amaxPass := s.needsPass d.d true, issued := done, finished := done }

/-- UPDATE_GATHER_DONE (R229): the gather stage of every update descriptor of a layer is complete, and their apply stages start. -/
def execUpdateGatherDone (layer : Nat) (s : State) : Out :=
  .next (
    let rs := s.layerUpdates layer
    if s.pwr.on ∧ s.phase = 4 ∧ s.train.updating ∧ rs ≠ [] ∧ s.updatesToCome layer = false ∧ rs.all s.gatherOver ∧ s.endRoom rs then
      ((rs.filter fun r => !r.gathered).foldl State.startApply s).latchAll
    else s)

/-- Every chunk of an apply stage is released and marked done in the ledger. -/
def State.applyOver (s : State) (r : DescRun) : Bool :=
  r.isUpdate && r.gathered && !r.amaxPass && r.allDone && (List.range r.unitCount).all fun i => s.train.ledger.contains (r.pos, i)

/-- Records of the tensors that a layer's updates write take the amax values staged for them (R233). MARK, DESIGN CHOICE (log 70): the finite
check's reduction (R96) is over by then, so a group-scaled record takes this member's own value unreduced. -/
def State.pushLayer (s : State) (l : Nat) : State :=
  let ts := (s.prog.all.filter fun it => it.update && (s.descAt it.index).layer == l).flatMap fun it => s.writesOf (s.descAt it.index) true
  let ids := ts.map fun t => (s.tensor t).scaleRecord
  (s.scale.staged.filter fun e => ids.contains e.1).foldl (fun s e => s.pushStaged [] e.1 e.2) s

/-- One update completes with work. -/
def State.endUpdate (s : State) (r : DescRun) : State :=
  let s1 := s.endVector r
  let s2 := (s1.completeDesc ((s1.desc? r.pos).getD r)).bump 64 (Ent.groupUpdates (s.preamble r.d).group) 1
  if (s2.layerUpdates r.d.layer).isEmpty && !s2.updatesToCome r.d.layer then s2.pushLayer r.d.layer else s2

/-- Updates whose apply stages are over complete. -/
def State.settleUpdates (s : State) : State :=
  (s.prog.pool.filter s.applyOver).foldl (fun s r => if s.endRoom [r] then s.endUpdate r else s) s

/-- APPLY_CHUNK_COMPLETE (R114, R229, R230, R233): an apply chunk releases its writes together with their parity deltas; its ledger mark
waits for the seal. -/
def execApplyChunkComplete (x : ApplyEnd) (s : State) : Out :=
  .next (
    match s.vectorUnit x.core with
    | none => s
    | some (u, r) =>
      if s.coreLive x.core ∧ r.isUpdate ∧ r.gathered ∧ s.chunkAfter r u.number then
        match x.slip.filter (fun y => slipped y && s.loadsFlake r) with
        | some y => s.vectorTag x.core y
        | none =>
          match s.chunkTrouble r u.number with
          | some (.pending q) => s.troubled x.core (.pending q)
          | some y => s.dropChunk x.core u r y
          | none =>
            if r.amaxPass = false ∧ s.salRoom x.core = false then s.stallQueue (salQueue x.core)
            else if r.amaxPass = false ∧ s.chunkWaits (s.chunkOut r (s.runChunk r u.number)) then
              s.stallSeals ((s.chunkOut r (s.runChunk r u.number)).writes.map fun w => (w.1, w.2.length))
            else (s.completeChunk x.core u r (some (u.pos, u.number))).settleUpdates.latchAll
      else s)

/-- UPDATE_COMPLETE (R231, R232): every update descriptor has completed; a non-finite state write raises a Severe fault that names layer
and tensor in its record, DESIGN CHOICE (log 106) in payload words 1 and 2, and halts. -/
def execUpdateComplete (s0 : State) : Out :=
  let s := s0.settleUpdates
  .next (
    if s.pwr.on ∧ s.phase = 4 ∧ s.train.updating ∧ s.train.updateDone = false ∧ s.prog.pool = [] ∧ s.prog.stream0 = []
        ∧ s.prog.stream1 = [] then
      let s1 := s.scale.staged.foldl (fun s e => s.pushStaged [] e.1 e.2) s
      let s2 := { s1 with train.updateDone := true, train.updating := false, train.commit := { s1.train.commit with update := 2 } }
      match s.train.badUpdate with
      | some (l, t) => (s2.raise { fault 0x15 .module 0 with detail := l + t * 65536, p1 := l, p2 := t }).latchAll
      | none => s2.latchAll
    else s.latchAll)

/-! ## STEP_BOUNDARY (R216, R224) -/

/-- Bytes of the update ledger (R230), beside the commit record. -/
def State.ledgerBytes (s : State) : List Byte := s.train.ledger.flatMap ledgerMark

/-- The M3 mirror (R296). -/
def State.mirrorM3 (s : State) : List Byte :=
  ((List.range s.recordCount).flatMap fun i => (s.scaleRec i).bytes) ++ ((List.range s.layerCount).flatMap fun l => (s.rakeOf l).bytes)
    ++ s.train.commit.bytes ++ s.ledgerBytes ++ ((List.range 256).flatMap fun g => withCompl (s.group g).bad (s.group g).value)
    ++ leBytes 8 (s.ent Ent.commitFrozenMask) ++ leBytes 8 (s.ent Ent.commitFrozenPending)

/-- The half of the update slots that the next step's update writes is cleared (R136). -/
def State.clearNorms (s : State) : State :=
  if (s.stepNow + 1) % 2 = 0 then { s with rake.norms0 := [] } else { s with rake.norms1 := [] }

/-- Rank 0's Rake table replaces this member's (R312). -/
def State.adoptRake (s : State) (images : List RakeImage) : State :=
  if s.rake.adopt then
    let own := (s.group (s.ent Ent.trainRunGroup)).rank == 0 || decide (s.groupP (s.ent Ent.trainRunGroup) ≤ 1)
    let s1 := if own then s else
      images.zipIdx.foldl (fun s x => s.setRake x.2
        { rung := x.1.rung % 8, floor := x.1.floor % 8, retreats := x.1.retreats % 16, streak := x.1.streak % 65536, hold := x.1.hold % 65536,
          silent := x.1.silent % 65536 }) s
    { s1 with rake.adopt := false, train.rakeHalt := false }.condition 0 0x7030 (s.ent Ent.trainRunGroup) 0 0
  else s

/-- Rank 0's table has arrived whole, where it is to be adopted from another member. -/
def State.adoptReady (s : State) (images : List RakeImage) : Bool :=
  images.length == s.layerCount || (s.group (s.ent Ent.trainRunGroup)).rank == 0 || decide (s.groupP (s.ent Ent.trainRunGroup) ≤ 1)

/-- A snapshot that falls due at a boundary, or that is held (R306, R308). -/
def State.snapshotDue (s : State) : State :=
  let i := s.ent Ent.stockInterval
  if i ≠ 0 ∧ s.ent Ent.trainStepIndex % i = 0 then
    if s.stock.writing.isSome then (s.condition 0 0x7200 (s.ent Ent.trainStepIndex) 0 0).bump 64 Ent.stockSkipped 1
    else s.startSnapshot
  else if s.stock.held && s.stock.writing.isNone then s.startSnapshot
  else s

/-- Energy and tokens of the step decided (R416). -/
def State.lastEnergy (s : State) : State :=
  let uj := s.pwr.stepAllUj
  let s1 := s.setEnt Ent.energyLastStepJ (f32OfRatio uj 1000000)
  s1.setEnt Ent.energyLastStepTpmwh
    (if s.train.outcome = 1 then f32OfRatio (s.ent Ent.energyLastStepTokens * 3600000000 * 1000000) uj else 0)

/-- The pending mask on which the finite check agreed comes into force (R235); a write since then stays pending. -/
def State.applyMask (s : State) : State :=
  if s.train.masksAgree then s.setEnt Ent.commitFrozenMask s.train.mask else s

/-- The control tables as the boundary leaves them, for M3 (R296, R311): the mask in force, and a Rake table reset or adopted. -/
def State.tablesAtEnd (s : State) (images : List RakeImage) : State :=
  let s1 := s.applyMask
  let s2 := if s1.rake.resetDue then s1.rakeReset else s1
  if s2.adoptReady images then s2.adoptRake images else s2

/-- The boundary completes. -/
def State.closeBoundary (s : State) (images : List RakeImage) : State :=
  let s1 := ((s.rollUp.changeWindows.writeRing.invalidNotices).clearNorms).lastEnergy
  let s2 := s1.settleEnergy (s.train.outcome == 1)
  let s3 := if s2.ent Ent.crustState = 3 then s2.bump 64 Ent.crustStaleSteps 1 else s2
  let s4 := { s3.applyMask with train.m3Wait := false }.clearStep.phaseZero
  let s5 := if s4.rake.resetDue then { s4.rakeReset with rake.resetDue := false } else s4
  ((if s5.adoptReady images then s5.adoptRake images else s5).snapshotDue).drainOwed

/-- STEP_BOUNDARY (R224): the Rake and the update have completed; the M3 mirror is sent, and once it is acknowledged the boundary
applies what is pending and train.phase returns to 0. Between steps it adopts rank 0's Rake state where that is asked for. -/
def execStepBoundary (rank0 : List RakeImage) (s : State) : Out :=
  .next (
    if s.pwr.on ∧ s.phase = 4 ∧ s.rake.done ∧ s.train.updateDone then
      if s.train.m3Wait = false ∧ s.crustMember then { s with train.m3Wait := true }.sendMirror 3 (s.tablesAtEnd rank0).mirrorM3
      else if s.crust.mirrorWait.contains 3 then s
      else (s.closeBoundary rank0).latchAll
    else if s.pwr.on ∧ s.phase = 0 ∧ s.rake.adopt ∧ s.adoptReady rank0 then s.adoptRake rank0
    else s)

/-! ## NVP_SELFTEST_DONE (R181) -/

/-- NVP_SELFTEST_DONE (R181): failures write a Severe event and clear the compute bits; a later pass undoes what the failure cleared
(R369), also while a unit is being swapped (R286). -/
def execNvpSelftestDone (failures first : Nat) (s : State) : Out :=
  .next (
    if s.pwr.on ∧ s.ent Ent.nvpState = 1 then
      let s1 := (s.setEnt Ent.nvpState (if failures = 0 then 2 else 3)).setEnt Ent.nvpFailures (min failures 4096)
      let s2 := s1.setEnt Ent.nvpFirstFailure (if failures = 0 then 0xFFFFFFFF else first % 2 ^ 32)
      if failures ≠ 0 then (s2.raise (fault 0x16 .module 0)).latchAll
      else
        let s3 : State := { s2 with dict.testFailed := false }
        if s3.dict.computeOnce && s3.computeAllowed then s3.setCompute else s3.computeCheck
    else s)

end Sys2Proof.Machine
end

