-- ==== Sys2Proof/Machine/HostMem.lean ====
section
/-! DEFINITION. Translation (R259), and the host port's requests through BAR 4 as memory performs them (R258, R266, R376, R377). -/

namespace Sys2Proof.Machine

/-! ## Translation caches (R259) -/

/-- Pages that a die's translation cache holds. -/
def State.tc (s : State) (die : Nat) : List Nat := if die = 0 then s.mem.tc0 else s.mem.tc1

/-- Changes a die's translation cache. -/
def State.setTc (s : State) (die : Nat) (l : List Nat) : State :=
  if die = 0 then { s with mem.tc0 := l } else { s with mem.tc1 := l }

/-- Sets of a cache of 32,768 entries in 8 ways; the set of a page is PRESUMED to be its number modulo that (log 42). -/
def tcSets : Nat := 4096

/-- A page enters a cache; in a full set a free choice of way goes. -/
def State.fillTc (s : State) (die p : Nat) : State :=
  let l := s.tc die
  let ways := l.filter fun q => q % tcSets == p % tcSets
  if ways.length < 8 then s.setTc die (l ++ [p])
  else (s.setTc die (listErase l (ways.getD (Config.timing s.clk.freeNext % 8) 0) ++ [p])).draw

/-- A walk reads a page's entry: a bad primary is rewritten from the mirror, and an entry bad in both copies loses its page (R258,
R259, R266). -/
def State.walk (s : State) (p : Nat) : State :=
  let f := integrity intMap .die 0 0 (mapBase + 16 * p)
  if s.mem.mapLost.contains p then (s.raise { f with atLeast := 2 }).latchAll
  else if s.mem.mapBad.contains p then ({ s with mem.mapBad := listErase s.mem.mapBad p }.raise f).latchAll
  else s

/-- A request of a die is translated: a hit, or a miss and a walk. -/
def State.translate (s : State) (die p : Nat) : State :=
  if 2 ^ 24 ≤ p then s
  else if (s.tc die).contains p then s.bump 64 (Ent.tcHits die) 1
  else
    let s1 := (s.bump 64 (Ent.tcMisses die) 1).walk p
    if (s1.mapEntry p).v then s1.fillTc die p else s1

/-! ## The host port (R258, R266) -/

/-- The reserved page that the host port may write: the shape block and the map request area. -/
def requestPage : Nat := 0xFFFFD6

/-- The code that a host read of a page draws: 0 for none. -/
def State.hostReadCode (s : State) (p : Nat) : Nat :=
  if 2 ^ 24 ≤ p then 6 else if firstReserved ≤ p then (if p ≤ requestPage then 0 else 6) else if (s.mapEntry p).v then 0 else 6

/-- The code that a host write of a page draws: 0 for none. -/
def State.hostWriteCode (s : State) (p : Nat) : Nat :=
  if 2 ^ 24 ≤ p then 6 else if p = requestPage then 0 else s.pageWriteCode true p

/-- Cuts a read at page boundaries: address and length of each part. -/
def splitRead : Nat → Nat → Nat → List (Nat × Nat)
  | 0, _, _ => []
  | n + 1, a, len =>
    if len = 0 then []
    else
      let k := min len (pageBytes - a % pageBytes)
      (a, k) :: splitRead n (a + k) (len - k)

/-- Module address of a BAR 4 offset (R376). -/
def State.windowAddr (s : State) (offset : Nat) : Nat := s.ent Ent.hostWindowBase + offset

/-- One part of a posted write is performed or dropped (R377). -/
def State.hostPart (s0 : State) (w : Nat × List Byte) : State :=
  let p := pageOf w.1
  let s := s0.translate 0 p
  let code := s.hostWriteCode p
  if code = 0 then s.storeUnit [w] else { (s.memViolation code w.1).bump 64 Ent.hostUrWrites 1 with links.host.aerUr := true }

/-- A part waits: for a page that migrates (R262), or for the crust (R297, R298). -/
def State.hostWaits (s : State) (w : Nat × List Byte) : Bool :=
  (s.hostWriteCode (pageOf w.1) == 0)
    && (s.pageCopies (pageOf w.1) || s.writeWaits true w.1 w.2.length)

/-- The held parts are performed in order, up to the first that waits. -/
def State.drainParts : Nat → State → State
  | 0, s => s
  | n + 1, s =>
    match s.links.host.held with
    | [] => s
    | w :: t => if s.hostWaits w then s.stallSeals [(w.1, w.2.length)] else State.drainParts n ({ s with links.host.held := t }.hostPart w)

/-! ## Doorbells behind posted writes (R360, R376) -/

/-- A vector's mask changes; a pending vector that is unmasked is sent (R378). -/
def State.maskVector (s : State) (v : Nat) (on : Bool) : State :=
  if on then { s with comm.masked := listAdd s.comm.masked v }
  else
    let s1 := { s with comm.masked := listErase s.comm.masked v, comm.pba := listErase s.comm.pba v }
    if s.comm.pba.contains v then s1.raiseVector v else s1

/-- A mailbox slot. -/
def State.slot (s : State) (n : Nat) : MbxSlot := Kv.getD s.comm.slots n {}
def State.setSlot (s : State) (n : Nat) (x : MbxSlot) : State := { s with comm.slots := Kv.setD s.comm.slots n {} x }

/-- A write of a slot's state byte (R360): only a 0 written while the state reads 2 or 3 frees the slot. -/
def State.freeSlot (s : State) (n : Nat) (value : Byte) : State :=
  if value = 0 ∧ 2 ≤ (s.slot n).state then s.setSlot n { s.slot n with state := 0 } else s

/-- A byte that the host writes into BAR 2 (R359, R375): a slot's bytes, the interrupt enable, a slot's state, the MSI-X table with its mask
bits. The pending bits are read-only, the doorbell is a command of its own, and reserved offsets ignore writes. -/
def State.writeBar2 (s : State) (off : Nat) (b : Byte) : State :=
  if off < 0x8000 then
    let x := s.slot (off / 2048)
    s.setSlot (off / 2048) { x with bytes := (x.bytes ++ zeros (off % 2048 + 1 - x.bytes.length)).set (off % 2048) b }
  else if off = 0x8004 then { s with comm.irqEnable := b.getLsbD 0 }
  else if 0x8010 ≤ off ∧ off < 0x8020 then s.freeSlot (off - 0x8010) b
  else if 0x10000 ≤ off ∧ off < 0x10200 then
    if off % 16 < 12 then { s with comm.msix := Kv.setD s.comm.msix (off - 0x10000) 0 b }
    else if off % 16 = 12 then s.maskVector ((off - 0x10000) / 16) (b.getLsbD 0)
    else s
  else s

/-- What a byte of BAR 2 reads (R359, R375, R378); reserved offsets read 0. -/
def State.bar2Byte (s : State) (off : Nat) : Byte :=
  if off < 0x8000 then (s.slot (off / 2048)).bytes.getD (off % 2048) 0
  else if off = 0x8004 then BitVec.ofNat 8 (bitN s.comm.irqEnable)
  else if 0x8010 ≤ off ∧ off < 0x8020 then BitVec.ofNat 8 (s.slot (off - 0x8010)).state
  else if 0x10000 ≤ off ∧ off < 0x10200 then
    if off % 16 < 12 then Kv.getD s.comm.msix (off - 0x10000) 0
    else if off % 16 = 12 then BitVec.ofNat 8 (bitN (s.comm.masked.contains ((off - 0x10000) / 16)))
    else 0
  else if 0x18000 ≤ off ∧ off < 0x18004 then
    BitVec.ofNat 8 (sumNat ((List.range 8).map fun i => if s.comm.pba.contains (8 * (off - 0x18000) + i) then 2 ^ i else 0))
  else 0

/-- A doorbell takes effect (R360): the message is copied out of its slot, which reads 1; one that names a slot in use or carries a
reserved bit is ignored and counted. -/
def State.doorbell (s : State) (n : Nat) (message : List Byte) : State :=
  if n < 16 ∧ (s.slot n).state = 0 then
    { s.setSlot n { state := 1, bytes := message } with comm.queue := s.comm.queue ++ [(n, message)] }
  else s.bump 64 Ent.mbxDoorbellIgnored 1

/-- A write of the host into configuration space (R373, R375, R377). -/
def State.configWrite (s : State) (w : ConfigWrite) : State :=
  match w with
  | .barSize n => { s with links.host.barLog := 36 + n.val }
  | .maxPayload n => { s with links.host.maxPayload := 128 * 2 ^ n.val }
  | .clearUr => { s with links.host.aerUr := false }

/-- What the host writes into BAR 2 before a doorbell. -/
def State.takeBar2 (s : State) (w : Bar2Writes) : State :=
  let s0 : State := match w.irqEnable with
    | some b => { s with comm.irqEnable := b }
    | none => s
  let s1 : State := w.masks.foldl (fun (s : State) (m : Fin 32 × Bool) => s.maskVector m.1.val m.2) s0
  w.bytes.foldl (fun (s : State) (b : Fin 131072 × Byte) => s.writeBar2 b.1.val b.2) s1

/-- What the host wrote into BAR 2 takes effect, and then its doorbell. -/
def State.ring (s : State) (value : BitVec 32) (w : Bar2Writes) : State :=
  if w.bell then (s.takeBar2 w).doorbell value.toNat w.message else s.takeBar2 w

/-- A host read is performed: every part's translation and refusals, then the data, poisoned or not. -/
def State.completeRead (s0 : State) (a len : Nat) (parts : List (Nat × Nat)) : State :=
  let s := parts.foldl (fun s x => s.translate 0 (pageOf x.1)) s0
  let bad := parts.filter fun x => s.hostReadCode (pageOf x.1) != 0
  if bad ≠ [] then
    let s1 := bad.foldl (fun s x => s.memViolation (s.hostReadCode (pageOf x.1)) x.1) s
    { s1 with links.host.completion := (1, []) }
  else
    match s.rangeTrouble a len with
    | some (.poisoned x) => { s.uncorrectable x with links.host.completion := (2, s.memRead a len) }
    | _ => { s with links.host.completion := (0, s.memRead a len) }

/-- A host read; one whose parts are all mapped and that meets lost lines is held, and its page is rebuilt next (R250). -/
def State.hostReadNow (s : State) (offset len : Nat) : State :=
  let a := s.windowAddr offset
  let parts := splitRead (len / pageBytes + 2) a len
  match (if parts.all fun x => s.hostReadCode (pageOf x.1) == 0 then s.rangeTrouble a len else none) with
  | some (.pending p) => { s with links.host.heldReads := s.links.host.heldReads ++ [(offset, len)] }.rebuildFirst p
  | _ => s.completeRead a len parts

/-- What waited for the posted writes before it: doorbells, then reads (R376). -/
def State.afterWrites (s : State) : State :=
  if s.links.host.held = [] then
    let s1 : State := s.links.host.bells.foldl (fun (s : State) b => s.ring b.1 b.2) { s with links.host.bells := [] }
    s1.links.host.heldReads.foldl (fun (s : State) r => s.hostReadNow r.1 r.2) { s1 with links.host.heldReads := [] }
  else s

/-- What waited for the crust or for a page goes on: the module's own writes, then the host's. -/
def State.drainHost (s : State) : State := (State.drainParts s.drainOwed.links.host.held.length s.drainOwed).afterWrites

/-- A posted write joins the queue of parts, which drains (R376). -/
def State.hostWrite (s : State) (offset : Nat) (data : List Byte) : State :=
  let a := s.windowAddr offset
  { s with links.host.held := s.links.host.held ++ splitPages (data.length / pageBytes + 2) a data }.drainHost

/-- A host read waits for the posted writes before it (R376). -/
def State.hostRead (s : State) (offset len : Nat) : State :=
  if s.links.host.held = [] then s.hostReadNow offset len
  else { s with links.host.heldReads := s.links.host.heldReads ++ [(offset, len)] }

/-- Reads that waited for a page are tried again. -/
def State.retryRead (s : State) : State := s.afterWrites

end Sys2Proof.Machine
end

