-- ==== Sys2Proof/Machine/Arb.lean ====
section
/-! DEFINITION. Arbitration (R269 to R277): grants, holds, cut-offs and the counters of every requester. -/

namespace Sys2Proof.Machine

/-- Level and instance of an arbiter (R276). -/
def arbLevel : ArbId → Nat
  | .pan _ _ => 0
  | .core _ => 1
  | .cluster _ => 2
  | .die _ => 3
def arbInstance : ArbId → Nat
  | .pan c p => 4 * c.val + p.val
  | .core c => c.val
  | .cluster k => k.val
  | .die d => d.val

/-- A rank exists at an instance of a level (R271). -/
def rankExists (level inst rank : Nat) : Bool :=
  match level with
  | 0 => decide (rank < 4)
  | 1 => decide (rank < 8)
  | 2 => decide (rank < 10)
  | _ => decide (rank < 19) && !(inst == 1 && (rank == 16 || rank == 18))

/-- Resources of an arbiter of a level (R270). -/
def arbResources (level : Nat) : Nat :=
  match level with
  | 0 => 1 | 1 => 17 | 2 => 41
  | _ => 39

/-- Key of a resource. -/
def holdKey (level inst resource : Nat) : Nat := (level * 65536 + inst) * 256 + resource

/-- A requester that is not there has no run. -/
def State.endRun (s : State) (level inst resource rank : Nat) : State :=
  let x := s.arbCnt level inst rank
  if x.runAt resource = 0 then s else s.setArbCnt level inst rank { x with run := Kv.del x.run resource }

/-- A grant is received. -/
def State.countGrant (s : State) (level inst resource rank : Nat) : State :=
  let x := s.arbCnt level inst rank
  s.setArbCnt level inst rank { x with run := Kv.del x.run resource, grants := satAdd 64 x.grants 1 }

/-! ## Which resource a transaction takes (R247, R252, R270) -/

/-- Banks of core SRAM, interleaved by lines of 256 bytes, by the offset in the core's SRAM. -/
def coreBank (offset : Nat) : Nat := offset / 256 % 16

/-- Banks of cluster SRAM of 512 KiB, by the offset in the cluster's SRAM (R270). DESIGN CHOICE (log 101): each bank holds 512 KiB of
consecutive addresses. -/
def clusterBank (offset : Nat) : Nat := offset / 524288 % 32

/-- The physical CXL device behind a logical number. -/
def State.physDev (s : State) (n : Nat) : Option Nat := (s.mem.cxl.find? fun e => e.2.role == n).map (·.1)

/-- The die whose memory holds an address, and the number of its stack or root port there: tier, die, number. -/
def State.homeOf (s : State) (a : Nat) : Nat × Nat × Nat :=
  let e := s.mapEntry (pageOf a)
  if e.tier = 0 then (0, e.device / 6, e.device % 6) else let d := (s.physDev e.device).getD 0; (1, d / 6, d % 6)

/-- A request leaves its die through the die-to-die link. -/
def State.crosses (s : State) (r : MemReq) : Bool := (s.homeOf r.addr).2.1 != r.die.val

/-- The home that a request is translated to; one that names no mapped page has none. -/
def State.txnHome (s : State) (r : MemReq) : Nat × Nat × Nat :=
  if (s.mapEntry (pageOf r.addr)).v then s.homeOf r.addr else (2, r.die.val, 0)

/-- A transaction went through the die-to-die link. -/
def Txn.crossed (t : Txn) : Bool := t.home.2.1 != t.req.die.val

/-- The resource of the requester's die memory arbiter that a transaction takes (R270): port q of a controller by address bits [9:8], a
root port, or port q of the die-to-die link by the 256-byte line number modulo 9. -/
def State.dieResource (s : State) (r : MemReq) : Nat :=
  let h := s.homeOf r.addr
  if h.2.1 ≠ r.die.val then 30 + r.addr / 256 % 9 else if h.1 = 0 then 4 * h.2.2 + r.addr / 256 % 4 else 24 + h.2.2

/-! ## Holds and cycles -/

/-- The hold limit of a level. -/
def State.holdLimit (s : State) (level : Nat) : Nat :=
  match level with
  | 0 => s.ent Ent.arbHoldPan
  | 1 => s.ent Ent.arbHoldCore
  | 2 => s.ent Ent.arbHoldCluster
  | _ => s.ent Ent.arbHoldDie

/-- A resource's hold. -/
def State.hold? (s : State) (level inst resource : Nat) : Option Hold := Kv.find? s.arb.holds (holdKey level inst resource)
def State.setHold (s : State) (level inst resource : Nat) (h : Option Hold) : State :=
  match h with
  | some x => { s with arb.holds := Kv.put s.arb.holds (holdKey level inst resource) x }
  | none => { s with arb.holds := Kv.del s.arb.holds (holdKey level inst resource) }

/-- The level of a collector that an arbiter's cut-off reaches. -/
def arbFaultLevel (level : Nat) : Level :=
  match level with
  | 0 => .pan | 1 => .core | 2 => .cluster
  | _ => .die

/-- A hold that has reached its limit is cut off: the count, the status bit and a Notice (R272). -/
def State.cutHold (s : State) (level inst resource : Nat) (h : Hold) : State :=
  let x := s.arbCnt level inst h.rank
  let s1 := ((s.setHold level inst resource none).setArbCnt level inst h.rank { x with run := Kv.del x.run resource, cutoffs := satAdd 32 x.cutoffs 1 }).bump
    64 Ent.arbCutoffsTotal 1
  let k := colKey level inst
  ((s1.setCollector k { s1.collector k with cutoff := true }).raise (fault 0x05 (arbFaultLevel level) inst)).latchAll

/-- The resource's hold is cut off if it has reached the limit. -/
def State.cutIfDue (s : State) (level inst resource : Nat) : State :=
  match s.hold? level inst resource with
  | none => s
  | some h => if s.holdLimit level ≤ h.cycles then s.cutHold level inst resource h else s

/-- The lowest rank number of a list: the highest-ranked requester. -/
def topRank (l : List Nat) : Option Nat := l.foldl (fun m r => match m with | none => some r | some x => some (min x r)) none

/-- Key of an arbiter instance. -/
def cycleKey (level inst : Nat) : Nat := level * 65536 + inst

/-- The cycle that an instance is in. -/
def State.arbCycle (s : State) (level inst : Nat) : ArbCycle := Kv.getD s.arb.cycles (cycleKey level inst) {}
def State.setArbCycle (s : State) (level inst : Nat) (x : ArbCycle) : State :=
  { s with arb.cycles := Kv.setD s.arb.cycles (cycleKey level inst) {} x }

/-- A resource takes its turn in the instance's cycle; one that has had it already begins the next cycle. -/
def State.turn (s : State) (level inst resource : Nat) : State :=
  let x := s.arbCycle level inst
  s.setArbCycle level inst (if x.done.contains resource then { done := [resource] } else { x with done := x.done ++ [resource] })

/-- A requester waits at a resource for the cycle. It waits one cycle, at however many resources (R275). -/
def State.waitCycle (s : State) (level inst resource rank : Nat) : State :=
  let x := s.arbCycle level inst
  if x.waited.contains rank then
    let y := s.arbCnt level inst rank
    s.setArbCnt level inst rank { y.waits resource 1 with wait := y.wait }
  else (s.countWait level inst resource rank 1).setArbCycle level inst { x with waited := x.waited ++ [rank] }

/-- What one NOC cycle at a resource counts for everyone: the winner's grant, if new, and the others' wait. -/
def State.countCycle (s : State) (level inst resource : Nat) (present : List Nat) (winner : Nat) (fresh : Bool) : State :=
  let ranks := (List.range 19).filter (rankExists level inst)
  ranks.foldl (fun s r =>
    if r = winner then (if fresh then s.countGrant level inst resource r else s)
    else if present.contains r then s.waitCycle level inst resource r
    else s.endRun level inst resource r) (s.turn level inst resource)

/-- The rank of nobody. -/
def noRank : Nat := 19

/-- ARB_GRANT (R269 to R272, R275): one NOC cycle of a resource. A holder keeps its grant; else the highest-ranked requester present
takes it. -/
def execArbGrant (a : ArbId) (resource : Nat) (present : List Nat) (hold : Bool) (s : State) : Out :=
  .next (
    let level := arbLevel a
    let inst := arbInstance a
    if s.pwr.on = false ∨ arbResources level ≤ resource then s
    else
      let s1 := s.cutIfDue level inst resource
      let here := present.filter (rankExists level inst)
      match s1.hold? level inst resource with
      | some h =>
        (s1.countCycle level inst resource here h.rank false).setHold level inst resource
          (if hold then some { h with cycles := h.cycles + 1 } else none)
      | none =>
        match topRank here with
        | none => s1.countCycle level inst resource [] noRank false
        | some r => (s1.countCycle level inst resource here r true).setHold level inst resource (if hold then some { rank := r, cycles := 1 } else none))

/-- HOLD_CUTOFF (R272): a hold at its level's limit ends. -/
def execHoldCutoff (a : ArbId) (resource : Nat) (s : State) : Out :=
  .next (if s.pwr.on then s.cutIfDue (arbLevel a) (arbInstance a) resource else s)

/-! ## The selector (R276, R277) -/

/-- A write of arb.sel_rank: the requester's counters are latched together. -/
def State.selRank (s : State) (v : Nat) : Reply :=
  let level := s.ent Ent.arbSelLevel
  let inst := s.ent Ent.arbSelInstance
  if level < 4 ∧ inst < levelInstances level ∧ rankExists level inst v = true then
    let x := s.arbCnt level inst v
    -- the counters of die 1 lie behind the die-to-die link (R13)
    if dieOfUnit level inst = 1 ∧ s.isReady 3 = false then { s := s, code := 4 }
    else { s := ((((s.setEnt Ent.arbSelRank v).setEnt Ent.arbSelWaitCycles x.wait).setEnt Ent.arbSelMaxWait x.maxWait).setEnt Ent.arbSelGrants
        x.grants).setEnt Ent.arbSelCutoffs x.cutoffs }
  else { s := s, code := 3 }

/-- Largest maximum wait of a level. -/
def State.levelMaxWait (s : State) (level : Nat) : Nat :=
  (s.arb.counters.filter fun e => e.1 / 32 / 65536 == level).foldl (fun m e => max m e.2.maxWait) 0

/-- A write of arb.clear_max. -/
def State.clearMax (s : State) (v : Nat) : Reply :=
  if v = 1 then
    { s := { s with arb.counters := (s.arb.counters.map fun (e : Nat × ArbCnt) => (e.1, { e.2 with maxWait := 0 })).filter fun e => e.2 != {} } }
  else { s := s, code := 3 }

end Sys2Proof.Machine
end

