-- ==== Sys2Proof/Machine/Memory.lean ====
section
/-! DEFINITION. The memory tiers: map requests (R256 to R262, R293), migration, transactions (R263, R264, R266), and what stacks and CXL
devices report (R248 to R255, R305). -/

namespace Sys2Proof.Machine

/-! ## Map requests (R260) -/

/-- A map request. -/
structure MapReq where
  op : Nat
  tier : Nat
  device : Nat
  flags : Nat
  page : Nat
  count : Nat
  rest : Nat
  deriving DecidableEq, Repr

/-- Address of a request of the run. -/
def requestAddr (i : Nat) : Nat := requestBase + 32 * i

/-- The request that 16 bytes spell. -/
def mapReqOf (l : List Byte) : MapReq :=
  { op := leAt l 0 1, tier := leAt l 1 1, device := leAt l 2 1, flags := leAt l 3 1, page := leAt l 4 4, count := leAt l 8 4, rest := leAt l 12 4 }

/-- The request that the run comes to, read as it is processed. -/
def State.nextReq (s : State) : MapReq := mapReqOf (s.ramRead (requestAddr s.mem.reqDone) 16)

/-- Its value matches its complement. -/
def State.reqOk (s : State) : Bool := s.complOk (requestAddr s.mem.reqDone) 16

/-- A run is in progress and has requests left. -/
def State.runsMap (s : State) : Bool :=
  s.pwr.on && decide (s.ent Ent.memReqState = 1) && decide (s.mem.reqDone < s.mem.reqTotal)

/-- Writing 1 to mem.req_go (R260, R267, R419). -/
def State.reqGo (s : State) (v : Nat) : Reply :=
  if v ≠ 1 then { s := s, code := 3 }
  else if s.ent Ent.memReqCount = 0 ∨ 4096 < s.ent Ent.memReqCount then { s := s, code := 3 }
  else if s.ent Ent.memReqState = 1 ∨ (List.range 12).any (fun i => !s.isReady (8 + i)) then { s := s, code := 4 }
  else
    { s := ((({ s with mem.reqTotal := s.ent Ent.memReqCount, mem.reqAt := 0, mem.reqDone := 0, mem.reqError := none, mem.reqChanged := [] }.setEnt
        Ent.memReqState 1).setEnt Ent.memReqDone 0).setEnt Ent.memReqError 0) }

/-- The mirror of the changed map values (R296): V, tier, RO and CC of each changed page. -/
def State.mapMirror (s : State) : List Byte :=
  s.mem.reqChanged.flatMap fun p => leBytes 8 (mapListWord p (s.mapEntry p) + bitN (s.mapEntry p).v * 2 ^ 28)

/-- Mirrors what the run has changed (M4). -/
def State.sendMapMirror (s : State) : State :=
  if s.mem.reqChanged = [] then s else { s.sendMirror 4 s.mapMirror with mem.reqChanged := [] }

/-- The run stops at this request (R260): the requests before it stand. -/
def State.failReq (s : State) (code : Nat) : State :=
  let a := requestAddr s.mem.reqDone
  let s1 := (({ s with mem.reqError := some (code, a) }.violation code 0 a 0).setEnt Ent.memReqState 3).setEnt Ent.memReqError code
  s1.sendMapMirror.raiseVector 3

/-- A request succeeds, and the pages it changed are noted. -/
def State.passReq (s : State) (pages : List Nat) : State :=
  let n := s.mem.reqDone + 1
  { s with mem.reqDone := n, mem.reqChanged := pages.foldl listAdd s.mem.reqChanged }.setEnt Ent.memReqDone n

/-- The pages of a request. -/
def MapReq.pages (r : MapReq) : List Nat := (List.range r.count).map (r.page + ·)

/-- The code that a request draws before its own conditions: a field out of range, a reserved page; 0 for none (R260, R262). DESIGN CHOICE
(log 100): a run that passes the last page is out of range (3) before it is a write of reserved pages (2). -/
def MapReq.fieldCode (r : MapReq) : Nat :=
  if r.op = 0 ∨ 7 < r.op ∨ 4 ≤ r.flags ∨ 2 ^ 24 ≤ r.page ∨ r.count = 0 ∨ 65536 < r.count ∨ r.rest ≠ 0 then 3
  else if (r.op = 1 ∨ r.op = 3) ∧ (r.tier = 2 ∨ 3 < r.tier
      ∨ (r.device ≠ 255 ∧ (r.tier = 3 ∨ (r.tier = 0 ∧ 12 ≤ r.device) ∨ (r.tier = 1 ∧ 11 ≤ r.device)))) then 3
  else if 2 ^ 24 < r.page + r.count then 3
  else if firstReserved < r.page + r.count then 2
  else 0

/-- A request's pages are all mapped. -/
def State.allMapped (s : State) (r : MapReq) : Bool := r.pages.all fun p => (s.mapEntry p).v

/-- A page of the request is being copied: the request is processed once the copy is done. -/
def State.reqBusy (s : State) (r : MapReq) : Bool := r.pages.any fun p => (Kv.find? s.mem.migrating p).isSome

/-- Processes the next request of the run if it has this op: its own code for it, or its effect. -/
def State.processReq (s : State) (op : Nat) (code : State → MapReq → Nat) (act : State → MapReq → State) : State :=
  if s.runsMap && s.reqOk && s.nextReq.op == op && !s.reqBusy s.nextReq then
    let r := s.nextReq
    let c := if r.fieldCode ≠ 0 then r.fieldCode else code s r
    if c ≠ 0 then (s.failReq c).latchAll else ((act s r).passReq r.pages).latchAll
  else s

/-! ## Placement (R261) -/

/-- Device and frame that a page takes: tier, device, frame. -/
def State.placeReq (s : State) (tier dev p : Nat) : Option (Nat × Nat × Nat) :=
  let t := if tier = 3 then (if (List.range 12).any fun d => s.freeFrames 0 d != 0 then 0 else 1) else tier
  if dev = 255 then (s.placeAny t p).map fun x => (t, x.1, x.2) else (s.lowestFrame t dev).map fun f => (t, dev, f)

/-- The bit of the CXL device behind a logical number is set (R419). -/
def State.cxlReady (s : State) (n : Nat) : Bool := s.mem.cxl.any fun e => e.2.role == n && s.isReady (20 + e.1)

/-- Places pages one by one, `put` taking each frame: the state, or the code of the failure. -/
def State.placeAll (s : State) (tier dev : Nat) (skip : State → Nat → Bool) (put : State → Nat → Nat × Nat × Nat → State) (pages : List Nat) :
    State × Nat :=
  pages.foldl (fun (x : State × Nat) p =>
    if x.2 ≠ 0 ∨ skip x.1 p then x
    else
      match x.1.placeReq tier dev p with
      | none => (x.1, 3)
      | some y => if y.1 = 1 ∧ !x.1.cxlReady y.2.1 then (x.1, 4) else (put x.1 p y, 0)) (s, 0)

/-! ## Crust cover (R293) -/

/-- A covered page's contents are folded into its parity, or out of it, as one seal unit. A page that a resync has not passed yet needs
no fold. -/
def State.foldPage (s : State) (p : Nat) : State :=
  match s.parityPlace p with
  | none => s
  | some (h, i) =>
    if s.crustSends h i && s.resyncPassed h i then
      let r := s.addDelta none (h, i, 0, s.ramRead (p * pageBytes) pageBytes)
      r.1.closeSeal r.2 none
    else s

/-- Folding a page would exceed the units that paced mode allows (R297); `cover` says that the page joins its parity. -/
def State.foldWaits (s : State) (cover : Bool) (p : Nat) : Bool :=
  decide (s.ent Ent.crustMode = 1) && decide (s.ent Ent.crustInflight ≤ s.unsealedUnits) && s.crustMember && (s.mapEntry p).v
    && ((s.mapEntry p).cc != cover) && (match s.placeOf s.crustRankOf p with | some (h, i) => s.crustSends h i && s.resyncPassed h i | none => false)

/-- Pages change their cover in order, up to the first whose fold waits: how many have. -/
def State.foldPages (cover : Bool) (act : State → Nat → State) : List Nat → State → Nat → State × Nat
  | [], s, n => (s, n)
  | p :: t, s, n =>
    if s.foldWaits cover p then ((s.bump 64 Ent.crustStallUs (Config.timing s.clk.freeNext)).draw, n)
    else State.foldPages cover act t (act s p) (n + 1)

/-- Processes the next request of the run if it has this op, one whose pages are folded: its own code when it begins, and page by page as
the crust allows. -/
def State.processFold (s : State) (op : Nat) (cover : Bool) (code : State → MapReq → Nat) (act : State → Nat → State) : State :=
  if s.runsMap && s.reqOk && s.nextReq.op == op && !s.reqBusy s.nextReq then
    let r := s.nextReq
    let c := if s.mem.reqAt ≠ 0 then 0 else if r.fieldCode ≠ 0 then r.fieldCode else code s r
    if c ≠ 0 then (s.failReq c).latchAll
    else
      let x := State.foldPages cover act (r.pages.drop s.mem.reqAt) s s.mem.reqAt
      if x.2 < r.pages.length then { x.1 with mem.reqAt := x.2 }.latchAll
      else ({ x.1 with mem.reqAt := 0 }.passReq r.pages).latchAll
  else s

/-- A page lies in the covered region. -/
def State.inCovered (s : State) (p : Nat) : Bool := (s.placeOf s.crustRankOf p).isSome

/-! ## The operations (R262) -/

/-- A page is mapped: its frame is zeroed, then the entry set. -/
def State.mapPage (ro cc : Bool) (s : State) (p : Nat) (y : Nat × Nat × Nat) : State :=
  let e : MapEntry := { v := true, tier := y.1, ro := ro, cc := cc, device := y.2.1, frame := y.2.2, gen := ((s.mapEntry p).gen + 1) % 256 }
  ((s.clearLines p).zeroPage p).setMapEntry p (s.pageFlags p e)

/-- A map run. -/
def State.mapRun (s : State) (r : MapReq) : State × Nat :=
  s.placeAll r.tier r.device (fun _ _ => false) (State.mapPage (r.flags.testBit 0) (r.flags.testBit 1)) r.pages

/-- MAP_REQ_MAP (R260 to R262, R293). -/
def execMapReqMap (s : State) : Out :=
  .next (s.processReq 1
    (fun s r =>
      if r.pages.any (fun p => (s.mapEntry p).v) ∨ (r.flags.testBit 1 ∧ r.pages.any fun p => !s.inCovered p) then 3 else (s.mapRun r).2)
    fun s r => (s.mapRun r).1)

/-- A page goes: its contents leave its parity, and the snapshot that still needs it copies it first (R293, R307). -/
def State.dropPage (s : State) (p : Nat) : State := ((s.foldPage p).copyBeforeWrite p).unmapPage p

/-- MAP_REQ_UNMAP (R262, R293). -/
def execMapReqUnmap (s : State) : Out :=
  .next (s.processFold 2 false
    (fun s r =>
      if !s.allMapped r then 6
      else if r.pages.any fun p => s.programNames p || (s.mapEntry p).img || (s.mapEntry p).stp || (s.mapEntry p).fz then 2 else 0)
    State.dropPage)

/-- The target is satisfied by where the page lies. -/
def State.placed (r : MapReq) (s : State) (p : Nat) : Bool :=
  let e := s.mapEntry p
  if r.device ≠ 255 then decide (e.tier = r.tier) && decide (e.device = r.device)
  else if r.tier = 3 then decide (e.tier = 0) || !(List.range 12).any fun d => s.freeFrames 0 d != 0
  else decide (e.tier = r.tier)

/-- Pages that a die's migration engine moves at once (R262). -/
def enginePages : Nat := 16

/-- The die of a device, whose migration engine moves pages to it. -/
def State.dieOfTarget (s : State) (tier dev : Nat) : Nat := if tier = 0 then dev / 6 else (s.physDev dev).getD 0 / 6

/-- Pages whose copies a die's engine runs. -/
def State.engineCopies (s : State) (die : Nat) : List Nat :=
  (s.mem.migrating.filter fun e => e.2.active && s.dieOfTarget e.2.tier e.2.device == die).map (·.1)

/-- A page's copy starts, if its die's engine has a place for it: its entry shows MIG and still gives the old frame. One that finds none
waits. -/
def State.startCopy (s : State) (p : Nat) (y : Nat × Nat × Nat) : State :=
  let go := decide ((s.engineCopies (s.dieOfTarget y.1 y.2.1)).length < enginePages)
  { (if go then s.setMapEntry p { s.mapEntry p with mig := true } else s) with
    mem.migrating := Kv.put s.mem.migrating p { tier := y.1, device := y.2.1, frame := y.2.2, active := go } }

/-- Copies that wait start as their engines have places, the lowest page first. -/
def State.nextCopies (s : State) : State :=
  s.mem.migrating.foldl (fun s e => if e.2.active then s else s.startCopy e.1 (e.2.tier, e.2.device, e.2.frame)) s

/-- A migration run. -/
def State.migrateRun (s : State) (r : MapReq) : State × Nat := s.placeAll r.tier r.device (State.placed r) State.startCopy r.pages

/-- MAP_REQ_MIGRATE (R261, R262). -/
def execMapReqMigrate (s : State) : Out :=
  .next (s.processReq 3
    (fun s r =>
      if !s.allMapped r then 6
      else if s.phase ≠ 0 ∧ r.pages.any s.programNames then 4
      else (s.migrateRun r).2)
    fun s r => (s.migrateRun r).1)

/-- MIGRATION_DONE (R257, R259, R262): the entry and its generation switch, and host writes held for the page are performed. A copy whose
device has been lost ends without a switch. -/
def execMigrationDone (page : Nat) (s : State) : Out :=
  .next (
    match (Kv.find? s.mem.migrating page).filter (·.active) with
    | none => s
    | some m =>
      let e := s.mapEntry page
      let s1 := { s with mem.migrating := Kv.del s.mem.migrating page }
      if m.tier = 1 ∧ !s.cxlActive m.device then ((s1.setMapEntry page { e with mig := false }).nextCopies).drainHost.latchAll
      else
        ((((s1.setMapEntry page { e with mig := false, tier := m.tier, device := m.device, frame := m.frame, gen := (e.gen + 1) % 256 }).bump
          64 Ent.memMigrations 1).nextCopies).drainHost).latchAll)

/-- Sets a flag of every page of a request. -/
def State.flagPages (s : State) (r : MapReq) (f : MapEntry → MapEntry) : State :=
  r.pages.foldl (fun s p => s.setMapEntry p (f (s.mapEntry p))) s

/-- Every page must be mapped. -/
def State.mappedCode (s : State) (r : MapReq) : Nat := if s.allMapped r then 0 else 6

/-- MAP_REQ_SET_RO (R262). -/
def execMapReqSetRo (s : State) : Out :=
  .next (s.processReq 4 State.mappedCode fun s r => s.flagPages r fun e => { e with ro := true })

/-- MAP_REQ_CLEAR_RO (R262). -/
def execMapReqClearRo (s : State) : Out :=
  .next (s.processReq 5 State.mappedCode fun s r => s.flagPages r fun e => { e with ro := false })

/-- CC changes only between steps (R262). DESIGN CHOICE (log 100): during one the request answers busy (4). -/
def State.ccCode (s : State) (r : MapReq) : Nat := if !s.allMapped r then 6 else if s.phase ≠ 0 then 4 else 0

/-- A page becomes covered: its contents join its parity. -/
def State.coverPage (s : State) (p : Nat) : State :=
  if (s.mapEntry p).cc then s else (s.setMapEntry p { s.mapEntry p with cc := true }).foldPage p

/-- A page is no longer covered: its contents leave its parity. -/
def State.uncoverPage (s : State) (p : Nat) : State :=
  if (s.mapEntry p).cc then
    let s1 := (s.foldPage p).copyBeforeWrite p
    s1.setMapEntry p { s1.mapEntry p with cc := false }
  else s

/-- MAP_REQ_SET_CC (R262, R293): only pages of the covered region. -/
def execMapReqSetCc (s : State) : Out :=
  .next (s.processFold 6 true
    (fun s r => if s.ccCode r ≠ 0 then s.ccCode r else if r.pages.any fun p => !s.inCovered p then 3 else 0) State.coverPage)

/-- MAP_REQ_CLEAR_CC (R262, R293). -/
def execMapReqClearCc (s : State) : Out :=
  .next (s.processFold 7 false State.ccCode State.uncoverPage)

/-- MAP_RUN_COMPLETE (R260, R268, R296): a request that no operation fits stops the run; a run whose requests and copies are done
mirrors its changes, and reads done once the successor has acknowledged. -/
def execMapRunComplete (s : State) : Out :=
  .next (
    if s.runsMap then
      if !s.reqOk then
        ((s.raise (integrity intOther .module 0 0 (requestAddr s.mem.reqDone))).failReq 5).latchAll
      else if s.nextReq.op = 0 ∨ 7 < s.nextReq.op then (s.failReq 3).latchAll
      else s
    else if s.pwr.on ∧ s.ent Ent.memReqState = 1 ∧ s.mem.reqChanged.all (fun p => (Kv.find? s.mem.migrating p).isNone) then
      let s1 := s.sendMapMirror
      if s1.crust.mirrorWait.contains 4 then s1 else (s1.setEnt Ent.memReqState 2).raiseVector 3
    else s)

/-! ## Transactions (R263, R264, R266) -/

/-- The largest numbers of outstanding transactions: a die's pool, an HBM controller, a CXL port, the die-to-die link one way. -/
def poolLimit : Nat := 16384
def stackLimit : Nat := 2048
def portLimit : Nat := 512
def crossLimit : Nat := 2048

/-- The pool or the target's limit has no room for a request. -/
def State.txnFull (s : State) (r : MemReq) : Bool :=
  let l := s.poolOf r.die.val
  let h := s.txnHome r
  let same := (l.filter fun x => x.home == h).length
  decide (poolLimit ≤ l.length) || (h.1 != 2 && decide ((if h.1 = 0 then stackLimit else portLimit) ≤ same))
    || (h.2.1 != r.die.val && decide (crossLimit ≤ (l.filter Txn.crossed).length))

/-- A request has a legal size and place: 64 to 256 bytes, aligned to its size, in one page. -/
def txnLegal (r : MemReq) : Bool :=
  decide (64 ≤ r.len) && decide (r.len ≤ 256) && r.addr % r.len == 0 && decide (r.addr % pageBytes + r.len ≤ pageBytes) && (match r.data with | some l => l.length == r.len | none => true)

/-- Requesters whose writes STP and FZ bind. -/
def whoDma : Requester → Bool
  | .host => true
  | .copy _ => true
  | _ => false

/-- The module's own engines, which write reserved and parity pages (R258, R293). -/
def whoOwn : Requester → Bool
  | .mapEngine => true
  | .crust => true
  | .rebuild => true
  | .migration => true
  | .stockpile => true
  | _ => false

/-- Engines whose writes change no contents that parity covers: parity itself, a line rebuilt from it, and a page copied to another
frame (R262, R294, R305). -/
def whoQuiet : Requester → Bool
  | .crust => true
  | .rebuild => true
  | .migration => true
  | _ => false

/-- The requester is a step descriptor's unit or a copy. -/
def whoStep : Requester → Bool
  | .step _ => true
  | .copy _ => true
  | _ => false

/-- Rank at the die memory arbiter (R271). -/
def whoRank : Requester → Nat
  | .mapEngine => 0
  | .crust => 6
  | .rebuild => 7
  | .step c => 8 + c.val / 8
  | .copy k => 8 + k.val
  | .host => 16
  | .migration => 17
  | .stockpile => 18

/-- The code that a write of the module's own engines draws: RO and IMG bind them too (R257), the map engine alone writes the map
(R256), and the crust engine alone writes parity pages (R293). -/
def State.ownWriteCode (s : State) (w : Requester) (p : Nat) : Nat :=
  let e := s.mapEntry p
  if 2 ^ 24 ≤ p ∨ e.v = false then 6
  else if e.ro ∨ e.img ∨ (firstReserved ≤ p ∧ p < pageOf scaleTableBase ∧ w ≠ .mapEngine) ∨ (s.isParity p ∧ w ≠ .crust) then 2
  else 0

/-- The code that a transaction draws: 0 for none (R257, R258, R266, R293). -/
def State.txnCode (s : State) (r : MemReq) : Nat :=
  let p := pageOf r.addr
  match r.who, r.data with
  | .host, none => s.hostReadCode p
  | .host, some _ => s.hostWriteCode p
  | w, none => if decide (p < 2 ^ 24) && (s.mapEntry p).v && (whoOwn w || decide (p < firstReserved)) then 0 else 6
  | w, some _ =>
    if whoOwn w then s.ownWriteCode w p
    else if 2 ^ 24 ≤ p then 6 else s.pageWriteCode (whoDma w) p

/-- A transaction waits for a copy of its page, for the crust, or for a lost line to be rebuilt (R250, R262, R297, R298). -/
def State.txnHeld (s : State) (r : MemReq) : Bool :=
  match r.data with
  | some l =>
    s.txnCode r == 0 && !whoQuiet r.who
      && ((whoDma r.who && s.pageCopies (pageOf r.addr)) || s.writeWaits true r.addr l.length)
  | none => !whoOwn r.who && (s.lostIn r.addr r.len).isSome

/-- An earlier write of the same requester to the same 64-byte line still waits (R264). -/
def State.txnBehind (s : State) (r : MemReq) : Bool :=
  r.data.isSome && s.mem.waiting.any fun t =>
    t.req.who == r.who && t.req.die == r.die && t.req.data.isSome
      && decide (t.req.addr < r.addr + r.len) && decide (r.addr < t.req.addr + t.req.len)

/-- What the units of a core read is discarded: they end without results; an update chunk runs again (R266). -/
def State.discardReads (s : State) (c : Nat) : State :=
  (s.core c).units.foldl (fun s u =>
    if u.1 = 0 then s.dropBlock c u.2.pos u.2.number
    else if u.1 = 1 then (match s.desc? u.2.pos with | some r => s.dropPass c u.2 r | none => s)
    else if s.phase = 4 then s
    else s.finishUnit c 2 u.2.pos u.2.number) s

/-- A read that meets a poisoned line (R266): a step's unit loses its work. -/
def State.readPoison (s : State) (r : MemReq) : State :=
  match s.rangeTrouble r.addr r.len with
  | some (.poisoned a) =>
    match r.who with
    | .step c => ((s.uncorrectable a).discardReads (64 * r.die.val + c.val)).flagFault
    | .copy _ => (s.uncorrectable a).flagFault
    | _ => s.uncorrectable a
  | _ => s

/-- A transaction refused: its error response, and for a step's write the fault flag. -/
def State.refuseTxn (s : State) (r : MemReq) (code : Nat) : State :=
  let s1 := s.memViolation code r.addr
  if code = 2 ∧ whoStep r.who = true then s1.flagFault else s1

/-- A transaction is performed. -/
def State.performTxn (s : State) (r : MemReq) : State :=
  let code := s.txnCode r
  if code ≠ 0 then s.refuseTxn r code
  else
    match r.data with
    | none => s.readPoison r
    | some l => if whoQuiet r.who then s.ramWrite r.addr l else s.storeUnit [(r.addr, l)]

/-- The pool's largest occupancy follows. -/
def State.notePeak (s : State) (die : Nat) : State :=
  s.setEnt (Ent.memTxnPeak die) (max (s.ent (Ent.memTxnPeak die)) (s.poolOf die).length)

/-- A request takes a slot and is performed. -/
def State.admitTxn (s : State) (r : MemReq) : State :=
  let s1 := (s.endRun 3 r.die.val (s.dieResource r) (whoRank r.who)).translate r.die.val (pageOf r.addr)
  let s2 : State := { s1 with mem.outstanding := s1.mem.outstanding ++ [{ req := r, home := s.txnHome r }] }
  (s2.notePeak r.die.val).performTxn r

/-- A request that waits at its arbiter: the cycles it waits are a free value. A read of a lost line has its page rebuilt next. -/
def State.delayTxn (s : State) (r : MemReq) (full : Bool) : State :=
  let s1 : State := { s with mem.waiting := s.mem.waiting ++ [{ req := r }] }
  let n := Config.timing s.clk.freeNext
  let s2 := if full then ((s1.bump 64 (Ent.memTxnFullCycles r.die.val) n).countWait 3 r.die.val (s.dieResource r) (whoRank r.who) n).draw else s1
  match r.data with
  | none => (match s.lostIn r.addr r.len with | some p => s2.rebuildFirst p | none => s2)
  | some _ => s2

/-- A write that waits for a seal: the time counts (R297, R313). -/
def State.stallTxn (s : State) (r : MemReq) : State :=
  match r.data with
  | some l => if whoQuiet r.who then s else s.stallSeals [(r.addr, l.length)]
  | none => s

/-- One request: performed, or delayed. -/
def State.offerTxn (s : State) (r : MemReq) : State :=
  if s.txnFull r then s.delayTxn r true
  else if s.txnHeld r || s.txnBehind r then (s.stallTxn r).delayTxn r false
  else s.admitTxn r

/-- The die's waiting requests are offered again, oldest first. -/
def State.retryTxns (s : State) (die : Nat) : State :=
  let l := s.mem.waiting.filter fun t => t.req.die.val == die
  l.foldl (fun s t => s.offerTxn t.req) { s with mem.waiting := s.mem.waiting.filter fun t => t.req.die.val != die }

/-- What a released frame still waits for when `n` of a die's transactions that are among its own have completed. -/
def waitLess (die n : Nat) (e : Nat × Nat) : Nat × Nat := if die = 0 then (e.1 - n, e.2) else (e.1, e.2 - n)

/-- Released frames of which nothing is waited for are free (R259). -/
def stillReleased (l : KV (Nat × Nat)) : KV (Nat × Nat) := l.filter fun e => e.2 != (0, 0)

/-- The die's oldest transactions complete. -/
def State.completeTxns (s : State) (die n : Nat) : State :=
  let gone := (s.poolOf die).take n
  { s with
    mem.outstanding := gone.foldl (fun l t => l.erase t) s.mem.outstanding
    mem.released := stillReleased (s.mem.released.map fun e => (e.1, waitLess die gone.length e.2)) }

/-- One transaction completes out of turn: frames released after it was translated wait for one less. -/
def State.completeTxn (s : State) (t : Txn) : State :=
  let die := t.req.die.val
  let i := (s.poolOf die).findIdx (· == t)
  { s with
    mem.outstanding := s.mem.outstanding.erase t
    mem.released := stillReleased (s.mem.released.map fun e =>
      (e.1, if i < (if die = 0 then e.2.1 else e.2.2) then waitLess die 1 e.2 else e.2)) }

/-- MEM_TRANSACTION (R259, R263, R264, R266). -/
def execMemTransaction (r : MemReq) (s : State) : Out :=
  .next (
    if s.pwr.on && txnLegal r then
      if s.flt.fatal ≠ 0 then s.completeTxns r.die.val r.completed
      else ((((s.completeTxns r.die.val r.completed).retryTxns r.die.val).offerTxn r)).latchAll
    else s)

/-! ## Stacks (R246 to R251) -/

/-- HBM_CORRECTABLE_ERROR (R248, R249): corrected, counted, and latched for the pseudo-channel. -/
def execHbmCorrectableError (st : StackId) (pc : PcId) (s : State) : Out :=
  .next (
    if s.pwr.on then
      ((s.bump 64 (Ent.hbmCeTotal st.val) 1).raise
        { fault 0x0B .die (st.val / 6) with source := 32 * st.val + pc.val }).latchAll
    else s)

/-- Who read the line bears it: the step's unit and flags, or the host's completion (R266, R377). -/
def State.bearPoison (s : State) (by_ : Reader) (addr : Nat) : State :=
  match by_ with
  | .step c => (s.discardReads c.val).flagFault
  | .host => { s with links.host.completion := (2, s.memRead (addr / 256 * 256) 256) }
  | .other => s

/-- The line of an address is poisoned. -/
def State.poisonLine (s : State) (addr : Nat) : State := { s with mem.poison := listAdd s.mem.poison (addr / 256) }

/-- Primary and mirror of a reserved page (R258): stack and local frame. -/
def primaryPlace (p : Nat) : Nat × Nat := let f := p - firstReserved; (f % 12, f / 12)
def mirrorPlace (p : Nat) : Nat × Nat := let f := p - firstReserved; ((f + 6) % 12, 48 + f / 12)

/-- A bad line of a reserved page: a primary is rewritten from its mirror, and a line that is bad in both has lost its page (R258).
DESIGN CHOICE (log 98): a primary stays bad up to the next EVT tick, and a bad mirror until its line is written. -/
def State.reservedError (s : State) (st addr : Nat) : State :=
  let n := addr / 256
  let s1 : State :=
    if st = (primaryPlace (pageOf addr)).1 then { s with mem.badMain := listAdd s.mem.badMain n }
    else if st = (mirrorPlace (pageOf addr)).1 then { s with mem.badMirror := listAdd s.mem.badMirror n }
    else s
  if s1.mem.badMain.contains n && s1.mem.badMirror.contains n then
    s1.raise { fault 0x0D .die (st / 6) with source := st, addr := addr, space := 0 }
  else s1

/-- HBM_UNCORRECTABLE_ERROR (R248, R250, R258, R266). -/
def execHbmUncorrectableError (st : StackId) (pc : PcId) (addr : Nat) (by_ : Reader) (s : State) : Out :=
  .next (
    if s.pwr.on then
      let s1 := (s.bump 64 (Ent.hbmUeTotal st.val) 1).raise
        { fault 0x0C .die (st.val / 6) with source := 32 * st.val + pc.val, addr := addr, space := 0 }
      if firstReserved ≤ pageOf addr then (s1.reservedError st.val addr).latchAll
      else ((((s1.poisonLine addr).memEvent addr).rebuildLine (pageOf addr)).bearPoison by_ addr).latchAll
    else s)

/-- HBM_SCRUB_PASS (R248). -/
def execHbmScrubPass (st : StackId) (s : State) : Out :=
  .next (if s.pwr.on then s.bump 32 (Ent.hbmScrubPasses st.val) 1 else s)

/-- PC_SPARE_COPY_DONE (R249): the spare takes the logical number and the old pseudo-channel is retired. -/
def execPcSpareCopyDone (st : StackId) (s : State) : Out :=
  .next (
    match (s.stack st.val).copying with
    | none => s
    | some pc =>
      ((s.setStack st.val { s.stack st.val with spare := pc, copying := none, remap := 3 }).dropMemSource (32 * st.val + pc)).dropMemSource
        (32 * st.val + 31))

/-! ## CXL devices (R252 to R255) -/

/-- So many corrected errors, each latched for the device. -/
def State.cxlCorrected : Nat → State → Nat → State
  | 0, s, _ => s
  | n + 1, s, d =>
    State.cxlCorrected n ((s.raise { fault 0x0B .die (d / 6) with source := cxlSource + d }).latchAll) d

/-- CXL_EVENT_RECORD (R253 to R255, R381). -/
def execCxlEventRecord (d : CxlId) (e : CxlEvent) (s : State) : Out :=
  .next (
    if s.pwr.on then
      match e with
      | .corrected n => State.cxlCorrected n (s.bump 64 (Ent.cxlCeTotal d.val) n) d.val
      | .poisoned addr by_ =>
        let s1 := (s.bump 64 (Ent.cxlUeTotal d.val) 1).raise
          { fault 0x0C .die (d.val / 6) with source := cxlSource + d.val, addr := addr, space := 0 }
        ((((s1.poisonLine addr).memEvent addr).rebuildLine (pageOf addr)).bearPoison by_ addr).latchAll
      | .degraded => (s.replaceDev d.val).latchAll
      | .failed => (s.failDev d.val).latchAll
    else s)

/-- CXL_REPLACE_COPY_DONE (R254): the spare takes the logical number and the old device is retired. -/
def execCxlReplaceCopyDone (d : CxlId) (s : State) : Out :=
  .next (
    if (s.dev d.val).replace = 1 then
      match s.spareDev with
      | none => s.setDev d.val { s.dev d.val with replace := 0 }
      | some sp =>
        let n := (s.dev d.val).role
        ((((s.setDev d.val { s.dev d.val with role := 0xFE, replace := 3 }).setDev sp { s.dev sp with role := n }).dropMemSource
          (cxlSource + d.val)).dropMemSource (cxlSource + sp)).setReady (20 + d.val) false
    else s)

/-! ## Rebuilds (R250, R255, R305) -/

/-- A device has one page less to rebuild. -/
def CxlSt.rebuilt (x : CxlSt) (p : Nat) : CxlSt :=
  if x.pages.contains p then
    let left := listErase x.pages p
    { x with pages := left, replace := if left.isEmpty then 3 else x.replace }
  else x

/-- A stack whose last lost line is back. -/
def State.stackRebuilt (s : State) (st : Nat) : State :=
  if (s.stack st).remap = 2 ∧ !(s.pagesOn 0 st).any (s.mem.lostPages.contains ·) then s.setStack st { s.stack st with remap := 3 } else s

/-- The rebuild engine takes another page before this one: a read waits for it (R250). -/
def State.rebuildsFirst (s : State) (page : Nat) : Bool :=
  match s.mem.rebuildNext with
  | some q => q != page && (s.mapEntry q).v && (s.mapEntry q).rb
  | none => false

/-- PAGE_REBUILD_DONE (R250, R255, R266, R305): the page's lines are back from the crust. -/
def execPageRebuildDone (page : Nat) (s : State) : Out :=
  .next (
    let e := s.mapEntry page
    if e.v && e.rb && !s.rebuildsFirst page then
      let s1 := (s.clearLines page).setMapEntry page { e with rb := false }
      let s2 := { s1 with mem.cxl := s1.mem.cxl.map fun (x : Nat × CxlSt) => (x.1, x.2.rebuilt page) }
      ((if e.tier = 0 then s2.stackRebuilt e.device else s2).retryRead).latchAll
    else s)

end Sys2Proof.Machine
end

