-- ==== Sys2Proof/Machine/Swaps.lean ====
section
/-! DEFINITION. The ends of in-module repairs (R12, R217, R284 to R286). -/

namespace Sys2Proof.Machine

/-- A swap's end is counted, and its duration kept (R286). -/
def State.countSwap (s : State) (key entry : Nat) : State :=
  let t := Kv.getD s.rep.swapStart key s.now
  { ((s.bump 32 entry 1).setEnt Ent.resilLastRepairMs (msOfTicks (s.now - t))) with rep.swapStart := Kv.del s.rep.swapStart key }

/-- CORE_SWAP_DONE (R285, R286): the spare core is ready under the logical number, and the units marked for rerun run there; a spare
that fails its pattern check, or whose firmware fails its digest (R422), is a failure of the cluster. -/
def execCoreSwapDone (c : CoreId) (passed : Bool) (s : State) : Out :=
  .next (
    if s.pwr.on = true ∧ s.rep.coreSwap.contains c.val = true then
      if passed && s.loadsComponent 3 then
        (({ s with rep.coreSwap := listErase s.rep.coreSwap c.val }.countSwap c.val Ent.resilCoreSwaps).setCoreReady c.val true).computeCheck
      else (s.swapCluster (c.val / 8)).latchAll
    else s)

/-- CLUSTER_SWAP_DONE (R285, R286): the spare cluster and its cores are ready; a spare that fails is a unit lost beyond every spare. -/
def execClusterSwapDone (k : ClusterId) (passed : Bool) (s : State) : Out :=
  .next (
    if s.pwr.on = true ∧ s.rep.clusterSwap.contains k.val = true then
      let s1 := { s with rep.clusterSwap := listErase s.rep.clusterSwap k.val }
      if passed && s.loadsComponent 3 then
        let s2 := (List.range 8).foldl (fun s i => s.setCoreReady (8 * k.val + i) true) (s1.countSwap (1000 + k.val) Ent.resilClusterSwaps)
        (s2.setReady (40 + k.val) true).computeCheck
      else (s1.raise { fault 0x0A .die (k.val / 8) with source := k.val, physical := s.physCluster k.val }).latchAll
    else s)

/-- DMP_SWAP_DONE (R284): the spare processor has the die's management work. -/
def execDmpSwapDone (d : DieId) (s : State) : Out :=
  .next (
    if s.pwr.on = true ∧ s.rep.dmpSwapping.contains d.val = true then
      ({ s with rep.dmpSwapping := listErase s.rep.dmpSwapping d.val, flt.dogs := listErase s.flt.dogs d.val }.setReady (56 + d.val) true).computeCheck
    else s)

end Sys2Proof.Machine
end

