-- ==== Sys2Proof/Machine/Image.lean ====
section
/-! DEFINITION. Control images and mirrors read back into the module's tables (R241, R289, R296, R301, R310, R311), and the stockpile
(R306 to R309, R453). -/

namespace Sys2Proof.Machine

/-! ## Tables read back -/

/-- Every entry matches its complement. -/
def pairsOk (n : Nat) (l : List Byte) : Bool :=
  (List.range (l.length / (2 * n))).all fun i => decide (slice l (2 * n * i + n) n = flipBytes (slice l (2 * n * i) n))

/-- A scale record as it is read back: one short of a full history enters present mode as restored (R102). -/
def scaleRecBack (l : List Byte) : ScaleRec :=
  let r := scaleRecOf l
  { r with reason := if r.count < 16 then some 1 else none }

/-- The scale table, the Rake state table and the group table from their stored bytes. -/
def State.loadScales (s : State) (l : List Byte) : State :=
  { s with scale.recs := (pairsOf 80 l).zipIdx.map fun (e : List Byte × Nat) => (e.2, scaleRecBack e.1) }
def State.loadRake (s : State) (l : List Byte) : State :=
  { s with rake.layers := (pairsOf 8 l).zipIdx.map fun (e : List Byte × Nat) => (e.2, rakeStOf (leNat e.1)) }
def State.loadGroups (s : State) (l : List Byte) : State :=
  { s with links.groups := ((pairsOf 528 l).zipIdx.map fun (e : List Byte × Nat) => (e.2, groupOf s.node e.1)).filter fun e => e.2 != {} }

/-- A replay record joins the ring, as that of the last step started; an empty one does not. -/
def State.loadReplay (s : State) (r : ReplayRec) : State :=
  if r.layers = 0 then s else { s with
    train.ring := Kv.put s.train.ring (r.step % 64) r, train.lastStep := some r.step
    train.newest := if r.complete then r.step else s.train.newest }

/-! ## Resume (R241) -/

/-- train.step_index, train.cursor_stamp and rng.step are compared. -/
def State.checkResume (s : State) : State :=
  let a := s.ent Ent.trainStepIndex
  s.setEnt Ent.rngResumeCheck (if s.ent Ent.trainCursorStamp = a ∧ s.ent Ent.rngStep = a then 0 else 1)

/-- rng.realign: the cursor's step is taken, with a Notice. -/
def State.realign (s : State) : State :=
  let a := s.ent Ent.trainCursorStamp
  (((s.setEnt Ent.rngStep a).setEnt Ent.trainStepIndex a).checkResume).condition 0 0x3410 a 0 0

/-! ## Control images (R310) -/

/-- Sections of an image after its header: id and body; at most `n` of them. -/
def sectionsOf : Nat → List Byte → List (Nat × List Byte)
  | 0, _ => []
  | n + 1, l =>
    if l.length < 8 then []
    else
      let len := leAt l 4 4
      (leAt l 0 2, slice l 8 len) :: sectionsOf n (l.drop (8 + (len + 7) / 8 * 8))

/-- A parsed image. -/
structure Image where
  step : Nat
  secs : List (Nat × List Byte)
  deriving DecidableEq, Repr

/-- The body of a section; one that is absent is empty. -/
def Image.sec (x : Image) (id : Nat) : List Byte := ((x.secs.find? fun s => s.1 == id).map (·.2)).getD []

/-- The image that bytes spell, or the code of what is wrong with it (R310): the CRC and every complement, then the version, the
program's hash, the tables' lengths, and any t of −128 (R32). -/
def State.readImage (s : State) (l : List Byte) : Option Image × Nat :=
  let n := leAt l 8 8
  let x : Image := { step := leAt l 16 8, secs := sectionsOf (leAt l 6 2) (slice l 32 (n - 40)) }
  if l.take 4 ≠ [0x4B#8, 0x5A#8, 0x43#8, 0x49#8] ∨ n < 40 ∨ l.length < n then (none, 3)
  else if leAt l (n - 8) 4 ≠ crc32c (l.take (n - 8)) then (none, 5)
  else
    match replayRecOf (x.sec 2) with
    | none => (none, 5)
    | some r =>
      if !(pairsOk 80 (x.sec 3) && pairsOk 8 (x.sec 4) && pairsOk 528 (x.sec 5)) then (none, 5)
      else if leAt l 4 2 ≠ 1 ∨ r.hash ≠ s.progHash ∨ (x.sec 3).length ≠ 160 * s.recordCount ∨ (x.sec 4).length ≠ 16 * s.layerCount
          ∨ (x.sec 5).length ≠ 256 * 1056 ∨ reservedT (x.sec 3) ∨ r.reservedT then (none, 3)
      else (some x, 0)

/-- One entry of the map list: page, tier, RO, CC. -/
def listPage (w : Nat) : Nat := w % 2 ^ 24
def listTier (w : Nat) : Nat := bitsOf w 24 2

/-- A page of a map list is mapped, zeroed, in its tier if it is missing; its flags are set. -/
def State.mapListed (s : State) (w : Nat) : State :=
  let p := listPage w
  let flags := fun (e : MapEntry) => { e with ro := w.testBit 26, cc := w.testBit 27 }
  if (s.mapEntry p).v then s.setMapEntry p (flags (s.mapEntry p))
  else
    match s.placeReq (listTier w) 255 p with
    | some y => s.mapPage (w.testBit 26) (w.testBit 27) p y
    | none => s

/-- Words of a map list. -/
def listWords (l : List Byte) : List Nat := (List.range (l.length / 8)).map fun i => leAt l (8 * i) 8

/-- The missing pages of a map list find frames in their tiers. -/
def State.listFits (s : State) (l : List Nat) : Bool :=
  [0, 1].all fun t =>
    let need := (l.filter fun w => listTier w == t && !(s.mapEntry (listPage w)).v).length
    decide (need ≤ sumNat ((List.range (if t = 0 then 12 else 11)).map (s.freeFrames t)))

/-- The step values of an image. -/
def State.loadValues (s : State) (l : List Byte) : State :=
  (List.range (l.length / 16)).foldl (fun s i =>
    let k := 256 * leAt l (16 * i) 2 + leAt l (16 * i + 2) 1
    if stepValueEntries.contains k then s.setEnt k (leAt l (16 * i + 8) 8) else s) s

/-- On a resume λ is taken from the replay record of the step that resumes (R124). A record of the step before holds the λ of that step's
start, which the commit may have moved since; the image's step values then give λ (R310, R311; log 80). -/
def State.resumeLambda (s : State) (r : ReplayRec) : State :=
  if r.layers ≠ 0 ∧ r.step = s.ent Ent.trainStepIndex then s.setEnt Ent.lossScaleExp r.lambda else s

/-- An image takes effect: the map, the tables, the step values, and the check of R241. -/
def State.applyImage (s : State) (x : Image) : State :=
  let s1 := (listWords (x.sec 6)).foldl State.mapListed s
  let s2 := (((s1.loadScales (x.sec 3)).loadRake (x.sec 4)).loadGroups (x.sec 5)).loadValues (x.sec 1)
  let s3 := match replayRecOf (x.sec 2) with | some r => (s2.loadReplay r).resumeLambda r | none => s2
  { (s3.checkResume).protect with train.rakeHalt := false }

/-- Writes bytes that the module itself hands out, to an address of the host's choice; the code of a refusal (R289, R310). A write that
the crust holds back waits, and is one seal unit (log 102). -/
def State.exportTo (s : State) (a : Nat) (l : List Byte) : Reply :=
  if !s.rangeOrdinary a l.length then { s := s, code := 6, space := 0, addr := a }
  else if s.writeCode true a l.length ≠ 0 then { s := s, code := 2, space := 0, addr := a }
  else { s := s.ownWrite a l }

/-- image.export_go. -/
def State.exportImage (s : State) : Reply := s.exportTo (s.ent Ent.imageExportAddress) s.controlImage

/-- Why an import gets busy. -/
def State.importBusy (s : State) : Bool := s.phase != 0 || s.ent Ent.crustMode != 0

/-- image.import_go (R310). -/
def State.importImage (s : State) : Reply :=
  let a := s.ent Ent.imageImportAddress
  if s.importBusy then { s := s, code := 4 }
  else if !s.rangeMapped a 40 then { s := s, code := 6, space := 0, addr := a }
  else
    let n := leAt (s.memRead a 16) 8 8
    if !s.rangeMapped a n then { s := s, code := 6, space := 0, addr := a }
    else
      match s.readImage (s.memRead a n) with
      | (none, c) => { s := s, code := c, space := 0, addr := a }
      | (some x, _) =>
        if s.listFits (listWords (x.sec 6)) then { s := s.applyImage x } else { s := s, code := 3, space := 0, addr := a }

/-- replay.export_go (R289). -/
def State.exportReplay (s : State) : Reply :=
  let n := s.ent Ent.replayExportStep
  match Kv.find? s.train.ring (n % 64) with
  | some r => if r.step = n then s.exportTo (s.ent Ent.replayExportAddress) r.bytes else { s := s, code := 3 }
  | none => { s := s, code := 3 }

/-! ## The stockpile (R306 to R309, R453) -/

/-- SNAPSHOT_IMAGE_WRITTEN (R306): the control image is in flash, and the next step may admit descriptors. -/
def execSnapshotImageWritten (s : State) : Out :=
  .next (
    if s.pwr.on && s.stock.writing.isSome && !s.stock.imageWritten then { s with stock.imageWritten := true, train.snapHold := false } else s)

/-- The bytes of a page as a snapshot keeps them: its listed cells. -/
def State.pageCells (s : State) (p : Nat) : Nat × List Host.Cell := (p, s.mem.ram.filter fun c => pageOf c.1 == p)

/-- The rating of the snapshot store, in bytes, and nine tenths of it (R453). -/
def ratedBytes : Nat := 60000000000000000
def wornBytes : Nat := ratedBytes / 10 * 9

/-- Bytes written count toward the store's rating; at 90 % of it a FLASH Warning is written once. -/
def State.wear (s : State) (n : Nat) : State :=
  let total := s.stock.lifeBytes + n
  let s1 := { s with stock.lifeBytes := total }
  if wornBytes ≤ total ∧ s.stock.wornNoted = false then { s1 with stock.wornNoted := true }.raise (fault 0x18 .module 0) else s1

/-- SNAPSHOT_COMPLETE (R307 to R309): the last page and the catalogue entry are in flash. -/
def execSnapshotComplete (s : State) : Out :=
  .next (
    match s.stock.writing with
    | none => s
    | some w =>
      if s.pwr.on && s.stock.imageWritten && !(s.ent Ent.stockState == 4) then
        let whole := { w with pages := w.pages ++ s.stock.todo.map s.pageCells, complete := true }
        (({ s with
            stock.snaps := s.stock.snaps ++ [whole], stock.writing := none, stock.todo := [], stock.imageWritten := false }.setEnt
          Ent.stockState 0).wear w.bytes).latchAll
      else s)

/-- The complete snapshot of a step; the newest where a step has several. -/
def State.snapshot? (s : State) (step : Nat) : Option Snapshot := s.stock.snaps.reverse.find? fun x => x.complete && x.step == step

/-- stock.restore_step (R309): the pages are mapped and the control image loaded; the covered pages follow. -/
def State.restoreStep (s : State) (v : Nat) : Reply :=
  if s.importBusy ∨ s.stock.writing.isSome ∨ s.stock.restoring.isSome ∨ s.ent Ent.stockState = 4 then { s := s, code := 4 }
  else
    match s.snapshot? v with
    | none => { s := s, code := 3 }
    | some w =>
      match s.readImage w.image with
      | (none, c) => { s := s, code := c }
      | (some x, _) =>
        if s.listFits (listWords (x.sec 6)) then { s := { s.applyImage x with stock.restoring := some v }.setEnt Ent.stockState 2 }
        else { s := s, code := 3 }

/-- A covered page of a snapshot is written back. -/
def State.restorePage (s : State) (x : Nat × List Host.Cell) : State :=
  let s1 := (s.clearLines x.1).zeroPage x.1
  { s1 with mem.ram := x.2.foldl (fun m c => Kv.setD m c.1 0 c.2) s1.mem.ram }

/-- STOCK_RESTORE_DONE (R309): every covered page is written, and stock.state returns to 0. -/
def execStockRestoreDone (s : State) : Out :=
  .next (
    match s.stock.restoring with
    | none => s
    | some v =>
      if s.pwr.on then
        let s1 := match s.snapshot? v with
          | some w => w.pages.foldl State.restorePage s
          | none => s
        { s1 with stock.restoring := none }.setEnt Ent.stockState 0
      else s)

end Sys2Proof.Machine
end

