-- ==== Sys2Proof/Machine/Crust.lean ====
section
/-! DEFINITION. The crust between members (R291 to R305, R395): deltas and seals, mirrors, reduced streams, heartbeats, the loss of a
member, spares, epochs and rebuilds. -/

namespace Sys2Proof.Machine

/-! ## Members -/

/-- The crust group's entry, and the rank of a node in it. -/
def State.crustGrp (s : State) : Group := s.group (s.ent Ent.crustGroup)
def State.crustRankAt (s : State) (node : Nat) : Option Nat := (s.crustGrp.members.take 8).findIdx? (· == node)

/-- Node address of a crust rank. -/
def State.crustNode (s : State) (rank : Nat) : Nat := s.crustGrp.members.getD rank 0xFFFF

/-- The spare stands at the rank that is being rebuilt (R304). -/
def State.spareStands (s : State) (r : Nat) : Bool :=
  match s.crust.rebuilding with
  | some (q, j) => q == r && s.crustNode r == s.ent (Ent.crustSpareNode j)
  | none => false

/-- A rank whose frames are taken: not counted lost, or the spare's at the lost rank. -/
def State.rankHeard (s : State) (r : Nat) : Bool := !s.crust.lost.contains r || s.spareStands r

/-- The rank from which a crust frame is taken: a member's, of the group's epoch, not counted lost (R299, R304). -/
def State.crustFrom (s : State) (h : BrineHdr) : Option Nat :=
  if h.group.val = s.ent Ent.crustGroup ∧ h.epoch = s.crustGrp.epoch ∧ (s.ent Ent.crustMode ≠ 0 ∨ s.crust.taking.isSome) then
    (s.crustRankAt h.src).filter s.rankHeard
  else none

/-- The module has become fresh in the crust (R298). -/
def State.becomeFresh (s : State) : State := (s.setEnt Ent.crustState 2).setEnt Ent.crustFreshStep (s.ent Ent.trainStepIndex)

/-! ## Deltas and seals (R294) -/

/-- A unit as its frames name it: step and number within the step (R385). -/
def unitKey (h : BrineHdr) : Nat := 65536 * (h.step % 65536) + h.sequence % 65536

/-- The delta's frames of a unit are all in: the last one gives their number. -/
def State.unitWhole (s : State) (rank unit : Nat) : Bool :=
  let l := s.crust.heldDeltas.filter fun d => d.rank == rank && d.unit == unit
  l.any fun d => d.last && d.segment + 1 == l.length

/-- An acknowledgement of a unit's deltas (segment 0) or of its seal (segment 1). -/
def State.ackUnit (s : State) (rank unit seg : Nat) : State :=
  s.sendFrame { s.frame 11 (s.ent Ent.crustGroup) (s.crustNode rank) with step := unit / 65536, sequence := unit % 65536, segment := seg }

/-- A frame's delta is held already, or its unit is in parity: a frame that was sent again on another lane (R387, R396). -/
def State.deltaKnown (s : State) (rank : Nat) (h : BrineHdr) : Bool :=
  s.crust.sealsSeen.contains (rank, unitKey h)
    || s.crust.heldDeltas.any fun d => d.rank == rank && d.unit == unitKey h && d.segment == h.segment

/-- A delta joins those held unapplied; a whole unit is acknowledged. -/
def State.holdDelta (s : State) (rank : Nat) (h : BrineHdr) : State :=
  let d : HeldDelta := {
    rank := rank, unit := unitKey h, addr := leNat (h.payload.take 8), bytes := h.payload.drop 8, segment := h.segment, last := h.last }
  let s1 := if s.deltaKnown rank h then s else { s with crust.heldDeltas := s.crust.heldDeltas ++ [d] }
  if s1.unitWhole rank (unitKey h) then s1.ackUnit rank (unitKey h) 0 else s1

/-- CRUST_DELTA_RX (R294): the holder holds the delta unapplied, and acknowledges the unit. -/
def execCrustDeltaRx (h : BrineHdr) (s : State) : Out :=
  .next (s.receive h fun s => match s.crustFrom h with | some r => s.holdDelta r h | none => s)

/-- Every holder of a unit has acknowledged its deltas. -/
def SealUnit.allAcked (x : SealUnit) : Bool := !x.filling && x.holders.all fun h => x.acked.contains h

/-- The seals of a unit go to its holders. -/
def State.sendSeals (s : State) (x : SealUnit) : State :=
  (x.holders.filter fun h => !s.crust.lost.contains h).foldl (fun s h =>
    s.sendFrame { s.frame 10 (s.ent Ent.crustGroup) (s.crustNode h) with step := x.step, sequence := x.seq % 65536 }) s

/-- A unit is sealed: it leaves the sender, and an apply chunk it carries is marked done in the ledger (R230, R294). -/
def State.unitSealed (s : State) (x : SealUnit) : State :=
  let s1 := { s with crust.units := s.crust.units.filter fun y => y.number != x.number }
  match x.chunk with
  | none => s1.drainHost
  | some k => ({ s1 with train.ledger := s1.train.ledger ++ [k] }.settleUpdates).drainHost

/-- The deltas of a unit are acknowledged by a rank; with the last one its seals go out. -/
def State.unitAcked (s : State) (x : SealUnit) (rank : Nat) : State :=
  let y := { x with acked := listAdd x.acked rank }
  let s1 := { s with crust.units := s.crust.units.map fun (z : SealUnit) => if z.number = x.number then y else z }
  if !x.allAcked && y.allAcked then s1.sendSeals y else s1

/-- An unsealed unit with this name in frames. -/
def State.unit? (s : State) (key : Nat) : Option SealUnit := s.crust.units.find? fun (x : SealUnit) => 65536 * x.step + x.seq % 65536 == key

/-- CRUST_SEAL_ACK_RX (R294, R297): once every holder has acknowledged a unit its seals go out; once a holder has its seal the unit
counts as sealed. -/
def execCrustSealAckRx (h : BrineHdr) (s : State) : Out :=
  .next (s.receive h fun s =>
    match s.crustFrom h, s.unit? (unitKey h) with
    | some r, some x => if h.segment = 1 then (if x.allAcked then s.unitSealed x else s) else s.unitAcked x r
    | _, _ => s)

/-- A unit's deltas are XORed into parity. -/
def State.applyUnit (s : State) (rank unit : Nat) : State :=
  let l := s.crust.heldDeltas.filter fun d => d.rank == rank && d.unit == unit
  let s1 := l.foldl (fun s d => s.ramWrite d.addr (xorBytes (s.ramRead d.addr d.bytes.length) d.bytes)) s
  { s1 with crust.heldDeltas := s1.crust.heldDeltas.filter fun d => !(d.rank == rank && d.unit == unit) }

/-- Seals remembered of each sender, for the comparison of R294. -/
def sealMemory : Nat := 4096

/-- CRUST_SEAL_RX (R294): the unit goes into parity. -/
def execCrustSealRx (h : BrineHdr) (s : State) : Out :=
  .next (s.receive h fun s =>
    match s.crustFrom h with
    | none => s
    | some r =>
      let s1 := s.applyUnit r (unitKey h)
      { s1 with crust.sealsSeen := ((r, unitKey h) :: s1.crust.sealsSeen).take sealMemory }.ackUnit r (unitKey h) 1)

/-! ## Mirrors (R296, R301) -/

/-- Key of a mirror under way. -/
def partKey (rank point : Nat) : Nat := 8 * rank + point

/-- The whole mirror, once all its segments are in. -/
def State.wholeMirror (s : State) (k : Nat) : Option (List Byte) :=
  match Kv.find? s.crust.partCount k with
  | none => none
  | some n =>
    let l := (List.range n).map fun i => Kv.find? s.crust.parts (2 ^ 32 * k + i)
    if l.all (·.isSome) then some (l.flatMap fun x => x.getD []) else none

/-- The segments of a mirror are done with. -/
def State.dropParts (s : State) (k : Nat) : State :=
  { s with crust.parts := s.crust.parts.filter fun e => e.1 / 2 ^ 32 != k, crust.partCount := Kv.del s.crust.partCount k }

/-- The page of a mirrored map value on the spare (R301): mapped in its tier, not zeroed where it is covered, and unmapped where the
member had unmapped it. -/
def State.takeMapped (s : State) (w : Nat) : State :=
  let p := listPage w
  if w.testBit 28 = false then (if (s.mapEntry p).v && !s.programNames p then s.unmapPage p else s) else s.mapListed w

/-- A mirror is kept: those of point 4 one after the other. -/
def putMirror (m : KV (List Byte)) (point : Nat) (l : List Byte) : KV (List Byte) :=
  Kv.put m point (if point = 4 then Kv.getD m 4 [] ++ l else l)

/-! ## Reduced streams (R298, R301, R305, R395) -/

/-- The bytes that this member adds to a segment of a stream: for a parity page its covered page; for a page of the rank that is rebuilt,
its parity page where it holds that, else its covered page (R292, R301). -/
def State.contribution (s : State) (stream page seg : Nat) : List Byte :=
  let n := s.ent Ent.crustSpanPages / 8
  let me := s.crustRankOf
  let cut := fun (l : List Byte) => slice l (4096 * seg) 4096
  if stream < 256 then cut (s.streamBytes (s.contribPage me stream page))
  else
    let holder := (stream % 256 + 1 + page / n) % 8
    if holder = me then s.ramRead (s.parityAddr (page % n) (4096 * seg)) 4096
    else cut (s.streamBytes (s.contribPage me holder (page % n)))

/-- Where the receiver of a stream writes a segment: its parity page, or its covered page. -/
def State.streamAddr (s : State) (stream page seg : Nat) : Nat :=
  if stream < 256 then s.parityAddr page (4096 * seg) else (s.ent Ent.crustSpanFirst + page) * pageBytes + 4096 * seg

/-- The receiver's rank: a spare's is the one it takes. -/
def State.ownRank (s : State) : Nat := s.crust.taking.getD s.crustRankOf

/-- A segment reaches the stream's receiver. Pages without cover are not written. -/
def State.takeSegment (s : State) (stream page seg : Nat) (l : List Byte) : State :=
  let k := 2 ^ 24 * stream + page
  let s1 := { s with crust.passed := Kv.put s.crust.passed k (setBitN (Kv.getD s.crust.passed k 0) seg true) }
  if stream < 256 ∨ (s.mapEntry (s.ent Ent.crustSpanFirst + page)).cc = true then
    let s2 := s1.ramWrite (s1.streamAddr stream page seg) l
    if s1.ent Ent.crustState = 4 then s2.bump 64 Ent.crustRebuildBytes l.length else s2
  else s1

/-- A segment of a stream: written by its receiver, or passed on with this member's own bytes; one that has passed already, sent again on
another lane, is not taken twice. -/
def State.passSegment (s : State) (h : BrineHdr) : State :=
  let page := h.segment / pageSegments
  let seg := h.segment % pageSegments
  let rcv := h.sequence % 256
  if (Kv.getD s.crust.passed (2 ^ 24 * h.sequence + page) 0).testBit seg then s
  else if s.ownRank = rcv then s.takeSegment h.sequence page seg h.payload
  else if s.crustMember then
    (s.sendStream h.sequence page seg s.crustRankOf (xorBytes h.payload (s.contribution h.sequence page seg))).drainHost
  else s

/-- REDUCED_STREAM_RX (R395). -/
def execReducedStreamRx (h : BrineHdr) (s : State) : Out :=
  .next (s.receive h fun s => match s.crustFrom h with | some _ => s.passSegment h | none => s)

/-- Every stream of a resync has passed this member, its own parity included. -/
def State.resyncOver (s : State) : Bool :=
  (List.range 8).all fun h => (List.range (s.ent Ent.crustSpanPages / 8)).all fun i => s.streamPassed h i

/-- CRUST_RESYNC_DONE (R298). -/
def execCrustResyncDone (s : State) : Out :=
  .next (
    if s.pwr.on && s.crust.resync && s.resyncOver then
      ({ s with crust.resync := false, crust.passed := [] }.becomeFresh).drainHost.latchAll
    else s)

/-! ## Heartbeats (R299, R395) -/

/-- Nodes that hear this member's heartbeats: the crust's members and the hot spares. -/
def State.beatNodes (s : State) : List Nat :=
  ((s.crustGrp.members.take 8) ++ (List.range 4).map fun j => s.ent (Ent.crustSpareNode j)).filter fun n => n != 0xFFFF && n != s.node

/-- Ranks whose heartbeats this member awaits. -/
def State.awaited (s : State) : List Nat := (List.range 8).filter fun r => decide (r ≠ s.crustRankOf) && s.rankHeard r

/-- HEARTBEAT_TX (R299): every period the heartbeats go out on every live lane, and the ranks not heard of in it are counted. -/
def execHeartbeatTx (s : State) : Out :=
  .next (
    if s.pwr.on && (s.crustMember || s.crustTaker) then
      let s1 := s.beatNodes.foldl (fun s n => s.sendAllLanes (s.frame 4 (s.ent Ent.crustGroup) n)) s
      { s1 with
        crust.missed := s1.awaited.foldl (fun m r =>
          if s1.crust.heard.contains r then Kv.del m r else Kv.put m r (Kv.getD m r 0 + 1)) s1.crust.missed
        crust.heard := [] }
    else s)

/-- HEARTBEAT_RX (R299, R395): the rank is heard of in this period, whatever the lane. -/
def execHeartbeatRx (h : BrineHdr) (s : State) : Out :=
  .next (s.receiveFree h fun s =>
    match s.crustFrom h with
    | some r => { s with crust.heard := listAdd s.crust.heard r, crust.missed := Kv.del s.crust.missed r }
    | none => s)

/-! ## Loss of a member (R299 to R303) -/

/-- A rank counts as lost: a Severe fault names it. -/
def State.countLost (s : State) (rank : Nat) : State :=
  if s.crust.lost.contains rank then s
  else { s with crust.lost := listAdd s.crust.lost rank }.raise { fault 0x13 .module 0 with source := rank, physical := rank, detail := rank }

/-- A withdrawal: its member counts as lost; of a spare at a lost rank, every heartbeat counts as missed. -/
def State.takeWithdrawal (s : State) (rank : Nat) : State :=
  if s.crust.lost.contains rank then { s with crust.missed := Kv.put s.crust.missed rank (s.ent Ent.crustLossAfter) } else s.countLost rank

/-- WITHDRAWAL_RX (R299): the sender counts as lost from this moment. -/
def execWithdrawalRx (h : BrineHdr) (s : State) : Out :=
  .next (s.receive h fun s => match s.crustFrom h with | some r => s.takeWithdrawal r | none => s)

/-- The held units of a lost sender: applied where any holder has received their seals, else discarded (R294, R301). -/
def State.settleHeld (s : State) (rank : Nat) (sealedUnits : List Nat) : State :=
  let units := ((s.crust.heldDeltas.filter fun d => d.rank == rank).map (·.unit)).foldl listAdd []
  let s1 := units.foldl (fun s u =>
    if sealedUnits.contains u || s.crust.sealsSeen.contains (rank, u) then s.applyUnit rank u else s) s
  { s1 with crust.heldDeltas := s1.crust.heldDeltas.filter fun d => d.rank != rank }

/-- Own units wait no more for a lost holder; one that it alone held is sealed with it (R301). -/
def State.releaseHolder (s : State) (rank : Nat) : State :=
  (s.crust.units.filter fun (x : SealUnit) => x.holders.contains rank).foldl (fun (s : State) (x : SealUnit) =>
    let s1 := s.unitAcked x rank
    if !x.filling && x.holders == [rank] then s1.unitSealed { x with acked := [rank] } else s1) s

/-- The coordinator is the lowest surviving rank (R300). -/
def State.coordinator (s : State) : Bool :=
  ((List.range 8).find? fun r => !s.crust.lost.contains r) == some s.crustRankOf

/-- The spare that the coordinator takes: the first in order of preference, from a slot on, that is named and eligible. -/
def State.takenSpare (s : State) (first : Nat) (answers : List SpareAnswer) : Option Nat :=
  (List.range 4).find? fun j =>
    decide (first ≤ j) && s.ent (Ent.crustSpareNode j) != 0xFFFF && answers.any fun a => a.slot.val == j && a.eligible

/-- An epoch change of a group: the spare stands at the rank of the lost node, and epoch rises by 1 (R304, R391). -/
def Group.replace (g : Group) (node lost spare : Nat) : Group :=
  let ms := g.members.map fun n => if n = lost then spare else n
  { g with members := ms, epoch := (g.epoch + 1) % 2 ^ 32, rank := (ms.findIdx? (· == node)).getD 0xFFFF }

/-- Changes a group's entry. Contributions that wait under another epoch of the group are dropped with it. -/
def State.setGroup (s : State) (g : Nat) (e : Group) : State :=
  { s with
    links.groups := Kv.setD s.links.groups g {} e
    links.early := s.links.early.filter fun h => h.group.val != g || h.epoch == e.epoch }

/-- The successor of the lost member sends the spare its map, so that it maps the pages before the epochs change (R301). -/
def State.sendMap (s : State) (rank spare : Nat) : State :=
  if s.crustRankOf = (rank + 1) % 8 then
    s.sendBytes { s.frame 12 (s.ent Ent.crustGroup) spare with sequence := 4 } (Kv.getD s.crust.mirrors 4 [])
  else s

/-- What this member owes a spare that stands at the lost rank: the successor hands on the other mirrors it holds; the predecessor sends
its M3 and whatever of its mirrors the lost member has not acknowledged; frames to the lost node are given up (R296, R301). -/
def State.serveSpare (s : State) (rank lost spare : Nat) : State :=
  let g := s.ent Ent.crustGroup
  let unsent := (s.links.lanes.flatMap fun e => e.2.unacked.filter fun f => f.dst == lost && f.kind == 12)
  let s1 := { s with links.lanes := s.links.lanes.map fun (e : Nat × LaneSt) => (e.1, { e.2 with unacked := e.2.unacked.filter fun f => f.dst != lost }) }
  let s2 := if s.crustRankOf = (rank + 1) % 8 then
      (s1.crust.mirrors.filter fun m => m.1 != 4).foldl (fun s m => s.sendBytes { s.frame 12 g spare with sequence := m.1 } m.2) s1
    else s1
  if s.crustRankOf = (rank + 7) % 8 then
      let s3 := (unsent.filter fun f => f.sequence != 3).foldl (fun s f => s.sendFrame { f with dst := spare, epoch := (s.group g).epoch }) s2
      s3.sendBytes { s3.frame 12 g spare with sequence := 3 } s3.mirrorM3
  else s2

/-- The streams toward a spare start from the first contributor, which is the coordinator, once every change of an epoch has been
acknowledged, the spare's after it has mapped the pages (R301, R395). -/
def State.startRebuild (s : State) : State :=
  match s.crust.rebuilding with
  | none => s
  | some (rank, _) =>
    if s.crust.epochWait = [] ∧ s.crustRankOf = firstRank rank ∧ s.crust.passed = [] then
      (List.range (7 * (s.ent Ent.crustSpanPages / 8))).foldl (fun s o =>
        s.startStream (256 + rank) o ((List.range pageSegments).flatMap fun k => s.contribution (256 + rank) o k)) (s.startParity rank)
    else s

/-- The preference slot that names a node (R313). -/
def State.spareSlot (s : State) (node : Nat) : Nat := ((List.range 4).find? fun j => s.ent (Ent.crustSpareNode j) == node).getD 0

/-- A rebuild begins onto the spare of a slot, from the mapping step (R301, R314). -/
def State.beginRebuild (s : State) (rank slot : Nat) : State :=
  ({ s with
      crust.rebuilding := some (rank, slot), crust.unserved := none, crust.passed := []
      crust.missed := Kv.del s.crust.missed rank }.setEnt
    Ent.crustState 4).setEnt Ent.crustRebuildBytes 0

/-- A group takes the change, and a member of a crust that can rebuild begins its part, from the mapping step if it has not begun yet. -/
def State.installEpoch (s : State) (g rank lost spare : Nat) : State :=
  if g = s.ent Ent.crustGroup ∧ s.crust.taking.isNone ∧ (s.crustMember ∨ (s.inCrust ∧ s.crust.unserved = some rank)) then
    let s0 := if s.crust.rebuilding = some (rank, s.spareSlot spare) then s else s.sendMap rank spare
    ((s0.setGroup g ((s0.group g).replace s.node lost spare)).beginRebuild rank (s.spareSlot spare)).serveSpare rank lost spare
  else s.setGroup g ((s.group g).replace s.node lost spare)

/-- Payload of an epoch change: the lost rank in the group, the lost node and the spare's (layout of the model, log 54). -/
def epochPayload (rank lost spare : Nat) : List Byte := leBytes 2 rank ++ leBytes 2 lost ++ leBytes 2 spare

/-- The coordinator sends the change of every group that holds the lost node to every other member and to the spare, and takes it itself
(R304). -/
def State.changeEpochs (s : State) (lost spare : Nat) : State :=
  let gs := (s.links.groups.filter fun e => e.2.valid && (e.2.members.take e.2.p).contains lost).map (·.1)
  gs.foldl (fun (s : State) g =>
    let e := s.group g
    let rank := (e.members.findIdx? (· == lost)).getD 0
    let told := ((e.members.take e.p).filter fun n => n != lost && n != s.node) ++ [spare]
    let s1 := told.foldl (fun s n =>
      { s.sendFrame { s.frame 7 g n with epoch := e.epoch + 1, payload := epochPayload rank lost spare } with
        crust.epochWait := listAdd s.crust.epochWait (65536 * g + n) }) s
    s1.installEpoch g rank lost spare) s

/-- The step in flight when a member is lost (R303): without its M2 mirror it has no outcome. -/
def State.lossEndsStep (s : State) (mirrored : Bool) : State := if mirrored then s else s.noOutcome

/-- The crust cannot rebuild: state 5, in which it is idle (R300, R313, R314). Deltas, seals and mirrors under way are given up, and
what waited for them goes on. -/
def State.degrade (s : State) : State :=
  (({ s.dropUnits with
      crust.rebuilding := none, crust.taking := none, crust.resync := false, crust.resyncDue := false, crust.passed := []
      crust.mirrorWait := [], crust.epochWait := [], crust.heldChange := [] }.setEnt Ent.crustState 5).settleUpdates).drainHost

/-- A lost rank that cannot be rebuilt (R314): another one is lost too, the crust was stale, in a resync or degraded, or this module is
the spare of another rank. -/
def State.beyondRebuild (s : State) (rank : Nat) : Bool :=
  s.crust.taking.isSome || s.crust.lost.any (· != rank) || (s.crust.rebuilding.any fun x => x.1 != rank)
    || !(s.ent Ent.crustState == 2 || s.ent Ent.crustState == 4 || s.crust.unserved == some rank)

/-- The coordinator's offer of the lost rank, from a slot on (R300): without an eligible spare the crust is degraded, until one is
added. No acknowledgement of the node at that rank is awaited any more. -/
def State.offerRank (s : State) (rank first : Nat) (answers : List SpareAnswer) : State :=
  match s.takenSpare first answers with
  | none => { s.degrade with crust.unserved := some rank }
  | some j =>
    let gone := s.crustNode rank
    let s1 := ({ s with crust.epochWait := s.crust.epochWait.filter fun w => w % 65536 != gone }.beginRebuild rank j).sendMap rank
      (s.ent (Ent.crustSpareNode j))
    if s1.coordinator then
      { s1.changeEpochs (s1.crustNode rank) (s1.ent (Ent.crustSpareNode j)) with crust.rebuilding := some (rank, j) }
    else s1

/-- A rank's loss is dealt with for the first time: units settled, the step in flight ended or carried on (R301, R303). -/
def State.survive (s : State) (rank : Nat) (mirrored : Bool) (sealedUnits : List Nat) : State :=
  let s1 := { s with crust.handled := listAdd s.crust.handled rank }
  ((s1.settleHeld rank sealedUnits).releaseHolder rank).lossEndsStep mirrored

/-- What every survivor does about a lost rank. A rank dealt with before has lost its spare, which passes to the next, or has been
without one; a rebuild that the coordinator has begun already goes on (R300, R314). -/
def State.handleLoss (s : State) (rank : Nat) (mirrored : Bool) (sealedUnits : List Nat) (answers : List SpareAnswer) : State :=
  let s1 := if s.crust.handled.contains rank then s else s.survive rank mirrored sealedUnits
  if s.beyondRebuild rank then s1.degrade
  else
    match s.crust.rebuilding with
    | some (_, j) => if s.crust.handled.contains rank then s1.offerRank rank (j + 1) answers else s1
    | none => s1.offerRank rank 0 answers

/-- A rank's loss is to be dealt with: it counts as lost or has been silent for crust.loss_after periods, or the coordinator has replaced
it already; or its spare is silent, or it has none yet (R299, R300, R314). -/
def State.lossDue (s : State) (rank : Nat) : Bool :=
  let silent := decide (s.ent Ent.crustLossAfter ≤ Kv.getD s.crust.missed rank 0)
  let rebuilt := s.crust.rebuilding.any fun x => x.1 == rank
  if s.crust.handled.contains rank then s.crust.unserved == some rank || (rebuilt && silent)
  else s.crust.lost.contains rank || rebuilt || silent

/-- MEMBER_LOST (R299 to R303, R314): a rank not heard of for crust.loss_after periods, or one that has withdrawn. -/
def execMemberLost (rank : Fin 8) (mirrored : Bool) (sealedUnits : List Nat) (answers : List SpareAnswer) (s : State) : Out :=
  .next (
    if s.pwr.on && (s.inCrust || s.crustTaker) && decide (rank.val ≠ s.crustRankOf) && s.lossDue rank.val then
      ((s.countLost rank.val).handleLoss rank.val mirrored sealedUnits answers).latchAll
    else s)

/-- An epoch change is installed and acknowledged (R304). A group that has taken another change meanwhile takes this one too: its epoch
rises by 1 for each (R314). A member that it replaces has been withdrawn (R299). -/
def State.takeChange (s : State) (h : BrineHdr) : State :=
  let e := s.group h.group.val
  let lost := leAt h.payload 2 2
  let s1 := if h.epoch = e.epoch + 1 ∨ (e.members.take e.p).contains lost then s.installEpoch h.group.val (leAt h.payload 0 2) lost (leAt h.payload 4 2) else s
  let s2 := if lost = s.node ∧ h.group.val = s.ent Ent.crustGroup then s1.setEnt Ent.crustRole 2 else s1
  s2.sendFrame { s2.frame 8 h.group.val h.src with epoch := h.epoch }

/-- A spare that has not mapped the lost member's pages yet takes the change of the crust group's epoch after them (R301). -/
def State.mapsFirst (s : State) (h : BrineHdr) : Bool :=
  s.crust.taking.isSome && h.group.val == s.ent Ent.crustGroup && (Kv.find? s.crust.own 4).isNone

/-- EPOCH_CHANGE_RX (R301, R304). -/
def execEpochChangeRx (h : BrineHdr) (s : State) : Out :=
  .next (s.receive h fun s => if s.mapsFirst h then { s with crust.heldChange := s.crust.heldChange ++ [h] } else s.takeChange h)

/-! ## Mirrors arrive (R296, R301) -/

/-- A whole mirror from a rank: this member's predecessor's is held; a spare that takes a rank keeps what the successor sends it, and maps
the pages at once. -/
def State.takeMirror (s : State) (rank point : Nat) (l : List Byte) : State :=
  match s.crust.taking with
  | some t =>
    if rank = (t + 1) % 8 then
      let s1 := { s with crust.own := putMirror s.crust.own point l }
      if point = 4 then
        let s2 := (listWords l).foldl State.takeMapped s1
        s2.crust.heldChange.foldl State.takeChange { s2 with crust.heldChange := [] }
      else s1
    else if rank = (t + 7) % 8 then { s with crust.mirrors := putMirror s.crust.mirrors point l }
    else s
  | none => if rank = (s.crustRankOf + 7) % 8 then { s with crust.mirrors := putMirror s.crust.mirrors point l } else s

/-- A mirror's segment. -/
def State.takePart (s : State) (rank : Nat) (h : BrineHdr) : State :=
  let k := partKey rank h.sequence
  let s1 := { s with
    crust.parts := Kv.put s.crust.parts (2 ^ 32 * k + h.segment) h.payload
    crust.partCount := if h.last then Kv.put s.crust.partCount k (h.segment + 1) else s.crust.partCount }
  match s1.wholeMirror k with
  | some l => (s1.dropParts k).takeMirror rank h.sequence l
  | none => s1

/-- MIRROR_RX (R296): the successor holds the mirror; the transport acknowledges it. -/
def execMirrorRx (h : BrineHdr) (s : State) : Out :=
  .next (s.receive h fun s => match s.crustFrom h with | some r => s.takePart r h | none => s)

/-- EPOCH_ACK_RX (R301, R304): with the last acknowledgement the streams toward the spare start. -/
def execEpochAckRx (h : BrineHdr) (s : State) : Out :=
  .next (s.receive h fun s => { s with crust.epochWait := listErase s.crust.epochWait (65536 * h.group.val + h.src) }.startRebuild)

/-- ABANDON_NOTICE_RX (R219): a notice for the run group and the step in flight makes the module enter abandon. -/
def execAbandonNoticeRx (h : BrineHdr) (s : State) : Out :=
  .next (s.receive h fun s =>
    if h.group.val = s.ent Ent.trainRunGroup ∧ h.step = s.ent Ent.trainStepIndex % 65536 ∧ (s.others h.group.val).contains h.src = true then
      s.enterAbandon true
    else s)

/-! ## The spare's side (R300, R301, R303) -/

/-- The spare is eligible for an offer (R300). DESIGN CHOICE (log 105): also only between steps, in phase 0. -/
def State.eligible (s : State) (o : SpareOffer) : Bool :=
  s.ent Ent.crustRole == 1 && s.ent Ent.crustGroup == o.group.val && s.computeSet && s.sec.fwMajor == o.fwMajor
    && s.phase == 0 && s.ent Ent.progState == 2 && s.progHash == o.progHash && s.ent Ent.progImageAddress == o.imageAddress
    && s.ent Ent.crustSpanFirst == o.spanFirst && s.ent Ent.crustSpanPages == o.spanPages && s.ent Ent.crustParityFirst == o.parityFirst
    && decide (o.hbmPages ≤ sumNat ((List.range 12).map (s.freeFrames 0)))
    && decide (o.cxlPages ≤ sumNat ((List.range 11).map (s.freeFrames 1)))

/-- HOT_SPARE_OFFER_RX (R300, R301): an eligible spare takes the rank. -/
def execHotSpareOfferRx (o : SpareOffer) (s : State) : Out :=
  .next (
    if s.pwr.on && s.crust.taking.isNone && s.eligible o then
      ({ s with crust.taking := some o.rank.val, crust.own := [], crust.passed := [], crust.heldChange := [] }.setEnt Ent.crustState 4).setEnt Ent.crustRebuildBytes 0
    else s)

/-- The commit record that 64 bytes of value spell (R225). -/
def commitOf (l : List Byte) : CommitRec :=
  { step := leAt l 0 8, outcome := leAt l 8 1, lambda := leAt l 9 1, clean := leAt l 12 4, samples := leAt l 16 8, stamp := leAt l 24 8,
    rngStep := leAt l 32 8, frozenCrc := leAt l 40 4, update := leAt l 44 1 }

/-- The control tables of the lost member all match their complements (R301). -/
def State.ownOk (s : State) (x : M3Parts) : Bool :=
  pairsOk 80 x.scales && pairsOk 8 x.rake && pairsOk 64 x.commit && pairsOk 528 x.groups
    && (match Kv.find? s.crust.own 1 with | some l => (replayRecOf l).isSome | none => true)

/-- The lost member's group table (R301, R304, R311): each group that holds the lost node is in its new epoch, with this module at its rank,
and of a group whose later epoch this module holds already that stays. -/
def State.loadGroupsM3 (s : State) (l : List Byte) : State :=
  let table := (pairsOf 528 l).zipIdx
  let lost := (table.find? fun e => e.2 == s.ent Ent.crustGroup).map fun e => (groupOf s.node e.1).members.getD s.ownRank s.node
  table.foldl (fun s e =>
    let old := groupOf s.node e.1
    let m := match lost with
      | some n => if n ≠ s.node ∧ (old.members.take old.p).contains n then old.replace s.node n s.node else old
      | none => old
    if (s.group e.2).valid ∧ m.epoch ≤ (s.group e.2).epoch then s else { s with links.groups := Kv.setD s.links.groups e.2 {} m }) s

/-- What M3 gives: tables, commit record, groups, masks, and the values that the commit record holds (R225, R301, R311). -/
def State.loadM3 (s : State) (x : M3Parts) : State :=
  let c := commitOf x.commit
  let s1 := { ((s.loadScales x.scales).loadRake x.rake).loadGroupsM3 x.groups with train.commit := c }
  let s2 := ((s1.setEnt Ent.trainStepIndex c.stamp).setEnt Ent.trainCursorSamples c.samples).setEnt Ent.trainCursorStamp c.stamp
  let s3 := ((s2.setEnt Ent.rngStep c.rngStep).setEnt Ent.lossScaleExp c.lambda).setEnt Ent.lossCleanSteps c.clean
  (s3.setEnt Ent.commitFrozenMask (leAt x.masks 0 8)).setEnt Ent.commitFrozenPending (leAt x.masks 8 8)

/-- The replay record of the step in flight gives the values at that step's start: cursor, generator, run key and group (R287). -/
def State.loadM1 (s : State) (r : ReplayRec) : State :=
  let s1 := s.loadReplay r
  let s2 := ((s1.setEnt Ent.trainStepIndex r.step).setEnt Ent.trainCursorSamples r.samples).setEnt Ent.trainCursorStamp r.stamp
  let s3 := ((s2.setEnt Ent.rngStep r.rngStep).setEnt Ent.rngKeyLo r.keyLo).setEnt Ent.rngKeyHi r.keyHi
  (((s3.setEnt Ent.trainRunGroup r.runGroup).setEnt Ent.lossScaleExp r.lambda).setEnt Ent.lossCleanSteps r.clean).setEnt
    Ent.commitFrozenMask r.frozen

/-- The replay record of a step that is over gives the generator's key and the run group; the rest has moved since (R301, R311). -/
def State.loadRun (s : State) (r : ReplayRec) : State :=
  (((s.loadReplay r).setEnt Ent.rngKeyLo r.keyLo).setEnt Ent.rngKeyHi r.keyHi).setEnt Ent.trainRunGroup r.runGroup

/-- The spare resumes the lost member's step after its M2 mirror (R303): contribution made, staging and decision vectors as mirrored, the
update still to run but for the chunks sealed. -/
def State.resumeStep (s : State) (g : Program) (r : ReplayRec) (m2 : List Byte) (ledger : List (Nat × Nat)) : State :=
  let rung := fun l => r.rungs.getD l 0
  let n := s.recordCount
  let staged := (List.range n).filterMap fun i =>
    let v := leAt m2 (16 + 8 * i) 4
    if v = 0 then none else some (i, ({ amax := BitVec.ofNat 32 v } : Staged))
  let flags := leAt m2 0 1
  let s1 := { s with
    prog.shapes := r.shapes, prog.rungs := r.rungs.zipIdx.map fun (x : Nat × Nat) => (x.2, x.1) }.freshStep
  let s2 := (s1.syncFormats g rung).layStream g ((g.stream rung true).filter fun it => it.update)
  { s2 with
    scale.stepT := (List.range n).map fun i => (i, Kv.getD r.ts i 0)
    scale.staged := staged
    train.nonFinite := flags.testBit 0, train.fault := flags.testBit 1, train.lambda := r.lambda, train.contributed := true
    train.vectors := (List.range g.layers.length).map fun l => decVecOf (slice m2 (16 + 8 * n + 80 * l) 80)
    train.ledger := ledger }.setPhase 3

/-- An update descriptor of the stream has a chunk that is not sealed, and its group is not frozen. -/
def State.itemUndone (s : State) (d : Desc) (pos : Nat) (ledger : List (Nat × Nat)) : Bool :=
  d.kind == 2 && !(s.ent Ent.commitFrozenMask).testBit (s.preamble d).group
    && (List.range (ceilDiv (s.dim d.m * s.dim d.n) chunkElems)).any fun c => !ledger.contains (pos, c)

/-- The gradient tensors of unsealed chunks lie in covered pages (R295, R303). -/
def State.gradientsCovered (s : State) (g : Program) (ledger : List (Nat × Nat)) : Bool :=
  (s.prog.all.filter fun it => s.itemUndone (g.desc it.index) it.pos ledger).all fun it =>
    let r := g.spans.getD (s.preamble (g.desc it.index)).gradient (1, 0)
    (List.range (r.2 + 1 - r.1)).all fun i => (s.mapEntry (r.1 + i)).cc

/-- The step that the mirrors M1 and M2 show in flight, if M2 belongs to the step of M1. -/
def State.flightOf (s : State) : Option (ReplayRec × List Byte) :=
  match Kv.find? s.crust.own 1, Kv.find? s.crust.own 2 with
  | some a, some m2 =>
    match replayRecOf a with
    | some r => if leAt m2 8 8 = r.step then some (r, m2) else none
    | none => none
  | _, _ => none

/-- The spare stands at its rank (R301 step 6). -/
def State.standAtRank (s : State) : State :=
  ({ s with crust.taking := none, crust.own := [], crust.passed := [], crust.handled := [] }.setEnt Ent.crustRole 0).becomeFresh

/-- The spare loads its control state and checks it (R301, R303). -/
def State.finishSpare (s : State) (ledger : List (Nat × Nat)) : State :=
  let x := s.m3Parts ((Kv.find? s.crust.own 3).getD [])
  let fail := fun (s : State) => s.setEnt Ent.crustState 5
  if !s.ownOk x then fail (s.raise { integrity intReplay .module 0 0 0 with atLeast := 2 })
  else
    let s1 := if (Kv.find? s.crust.own 3).isSome then s.loadM3 x else s
    let commit := s1.train.commit.step
    match s.prog.loaded, s.flightOf with
    | some g, some (r, m2) =>
      -- M2 of a step that M3 has already committed is behind
      if r.step = commit ∧ (Kv.find? s.crust.own 3).isSome then (s1.loadRun r).standAtRank
      else
        let s2 := (s1.loadM1 r).resumeStep g r m2 ledger
        { s2 with train.uncovered := !s2.gradientsCovered g ledger }.standAtRank
    | some _, none =>
      match (Kv.find? s.crust.own 1).bind replayRecOf with
      | some r => (if (Kv.find? s.crust.own 3).isSome then s1.loadRun r else s1.loadM1 r).standAtRank
      | none => s1.standAtRank
    | none, _ => s1.standAtRank

/-- Every stream toward the spare has arrived: its parity, and its covered pages. -/
def State.spareFilled (s : State) (rank : Nat) : Bool :=
  let n := s.ent Ent.crustSpanPages / 8
  (List.range n).all (fun i => s.streamPassed rank i) && (List.range (7 * n)).all fun o => s.streamPassed (256 + rank) o

/-- REBUILD_COMPLETE (R301, R303): on the spare the control state is loaded and checked; on every survivor the crust is fresh again. -/
def execRebuildComplete (ledger : List (Nat × Nat)) (s : State) : Out :=
  .next (
    if s.pwr.on = false then s
    else
      match s.crust.taking, s.crust.rebuilding with
      | some r, _ => if s.spareFilled r then (s.finishSpare ledger).latchAll else s
      | none, some (r, _) =>
        if s.crust.epochWait = [] then
          ({ s with
              crust.rebuilding := none, crust.passed := [], crust.lost := listErase s.crust.lost r,
              crust.handled := listErase s.crust.handled r, crust.missed := Kv.del s.crust.missed r }.becomeFresh).drainHost.latchAll
        else s
      | none, none => s)

end Sys2Proof.Machine
end

