-- ==== Sys2Proof/Machine/FaultCmds.lean ====
section
/-! DEFINITION. The commands of fault collection and the recorder (R315 to R333): errors arriving, handling completed, watchdogs, the
mirror. -/

namespace Sys2Proof.Machine

/-- Levels whose collectors latch a class: lowest and highest (R320). -/
def classLevels (c : Nat) : Nat × Nat :=
  match c with
  | 0x01 => (0, 0) | 0x02 => (0, 0) | 0x03 => (0, 4) | 0x04 => (0, 1) | 0x05 => (0, 3) | 0x06 => (1, 2) | 0x07 => (1, 2)
  | 0x08 => (2, 2) | 0x09 => (3, 3) | 0x0A => (3, 3) | 0x0B => (3, 3) | 0x0C => (3, 3) | 0x0D => (3, 3) | 0x0E => (3, 3)
  | 0x10 => (0, 4) | 0x12 => (3, 4)
  | _ => (4, 4)

/-- The level of a code. -/
def levelOf (l : Nat) : Level :=
  match l with
  | 0 => .pan | 1 => .core | 2 => .cluster | 3 => .die
  | _ => .module

/-- An error is forwarded to the collector that its class names (R315). -/
def forward : Nat → FaultReport → FaultReport
  | 0, r => r
  | n + 1, r =>
    let l := levelCode r.level
    if l < (classLevels r.cls).1 then forward n { r with level := levelOf (l + 1), unit := parentUnit l r.unit } else r

/-- A report names a class of R320, a level that latches it and an instance of that level. -/
def reportOk (r : FaultReport) : Bool :=
  decide (1 ≤ r.cls) && decide (r.cls ≤ 0x1A) && decide (levelCode r.level ≤ (classLevels r.cls).2)
    && decide (r.unit < levelInstances (levelCode r.level)) && decide (r.atLeast ≤ (classRow r.cls).ceiling)

/-- A damaged value of the management complex is reloaded: the last value journalled, else the default (R332, R347). -/
def State.reloadValue (s : State) (k : Nat) : State :=
  ({ s with dict.vals := Kv.setD s.dict.vals k (entryDefault k) (Kv.getD s.dict.journal k (entryDefault k)),
            dict.bad := listErase s.dict.bad k }).bump 64 Ent.dictIntegrityReloads 1

/-- What the reader of a stored value does beside reporting that its complement failed (R332): a scale record or a staged amax
starts its record over (R126), a shift entry is reread (R107), an exception window reports kind 0 (R175), a dictionary value is
reloaded, a mismatch of the attestation key's state index, which lies outside flash (space 6), destroys the key (R431); the others are
reread or read from a mirror, which changes nothing. -/
def State.mismatch (s : State) (r : FaultReport) : State :=
  if r.source = intShift then s.bump 64 Ent.scaleIntegrityFaults 1
  else if r.source = intScale then
    let staged := decide (stagingBase ≤ r.addr)
    let i := if staged then (r.addr - stagingBase) / 8 else (r.addr - scaleTableBase) / 160
    if i < s.recordCount then
      let s1 := if staged then { s with scale.staged := Kv.del s.scale.staged i } else s
      (s1.bump 64 Ent.scaleIntegrityFaults 1).resetRecord i 3
    else s
  else if r.source = intWindow then
    if r.level = .core then s.setCore r.unit { s.core r.unit with windowBad := true } else s
  else if r.source = intDict then s.reloadValue r.addr
  else if r.source = intSignature ∧ r.space ≠ 6 then s.destroyAttestKey
  else s

/-- The severity that R332 fixes for a first mismatch: a Rake state entry is Severe at once. -/
def mismatchLeast (r : FaultReport) : Nat := if r.source = intRake then max 2 r.atLeast else r.atLeast

/-- FAULT_LATCH (R315, R320 to R328, R332). -/
def execFaultLatch (r : FaultReport) (s : State) : Out :=
  .next (
    if s.pwr.on && reportOk r then
      if r.cls = 0x11 then s.violation r.cause r.space r.addr 0
      else if r.cls = 0x10 then ((s.mismatch r).raise (forward 4 { r with atLeast := mismatchLeast r })).latchAll
      else (s.raise (forward 4 r)).latchAll
    else s)

/-- FAULT_HANDLING_DONE (R316, R323, R324): the fault in slot 1 leaves it. -/
def execFaultHandlingDone (l : Level) (unit : Nat) (s : State) : Out :=
  .next (
    let k := colKey (levelCode l) unit
    if s.pwr.on && decide (unit < levelInstances (levelCode l)) then s.handled k else s)

/-- MGMT_WATCHDOG_EXPIRY (R328, R329). -/
def execMgmtWatchdogExpiry (s : State) : Out :=
  .next (if s.pwr.on then ({ s with flt.alive := .stopped }.raise (fault 0x19 .module 0)).latchAll else s)

/-- DMP_WATCHDOG_EXPIRY (R330): the die's watchdog line, and a DMP fault. -/
def execDmpWatchdogExpiry (d : DieId) (s : State) : Out :=
  .next (
    if s.pwr.on then ({ s with flt.dogs := listAdd s.flt.dogs d.val }.raise { fault 0x09 .die d.val with detail := 2 ^ 24 }).latchAll else s)

/-- CPROC_WATCHDOG_EXPIRY (R330). -/
def execCprocWatchdogExpiry (c : CoreId) (s : State) : Out :=
  .next (
    if s.pwr.on then
      let phys := Kv.getD s.rep.corePhys c.val (c.val % 8)
      (s.raise { fault 0x08 .cluster (c.val / 8) with source := c.val % 8, physical := phys, detail := phys }).latchAll
    else s)

/-- A record that waits for the mirror reaches it. -/
def State.mirrorOne (s : State) (seq : Nat) : State :=
  let s1 := { s with flt.mirrorQueue := s.flt.mirrorQueue.drop 1 }
  match s.flt.records.find? (fun r => r.seq == seq) with
  | some r =>
    { s1 with
      nv.mirror := (s1.nv.mirror.filter fun x => x.seq != seq && s.flt.records.any fun y => y.seq == x.seq) ++ [r],
      nv.mirrorBad := listErase s1.nv.mirrorBad seq }
  | none => s1

/-- MIRROR_FLUSH (R333): the oldest record that waits reaches flash; a flash that fails leaves the recorder in SRAM alone. -/
def execMirrorFlush (ok : Bool) (s : State) : Out :=
  .next (
    if s.pwr.on && !s.flt.flashFailed then
      if ok then (match s.flt.mirrorQueue with | [] => s | q :: _ => s.mirrorOne q)
      else ({ s with flt.flashFailed := true }.raise (fault 0x18 .module 0)).latchAll
    else s)

end Sys2Proof.Machine
end

