-- ==== Sys2Proof/Machine/Power.lean ====
section
/-! DEFINITION. Power control, heat and the energy ledger: POWER_CONTROL_TICK to SPRING_DEFERRED_APPLY (R18, R79, R137, R399 to R417). -/

namespace Sys2Proof.Machine

/-! ## Sources of class POWER (R410) -/

def powInput : Nat := 0
def powCluster (p : Nat) : Nat := 1 + p
def powStack (st : Nat) : Nat := 19 + st
def powRegulator (r : Nat) : Nat := 31 + r
def powCoolant : Nat := 63
def powMeter : Nat := 64
/-- The spec's list of sources names no CXL device, whose thresholds R409 makes POWER faults all the same (log 57). -/
def powCxl (d : Nat) : Nat := 65 + d

/-- A POWER fault of a source, at least at a severity. -/
def State.raisePower (s : State) (source atLeast : Nat) : State :=
  s.raise { fault 0x12 .module 0 with source := source, atLeast := atLeast }

/-! ## Sensors (R409) -/

/-- Key of a sensor: physical clusters from 0, stacks from 100, regulators from 200, CXL devices from 300, inlet and outlet. -/
def sensorKey : Sensor → Nat
  | .cluster p => p.val
  | .stack st => 100 + st.val
  | .regulator r => 200 + r.val
  | .cxl d => 300 + d.val
  | .inlet => inletKey
  | .outlet => inletKey + 1

/-- A sensor's sampled state. -/
def State.sensor (s : State) (k : Nat) : SensorSt := Kv.getD s.pwr.sensors k {}

/-- Thresholds of a sensor in thousandths of a degree: throttle, Warning, Severe; none where R409 gives none. -/
def State.thresholds (s : State) : Sensor → Option Int × Option Int × Option Int
  | .cluster _ => (some 95000, some 100000, some 105000)
  | .stack _ => (some 85000, some 90000, some 95000)
  | .regulator _ => (some 110000, some 115000, some 120000)
  | .cxl d => (none, some (Config.cxlWarning d.val), some (Config.cxlCritical d.val))
  | .inlet => (none, some (if s.ent Ent.powerModeInForce = 2 then 30001 else 40001), some 45001)
  | .outlet => (none, none, none)

/-- A threshold's flag after a sample: set from the threshold on, released 3 °C below it. -/
def overThreshold (was : Bool) (t : Option Int) (x : Int) : Bool :=
  match t with
  | none => false
  | some v => decide (v ≤ x) || (was && decide (v - 3000 < x))

/-- The logical cluster behind a physical one, if one stands there (R12). -/
def State.logicalCluster (s : State) (p : Nat) : Option Nat := (List.range 16).find? fun k => s.physCluster k == p

/-- What a cluster's own sensor, or a regulator that feeds it, throttles. -/
def State.throttled (s : State) (k : Nat) : Bool :=
  (s.sensor (s.physCluster k)).throttle ||
    (List.range 32).any fun r => (s.sensor (200 + r)).throttle && Config.regulatorFeeds r k

/-- What a regulator at Severe keeps clock-stopped. -/
def State.regulatorStops (s : State) (k : Nat) : Bool :=
  (List.range 32).any fun r => (s.sensor (200 + r)).severe && Config.regulatorFeeds r k

/-! ## Limiters (R401) -/

/-- The level that a limiter without demand asks for. -/
def State.modeLevel (s : State) : Nat := if s.ent Ent.powerModeInForce = 0 then 0 else 15

/-- The cap loop enforces E: always but in Spring, there while the step-down holds (R399, R403). -/
def State.capActive (s : State) : Bool := decide (s.ent Ent.powerModeInForce ≠ 2) || s.pwr.capHeld

/-- What the cap loop asks of a cluster in this microsecond: the level that the spec leaves to the controller, dithered (R401, R402). -/
def State.capDemand (s : State) (k : Nat) : Nat :=
  if s.capActive then
    min s.modeLevel (Config.capLevel s.clk.freeNext % 16 + bitN (Config.dither s.clk.freeNext k))
  else s.modeLevel

/-- A held level 0 asked for, or the mode's level. -/
def State.zeroIf (s : State) (b : Bool) : Nat := if b then 0 else s.modeLevel

/-- Demands on a cluster, in the order of the bits of power.limiter. -/
def State.demands (s : State) (k : Nat) : List Nat :=
  let cur := s.pwr.levels.getD k 15
  let d := k / 8
  [ if s.pwr.capHeld then s.modeLevel else s.capDemand k,
    if s.pwr.capHeld then s.capDemand k else s.modeLevel,
    min (s.zeroIf (s.pwr.guardHold || s.pwr.guardStop.contains k)) (s.pwr.guardAsk.getD k s.modeLevel),
    if (s.sensor (s.physCluster k)).throttle then min s.modeLevel (cur - 1) else s.zeroIf (s.pwr.dieStop.getD d false),
    s.zeroIf (s.pwr.dieLevel0.getD d false),
    if (List.range 32).any (fun r => (s.sensor (200 + r)).throttle && Config.regulatorFeeds r k) then min s.modeLevel (cur - 1)
      else s.zeroIf (s.regulatorStops k),
    s.zeroIf s.pwr.inletHold,
    s.zeroIf (s.pwr.voltHold || s.pwr.countHold) ]

/-- The level asked of a cluster: the lowest demand. -/
def State.wanted (s : State) (k : Nat) : Nat := (s.demands k).foldl min s.modeLevel

/-- Clusters that the cap loop keeps clock-stopped, highest logical first, once level 0 is not enough. -/
def State.capStopped (s : State) (k : Nat) : Bool :=
  s.capActive && decide (s.wanted k = 0) && decide (16 - Config.capStops s.clk.freeNext % 17 ≤ k)

/-- A cluster is to stand clock-stopped; but for heat, never longer than 1 ms at a time (R402). -/
def State.stopAsked (s : State) (k : Nat) : Bool :=
  s.pwr.dieStop.getD (k / 8) false || s.regulatorStops k ||
    ((s.capStopped k || s.pwr.guardStop.contains k) && decide (s.pwr.stoppedUs.getD k 0 < 1000))

/-- Which limiters, by the bits of power.limiter, keep a cluster clock-stopped. -/
def State.stoppers (s : State) (k : Nat) : List Bool :=
  [s.capStopped k && !s.pwr.capHeld, s.capStopped k && s.pwr.capHeld, s.pwr.guardStop.contains k, s.pwr.dieStop.getD (k / 8) false, false,
   s.regulatorStops k, false, false]

/-- A cluster's next level and step-down: up by one at most, down by more than one in eight steps (R402). -/
def nextLevel (cur want : Nat) (r : Option (Nat × Nat × Nat)) : Nat × Option (Nat × Nat × Nat) :=
  if cur ≤ want then (min want (cur + 1), none)
  else
    match r with
    | some (a, b, i) =>
      if b = want then
        let v := min cur (a - ((a - b) * (i + 1) + 7) / 8)
        (v, if i + 1 < 8 then some (a, b, i + 1) else none)
      else if cur - want = 1 then (want, none)
      else (cur - ((cur - want) + 7) / 8, some (cur, want, 1))
    | none =>
      if cur - want = 1 then (want, none) else (cur - ((cur - want) + 7) / 8, some (cur, want, 1))

/-- One cluster's microsecond. -/
def State.tickCluster (s0 s : State) (k : Nat) : State :=
  let cur := s0.pwr.levels.getD k 15
  let stop := s0.stopAsked k
  let n := nextLevel cur (if stop then 0 else s0.wanted k) (Kv.find? s0.pwr.ramps k)
  let stopped := stop && decide (cur = 0)
  -- a cluster that was stopped resumes at level 0
  let level := if s0.pwr.stopped.getD k false then 0 else n.1
  { s with
    pwr.levels := s.pwr.levels.set k level,
    pwr.ramps := match n.2 with | some r => Kv.put s.pwr.ramps k r | none => Kv.del s.pwr.ramps k,
    pwr.stopped := s.pwr.stopped.set k stopped,
    pwr.stoppedUs := s.pwr.stoppedUs.set k (if stopped then s.pwr.stoppedUs.getD k 0 + 1 else 0) }

/-- Clusters that are ready. -/
def State.active (s : State) : List Nat := (List.range 16).filter fun k => s.isReady (40 + k)

/-- power.limiter: a bit for each limiter that lowers any active cluster, or stops its clock. -/
def State.limiterWord (s : State) : Nat :=
  sumNat ((List.range 8).map fun i =>
    if s.active.any (fun k => decide ((s.demands k).getD i 15 < s.modeLevel) || (s.stoppers k).getD i false) then 2 ^ i else 0)

/-- The peak account and the excursion over one microsecond (R403). Milliwatts times microseconds are nanojoules. -/
def State.accountTick (s : State) (p : Nat) : State :=
  let e := s.envelope * 1000
  let a := if e < p then s.pwr.account - (p - e) else min s.accountMax (s.pwr.account + (e - p))
  let s1 := { s with
    pwr.account := a,
    pwr.excursionUs := if e < p then s.pwr.excursionUs + 1 else 0,
    pwr.capHeld := s.pwr.capHeld && decide (a < s.accountMax) }
  s1.syncAccount

/-- The input voltage's hold, which ends after 10 ms at or above 48 V (R411). -/
def State.voltTick (s : State) (mv : Nat) : State :=
  let n := if 48000 ≤ mv then s.pwr.voltOkUs + 1 else 0
  { s with pwr.voltOkUs := n, pwr.voltHold := s.pwr.voltHold && decide (n < 10000) }

/-- Number of an FP32 pattern of a power, for the largest so far. -/
def f32Max (a b : Nat) : Nat := if (decode .fp32 a).lt (decode .fp32 b) then b else a

/-- The readings of R416. -/
def State.meterEntries (s : State) (m : PowerMeas) : State :=
  let p := f32OfRatio m.avg10ms 1000
  (((s.setEnt Ent.powerInputW p).setEnt Ent.powerInput1sW (f32OfRatio m.avg1s 1000)).setEnt Ent.powerInputMv m.inputMv).setEnt
    Ent.powerPeak10msW (f32Max (s.ent Ent.powerPeak10msW) p)

/-- Cores whose clock has returned discard what faults have spoiled (R81). -/
def State.thawAll (s : State) : State := (s.cores.filter fun e => !e.2.faults.isEmpty).foldl (fun s e => s.thaw e.1) s

/-- POWER_CONTROL_TICK (R401, R402, R403): every cluster's level for the next microsecond. -/
def execPowerControlTick (m : PowerMeas) (s : State) : Out :=
  .next (
    if s.pwr.on then
      let s1 := ((s.meterEntries m).accountTick m.avg10ms).voltTick m.inputMv
      let s2 := (List.range 16).foldl (s1.tickCluster) s1
      let s3 := s2.setEnt Ent.powerLimiter s1.limiterWord
      let low := s1.active.any fun k => decide (s2.pwr.levels.getD k 15 < s1.modeLevel)
      let stopped := s1.active.any fun k => s2.pwr.stopped.getD k false
      (((s3.thawAll.latchAll).bump 64 Ent.powerDitherUs (bitN low)).bump 64 Ent.powerClockstopUs (bitN stopped)).draw
    else s)

/-- CLOCK_STOP_REQUEST (R79, R280): every pan, the sluice path and the vector unit of the core stand still, with all state in place. -/
def execClockStopRequest (c : CoreId) (s : State) : Out :=
  .next (if s.pwr.on then s.setCore c.val { s.core c.val with frozen := true } else s)

/-- CLOCK_STOP_RELEASE (R79, R81): the core resumes where it stopped, and discards what faults meanwhile have spoiled. -/
def execClockStopRelease (c : CoreId) (s : State) : Out :=
  .next (if s.pwr.on then ((s.setCore c.val { s.core c.val with frozen := false }).thaw c.val).latchAll else s)

/-- PEAK_STEPDOWN (R403): the account is empty or the excursion has lasted 2 s; E is enforced until the account is full. -/
def execPeakStepdown (s : State) : Out :=
  .next (
    if s.pwr.on ∧ s.pwr.capHeld = false ∧ (s.pwr.account = 0 ∨ 2000000 ≤ s.pwr.excursionUs) then
      (({ s with pwr.capHeld := true, pwr.excursionUs := 0 }.bump 32 Ent.powerStepdowns 1).condition 0 0x2010 (s.ent Ent.powerPeakAccountJ) 0 0)
    else s)

/-- TRANSIENT_SAMPLE (R404): a 10 µs average of the input power. MARK, DESIGN CHOICE (log 97): the two levels that a sample above 1,700 W
takes stay the guard's demand until the next sample. -/
def execTransientSample (mw : Nat) (s : State) : Out :=
  .next (
    if s.pwr.on then
      let s1 := s.setEnt Ent.powerPeakFastW (f32Max (s.ent Ent.powerPeakFastW) (f32OfRatio mw 1000))
      let hot := (decide (1620000 < mw) :: s.pwr.hot).take 10000
      let quiet := if 1620000 < mw then 0 else s.pwr.guardQuiet + 1
      let hold := (s.pwr.guardHold || decide (400 ≤ (hot.filter id).length)) && decide (quiet < 100)
      let levels := if 1700000 < mw then s.pwr.levels.map (· - 2) else s.pwr.levels
      let atZero := s.active.all fun k => decide (s.pwr.levels.getD k 15 = 0)
      let act := s.active
      let stop :=
        if 1800000 < mw ∧ atZero then act.drop (act.length - act.length / 2)
        else if quiet < 100 then s.pwr.guardStop else []
      { s1 with
        pwr.hot := hot, pwr.guardQuiet := quiet, pwr.guardHold := hold, pwr.levels := levels, pwr.guardStop := stop,
        pwr.guardAsk := if 1700000 < mw then levels else [],
        pwr.ramps := if 1700000 < mw then [] else s.pwr.ramps }
    else s)

/-! ## Heat (R409) -/

/-- POWER source of a sensor. -/
def sensorSource : Sensor → Nat
  | .cluster p => powCluster p.val
  | .stack st => powStack st.val
  | .regulator r => powRegulator r.val
  | .cxl d => powCxl d.val
  | .inlet => powCoolant
  | .outlet => powCoolant

/-- What the limits of a sensor's flags do at once: stacks slow their refresh, a die's clusters stop or fall to level 0. -/
def State.heatHolds (s : State) : State :=
  let dieHot := fun d => (List.range 9).any fun i => (s.sensor (9 * d + i)).severe
  let dieWarm := fun d => (List.range 9).any fun i => decide (95000 ≤ (s.sensor (9 * d + i)).milliC)
  let stackHot := fun d => (List.range 6).any fun i => (s.sensor (100 + 6 * d + i)).severe
  { s with
    pwr.dieStop := [dieHot 0 || (s.pwr.dieStop.getD 0 false && dieWarm 0), dieHot 1 || (s.pwr.dieStop.getD 1 false && dieWarm 1)],
    pwr.dieLevel0 := [stackHot 0, stackHot 1],
    pwr.inletHold := (s.sensor inletKey).severe }

/-- Samples that the inlet has stayed below Spring's limit less 3 °C, while Spring waits (R400). -/
def State.springSample (s : State) (x : Sensor) (t : Int) : State :=
  match x with
  | .inlet => if s.pwr.springWaits then { s with pwr.springCool := if t < 27000 then s.pwr.springCool + 1 else 0 } else s
  | _ => s

/-- THERMAL_SAMPLE (R409, R408, R410): flags of the sensor, POWER faults as thresholds are crossed, and what they hold. -/
def execThermalSample (x : Sensor) (milliC : Int) (s : State) : Out :=
  .next (
    if s.pwr.on then
      let was := s.sensor (sensorKey x)
      let th := s.thresholds x
      let now : SensorSt := { milliC := milliC, throttle := overThreshold was.throttle th.1 milliC,
                              warning := overThreshold was.warning th.2.1 milliC, severe := overThreshold was.severe th.2.2 milliC }
      let s1 := (({ s with pwr.sensors := Kv.put s.pwr.sensors (sensorKey x) now }).springSample x milliC).heatHolds
      let s2 := match x with
        | .stack st => s1.setStack st.val { s1.stack st.val with throttled := now.throttle }
        | .cxl d => if now.severe && !was.severe then s1.replaceDev d.val else s1
        | _ => s1
      if now.severe && !was.severe then (s2.raisePower (sensorSource x) 2).latchAll
      else if now.warning && !was.warning then (s2.raisePower (sensorSource x) 1).latchAll
      else s2
    else s)

/-- Readiness bits of the units on a die (R368): its stacks, CXL devices, Brine ports, clusters and management processor. -/
def dieBits (d : Nat) : List Nat :=
  (List.range 6).map (8 + 6 * d + ·) ++ (List.range 6).map (20 + 6 * d + ·) ++ (List.range 4).map (32 + 4 * d + ·)
    ++ (List.range 8).map (40 + 8 * d + ·) ++ [56 + d]

/-- A die's arithmetic and SRAM rails go: its cores hold nothing, and its readiness bits clear (R409, R417). -/
def State.dieTrip (s : State) (d : Nat) : State :=
  let s1 := { s with
    pwr.dieOff := s.pwr.dieOff.set d true, cores := s.cores.filter fun e => e.1 / 64 != d,
    clusters := s.clusters.filter fun e => e.1 / 8 != d,
    clk.queues := s.clk.queues.filter fun e => decide (8192 ≤ e.1) || e.1 / 4096 != d }
  ((dieBits d).foldl (fun s b => s.setReady b false) s1).setEnt (Ent.readyCores d) 0

/-- A cluster without power: its cores and its SRAM hold nothing, and none of them is ready. -/
def State.clusterOff (s : State) (k : Nat) : State :=
  (List.range 8).foldl (fun s i => s.setCoreReady (8 * k + i) false)
    ({ s with
        cores := s.cores.filter fun e => e.1 / 8 != k, clusters := Kv.del s.clusters k,
        clk.queues := s.clk.queues.filter fun e => decide (8192 ≤ e.1) || e.1 / 512 != k }.setReady (40 + k) false)

/-- A regulator shuts down: the clusters it feeds lose their power. -/
def State.regulatorTrip (s : State) (r : Nat) : State :=
  (List.range 16).foldl (fun s k => if Config.regulatorFeeds r k then s.clusterOff k else s) { s with pwr.regOff := listAdd s.pwr.regOff r }

/-- A stack's rails go: it holds no data, and what lay on it cannot be read (R251, R409). -/
def State.stackTrip (s : State) (st : Nat) : State :=
  ({ s with
      pwr.stackOff := listAdd s.pwr.stackOff st,
      mem.lostPages := (s.pagesOn 0 st).foldl listAdd s.mem.lostPages }.setStack st { s.stack st with remap := 4, copying := none }).setReady
    (8 + st) false

/-- THERMAL_TRIP (R409): hardware removes the rails; a Fatal POWER fault. -/
def execThermalTrip (x : Sensor) (s : State) : Out :=
  .next (
    if s.pwr.on then
      match x with
      | .cluster p => ((s.dieTrip (p.val / 9)).raisePower (sensorSource x) 3).latchAll
      | .stack st => ((s.stackTrip st.val).raisePower (sensorSource x) 3).latchAll
      | .regulator r => ((s.regulatorTrip r.val).raisePower (sensorSource x) 3).latchAll
      | .cxl _ => s
      | .inlet => s
      | .outlet => s
    else s)

/-- SPRING_DEFERRED_APPLY (R400): Spring applies at a boundary at which the inlet has stayed below the limit less 3 °C for 10 s. While a
step runs nothing changes: its boundary looks again. -/
def execSpringDeferredApply (s : State) : Out := .next (if s.pwr.on ∧ s.phase = 0 then s.springBoundary else s)

/-! ## The ledger (R412 to R415) -/

/-- The layer of a descriptor of the step, by stream position, completed ones among them. -/
def State.layerOf (s : State) (pos : Nat) : Option Nat :=
  (s.prog.all.find? fun it => it.pos == pos).map fun it => (s.descAt it.index).layer

/-- Key of a rail in `Power.railUj`. -/
def railKey : Rail → Nat
  | .cluster p => p.val
  | .fabric d => 20 + d.val
  | .link d => 22 + d.val
  | .management => 24
  | .flash => 25
  | .stack st => 100 + st.val
  | .cxl d => 200 + d.val

/-- One share of a rail's energy: the rail, the descriptor it goes to, or none for unlayered energy, whether its unit ran again (R414), and
the energy in microjoules. -/
structure EnergyShare where
  rail : Rail
  desc : Option Nat
  rerun : Bool
  uj : Nat
  deriving DecidableEq, Repr

/-- The work of a user: the descriptor that the unit runs or ran last, by stream position, and whether it ran again: a tile replay, a rerun
after a swap, or a resumed chunk (R414). -/
def State.userWork (s : State) (u : EnergyUser) : Option (Nat × Bool) :=
  match u with
  | .pan c p =>
    match (s.pan c.val p.val).tile with
    | some t => some (t.pos, t.replay || ((Kv.find? (s.core c.val).ran 0).elim false (·.2)))
    | none => Kv.find? (s.core c.val).ran 0
  | .sluice c => Kv.find? (s.core c.val).ran 1
  | .vector c => Kv.find? (s.core c.val).ran 2
  | .desc pos => some (pos, false)
  | .other => none

/-- Weight of an activity on an arithmetic rail, by the calibrated weights (R413). -/
def arithWeight (x : Activity) : Nat :=
  sumNat (x.products.zipIdx.map fun p => p.1 * Config.activityWeight p.2) + x.dummies * Config.activityWeight 5
    + x.laneCycles * Config.activityWeight 6 + x.idleCycles * Config.activityWeight 7

/-- How much of a rail's energy an activity draws: by weighted activity, by bytes moved, or nothing of its own (R413). -/
def drawWeight (x : Activity) : Nat :=
  match x.rail with
  | .cluster _ => arithWeight x
  | .fabric _ => x.bytes
  | .stack _ => x.bytes
  | .cxl _ => x.bytes
  | .link _ => x.bytes
  | .management => 0
  | .flash => 0

/-- A rail's energy split among what used it, in proportion; with no user, and on the management and flash rails, it is unlayered (R413). -/
def State.railShares (s : State) (l : List Activity) (r : Rail × Nat) : List EnergyShare :=
  let acts := l.filter fun x => x.rail == r.1
  let w := sumNat (acts.map drawWeight)
  if w = 0 then [{ rail := r.1, desc := none, rerun := false, uj := r.2 }]
  else acts.map fun x =>
    { rail := r.1, desc := (s.userWork x.user).map (·.1), rerun := (s.userWork x.user).elim false (·.2), uj := r.2 * drawWeight x / w }

/-- The rails' energies of a booking, split. -/
def State.shares (s : State) (b : Booking) : List EnergyShare := b.rails.flatMap (s.railShares b.activity)

/-- Energy that the rails' meters give in a booking. -/
def bookedRails (b : Booking) : Nat := sumNat (b.rails.map (·.2))

/-- Books one share to its layer and rung (R137) and to what its category will be (R414). -/
def State.bookShare (s : State) (x : EnergyShare) (uj : Nat) : State :=
  let layer := x.desc.bind s.layerOf
  let s1 := match layer with
    | some l =>
      let r := Kv.getD s.prog.rungs l 0
      { s with
        pwr.layerUj := Kv.setD s.pwr.layerUj l 0 (Kv.getD s.pwr.layerUj l 0 + uj),
        pwr.rungUj := s.pwr.rungUj.set r (s.pwr.rungUj.getD r 0 + uj) }
    | none => { s with pwr.unlayeredUj := s.pwr.unlayeredUj + uj }
  if s.phase = 0 then { s1 with pwr.catUj := s1.pwr.catUj.set 4 (s1.pwr.catUj.getD 4 0 + uj) }
  else if s.train.replaying then { s1 with pwr.catUj := s1.pwr.catUj.set 2 (s1.pwr.catUj.getD 2 0 + uj) }
  else if x.rerun then { s1 with pwr.stepRerunUj := s1.pwr.stepRerunUj + uj }
  else
    match x.desc with
    | some pos => { s1 with pwr.attemptUj := Kv.setD s1.pwr.attemptUj pos 0 (Kv.getD s1.pwr.attemptUj pos 0 + uj) }
    | none => { s1 with pwr.stepUj := s1.pwr.stepUj + uj }

/-- Books every share in proportion, and the residue to unlayered energy (R413): the bookings sum to the total. -/
def State.bookAll (s : State) (l : List EnergyShare) (sum total : Nat) : State :=
  let r := l.foldl (fun (a : State × Nat) x => (a.1.bookShare x (x.uj * total / sum), a.2 + x.uj * total / sum)) (s, 0)
  r.1.bookShare { rail := .management, desc := none, rerun := false, uj := 0 } (total - r.2)

/-- Each rail's meter counts its energy (R412). -/
def State.meterRailEnergy (s : State) (l : List (Rail × Nat)) : State :=
  { s with pwr.railUj := l.foldl (fun (m : KV Nat) x => Kv.setD m (railKey x.1) 0 (Kv.getD m (railKey x.1) 0 + x.2)) s.pwr.railUj }

/-- Two meters differ by more than a tenth of the input meter's reading. -/
def metersDiffer (input rails : Nat) : Bool := decide (input < 10 * (input - rails)) || decide (input < 10 * (rails - input))

/-- The input meter and the rail meters are compared over each second of bookings (R411).
DESIGN CHOICE (log 93): seconds follow one another, and 10 % is of the input meter's reading. -/
def State.compareMeters (s : State) (input rails : Nat) : State :=
  let i := s.pwr.meterInput + input
  let r := s.pwr.meterRails + rails
  if s.pwr.meterUs + 1 < 1000000 then { s with pwr.meterUs := s.pwr.meterUs + 1, pwr.meterInput := i, pwr.meterRails := r }
  else { s with pwr.meterUs := 0, pwr.meterInput := 0, pwr.meterRails := 0, pwr.meterBad := metersDiffer i r }

/-- ENERGY_BOOK (R413): the microsecond's energy, from the input meter, or from the rails while the meters disagree (R411). -/
def execEnergyBook (b : Booking) (s0 : State) : Out :=
  .next (
    if s0.pwr.on then
      let sum := bookedRails b
      let s := (s0.meterRailEnergy b.rails).compareMeters b.inputUj sum
      let total := if s.pwr.meterBad then sum else b.inputUj
      let s1 := { s with
        pwr.inputUj := s.pwr.inputUj + total, pwr.windowUj := s.pwr.windowUj + total,
        pwr.stepAllUj := if s.phase = 0 ∨ s.train.replaying then s.pwr.stepAllUj else s.pwr.stepAllUj + total }
      let s2 := s1.bookAll (s.shares b) sum total
      if s.pwr.meterBad && !s0.pwr.meterBad then (s2.raisePower powMeter 1).latchAll else s2
    else s0)

end Sys2Proof.Machine
end

