-- ==== Sys2Proof/Machine/EntryViews.lean ====
section
/-! DEFINITION. What a read of each dictionary entry shows: the entries that stand for other state are computed from it, the rest are
the dictionary's own values (R89, R127, R153, R156, R176, R181, R211, R242, R267, R277, R313, R340, R371, R397, R416, R437). -/

namespace Sys2Proof.Machine

/-! ## Values by table -/

/-- FP32 pattern of so many thousandths. -/
def f32OfMilli (x : Int) : Nat := f32OfRatio x.natAbs 1000 + (if x < 0 then 2 ^ 31 else 0)

/-- Largest amax of a record's valid history (R127). -/
def ScaleRec.hmax (r : ScaleRec) : F32 :=
  (List.range r.count).foldl (fun (m : F32) i => amaxMax m (r.amax.getD ((r.head + 15 - i) % 16) 0)) 0

/-- Entries 0x3030.02 to 0x3030.06 of the inspected record. -/
def State.inspectView (s : State) (sub : Nat) : Nat :=
  match Kv.find? s.scale.recs (s.ent Ent.scaleInspectIndex) with
  | none => 0
  | some r =>
    match sub with
    | 2 => twos 8 r.t
    | 3 => r.count
    | 4 => if r.count = 0 then 0 else r.hmax.toNat
    | 5 => r.flags
    | _ => r.attempt

/-- The window that a layer shows (R154). -/
def State.shownWindow (s : State) (l : Nat) : WinSt :=
  Kv.getD (if s.ent Ent.salFreeze = 1 then s.rake.frozen else s.rake.windows) l {}

/-- An entry of a statistics window (R153). MARK, DESIGN CHOICE (log 73): sal.freeze does not hold win.floor, which shows the floor in force.
-/
def State.winView (s : State) (l sub : Nat) : Nat :=
  let w := s.shownWindow l
  let word := (s.layer? l).elim 0 (·.ladder)
  if 0x20 ≤ sub ∧ sub < 0x40 then Kv.getD w.counts.hist (sub - 0x20) 0
  else if 0x40 ≤ sub ∧ sub < 0x60 then Kv.getD w.bwdHist (sub - 0x40) 0
  else if 0x60 ≤ sub ∧ sub < 0x65 then w.stepsAt.getD (sub - 0x60) 0
  else
    match sub with
    | 0x01 => w.step
    | 0x02 => w.status
    | 0x03 => w.rung
    | 0x04 => w.nextRung
    | 0x05 => (s.rakeOf l).floor
    | 0x06 => word % 32
    | 0x07 => ladderFloor word
    | 0x08 => w.reason
    | 0x09 => w.streak
    | 0x0A => w.hold
    | 0x0B => w.retreats
    | 0x0C => w.silent
    | 0x0D => w.flags
    | 0x10 => w.counts.elements
    | 0x11 => w.counts.saturations
    | 0x12 => w.counts.nonzeroPre
    | 0x13 => w.counts.flushes
    | 0x14 => w.counts.zeroBlocks
    | 0x15 => w.invalid
    | 0x16 => w.fwdRecomputes
    | 0x17 => w.accumOverflows
    | 0x18 => w.gradElements
    | 0x19 => w.gradNonzero
    | 0x1A => w.amaxFwd.toNat
    | 0x1B => w.amaxBwd.toNat
    | 0x1C => w.updateRatio.toNat
    | 0x1D => f32OfRatio w.energyUj 1000000
    | 0x1E => w.spanFwd
    | 0x1F => w.spanBwd
    | _ => w.invalidTotal

/-- An entry of an exception window (R176). -/
def State.exView (s : State) (c sub : Nat) : Nat :=
  let w := (s.core c).window
  match sub with
  | 1 => w.layer
  | 2 => w.source
  | 3 => w.kind
  | 4 => w.pan
  | 5 => w.slot
  | 6 => w.column
  | 7 => w.group
  | 8 => w.tileM
  | 9 => w.tileN
  | 10 => w.tileK
  | 11 => w.sequence
  | _ => w.count

/-- A pan's remap word (R90). -/
def PanSt.remapWord (p : PanSt) : Nat := p.rowA + 256 * p.rowB + 65536 * p.col + 2 ^ 24 * p.grainReplays

/-- Format of a state tensor of a group (R234): 0xF for none. -/
def State.stateFormat (s : State) (grp i : Nat) : Nat :=
  match s.prog.loaded with
  | none => 15
  | some g =>
    let t := (Kv.getD g.groups grp []).getD i 65535
    match g.tensors[t]? with
    | some x => x.codeAt (s.rakeOf x.producer).rung
    | none => 15

/-- The record that ev.read_word shows (R337). -/
def State.shownRecord (s : State) : Option EvRecord :=
  (s.flt.records.filter fun r => decide (s.ent Ent.evReadSeq ≤ r.seq)).foldl (fun (m : Option EvRecord) r =>
    match m with
    | none => some r
    | some x => if r.seq < x.seq then some r else some x) none

/-- The newest complete snapshot. -/
def State.newestSnap (s : State) : Option Snapshot := (s.stock.snaps.filter (·.complete)).getLast?

/-- Own field MAC address of a node ID (R363). -/
def fieldMacOf (id : Nat) : Nat := 0x0246574B5A00 + id

/-- A CXL link's word (R397). -/
def State.cxlWord (s : State) (d : Nat) : Nat :=
  let l := Kv.getD s.links.cxl d {}
  if l.up then l.rate % 256 + 256 * (l.width % 16) + 4096 else 0

/-- Largest of some temperatures, in thousandths of a degree; 0 where none has been sampled. -/
def State.maxMilli (s : State) (keys : List Nat) : Int :=
  match (keys.filterMap fun k => (Kv.find? s.pwr.sensors k).map (·.milliC)) with
  | [] => 0
  | x :: t => t.foldl max x

/-- A sensor's temperature. -/
def State.tempView (s : State) (key : Nat) : Nat := f32OfMilli (s.sensor key).milliC

/-- A field of 64 bits of a digest. -/
def word64 (n j : Nat) : Nat := n / 2 ^ (64 * j) % 2 ^ 64

/-- An operator slot's word (R437). -/
def State.opSlotWord (s : State) (i : Nat) : Nat :=
  let k := Kv.getD s.nv.opKeys i {}
  bitN (!k.key.isEmpty) + (if k.height = 16 then 2 else if k.height = 20 then 4 else 0) + 2 ^ 32 * k.lastIndex.getD 0xFFFFFFFF

/-- Boundary entries that hold a pending value (R371): those of R345 and the groups whose pending frozen bit differs (R235). -/
def State.pendCount (s : State) : Nat :=
  s.dict.pend.length +
    ((List.range 64).filter fun g => (s.ent Ent.commitFrozenMask).testBit g != (s.ent Ent.commitFrozenPending).testBit g).length

/-- Chapter 0x1000: identity, readiness, field network, mailbox, dictionary (R371). -/
def State.view1 (s : State) (k : Nat) : Option Nat :=
  if k / 256 = 0x1101 then some (match Kv.find? s.dict.readyTime (k % 256 - 1) with | some t => msOfTicks t | none => 0xFFFFFFFF)
  else if k = Ent.idFwMajor then some s.sec.fwMajor
  else if k = Ent.idFwMinor then some s.sec.fwMinor
  else if k = Ent.idFwBuild then some s.sec.fwBuild
  else if k = Ent.idFieldMac then some (if s.ent Ent.fieldNodeId = 0xFF then 0 else fieldMacOf (s.ent Ent.fieldNodeId))
  else if k = Ent.idUptimeMs then some (msOfTicks s.now)
  else if k = Ent.fieldChain then
    some (bitN s.comm.addrIn + 2 * bitN s.comm.addrOut + 4 * bitN (decide (s.ent Ent.fieldNodeId = 0xFF) && s.comm.addrIn))
  else if k = Ent.dictJournalEntries then some s.dict.journalCount
  else if k = Ent.dictOpenTransfers then some s.dict.transfers.length
  else if k = Ent.dictPending then some s.pendCount
  else none

/-- Energy in mJ as an entry shows it, saturating at the largest u64 (R137, R416). -/
def millijoules (uj : Nat) : Nat := min (uj / 1000) (2 ^ 64 - 1)

/-- Chapter 0x2000: power, heat, energy (R416). -/
def State.view2 (s : State) (k : Nat) : Option Nat :=
  let sub := k % 256
  if k / 256 = 0x2011 then some (if s.pwr.stopped.getD (sub - 1) false then 0xFF else s.pwr.levels.getD (sub - 1) 15)
  else if k / 256 = 0x2030 then some (f32OfMilli (s.maxMilli ((List.range 9).map (9 * (sub - 1) + ·))))
  else if k / 256 = 0x2031 then some (s.tempView (sub - 1))
  else if k / 256 = 0x2032 then some (s.tempView (100 + (sub - 1)))
  else if k / 256 = 0x2033 then some (s.tempView (300 + (sub - 1)))
  else if k = Ent.thermVrMaxC then some (f32OfMilli (s.maxMilli ((List.range 32).map (200 + ·))))
  else if k = Ent.thermCoolantInC then some (s.tempView inletKey)
  else if k = Ent.thermCoolantOutC then some (s.tempView (inletKey + 1))
  else if k = Ent.energyInputMj then some (millijoules s.pwr.inputUj)
  else if k = Ent.energyWindowMj then some (millijoules s.pwr.windowUj)
  else if k = Ent.energyTpmwh then some (f32OfRatio (s.ent Ent.energyWindowTokens * 3600000000000000) s.pwr.windowUj)
  else if k / 256 = 0x2100 ∧ 8 ≤ sub ∧ sub ≤ 12 then some (millijoules (s.pwr.catUj.getD (sub - 8) 0))
  else none

/-- Chapter 0x3000: scaling, Rake, salinometer, windows, programs, the step, groups (R127, R156, R176, R181, R211, R234, R242). -/
def State.view3 (s : State) (k : Nat) : Option Nat :=
  let idx := k / 256
  let sub := k % 256
  let on := s.prog.loaded.isSome
  if 0x3200 ≤ idx ∧ idx ≤ 0x327F then some (s.exView (idx - 0x3200) sub)
  else if 0x3480 ≤ idx ∧ idx ≤ 0x34BF then
    let g := idx - 0x3480
    if sub = 7 then some (s.stateFormat g 0 + 16 * s.stateFormat g 1 + 256 * s.stateFormat g 2 + 4096 * s.stateFormat g 3)
    else if sub = 8 then some (bitN ((s.ent Ent.commitFrozenMask).testBit g))
    else if sub = 12 then some (s.stateFormat g 4 + 16 * s.stateFormat g 5)
    else none
  else if idx = 0x3030 ∧ 2 ≤ sub then some (s.inspectView sub)
  else if k = Ent.scaleTableBase then some (if on then scaleTableBase else 0)
  else if k = Ent.scaleTableRecords then some s.recordCount
  else if k = Ent.rakeSilentLayers then
    some ((List.range s.layerCount).filter fun l => decide (s.ent Ent.rakeSilentWindow ≤ (s.rakeOf l).silent)).length
  else if k = Ent.salLayers then some s.layerCount
  else if k = Ent.salUpdateBase then some (if on then updateBase else 0)
  else if idx = 0x3140 ∧ 0x11 ≤ sub ∧ sub ≤ 0x15 then some (millijoules (s.pwr.rungUj.getD (sub - 0x11) 0))
  else if k = Ent.salUnlayeredEnergyMj then some (millijoules s.pwr.unlayeredUj)
  else if k = Ent.nvpVersion then some Config.nvpVersion
  else if k = Ent.progState then some (if s.phase ≠ 0 then 4 else s.ent Ent.progState)
  else if idx = 0x3300 ∧ 4 ≤ sub ∧ sub ≤ 7 then some (word64 s.progHash (sub - 4))
  else if k = Ent.progLayers then some s.layerCount
  else if k = Ent.progDescriptors then some (s.prog.loaded.elim 0 (·.descs.length))
  else if k = Ent.descInFlight then some s.prog.pool.length
  else if k = Ent.shapeParams then some (s.prog.loaded.elim 0 (·.shapeMax.length))
  else if k = Ent.shapeBlockBase then some (if on then shapeBase else 0)
  else if k = Ent.commitRecordBase then some (if on then commitBase else 0)
  else none

/-- Chapter 0x4000: faults and events (R340). -/
def State.view4 (s : State) (k : Nat) : Option Nat :=
  let idx := k / 256
  let sub := k % 256
  if 0x4101 ≤ idx ∧ idx ≤ 0x411A ∧ sub ≤ 3 then
    let c := idx - 0x4100
    some (if sub = 1 then s.classN c 0 else if sub = 2 then s.classT c else (classRow c).ceiling)
  else if k = Ent.evRecords then some s.flt.records.length
  else if k = Ent.evNewestSeq then some (s.flt.records.getLast?.elim 0 (·.seq))
  else if k = Ent.evOldestSeq then some (s.flt.records.head?.elim 0 (·.seq))
  else if k = Ent.evBoot then some s.nv.boot
  else if k = Ent.evMirrorState then some (if s.flt.flashFailed then 2 else if s.flt.mirrorQueue.isEmpty then 0 else 1)
  else if k = Ent.evMirrorLag then some s.flt.mirrorQueue.length
  else if idx = 0x4010 ∧ 2 ≤ sub ∧ sub ≤ 9 then some (s.shownRecord.elim 0 fun r => leAt r.bytes (8 * (sub - 2)) 8)
  else if k = Ent.evProtected then some (s.flt.records.filter fun r => r.kind == 3).length
  else if k = Ent.faultUnacked then some s.unacked
  else if k = Ent.faultFatal then some s.flt.fatal
  else if k = Ent.faultModuleWord then some (s.word1 4 0)
  else if k = Ent.faultAlive then some (match s.flt.alive with | .notStarted => 0 | .running => 1 | .stopped => 2)
  else if k = Ent.faultSelWord0 then some (s.word0 (s.ent Ent.faultSelLevel) (s.ent Ent.faultSelInstance))
  else if k = Ent.faultSelWord1 then some (s.word1 (s.ent Ent.faultSelLevel) (s.ent Ent.faultSelInstance))
  else none

/-- Free value that a read shows. -/
def State.freeWord (s : State) : Nat := Config.timing s.clk.freeNext % 2 ^ 64

/-- A word with the reserved bits of a map entry's value 0 (R7, R257). -/
def mapWordBits (w : Nat) : Nat := w % 2 ^ 10 + bitsOf w 12 32 * 2 ^ 12

/-- Chapter 0x5000: memory and arbitration (R267, R277). -/
def State.view5 (s : State) (k : Nat) : Option Nat :=
  let idx := k / 256
  let sub := k % 256
  if 0x5200 ≤ idx ∧ idx ≤ 0x520B then
    if sub = 1 then some (s.stack (idx - 0x5200)).spare else if sub = 4 then some (s.stack (idx - 0x5200)).remap else none
  else if 0x5300 ≤ idx ∧ idx ≤ 0x530B then
    let d := s.dev (idx - 0x5300)
    if sub = 1 then some d.role
    else if sub = 4 then some (if d.role < 11 then s.freeFrames 1 d.role else 0)
    else if sub = 5 then some d.replace
    else none
  else if k = Ent.memFreeHbm then some (sumNat ((List.range 12).map (s.freeFrames 0)))
  else if k = Ent.memFreeCxl then some (sumNat ((List.range 11).map (s.freeFrames 1)))
  else if k = Ent.memPagesMapped then some (s.mem.map.filter fun e => e.2.v).length
  else if k = Ent.memInspectValue then
    some (if s.ent Ent.memInspectPage < 2 ^ 24 then (s.mapEntry (s.ent Ent.memInspectPage)).word else mapWordBits s.freeWord)
  else if idx = 0x5820 ∧ 1 ≤ sub ∧ sub ≤ 4 then some (s.levelMaxWait (sub - 1))
  else none

/-- Chapter 0x6000: links and groups (R397). -/
def State.view6 (s : State) (k : Nat) : Option Nat :=
  let idx := k / 256
  let sub := k % 256
  let h := s.links.host
  if 0x6100 ≤ idx then
    let g := s.group (idx - 0x6100)
    some (if sub = 2 then g.epoch else if sub = 3 then g.p else g.rank)
  else if idx = 0x6010 then some (s.cxlWord (sub - 1))
  else if 0x6040 ≤ idx ∧ idx ≤ 0x6047 then
    let p := idx - 0x6040
    if sub = 1 then some (sumNat ((List.range 4).map fun l => if s.laneUp (4 * p + l) then 2 ^ l else 0))
    else if sub = 2 then some (sumNat ((List.range 4).map fun l => if (s.lane (4 * p + l)).retired then 2 ^ l else 0))
    else none
  else if k = Ent.hostLinkRate then some (if h.up then h.rate else 0)
  else if k = Ent.hostLinkWidth then some (if h.up then h.width else 0)
  else if k = Ent.hostDState then some (if h.d3 then 3 else 0)
  else none

/-- Chapter 0x7000: resilience and remap words (R89, R313). -/
def State.view7 (s : State) (k : Nat) : Option Nat :=
  let idx := k / 256
  if 0x7400 ≤ idx ∧ idx ≤ 0x747F then some (s.pan (idx - 0x7400) (k % 256 - 1)).remapWord
  else if k = Ent.replayNewest then some s.train.newest
  else if k = Ent.imageBytes then some s.controlImage.length
  else if k = Ent.crustRank then
    some (if s.ent Ent.crustRole = 1 ∨ s.crustRankOf = 0xFFFF then 0xFF else s.crustRankOf)
  else if k = Ent.stockSlots then some (s.stock.snaps.filter (·.complete)).length
  else if k = Ent.stockNewestStep then some (s.newestSnap.elim 0 (·.step))
  else if k = Ent.stockSnapshotBytes then some (s.newestSnap.elim 0 (·.bytes))
  else none

/-- Chapter 0x8000: security (R437). -/
def State.view8 (s : State) (k : Nat) : Option Nat :=
  let idx := k / 256
  let sub := k % 256
  if k = Ent.secBootState then some s.sec.bootState
  else if k = Ent.secBankBooted then some s.sec.bankBooted
  else if k = Ent.secBootBank then some s.nv.selector
  else if k = Ent.secBankRejectA then some s.sec.rejectA
  else if k = Ent.secBankRejectB then some s.sec.rejectB
  else if k = Ent.secImageSvn then some s.sec.svn
  else if idx = 0x8000 ∧ 7 ≤ sub ∧ sub ≤ 10 then some (word64 s.sec.digest (sub - 7))
  else if k = Ent.secVendorRevoked then some (s.nv.fuses % 16)
  else if k = Ent.secRollback then some s.rollback
  else if k = Ent.secRollbackLeft then some (otpLeft s.nv.otp)
  else if k = Ent.secRollbackAuto then some (bitN s.nv.rollbackAuto)
  else if k = Ent.secIdIndex then some (s.storedIndex.getD 0)
  else if k = Ent.secIdRemaining then some (identityLimit - s.storedIndex.getD 0)
  else if k = Ent.secAttestLeft then some (s.sec.attest.elim 0 fun a => 1024 - a.index)
  else if k = Ent.secAttestState then some s.sec.reportState
  else if k = Ent.secOpKeys then some s.opKeyCount
  else if k = Ent.secOpGeneration then some s.nv.opGen
  else if idx = 0x8030 ∧ 3 ≤ sub ∧ sub ≤ 6 then some (word64 s.opDigest (sub - 3))
  else if idx = 0x8031 then some (s.opSlotWord (sub - 1))
  else none

/-- The value of an entry that stands for other state. -/
def State.entryView (s : State) (k : Nat) : Option Nat :=
  match k / 2 ^ 20 with
  | 1 => s.view1 k
  | 2 => s.view2 k
  | 3 => s.view3 k
  | 4 => s.view4 k
  | 5 => s.view5 k
  | 6 => s.view6 k
  | 7 => s.view7 k
  | 8 => s.view8 k
  | 10 => some (s.winView (layerOfKey k) (k % 256))
  | _ => none

/-- The value in force of a scalar entry. -/
def State.value (s : State) (k : Nat) : Nat := (s.entryView k).getD (s.ent k)

/-- A read of the entry draws a free value: a map value of a page that does not exist. -/
def State.isFree (s : State) (k : Nat) : Bool := decide (k = Ent.memInspectValue) && decide (2 ^ 24 ≤ s.ent Ent.memInspectPage)

/-! ## Strings and domains (R343) -/

/-- ASCII bytes. -/
def ascii (l : List Nat) : List Byte := l.map (BitVec.ofNat 8)

/-- What a segment read of a string or domain shows; a wo entry shows nothing (R344). -/
def State.blob (s : State) (k : Nat) : List Byte :=
  if k = Ent.idVendor then ascii [0x46, 0x6F, 0x6C, 0x77, 0x79, 0x6E]
  else if k = Ent.idProduct then ascii [0x4B, 0x5A, 0x2D, 0x4D, 0x32]
  else if k = Ent.idOrder then ascii [0x46, 0x57, 0x2D, 0x4B, 0x5A, 0x4D, 0x32, 0x2D, 0x31]
  else if k = Ent.idSerial then Config.serial
  else if k = Ent.secAttestReport then s.sec.report
  else if k = Ent.secIdPublic then Config.idPublic
  else if 0x6100 ≤ k / 256 ∧ k / 256 ≤ 0x61FF then (s.group (k / 256 - 0x6100)).value
  else []

/-- The largest length of a string or domain that is written (R391, R435, R437). -/
def blobMax (k : Nat) : Nat :=
  if k = Ent.secAttestNonce then 32
  else if k = Ent.secEnrolKey then 68
  else if k = Ent.secToken ∨ k = Ent.evClearToken then 2948
  else if 0x6100 ≤ k / 256 ∧ k / 256 ≤ 0x61FF then 528
  else 65536

/-! ## Which entries exist (R342) -/

/-- Indices whose existence depends on the loaded program. -/
def State.indexNamed (s : State) (idx : Nat) : Bool :=
  if 0xA000 ≤ idx ∧ idx ≤ 0xAFFF then decide (idx - 0xA000 < s.layerCount)
  else if 0x3480 ≤ idx ∧ idx ≤ 0x34BF then s.prog.loaded.elim false fun g => (Kv.find? g.groups (idx - 0x3480)).isSome
  else true

/-- Highest subindex defined at an index, if any is. -/
def topSub (idx : Nat) : Option Nat :=
  match entryRows.filter fun r => decide (r.idxLo ≤ idx) && decide (idx ≤ r.idxHi) with
  | [] => none
  | l => some (l.foldl (fun m r => max m r.subHi) 0)

/-- Counting limits that are read-only: those of classes that the memory entries rule, and of classes that count nothing (R340). -/
def classFixed (k : Nat) : Bool :=
  let c := k / 256 - 0x4100
  decide (0x4101 ≤ k / 256) && decide (k / 256 ≤ 0x411A) && (decide (k % 256 = 1) || decide (k % 256 = 2))
    && (decide (c = 0x0B) || decide (c = 0x0C) || decide ((classRow c).n = 1))

/-- Indices that recovery mode serves (R423). -/
def servedInRecovery (idx : Nat) : Bool := idx == 0x1000 || idx == 0x1100 || (decide (0x8000 ≤ idx) && decide (idx ≤ 0x8050))

/-- The row of an entry that exists at this moment (R342). In recovery mode there is no other than those that R423 names; a request for one
answers undefined index. MARK, DEDUCED (log 94). -/
def State.row? (s : State) (k : Nat) : Option EntryRow :=
  if !s.indexNamed (k / 256) || (s.sec.bootState == 3 && !servedInRecovery (k / 256)) then none
  else if k % 256 = 0 then (topSub (k / 256)).map fun n => Machine.ent (k / 256) (k / 256) 0 0 1 .const .live n 0 255 0
  else (entryRow? k).map fun r => if classFixed k then { r with access := .ro } else r

/-- An entry is a string or domain. -/
def EntryRow.isBlob (r : EntryRow) : Bool := decide (r.ty = 0xB) || decide (r.ty = 0xC)

/-- What a describe shows as the default (R357): for one that depends on the program or the unit, its value now. -/
def State.describedDefault (s : State) (k : Nat) (r : EntryRow) : Nat :=
  if r.isBlob then (s.blob k).length
  else if k % 256 = 0 then r.dflt
  else if 0x4101 ≤ k / 256 ∧ k / 256 ≤ 0x411A then
    let c := classRow (k / 256 - 0x4100)
    if k % 256 = 1 then c.n else if k % 256 = 2 then c.t else if k % 256 = 3 then c.ceiling else 0
  else if r.access = .const ∨ k = Ent.idFwMinor ∨ k = Ent.idFwBuild ∨ (0xA000 ≤ k / 256 ∧ k % 256 = 5)
      ∨ (0x5300 ≤ k / 256 ∧ k / 256 ≤ 0x530B ∧ (k % 256 = 1 ∨ k % 256 = 4)) then s.value k
  else r.dflt

end Sys2Proof.Machine
end

