-- ==== Sys2Proof/Machine/EntryAccess.lean ====
section
/-! DEFINITION. Reads, writes and describes of one dictionary entry (R342 to R352, R357, R358): the checks in their order, the
apply-points, the actions that writes start, and error responses with their records. -/

namespace Sys2Proof.Machine

/-! ## Error responses (R331, R350, R351) -/

/-- Row of R332 that a complement mismatch of an entry's own action belongs to. -/
def mismatchRow (k : Nat) : Nat :=
  if k / 256 = 0x7010 ∨ k / 256 = 0x7020 then intReplay else if k / 256 = 0x3300 then intTable else intOther

/-- An item's nonzero response: the VIOLATION record at the address that the failing rule names, and for a complement mismatch the
INTEGRITY fault at the same address. -/
def State.respond (s : State) (code space addr k : Nat) : State :=
  let s1 := s.violation code space addr (if space = 1 then 0 else k)
  (if code = 5 then s1.raise (integrity (mismatchRow k) .module 0 space addr) else s1).latchAll

/-! ## Owners (R346) and places (R349 step 6) -/

/-- The step run runs. -/
def State.stepRunBusy (s : State) : Bool := s.phase != 0 || s.ent Ent.replayState == 5 || s.stock.restoring.isSome

/-- The loaded step program runs. -/
def State.programBusy (s : State) : Bool := s.stepRunBusy || s.ent Ent.progState == 1

/-- A pan or sluice path streams or ramps (R75, R76, R88). -/
def CoreSt.inMotion (x : CoreSt) : Bool := x.sluice != .rest || x.pans.any fun p => p.2.motion != .rest

/-- Every pan, sluice path and vector unit, as an owner (R346): any descriptor holds a slot, or the self-test runs. -/
def State.pathsBusy (s : State) : Bool := !s.prog.pool.isEmpty || s.ent Ent.nvpState == 1

/-- The crust runs (R313). -/
def State.crustBusy (s : State) : Bool := s.ent Ent.crustMode != 0 && s.ent Ent.crustState != 5

/-- The owning function of an idle-only entry runs; a program load also waits for every stack (R419). -/
def State.ownerBusy (s : State) (k : Nat) : Bool :=
  if k = Ent.panStartMode then s.pathsBusy || s.cores.any fun e => e.2.inMotion
  else if k = Ent.nvpSelftest then s.pathsBusy
  else if k = Ent.lossInitialExp ∨ k = Ent.salRingBase ∨ k = Ent.salRingSteps ∨ k = Ent.progImageAddress then s.programBusy
  else if k = Ent.progLoad then s.programBusy || s.ent Ent.memReqState == 1 || (List.range 12).any fun i => !s.isReady (8 + i)
  else if k = Ent.brineNode then s.stepRunBusy || s.crustBusy
  else if k / 256 = 0x7100 then s.crustBusy
  else s.stepRunBusy

/-- Entries of units on die 1, which are read across the die-to-die link. -/
def onDie1 (k : Nat) : Bool :=
  let idx := k / 256
  let sub := k % 256
  (decide (0x3240 ≤ idx) && decide (idx ≤ 0x327F)) || (decide (0x3540 ≤ idx) && decide (idx ≤ 0x357F))
    || (decide (0x7440 ≤ idx) && decide (idx ≤ 0x747F)) || (decide (0x5206 ≤ idx) && decide (idx ≤ 0x520B))
    || (decide (0x5306 ≤ idx) && decide (idx ≤ 0x530B)) || (decide (0x6044 ≤ idx) && decide (idx ≤ 0x6047))
    || ((idx == 0x6010 || idx == 0x6011 || idx == 0x6012) && decide (7 ≤ sub))
    || (idx == 0x2011 && decide (9 ≤ sub)) || (idx == 0x2030 && sub == 2) || (idx == 0x2031 && decide (10 ≤ sub))
    || ((idx == 0x2032 || idx == 0x2033) && decide (7 ≤ sub)) || ((idx == 0x5030 || idx == 0x5040) && (sub == 2 || sub == 4))

/-- Entries that show the collector selected (R319), whose words lie on the die of the instance. -/
def State.selectsDie1 (s : State) (k : Nat) : Bool :=
  (k == Ent.faultSelWord0 || k == Ent.faultSelWord1 || k == Ent.faultSelClear)
    && dieOfUnit (s.ent Ent.faultSelLevel) (s.ent Ent.faultSelInstance) == 1

/-- An entry held on die 1 cannot be reached while the die-to-die link is not ready (R13). -/
def State.unreachable (s : State) (k : Nat) : Bool := (onDie1 k || s.selectsDie1 k) && !s.isReady 3 && k % 256 != 0

/-! ## Stored values that fail their complement when read (R331, R332, R347) -/

/-- A damaged value of the management complex, found on a read, is reloaded and reported. -/
def State.reloadEntry (s : State) (k : Nat) : State := (s.reloadValue k).raise (integrity intDict .module 0 1 k)

/-- A group entry is rewritten from its mirror. -/
def State.mendGroup (s : State) (g : Nat) : State :=
  if (s.group g).bad then
    { s with links.groups := Kv.put s.links.groups g { s.group g with bad := false } }.raise { fault 0x10 .module 0 with
      source := intGroup, space := 4, addr := g + 256 * (s.group g).epoch, cause := 5 }
  else s

/-- The complement checks of the value that a read shows. -/
def State.checkStored (s : State) (k : Nat) : State :=
  let idx := k / 256
  let s1 :=
    if s.dict.bad.contains k then s.reloadEntry k
    else if 0x3200 ≤ idx ∧ idx ≤ 0x327F ∧ (s.core (idx - 0x3200)).windowBad = true then
      s.raise (integrity intWindow .core (idx - 0x3200) 1 k)
    else if idx = 0x3030 ∧ 2 ≤ k % 256 ∧ (Kv.find? s.scale.recs (s.ent Ent.scaleInspectIndex)).elim false (·.bad) = true then
      s.lostRecord (s.ent Ent.scaleInspectIndex) (scaleTableBase + 160 * s.ent Ent.scaleInspectIndex)
    else if 0xA000 ≤ idx ∧ k % 256 = 5 ∧ (s.rakeOf (layerOfKey k)).bad = true then s.badRake (layerOfKey k)
    else if 0x6100 ≤ idx ∧ idx ≤ 0x61FF then s.mendGroup (idx - 0x6100)
    else if k = Ent.memInspectValue then s.walk (s.ent Ent.memInspectPage)
    else s
  s1.latchAll

/-! ## Pending values (R345) -/

/-- The pending value of an entry, if it holds one (R235 for a group's frozen bit). -/
def State.pending? (s : State) (k : Nat) : Option Nat :=
  if 0x3480 ≤ k / 256 ∧ k / 256 ≤ 0x34BF ∧ k % 256 = 8 then
    let g := k / 256 - 0x3480
    let p := (s.ent Ent.commitFrozenPending).testBit g
    if (s.ent Ent.commitFrozenMask).testBit g = p then none else some (bitN p)
  else (s.dict.pend.find? fun e => e.1 == k).map (·.2)

/-- Holds a value until the boundary; a later write replaces it. -/
def State.holdPending (s : State) (k v : Nat) : State :=
  { s with dict.pend := s.dict.pend.filter (fun e => e.1 != k) ++ [(k, v)] }

/-! ## Actions of live and idle-only entries (R349 step 7) -/

/-- The statistics ring lies wholly in mapped pages (R155). -/
def State.ringCode (s : State) (base steps : Nat) : Bool := steps == 0 || s.rangeMapped base (s.layerCount * 128 * steps)

/-- prog.load (R185, R186, R211). -/
def State.progLoad (s : State) (v : Nat) : Reply :=
  if v = 2 then { s := s.unload }
  else
    let s1 := s.startLoad
    match s1.prog.verdict with
    | some c => { s := s1, code := c.1, space := 0, addr := s.ent Ent.progImageAddress + c.2 }
    | none => { s := s1 }

/-- ev.export_go (R337). -/
def State.exportRecords (s : State) : Reply :=
  let n := s.ent Ent.evExportCount
  if n = 0 then { s := s, code := 3 }
  else
    let rs := (s.flt.records.filter fun r => decide (s.ent Ent.evExportFirst ≤ r.seq)).take n
    s.exportTo (s.ent Ent.evExportAddress) ((rs.flatMap EvRecord.bytes ++ zeros (64 * n)).take (64 * n))

/-- fault.ack (R323, R325, R410). -/
def State.ackFault (s : State) (v : Nat) : Reply :=
  if s.ackable v then
    let s1 := s.ackSeq v
    { s := if s1.severePower then s1 else { s1 with pwr.countHold := false } }
  else { s := s, code := 3 }

/-- fault.sel_clear (R317). -/
def State.selClear (s : State) : Reply :=
  let l := s.ent Ent.faultSelLevel
  let u := s.ent Ent.faultSelInstance
  if u < levelInstances l then
    { s := s.setCollector (colKey l u) { s.collector (colKey l u) with overflow := false, cutoff := false } }
  else { s := s, code := 3 }

/-- energy.window_reset (R415): the window and its categories start again, with the energy of the step so far left behind. -/
def State.resetWindow (s : State) : State :=
  { s with pwr.windowUj := 0, pwr.catUj := [0, 0, 0, 0, 0], pwr.stepUj := 0, pwr.stepRerunUj := 0, pwr.stepRetriedUj := 0,
           pwr.attemptUj := [] }.setEnt Ent.energyWindowTokens 0

/-- field.notify_enable (R367): 0 sends none, of changes before it either. -/
def State.setNotify (s : State) (v : Nat) : State :=
  (if v = 1 then s
   else { s with comm.notifyDue := false, comm.outbox := s.comm.outbox.filter (· != .notify) }).setEnt Ent.fieldNotifyEnable v

/-- sal.freeze (R154). -/
def State.freezeWindows (s : State) (v : Nat) : State :=
  let s1 := if v = 0 then { s with rake.frozen := [] }
    else if s.ent Ent.salFreeze = 1 then s else { s with rake.frozen := s.rake.windows }
  s1.setEnt Ent.salFreeze v

/-- crust.group names a group of eight members (R291). -/
def State.groupOfEight (s : State) (g : Nat) : Bool := (s.group g).valid && (s.group g).p == 8

/-- What a write of a live or idle-only entry does: its value, and what it starts. -/
def State.act (s : State) (k v : Nat) : Reply :=
  if k = Ent.trainStepStart then s.stepStart v
  else if k = Ent.trainStepIndex ∨ k = Ent.trainCursorStamp ∨ k = Ent.rngStep then { s := (s.setEnt k v).checkResume }
  else if k = Ent.rngRealign then { s := s.realign }
  else if k = Ent.nvpSelftest then { s := s.setEnt Ent.nvpState 1 }
  else if k = Ent.progLoad then s.progLoad v
  else if k = Ent.salRingBase then
    if s.ringCode v (s.ent Ent.salRingSteps) then { s := s.setEnt k v } else { s := s, code := 6, space := 0, addr := v }
  else if k = Ent.salRingSteps then
    if s.ringCode (s.ent Ent.salRingBase) v then { s := s.setEnt k v }
    else { s := s, code := 6, space := 0, addr := s.ent Ent.salRingBase }
  else if k = Ent.salFreeze then { s := s.freezeWindows v }
  else if k = Ent.fieldNotifyEnable then { s := s.setNotify v }
  else if k = Ent.memReqGo then s.reqGo v
  else if k = Ent.arbSelRank then s.selRank v
  else if k = Ent.arbClearMax then s.clearMax v
  else if k = Ent.replayExportGo then s.exportReplay
  else if k = Ent.replayRequest then s.replayRequest v
  else if k = Ent.imageExportGo then s.exportImage
  else if k = Ent.imageImportGo then s.importImage
  else if k = Ent.stockRestoreStep then s.restoreStep v
  else if k = Ent.crustGroup then if s.groupOfEight v then { s := s.setEnt k v } else { s := s, code := 3 }
  else if k = Ent.evExportGo then s.exportRecords
  else if k = Ent.evClearGo then s.clearGo
  else if k = Ent.faultAck then s.ackFault v
  else if k = Ent.faultSelClear then s.selClear
  else if k = Ent.energyWindowReset then { s := s.resetWindow }
  else if k = Ent.secBootBank then { s := { s with nv.selector := v, nv.selectorOk := true } }
  else if k = Ent.secAttestGo then s.attestGo v
  else if k = Ent.secEnrolGo then s.enrolGo
  else if k = Ent.secTokenGo then s.tokenGo
  else if k = Ent.secStageGo then s.stageGo v
  else { s := s.setEnt k v }

/-- An accepted write by its apply-point (R345). A group's frozen bit goes into the pending mask (R235). -/
def State.performWrite (s : State) (r : EntryRow) (k v : Nat) : Reply :=
  if 0x3480 ≤ k / 256 ∧ k / 256 ≤ 0x34BF ∧ k % 256 = 8 then
    { s := s.setEnt Ent.commitFrozenPending (setBitN (s.ent Ent.commitFrozenPending) (k / 256 - 0x3480) (v == 1)) }
  else if r.apply = .boundary then { s := if s.phase = 0 then s.applyBoundary k v else s.holdPending k v }
  else s.act k v

/-- An accepted write of a rw entry joins the journal (R347). -/
def State.journalWrite (s : State) (r : EntryRow) (k v : Nat) : State :=
  if r.access = .rw then
    { s with dict.journal := Kv.put s.dict.journal k v, dict.journalCount := satAdd 32 s.dict.journalCount 1 }
  else s

/-! ## Items (R349, R357) -/

/-- An item of a response. -/
structure ItemOut where
  status : Nat := 0
  ty : Nat := 0
  flags : Nat := 0
  unit : Nat := 0
  value : Nat := 0
  deriving DecidableEq, Repr

/-- Codes of access and apply-point. -/
def accessCode : Access → Nat
  | .ro => 0 | .rw => 1 | .wo => 2 | .const => 3
def applyCode : Apply → Nat
  | .live => 0 | .boundary => 1 | .idle => 2

/-- Flags of a response item. -/
def State.itemFlags (s : State) (r : EntryRow) (k : Nat) (shown : Bool) : Nat :=
  accessCode r.access + 4 * applyCode r.apply + 16 * bitN (s.pending? k).isSome + 32 * bitN shown

/-- The value that a plain read shows: the length of a string or domain, zero for a wo entry, else the value in force. -/
def State.readValue (s : State) (r : EntryRow) (k : Nat) : Nat :=
  if r.isBlob then (s.blob k).length
  else if r.access = .wo then 0
  else if k % 256 = 0 then r.dflt
  else s.value k

/-- An item that fails. -/
def State.failItem (s : State) (code space addr k : Nat) : State × ItemOut :=
  (s.respond code space addr k,
   match s.row? k with
   | some r => { status := code, ty := r.ty, flags := s.itemFlags r k false, unit := r.unit, value := 0 }
   | none => { status := code })

/-- Reads an entry; `pend` asks for the pending value if there is one. -/
def State.readItem (s : State) (k : Nat) (pend : Bool) : State × ItemOut :=
  match s.row? k with
  | none => s.failItem 1 1 k k
  | some r =>
    if s.unreachable k then s.failItem 4 1 k k
    else
      let s1 := s.checkStored k
      let shown := pend && (s1.pending? k).isSome
      let v := if shown then (s1.pending? k).getD 0 else s1.readValue r k
      (if s.isFree k then s1.draw else s1,
       { ty := r.ty, flags := s1.itemFlags r k shown, unit := r.unit, value := v })

/-- The code that a write draws before it is performed, or 0 (R349 steps 1 to 6). -/
def State.writeCheck (s : State) (k ty v compl : Nat) : Nat :=
  if s.flt.fatal ≠ 0 ∧ k ≠ Ent.faultAck then 4
  else
    match s.row? k with
    | none => 1
    | some r =>
      if v + compl ≠ 2 ^ 64 - 1 then 5
      else if r.access = .ro ∨ r.access = .const then 2
      else if r.isBlob ∨ ty ≠ r.ty ∨ rowRangeOk r v = false ∨ s.limitOk s.effective k v = false then 3
      else if (r.apply = .idle ∧ s.ownerBusy k = true) ∨ s.unreachable k = true then 4
      else 0

/-- Writes an entry. -/
def State.writeItem (s : State) (k ty v compl : Nat) : State × ItemOut :=
  let c := s.writeCheck k ty v compl
  if c ≠ 0 then s.failItem c 1 k k
  else
    match s.row? k with
    | none => s.failItem 1 1 k k
    | some r =>
      let p := s.performWrite r k v
      let s1 := p.s.latchAll
      if p.code ≠ 0 then s1.failItem p.code p.space (if p.space = 1 then k else p.addr) k
      else
        let s2 := s1.journalWrite r k v
        (s2, { ty := r.ty, flags := s2.itemFlags r k false, unit := r.unit, value := s2.readValue r k })

/-- Describes an entry. -/
def State.describeItem (s : State) (k : Nat) : State × ItemOut :=
  match s.row? k with
  | none => s.failItem 1 1 k k
  | some r =>
    if s.unreachable k then s.failItem 4 1 k k
    else (s, { ty := r.ty, flags := s.itemFlags r k false, unit := r.unit, value := s.describedDefault k r })

/-! ## Segments (R358) -/

/-- A segment item. -/
structure Seg where
  k : Nat
  ty : Nat
  flags : Nat
  len : Nat
  off : Nat
  total : Nat
  data : List Byte
  compl : List Byte
  deriving DecidableEq, Repr

/-- A response item of a segment transfer, and the bytes that follow it. -/
structure SegOut where
  status : Nat := 0
  ty : Nat := 0
  flags : Nat := 0
  len : Nat := 0
  off : Nat := 0
  total : Nat := 0
  data : List Byte := []
  deriving DecidableEq, Repr

/-- A segment item that fails. -/
def State.failSeg (s : State) (code k : Nat) (x : Seg) : State × SegOut :=
  (s.respond code 1 k k,
   { status := code, ty := (s.row? k).elim 0 (·.ty), flags := 0, len := 0, off := x.off, total := (s.blob k).length })

/-- Reads a segment of a string or domain. -/
def State.readSeg (s : State) (x : Seg) : State × SegOut :=
  match s.row? x.k with
  | none => s.failSeg 1 x.k x
  | some r =>
    if !r.isBlob ∨ 512 < x.len then s.failSeg 3 x.k x
    else if s.unreachable x.k then s.failSeg 4 x.k x
    else
      let s1 := s.checkStored x.k
      let l := s1.blob x.k
      let d := slice l x.off (if x.len = 0 then 512 else x.len)
      (s1, { ty := r.ty, flags := bitN (x.off == 0) + 2 * bitN (decide (l.length ≤ x.off + d.length)), len := d.length,
             off := x.off, total := l.length, data := d })

/-- Drops a source's open transfer. -/
def State.dropTransfer (s : State) (src : Nat) : State :=
  { s with dict.transfers := s.dict.transfers.filter fun t => t.source != src }

/-- The checks of R391 on a group entry. -/
def State.groupEntryOk (s : State) (g : Nat) (l : List Byte) : Bool :=
  let p := leAt l 2 2
  let ms := (List.range 256).map fun i => leAt l (0x10 + 2 * i) 2
  let inside := ms.take p
  decide (l.length = 528) && decide (leAt l 0 1 ≤ 1) && decide (leAt l 1 1 = 0) && decide (leAt l 6 2 = 0) && decide (leAt l 0xC 4 = 0)
    && decide (1 ≤ p) && decide (p ≤ 256) && inside.all (· != 0xFFFF) && (ms.drop p).all (· == 0xFFFF)
    && (List.range inside.length).all (fun i => (inside.take i).all (· != inside.getD i 0))
    && decide ((s.group g).epoch < leAt l 8 4)

/-- A whole string or domain has arrived: its own checks, and its effect. -/
def State.writeBlob (s : State) (k : Nat) (l : List Byte) : Reply :=
  if k = Ent.secRecoveryChunk then
    if 67108864 < s.ent Ent.secRecoveryOffset + l.length then { s := s, code := 3 }
    else { s := { s with nv.bankA := overlay s.nv.bankA (s.ent Ent.secRecoveryOffset) l } }
  else if 0x6100 ≤ k / 256 ∧ k / 256 ≤ 0x61FF then
    let g := k / 256 - 0x6100
    if s.groupEntryOk g l then { s := s.setGroup g (groupOf s.node l) } else { s := s, code := 3 }
  else if (k = Ent.secAttestNonce ∧ l.length ≠ 32) ∨ (k = Ent.secEnrolKey ∧ l.length ≠ 68) then { s := s, code := 3 }
  else { s := { s with dict.blobs := Kv.put s.dict.blobs k l } }

/-- Checks of a segment write that come before its place in a transfer: 0 where it passes. -/
def State.segCheck (s : State) (src : Nat) (x : Seg) : Nat :=
  if s.flt.fatal ≠ 0 then 4
  else
    match s.row? x.k with
    | none => 1
    | some r =>
      if x.compl ≠ flipBytes x.data then 5
      else if r.access = .ro ∨ r.access = .const then 2
      else if !r.isBlob ∨ x.ty ≠ r.ty ∨ 512 < x.len ∨ 4 ≤ x.flags then 3
      else if (r.apply = .idle ∧ s.ownerBusy x.k = true) ∨ s.unreachable x.k = true
          ∨ (x.k = Ent.secRecoveryChunk ∧ s.sec.bootState ≠ 3)
          ∨ (x.flags.testBit 0 = true ∧ s.dict.transfers.any (fun t => t.source != src) = true) then 4
      else 0

/-- The bytes that a segment continues: none where it leaves a gap or an overlap, or names another entry. -/
def State.segBase (s : State) (src : Nat) (x : Seg) : Option (List Byte) :=
  if x.flags.testBit 0 then if x.off = 0 then some [] else none
  else
    match s.dict.transfers.find? (fun t => t.source == src) with
    | some t => if t.key = x.k ∧ t.bytes.length = x.off then some t.bytes else none
    | none => none

/-- Writes a segment: opens, continues or completes its source's transfer. A complement failure, a gap, an overlap or a wrong length
discards the transfer; a segment that only meets a busy function leaves it open. -/
def State.writeSeg (s : State) (src : Nat) (x : Seg) : State × SegOut :=
  let c := s.segCheck src x
  if c = 4 ∨ c = 1 ∨ c = 2 then s.failSeg c x.k x
  else if c ≠ 0 then (s.dropTransfer src).failSeg c x.k x
  else
    match s.segBase src x with
    | none => (s.dropTransfer src).failSeg 3 x.k x
    | some b =>
      let l := b ++ x.data
      let s0 := s.dropTransfer src
      let last := x.flags.testBit 1
      if blobMax x.k < l.length ∨ (last = true ∧ x.total ≠ l.length) then s0.failSeg 3 x.k x
      else if last then
        let p := s0.writeBlob x.k l
        let s1 := p.s.latchAll
        if p.code ≠ 0 then s1.failSeg p.code x.k x
        else
          let s2 := match s.row? x.k with | some r => s1.journalWrite r x.k (leNat l) | none => s1
          (s2, { ty := x.ty, flags := x.flags, len := x.len, off := x.off, total := (s2.blob x.k).length })
      else
        ({ s0 with dict.transfers := s0.dict.transfers ++ [{ source := src, key := x.k, bytes := l, time := s.now }] },
         { ty := x.ty, flags := x.flags, len := x.len, off := x.off, total := (s.blob x.k).length })

end Sys2Proof.Machine
end

