-- ==== Sys2Proof/Machine/Messages.lean ====
section
/-! DEFINITION. Ixique messages and their sources (R353 to R358), the mailbox (R359 to R361), the field network (R362 to R367):
IXIQUE_READ to NOTIFY, MAILBOX_DOORBELL, MAILBOX_SLOT_FREE, PLCA_TRANSMIT_OPPORTUNITY. -/

namespace Sys2Proof.Machine

/-! ## Message layout (R355) -/

/-- A message's header. -/
structure MsgHdr where
  op : Nat
  dest : Nat
  src : Nat
  transaction : Nat
  items : Nat
  body : List Byte
  deriving DecidableEq, Repr

/-- Body length that an op with so many items has (R356 to R358). -/
def bodyFits (op items : Nat) (body : List Byte) : Bool :=
  match op with
  | 1 => decide (1 ≤ items) && decide (items ≤ 40) && decide (body.length = 24 * items)
  | 2 => decide (1 ≤ items) && decide (items ≤ 40) && decide (body.length = 24 * items)
  | 3 => decide (1 ≤ items) && decide (items ≤ 40) && decide (body.length = 24 * items)
  | 4 => decide (items = 1) && decide (body.length = 16)
  | 5 => decide (items = 1) && decide (body.length = 16 + 2 * leAt body 6 2)
  | 6 => decide (items = 0) && decide (body.length = 0)
  | 7 => decide (items = 0) && decide (body.length = 0)
  | 8 => decide (items = 0) && decide (body.length = 16)
  | _ => decide (items ≤ 40)

/-- Ops that a source may carry: in band 0x01 to 0x05, on the field network every op of R356. -/
def opKnown (inBand : Bool) (op : Nat) : Bool :=
  (decide (1 ≤ op) && decide (op ≤ 5)) || (!inBand && ((decide (6 ≤ op) && decide (op ≤ 8)) || (decide (0x81 ≤ op) && decide (op ≤ 0x85))))

/-- Parses a message; none where it is malformed. In band the bytes after the message are the rest of the slot. -/
def parseMsg (inBand : Bool) (l : List Byte) : Option MsgHdr :=
  let n := leAt l 0xA 2
  let body := slice l 16 n
  let h : MsgHdr := { op := leAt l 3 1, dest := leAt l 4 1, src := leAt l 5 1, transaction := leAt l 6 2, items := leAt l 8 2, body := body }
  if decide (16 ≤ l.length) && decide (l.take 2 = [0x49#8, 0x58#8]) && decide (leAt l 2 1 = 1) && decide (n ≤ 1072)
      && decide (16 + n ≤ l.length) && (inBand || decide (l.length = 16 + n)) && decide (leAt l 0xC 4 = crc32c body)
      && opKnown inBand h.op && decide (h.items ≤ 40) && bodyFits h.op h.items body then some h
  else none

/-- The bytes of a message. -/
def msgBytes (op dest src transaction items : Nat) (body : List Byte) : List Byte :=
  [0x49#8, 0x58#8] ++ leBytes 1 1 ++ leBytes 1 op ++ leBytes 1 dest ++ leBytes 1 src ++ leBytes 2 transaction ++ leBytes 2 items
    ++ leBytes 2 body.length ++ leBytes 4 (crc32c body) ++ body

/-- Key of the entry that an item names. -/
def itemKey (l : List Byte) : Nat := 256 * leAt l 0 2 + leAt l 2 1

/-- Bytes of a response item (R357). -/
def itemBytes (k : Nat) (o : ItemOut) : List Byte :=
  leBytes 2 (k / 256) ++ leBytes 1 (k % 256) ++ leBytes 1 o.status ++ leBytes 1 o.ty ++ leBytes 1 o.flags ++ leBytes 2 o.unit
    ++ leBytes 8 o.value ++ flipBytes (leBytes 8 o.value)

/-- Bytes of a response segment item and its data (R358). -/
def segBytes (k : Nat) (o : SegOut) : List Byte :=
  leBytes 2 (k / 256) ++ leBytes 1 (k % 256) ++ leBytes 1 o.status ++ leBytes 1 o.ty ++ leBytes 1 o.flags ++ leBytes 2 o.len
    ++ leBytes 4 o.off ++ leBytes 4 o.total ++ o.data ++ flipBytes o.data

/-- The segment that a body carries. -/
def segOf (body : List Byte) : Seg :=
  let n := leAt body 6 2
  { k := itemKey body, ty := leAt body 4 1, flags := leAt body 5 1, len := n, off := leAt body 8 4, total := leAt body 0xC 4,
    data := slice body 16 n, compl := slice body (16 + n) n }

/-- One item of ops 0x01 to 0x03. -/
def State.doItem (s : State) (op : Nat) (it : List Byte) : State × List Byte :=
  let k := itemKey it
  let r :=
    if op = 1 then s.readItem k ((leAt it 5 1).testBit 0)
    else if op = 2 then s.writeItem k (leAt it 4 1) (leAt it 8 8) (leAt it 16 8)
    else s.describeItem k
  (r.1, itemBytes k r.2)

/-- The items of a body, in order (R353). -/
def State.doItems (s : State) (op : Nat) : Nat → List Byte → State × List Byte
  | 0, _ => (s, [])
  | n + 1, body =>
    let r := s.doItem op (body.take 24)
    let t := r.1.doItems op n (body.drop 24)
    (t.1, r.2 ++ t.2)

/-- Performs a request and gives the response's body. -/
def State.perform (s : State) (src : Nat) (h : MsgHdr) : State × List Byte :=
  if h.op ≤ 3 then s.doItems h.op h.items h.body
  else if h.op = 4 then
    let r := s.readSeg (segOf h.body)
    (r.1, segBytes (itemKey h.body) r.2)
  else
    let r := s.writeSeg src (segOf h.body)
    (r.1, segBytes (itemKey h.body) r.2)

/-! ## Requests and their responses (R354) -/

/-- The source key of the mailbox. -/
def mailboxSource : Nat := 256

/-- This module's node ID; 0xFF for none. -/
def State.nodeId (s : State) : Nat := s.ent Ent.fieldNodeId

/-- The stored response that answers a repeated request: same source and transaction, within 1 s. -/
def State.repeated (s : State) (src transaction : Nat) : Option (List Byte) :=
  match Kv.find? s.dict.last src with
  | some r => if r.transaction = transaction ∧ s.now ≤ r.time + ticksOfS 1 then some r.bytes else none
  | none => none

/-- Answers a request: from the stored response, or by performing it and storing the response, if one is sent at all. The flag says that it
was a repeat. -/
def State.answer (s : State) (src : Nat) (sent : Bool) (h : MsgHdr) : State × List Byte × Bool :=
  match s.repeated src h.transaction with
  | some b => (s, b, true)
  | none =>
    let r := s.perform src h
    let b := msgBytes (h.op + 0x80) h.src r.1.nodeId h.transaction h.items r.2
    (if sent then { r.1 with dict.last := Kv.put r.1.dict.last src { transaction := h.transaction, bytes := b, time := r.1.now } } else r.1,
      b, false)

/-! ## The mailbox (R359, R360) -/

/-- A slot reaches state 2 or 3: vector 0, if enabled (R360, R378). -/
def State.slotDone (s : State) (n : Nat) (x : MbxSlot) : State :=
  if (s.slot n).state = 1 ∧ n < 16 then
    let s1 := s.setSlot n x
    if s1.comm.irqEnable then s1.raiseVector 0 else s1
  else s

/-- A response overwrites the start of its slot; the rest of the slot's bytes stay (R360). -/
def overSlot (slot resp : List Byte) : List Byte := resp ++ slot.drop resp.length

/-- Takes the oldest mailbox message (R360). -/
def State.mailboxNext (s : State) : State :=
  match s.comm.queue with
  | [] => s
  | (n, msg) :: rest =>
    match parseMsg true msg with
    | none =>
      let s1 := { s with comm.queue := rest }.slotDone n { state := 3, bytes := (s.slot n).bytes }
      if n < 16 then s1.bump 64 Ent.mbxRejected 1 else s1
    | some h =>
      let r := { s with comm.queue := rest }.answer mailboxSource (decide (n < 16)) h
      (r.1.slotDone n { state := 2, bytes := overSlot (r.1.slot n).bytes r.2.1 }).bump 64 (if r.2.2 then Ent.mbxDuplicates else Ent.mbxMessages) 1

/-- Takes the oldest mailbox message, if it is a request of an op or malformed (R353, R360). -/
def State.mailboxRequest (s : State) (op : Nat) : State :=
  match s.comm.queue with
  | [] => s
  | (_, msg) :: _ => if (parseMsg true msg).elim true fun h => h.op == op then s.mailboxNext else s

/-- The messages that stand before a new one in the request queue are processed first, in order of arrival (R353). -/
def State.drainMailbox : Nat → State → State
  | 0, s => s
  | n + 1, s => State.drainMailbox n s.mailboxNext

/-! ## The field network (R362, R363, R366) -/

/-- The link-local IPv6 address of a MAC address by the modified EUI-64 rule (R363, RFC 4291). -/
def linkLocal (mac : Nat) : Nat :=
  0xFE80 * 2 ^ 112 + (mac / 2 ^ 24 ^^^ 0x020000) * 2 ^ 40 + 0xFFFE * 2 ^ 24 + mac % 2 ^ 24

/-- The address of a node ID, and the one that every module receives on (R363). -/
def nodeAddr (id : Nat) : FieldAddr := { mac := fieldMacOf id, ip := linkLocal (fieldMacOf id) }
def allNodes : FieldAddr := { mac := 0x333300000001, ip := 0xFF02 * 2 ^ 112 + 1 }

/-- A packet that the module takes (R362, R363): UDP to and from port 7,353, to its own address or to all nodes, with any hop limit. Every
other packet is ignored. -/
def State.takesPacket (s : State) (p : FieldPacket) : Bool :=
  p.udp && (p.dst == allNodes || (s.nodeId != 0xFF && p.dst == nodeAddr s.nodeId))

/-- A frame or message is dropped (R355, R362). -/
def State.dropFrame (s : State) : State := s.bump 64 Ent.fieldDropped 1

/-- A message whose source is this module's own ID, from another MAC address (R366). -/
def State.checkClaim (s : State) (src mac : Nat) : State :=
  if s.nodeId ≠ 0xFF ∧ src = s.nodeId ∧ mac ≠ fieldMacOf s.nodeId then s.conditionAt 1 0x1200 5 src 0 0 0 else s

/-- A field response waits for a transmit opportunity; a module without an ID never transmits (R362, R364). -/
def State.queueResponse (s : State) (dst : FieldAddr) (b : List Byte) : State :=
  if s.nodeId = 0xFF then s else { s with comm.outbox := s.comm.outbox ++ [.response dst b] }

/-- A field packet arrives: dropped if its checksum or its message's layout fails, else answered if it is a request of an op for this
module: by its own ID, or for all, and on the address of all nodes for all alone (R355, R363). -/
def State.fieldRequest (s : State) (op : Nat) (p : FieldPacket) : State :=
  if s.isReady 0 = false ∨ s.takesPacket p = false then s
  else if p.checksumOk = false then s.dropFrame
  else
    match parseMsg false p.bytes with
    | none => s.dropFrame
    | some h =>
      if h.op = op ∧ (h.dest = 0xFF ∨ (h.dest = s.nodeId ∧ p.dst ≠ allNodes)) then
        let r := ((State.drainMailbox s.comm.queue.length s).checkClaim h.src p.src.mac).answer h.src (s.nodeId != 0xFF) h
        (r.1.queueResponse p.src r.2.1).bump 64 (if r.2.2 then Ent.fieldDuplicates else Ent.fieldRxMessages) 1
      else s

/-- A request of an op from its source. Nothing is processed before the firmware runs (R418). -/
def State.request (s : State) (op : Nat) (src : IxSource) : State :=
  if s.pwr.on = false then s
  else
    match src with
    | .mailbox => s.mailboxRequest op
    | .field p => s.fieldRequest op p

/-- IXIQUE_READ (R349, R356, R357). -/
def execIxiqueRead (src : IxSource) (s : State) : Out := .next (s.request 1 src)

/-- IXIQUE_WRITE (R345, R349, R356, R357). -/
def execIxiqueWrite (src : IxSource) (s : State) : Out := .next (s.request 2 src)

/-- IXIQUE_DESCRIBE (R356, R357). -/
def execIxiqueDescribe (src : IxSource) (s : State) : Out := .next (s.request 3 src)

/-- SEGMENT_READ (R358). -/
def execSegmentRead (src : IxSource) (s : State) : Out := .next (s.request 4 src)

/-- SEGMENT_WRITE (R358). -/
def execSegmentWrite (src : IxSource) (s : State) : Out := .next (s.request 5 src)

/-- SEGMENT_TRANSFER_TIMEOUT (R358): transfers without a segment for 1 s are discarded. -/
def execSegmentTransferTimeout (s : State) : Out :=
  .next { s with dict.transfers := s.dict.transfers.filter fun t => decide (s.now < t.time + ticksOfS 1) }

/-- Requests to BAR 2 (R379): in D3hot an Unsupported Request; otherwise answered where the mailbox is ready. -/
def State.bar2 (s : State) (f : State → State) : State :=
  if s.links.host.up ∧ s.links.host.d3 then { s with links.host.aerUr := true }
  else if s.isReady 1 ∧ s.links.host.d3 = false ∧ s.links.host.perst = false then f s
  else s

/-- The host's writes reach BAR 2. -/
def toBar2 (w : Bar2Writes) : Bool := w.bell || w.irqEnable.isSome || !w.masks.isEmpty || !w.bytes.isEmpty

/-- MAILBOX_DOORBELL (R360, R376): configuration writes act at once, and what goes to BAR 2 waits for the posted writes before it. -/
def execMailboxDoorbell (value : BitVec 32) (w : Bar2Writes) (s : State) : Out :=
  .next (
    let s0 := if s.links.host.up then w.config.foldl State.configWrite s else s
    if toBar2 w then s0.bar2 fun s => ({ s with links.host.bells := s.links.host.bells ++ [(value, w)] }.afterWrites).latchAll else s0)

/-- MAILBOX_SLOT_FREE (R360): only a 0 written while the state reads 2 or 3 frees the slot. -/
def execMailboxSlotFree (slot : Fin 16) (value : Byte) (s : State) : Out := .next (s.bar2 fun s => s.freeSlot slot.val value)

/-! ## The chain (R364, R365) -/

/-- The module takes an ID, asserts ADDR_OUT, and has one chain frame of its own to send. -/
def State.takeId (s : State) (id : Nat) : State :=
  { s with comm.addrOut := true, comm.transmitting := true, comm.outbox := [.chain id] }.setEnt Ent.fieldNodeId id

/-- CHAIN (R364, R366, R372): a frame that the module ignores leaves the count of messages as it was. -/
def execChain (src : Fin 256) (sender : FieldAddr) (s : State) : Out :=
  .next (
    if s.pwr.on ∧ s.isReady 0 then
      let s0 := if src.val = 0 then { s with comm.chainFrom := sender } else s
      let s1 := s0.checkClaim src.val sender.mac
      if s1.nodeId ≠ 0xFF ∨ s1.comm.addrIn = false then s1
      else
        let s2 := s1.bump 64 Ent.fieldRxMessages 1
        if src.val < 31 then s2.takeId (src.val + 1) else s2.condition 1 0x1200 src.val 0 0
    else s)

/-- Responses that will not be sent are no last responses (R354). -/
def dropLast (l : KV LastResp) (f : FieldFrame) : KV LastResp :=
  match f with
  | .response _ b => Kv.del l (leAt b 4 1)
  | _ => l

/-- CHAIN_RESET (R365): the ID, ADDR_OUT and what waits to be sent are dropped, with a Notice. -/
def execChainReset (s : State) : Out :=
  .next (
    if s.pwr.on ∧ s.isReady 0 then
      (({ s with comm.addrOut := false, comm.transmitting := false, comm.outbox := [], comm.notifyDue := false,
                 dict.last := s.comm.outbox.foldl dropLast s.dict.last }.setEnt Ent.fieldNodeId 0xFF).bump
        64 Ent.fieldRxMessages 1).condition 0 0x1200 0 0 0
    else s)

/-! ## Notify (R367, R378) -/

/-- Ticks of 10 ms, rounded up. -/
def paceTicks : Nat := 328

/-- 10 ms have passed since a time, if there was one. -/
def State.paced (s : State) (t : Option Nat) : Bool :=
  match t with
  | none => true
  | some x => decide (x + paceTicks ≤ s.now)

/-- Vector 1 is raised for a change since it was raised last. -/
def State.vectorOne (s : State) : State :=
  if s.comm.irq1Due ∧ s.paced s.comm.irq1At = true then
    { s.raiseVector 1 with comm.irq1Due := false, comm.irq1At := some s.now }
  else s

/-- A notify waits to be sent for a change since the last. -/
def State.fieldNotify (s : State) : State :=
  if s.nodeId ≠ 0xFF ∧ s.ent Ent.fieldNotifyEnable = 1 ∧ s.comm.notifyDue ∧ s.paced s.comm.notifyAt = true
      ∧ s.comm.outbox.contains .notify = false then
    { s with comm.outbox := s.comm.outbox ++ [.notify] }
  else s

/-- NOTIFY (R367, R378). -/
def execNotify (s : State) : Out := .next (if s.pwr.on then s.vectorOne.fieldNotify else s)

/-- The notify body as the state stands (R367). -/
def State.notifyBody (s : State) : List Byte :=
  leBytes 8 (s.ent Ent.readySummary) ++ leBytes 4 (s.value Ent.evNewestSeq) ++ leBytes 1 ((s.collector (colKey 4 0)).unackSev)
    ++ leBytes 1 s.flt.fatal ++ zeros 2

/-- The bytes of a waiting frame, as sent now. -/
def State.frameBytes (s : State) (f : FieldFrame) : List Byte :=
  match f with
  | .chain id => msgBytes 6 0xFF id 0 0 []
  | .response _ b => b
  | .notify => msgBytes 8 0 s.nodeId 0 0 s.notifyBody

/-- Where a waiting frame goes (R363): a chain frame to all, a response to its request's sender, a notify to the sender of the last
chain frame of node 0. -/
def State.frameTo (s : State) (f : FieldFrame) : FieldAddr :=
  match f with
  | .chain _ => allNodes
  | .response dst _ => dst
  | .notify => s.comm.chainFrom

/-- The Ethernet frame in which a message travels (R362, R363): EtherType 0x86DD, an IPv6 header with hop limit 255, UDP to and from port
7,353, and the frame check sequence. -/
def fieldFrameBytes (src dst : FieldAddr) (msg : List Byte) : List Byte :=
  let n := 8 + msg.length
  let udp (sum : Nat) := beBytes 2 7353 ++ beBytes 2 7353 ++ beBytes 2 n ++ beBytes 2 sum ++ msg
  let pseudo := beBytes 16 src.ip ++ beBytes 16 dst.ip ++ beBytes 4 n ++ beBytes 4 17
  let frame := beBytes 6 dst.mac ++ beBytes 6 src.mac ++ beBytes 2 0x86DD ++ beBytes 4 (6 * 2 ^ 28) ++ beBytes 2 n ++ [17#8, 255#8]
    ++ beBytes 16 src.ip ++ beBytes 16 dst.ip ++ udp (udpChecksum (pseudo ++ udp 0))
  frame ++ leBytes 4 (ethernetFcs frame)

/-- The last frame put on the field network. -/
def State.lastFrame (s : State) : List Byte := fieldFrameBytes (nodeAddr s.nodeId) s.comm.lastTo s.comm.lastSent

/-- PLCA_TRANSMIT_OPPORTUNITY (R362 to R364): one waiting frame is sent. -/
def execPlcaTransmitOpportunity (s : State) : Out :=
  .next (
    if s.pwr.on ∧ s.comm.transmitting then
      match s.comm.outbox with
      | [] => s
      | f :: rest =>
        let s1 := { s with comm.outbox := rest, comm.lastSent := s.frameBytes f, comm.lastTo := s.frameTo f }.bump 64 Ent.fieldTxMessages 1
        if f = .notify then { s1 with comm.notifyDue := false, comm.notifyAt := some s.now } else s1
    else s)

end Sys2Proof.Machine
end

