-- ==== Sys2Proof/Machine/HostLink.lean ====
section
/-! DEFINITION. The host port's resets, power states and requests, link errors and retraining (R361, R373 to R379, R382, R396, R418),
and the ends of report signing and image staging (R425, R426, R432): PERST_ASSERT to LINK_RETRAIN_DONE, ATTEST_REPORT_DONE,
STAGE_DONE. -/

namespace Sys2Proof.Machine

/-! ## Resets and power states (R361, R379) -/

/-- The mailbox at a reset of the port (R361): slot states return to 0, the stored response goes, messages already taken still
complete; a doorbell not yet processed is lost. -/
def State.resetMailbox (s : State) : State :=
  { s with
    comm.slots := (s.comm.slots.map fun (e : Nat × MbxSlot) => (e.1, { e.2 with state := 0 })).filter fun e => e.2 != {},
    comm.queue := s.comm.queue.map fun (e : Nat × List Byte) => (16, e.2),
    dict.last := Kv.del s.dict.last mailboxSource,
    links.host.bells := [] }

/-- The function's own registers at a reset: window base, BAR size, maximum payload, power state, interrupts. Posted writes that have
arrived are still performed; reads without a completion are lost. -/
def State.resetFunction (s : State) : State :=
  { s.resetMailbox.setEnt Ent.hostWindowBase 0 with
    links.host.barLog := 43, links.host.d3 := false, links.host.heldReads := [], links.host.maxPayload := 128,
    comm.irqEnable := false, comm.masked := List.range 32, comm.pba := [], comm.msix := [] }

/-- PERST# and Hot Reset (R379): the function resets, and the link retrains. -/
def State.resetPort (s : State) : State := s.resetFunction.hostDown

/-- PERST_ASSERT (R361, R379): it alone lets the link train to its highest rate again (R396). -/
def execPerstAssert (s : State) : Out :=
  .next (if s.links.host.perst then s else { s.resetPort with links.host.perst := true, links.host.maxRate := 128 })

/-- HOT_RESET (R379). -/
def execHotReset (s : State) : Out :=
  .next (if s.pwr.on ∧ s.links.host.perst = false then s.resetPort else s)

/-- FUNCTION_LEVEL_RESET (R379): as PERST#, with the link left up. -/
def execFunctionLevelReset (s : State) : Out :=
  .next (if s.links.host.up then s.resetFunction else s)

/-- PERST_DEASSERT (R418): the port begins to train; bit [2] sets when L0 is reached. -/
def execPerstDeassert (s : State) : Out := .next { s with links.host.perst := false }

/-- POWER_STATE_CHANGE (R373, R379): a return to D0 keeps the BAR, MSI-X and mailbox state. -/
def execPowerStateChange (d : DState) (s : State) : Out :=
  .next (if s.links.host.up then { s with links.host.d3 := decide (d = .d3hot) } else s)

/-! ## BAR 4 (R376, R377, R379) -/

/-- HOST_BAR4_READ (R376, R377): in D3hot the request completes with Unsupported Request; one beyond the BAR is none of its own, and a
Fatal stop admits no DMA (R328). -/
def execHostBar4Read (offset len : Nat) (s : State) : Out :=
  .next (
    if s.links.host.up = false ∨ len = 0 ∨ s.barSize < offset + len ∨ s.flt.fatal ≠ 0 then s
    else if s.links.host.d3 then { s with links.host.completion := (1, []) }
    else (s.hostRead offset len).latchAll)

/-- HOST_BAR4_WRITE (R376, R377): in D3hot an Unsupported Request (R379); a Fatal stop admits no DMA (R328). -/
def execHostBar4Write (offset : Nat) (data : List Byte) (s : State) : Out :=
  .next (
    if s.links.host.up = false ∨ data = [] ∨ s.barSize < offset + data.length ∨ s.flt.fatal ≠ 0 then s
    else if s.links.host.d3 then { s with links.host.aerUr := true }
    else (s.hostWrite offset data).latchAll)

/-! ## Link errors (R382, R396) -/

/-- An error of the host port's LINK source. -/
def hostLinkFault : FaultReport := fault 0x0E .die 0

/-- PCIE_LINK_ERROR (R396): the error is latched; after link down, and at Severe with a lower rate, the link retrains. -/
def execPcieLinkError (e : HostErr) (s : State) : Out :=
  .next (
    if s.pwr.on ∧ s.links.host.perst = false then
      match e with
      | .replay => ((s.bump 64 Ent.hostReplays 1).raise hostLinkFault).latchAll
      | .uncorrectable => (s.raise hostLinkFault).latchAll
      | .receiver => (s.raise hostLinkFault).latchAll
      | .linkDown => ((s.raise hostLinkFault).latchAll).hostDown
    else s)

/-- An error of a CXL port's LINK source. -/
def cxlLinkFault (d : Nat) : FaultReport := { fault 0x0E .die (d / 6) with source := d + 1 }

/-- Rates and widths at which a CXL port runs (R380). -/
def cxlTrains (rate width : Nat) : Bool := [64, 32].contains rate && [8, 4].contains width

/-- A CXL link runs at a rate and width, if R380 has them; one below x8 or 64 GT/s is latched and recorded (R382); reads that waited
go on (R396). -/
def State.cxlRuns (s : State) (d rate width : Nat) : State :=
  if cxlTrains rate width = false then s
  else
  let s1 := { s with links.cxl := Kv.put s.links.cxl d { up := true, rate := rate, width := width, hdm := some hdmDecoder } }
  let s2 := if rate < 64 ∨ width < 8 then ((s1.raise (cxlLinkFault d)).latchAll).condition 1 0x6010 d 0 0 else s1
  s2.retryRead.latchAll

/-- The device's link has stayed down after three retrains: it has failed (R255, R396). -/
def State.downForGood (s : State) (d : Nat) : State :=
  if 3 ≤ (s.dev d).downCount ∧ (s.dev d).role ≠ 0xFE then s.failDev d else s

/-- CXL_LINK_ERROR (R382, R396). -/
def execCxlLinkError (d : CxlId) (e : CxlErr) (s : State) : Out :=
  .next (
    if s.pwr.on then
      match e with
      | .replay => ((s.bump 64 (Ent.cxlReplays d.val) 1).raise (cxlLinkFault d.val)).latchAll
      | .linkDown =>
        ({ s with links.cxl := Kv.put s.links.cxl d.val { hdm := (Kv.getD s.links.cxl d.val {}).hdm } }.raise (cxlLinkFault d.val)).latchAll
      | .stillDown =>
        if (Kv.getD s.links.cxl d.val {}).up then s
        else
          ((((s.setDev d.val { s.dev d.val with downCount := (s.dev d.val).downCount + 1 }).bump 32 (Ent.cxlRetrains d.val) 1).raise
            (cxlLinkFault d.val)).latchAll.downForGood d.val).latchAll
      | .trainedBelow rate width => s.cxlRuns d.val rate width
    else s)

/-- Rates and widths at which the host port runs data (R373). -/
def hostRuns (rate width : Nat) : Bool := [128, 64, 32].contains rate && [16, 8, 4].contains width

/-- Capabilities that the function lists (R373). -/
inductive PciCapability where
  | pciExpress | powerManagement | msix | advancedErrorReporting | serialNumber | resizableBar | dataLinkFeature
  | physicalLayer32 | physicalLayer64 | physicalLayer128 | laneMargining
  deriving DecidableEq, Repr

/-- What configuration reads of the function show (R373 to R375, R379). -/
structure PciFunction where
  vendor : Nat := 0x1F7C
  device : Nat := 0x4D32
  classCode : Nat := 0x120000
  revision : Nat
  serialNumber : Nat
  capabilities : List PciCapability :=
    [.pciExpress, .powerManagement, .msix, .advancedErrorReporting, .serialNumber, .resizableBar, .dataLinkFeature,
     .physicalLayer32, .physicalLayer64, .physicalLayer128, .laneMargining]
  msixVectors : Nat := 32
  /-- BAR 0 and BAR 1 are not implemented (R375). -/
  bar0 : Nat := 0
  bar1 : Nat := 0
  bar2Size : Nat := 0x20000
  bar4Size : Nat
  /-- Sizes that Resizable BAR offers, log2 of the smallest and of the largest. -/
  bar4Smallest : Nat := 36
  bar4Largest : Nat := 43
  maxPayload : Nat
  maxPayloadSupported : Nat := 1024
  readCompletionBoundary : Nat := 128
  d3hot : Bool
  noSoftReset : Bool := true
  unsupportedRequest : Bool
  deriving DecidableEq, Repr

/-- The function as configuration reads show it (R373 to R375): the revision equals id.fw_major, the serial number id.key_fp_lo. -/
def State.pciFunction (s : State) : PciFunction :=
  { revision := s.value Ent.idFwMajor, serialNumber := s.value Ent.idKeyFpLo, bar4Size := s.barSize,
    maxPayload := s.links.host.maxPayload, d3hot := s.links.host.d3, unsupportedRequest := s.links.host.aerUr }

/-- The host link carries traffic again, at no more than the rate it may train to. -/
def State.hostUp (s : State) (rate width : Nat) : State :=
  let s1 := ({ s with links.host.up := true, links.host.rate := min rate s.links.host.maxRate, links.host.width := width }.bump
    32 Ent.hostRetrains 1).setReady 2 true
  if s1.sec.fwStarted || s1.sec.bootState == 3 then s1.setReady 1 true else s1

/-- LINK_RETRAIN_DONE (R389, R396). -/
def execLinkRetrainDone (k : LinkId) (rate width : Nat) (s : State) : Out :=
  .next (
    if s.pwr.on = false then s
    else match k with
      | .host => if s.links.host.perst ∨ s.links.host.up ∨ hostRuns rate width = false then s else s.hostUp rate width
      | .cxl d =>
        if (s.dev d.val).role = 0xFE ∨ cxlTrains rate width = false then s
        else ((s.setDev d.val { s.dev d.val with downCount := 0 }).bump 32 (Ent.cxlRetrains d.val) 1).cxlRuns d.val rate width
      | .lane p l =>
        let i := 4 * p.val + l.val
        if (s.lane i).retired || s.links.portsOut.contains p.val || (s.lane i).live then s
        else (s.setLane i { s.lane i with live := true }).sendLaneState p.val)

/-! ## Reports and staging (R425, R426, R432) -/

/-- ATTEST_REPORT_DONE (R432): the signature joins the report, which goes to the domain or to its address. -/
def execAttestReportDone (s : State) : Out :=
  .next (
    match s.sec.job with
    | none => s
    | some j =>
      let whole := j.bytes ++ (Config.attestSign s.nv.boot j.index j.bytes ++ zeros 2500).take 2500
      let s1 : State := { s with sec.job := none, sec.reportState := 2 }
      match j.toAddress with
      | none => { s1 with sec.report := whole }
      | some a =>
        let r := s1.exportTo a whole
        if r.code = 0 then r.s.latchAll
        else { s1.memViolation r.code a with sec.reportState := 3 }.latchAll)

/-- STAGE_DONE (R425, R426). -/
def execStageDone (s : State) : Out := .next (if s.pwr.on then s.stageDone else s)

end Sys2Proof.Machine
end

