-- ==== Sys2Proof/Machine/Queues.lean ====
section
/-! DEFINITION. Clock crossings: QUEUE_ENTRY_ARRIVE, QUEUE_SLOT_RELEASE, SYNC_LEVEL_CHANGE (R21, R22, R278 to R282). -/

namespace Sys2Proof.Machine

/-- Depth of a queue, in entries (R22). -/
def queueDepth : QueueId → Nat
  | .panStationary _ _ => 16
  | .panRows _ _ => 16
  | .panShifts _ _ => 4
  | .panWriteback _ _ => 16
  | .sluice _ _ => 16
  | .vector _ _ => 16
  | .coreDesc _ => 8
  | .coreSal _ => 8
  | .ctrlNoc _ _ => 32
  | .hbmReq _ _ => 64
  | .hbmWrite _ _ => 64
  | .hbmRead _ _ => 64
  | .cxlReq _ => 64
  | .cxlData _ _ => 64
  | .brine _ _ => 128
  | .host _ => 128
  | .dieToDie _ _ => 64
  | .flash _ => 256
  | .dictCtrl _ => 16
  | .dictNoc _ => 16
  | .mailbox _ => 16
  | .field _ => 2048
  | .mirror => 64

/-- The collector of the unit that receives a queue's entries: level, instance and source (R282, R320). All queues of one unit are one
source (R321): a pan, a core, a cluster, the management complex; on a die its network, a stack's controller, a root port, a Brine port,
the host port, the die-to-die link, the flash. -/
def queueReceiver : QueueId → Level × Nat × Nat
  | .panStationary c p => (.pan, 4 * c.val + p.val, 0)
  | .panRows c p => (.pan, 4 * c.val + p.val, 0)
  | .panShifts c p => (.pan, 4 * c.val + p.val, 0)
  | .panWriteback c _ => (.cluster, c.val / 8, 0)
  | .sluice c b => if b then (.cluster, c.val / 8, 0) else (.core, c.val, 0)
  | .vector c b => if b then (.cluster, c.val / 8, 0) else (.core, c.val, 0)
  | .coreDesc c => (.core, c.val, 0)
  | .coreSal c => (.core, c.val, 0)
  | .ctrlNoc d _ => (.die, d.val, 0)
  | .hbmReq st _ => (.die, st.val / 6, 64 + st.val)
  | .hbmWrite st _ => (.die, st.val / 6, 64 + st.val)
  | .hbmRead st _ => (.die, st.val / 6, 64 + st.val)
  | .cxlReq d => (.die, d.val / 6, 128 + d.val)
  | .cxlData d _ => (.die, d.val / 6, 128 + d.val)
  | .brine p _ => (.die, p.val / 4, 192 + p.val)
  | .host _ => (.die, 0, 256)
  | .dieToDie _ b => (.die, bitN (!b), 320)
  | .flash _ => (.die, 0, 384)
  | .dictCtrl _ => (.module, 0, 0)
  | .dictNoc _ => (.module, 0, 0)
  | .mailbox _ => (.module, 0, 0)
  | .field _ => (.module, 0, 0)
  | .mirror => (.module, 0, 0)

/-- The detail of a queue fault in word 1 (R318): in a core the unit that receives the entry, in [3:2]: 0 pan, 1 sluice, 2 vector, 3 control
processor. -/
def queueDetail : QueueId → Nat
  | .sluice _ b => if b then 0 else 4
  | .vector _ b => if b then 0 else 8
  | .coreDesc _ => 12
  | .coreSal _ => 12
  | _ => 0

/-- A queue carries a memory transaction (R22, R270, R282): requests, write data or read data of one port of a stack's controller, of a
CXL root port, or of one port of the die-to-die link, by which a read's data come back; loads and stores of a die's control, of its map
engine (DEDUCED, log 104); requests and completions of the host port; snapshot and restore data. -/
def carries (q : QueueId) (t : Txn) : Bool :=
  let r := t.req
  let h := t.home
  match q with
  | .hbmReq st p => h == (0, st.val / 6, st.val % 6) && r.addr / 256 % 4 == p.val
  | .hbmWrite st p => h == (0, st.val / 6, st.val % 6) && r.addr / 256 % 4 == p.val && r.data.isSome
  | .hbmRead st p => h == (0, st.val / 6, st.val % 6) && r.addr / 256 % 4 == p.val && r.data.isNone
  | .cxlReq d => h == (1, d.val / 6, d.val % 6)
  | .cxlData d b => h == (1, d.val / 6, d.val % 6) && r.data.isSome == !b
  | .dieToDie p b => t.crossed && (r.die.val == bitN b || r.data.isNone) && r.addr / 256 % 9 == p.val
  | .ctrlNoc d _ => r.who == .mapEngine && r.die == d
  | .host b => r.who == .host && (r.data.isNone || !b)
  | .flash b => r.who == .stockpile && r.data.isSome == b
  | _ => false

/-- Queues that the module's own units send into: what they send is written at once, and stands in the queue until it is released. -/
def moduleSends : QueueId → Bool
  | .panWriteback _ _ => true
  | .sluice _ b => b
  | .coreSal _ => true
  | _ => false

/-- The core whose units read a queue, if they do: a clock-stop freezes them (R79). -/
def queueReader : QueueId → Option Nat
  | .panStationary c _ => some c.val
  | .panRows c _ => some c.val
  | .panShifts c _ => some c.val
  | .sluice c b => if b then none else some c.val
  | .vector c b => if b then none else some c.val
  | .coreDesc c => some c.val
  | _ => none

/-- The requester whose wait counter shows a sender that a full queue stalls: level, instance and rank (R25, R278). -/
def queueRequester : QueueId → Option (Nat × Nat × Nat)
  | .panWriteback c p => some (0, 4 * c.val + p.val, 0)
  | .panStationary c p => some (0, 4 * c.val + p.val, 1)
  | .panShifts c p => some (0, 4 * c.val + p.val, 2)
  | .panRows c p => some (0, 4 * c.val + p.val, 3)
  | .vector c b => if b then none else some (1, c.val, 2)
  | .sluice c b => if b then none else some (1, c.val, 3)
  | _ => none

/-- A queue's state. -/
def State.queue (s : State) (q : QueueId) : QueueSt := s.queueAt (queueKey q)
def State.setQueue (s : State) (q : QueueId) (x : QueueSt) : State := s.setQueueAt (queueKey q) x

/-- The oldest outstanding memory transaction that a queue carries, if any, completes with an error response, its address logged (R282). -/
def State.failOldest (s : State) (q : QueueId) : State :=
  match s.mem.outstanding.find? (carries q) with
  | some t => (s.completeTxn t).violation 6 0 t.req.addr 0
  | none => s

/-- A parity error: the receiving unit's line, on which a pan's tile or a sluice pass is done again (R80, R88), and the memory transaction
that the entry carries. The entry is not delivered; one of the module's own senders stays with it, and is sent again. -/
def State.queueParity (s : State) (q : QueueId) : State :=
  let r := queueReceiver q
  (s.raise { fault 0x03 r.1 r.2.1 with source := r.2.2, detail := queueDetail q }).failOldest q

/-- A die memory arbiter grants what enters a queue. -/
def arbiterSends : QueueId → Txn → Bool
  | .hbmReq _ _, _ => true
  | .hbmWrite _ _, _ => true
  | .cxlReq _, _ => true
  | .cxlData _ b, _ => !b
  | .dieToDie _ b, t => t.req.die.val == bitN b
  | _, _ => false

/-- The request of the die memory arbiter that a full queue holds back: the oldest that waits for it, else the youngest it carries. -/
def State.heldBack (s : State) (q : QueueId) : Option Txn :=
  ((s.mem.waiting.map fun (t : Txn) => { t with home := s.txnHome t.req }) ++ s.mem.outstanding.reverse).find? fun t => carries q t && arbiterSends q t

/-- A full queue stalls its sender from outside, and the stall counts as a wait where an arbiter lies behind it (R25, R278). -/
def State.stallAt (s : State) (q : QueueId) : State :=
  match queueRequester q with
  | some (level, inst, rank) => s.stallSender (queueKey q) level inst rank
  | none =>
    match s.heldBack q with
    | some t => (s.stallQueue (queueKey q)).countWait 3 t.req.die.val (s.dieResource t.req) (whoRank t.req.who) 1
    | none => s.stallQueue (queueKey q)

/-- An entry is visible to the receiver; of the row queue of a pan whose pass runs, the pass takes it at once (R91, R283). -/
def State.seeEntry (s : State) (q : QueueId) (payload : Nat) : State :=
  let s1 := s.setQueue q { s.queue q with visible := (s.queue q).visible ++ [payload] }
  match q with
  | .panRows c p =>
    let x := s1.pan c.val p.val
    if 0 < x.rowsDue then (s1.readQueue (queueKey q) 1).setPan c.val p.val { x with rowsDue := x.rowsDue - 1 } else s1
  | _ => s1

/-- The control processor sends a pan its next shifts (R105). An entry of a table that fails its complement, and again when it is reread,
ends the block (R107). -/
def State.shiftsArrive (s : State) (c p : Nat) (q : QueueId) (parityOk : Bool) : State :=
  match s.nextShifts c p with
  | none => s
  | some (t, .error y) => ((s.dropBlock c t.pos t.block).troubled c y).latchAll
  | some (_, .ok payload) => if parityOk then s.seeEntry q payload else (s.queueParity q).latchAll

/-- QUEUE_ENTRY_ARRIVE (R278, R282): an entry becomes visible to the receiver, after those before it: the oldest that a unit of the module
has written, the shifts that the control processor sends, or one from outside. A full queue stalls its sender. -/
def execQueueEntryArrive (q : QueueId) (payload : Nat) (parityOk : Bool) (s : State) : Out :=
  .next (
    if s.pwr.on then
      let x := s.queue q
      if moduleSends q then
        match x.sending with
        | [] => s
        | e :: t => if parityOk then s.setQueue q { x with sending := t, visible := x.visible ++ [e] } else (s.queueParity q).latchAll
      else if queueDepth q ≤ x.held then s.stallAt q
      else
        match q with
        | .panShifts c p => s.shiftsArrive c.val p.val q parityOk
        | q => if parityOk then s.seeEntry q (payload % 2 ^ q.width) else (s.queueParity q).latchAll
    else s)

/-- What the reading of a queue's oldest entry brings: shifts reach a pan's registers (R105), and the writeback of a row is acknowledged
(R80). -/
def State.entryRead (s : State) (q : QueueId) (fresh : Bool) (payload : Nat) : State :=
  match q with
  | .panShifts c p => if fresh then s.takeShifts c.val p.val payload else s
  | .panWriteback c p => s.ackWriteback c.val p.val
  | _ => s

/-- A receiver reads what it finds only when it can use it: a pan takes shifts for a pass to come (R105), rows as passes start, and load
entries as they are admitted (R70, R71). -/
def State.canRead (s : State) (q : QueueId) : Bool :=
  match q with
  | .panShifts c p => s.wantsShifts c.val p.val
  | .panRows _ _ => false
  | .panStationary _ _ => false
  | _ => true

/-- QUEUE_SLOT_RELEASE (R278): the oldest entry is read, if it has not been yet, and the release of its slot reaches the sender. A
clock-stopped core reads nothing (R79), and an empty queue gives nothing. -/
def execQueueSlotRelease (q : QueueId) (s : State) : Out :=
  .next (
    let x := s.queue q
    let stopped := x.taken = 0 ∧ ((queueReader q).any s.coreStopped = true ∨ s.canRead q = false)
    if s.pwr.on ∧ x.visible ≠ [] ∧ ¬ stopped then
      ((s.setQueue q { x with visible := x.visible.drop 1, taken := x.taken - 1 }).entryRead q (x.taken == 0) (x.visible.headD 0)).latchAll
    else s)

/-! ## Synchronised bits -/

/-- Key of a synchronised bit. -/
def syncKey : SyncBit → Nat
  | .clockStop c => c.val
  | .tideEnable c => 128 + c.val
  | .tileDone c p => tileDoneKey c.val p.val
  | .panError c p => 768 + 4 * c.val + p.val
  | .panInvalid c p => 1280 + 4 * c.val + p.val
  | .sramError d => 1792 + d.val
  | .nocError d => 1794 + d.val
  | .hbmTrained st => 1800 + st.val
  | .hbmError st => 1820 + st.val
  | .cxlUp d => 1840 + d.val
  | .cxlError d => 1860 + d.val
  | .brineUp p => 1880 + p.val
  | .brineDegraded p => 1890 + p.val
  | .brineError p => 1900 + p.val
  | .hostUp => 1910
  | .hostError => 1911
  | .dieFault d => 1912 + d.val
  | .dieWatchdog d => 1914 + d.val
  | .stockReady => 1916
  | .stockError => 1917
  | .perst => 1918
  | .plcaOpportunity => 1919
  | .rxCarrier => 1920
  | .powerGood => 1921
  | .addrIn => 1922
  | .alive => 1923
  | .addrOut => 1924
  | .perstHost => 1925

/-- Bits that report events by inverting their level (R281). -/
def syncReports : SyncBit → Bool
  | .tileDone _ _ => true
  | _ => false

/-- A sticky error line (R21, R22): it stays set until its collector clears it. -/
def stickyLine : SyncBit → Bool
  | .panError _ _ => true
  | .sramError _ => true
  | .nocError _ => true
  | .hbmError _ => true
  | .cxlError _ => true
  | .brineError _ => true
  | .hostError => true
  | .stockError => true
  | _ => false

/-- The sending side can make the change: an event waits (R281); the pan's invalid flag stands as the level says (R68); a die's fault line
follows its collector's; a sticky line that is set drops only once its collector has cleared it, and no other fault stands behind it
(R21). -/
def State.syncSends (s : State) (b : SyncBit) (level : Bool) : Bool :=
  match b with
  | .panInvalid c p => (s.pan c.val p.val).invalidFlag == level
  | .dieFault d => level || !s.lineOn (colKey 3 d.val)
  | b =>
    let x := Kv.getD s.clk.syncs (syncKey b) {}
    if syncReports b then decide (0 < x.pending) else level || !stickyLine b || (x.cleared && !s.standsBehind (syncKey b))

/-- The level of a bit on the receiving side. The tray drives ADDR_IN whether the module has power or not (R443): what counts is the level
that stands, which the module reads once it has power. -/
def State.syncLevel (s : State) (b : SyncBit) : Bool :=
  match b with
  | .addrIn => s.comm.addrIn
  | b => (Kv.getD s.clk.syncs (syncKey b) {}).level

/-- What the receiver of a level does with it: ADDR_IN is read by MGMT, and a die's watchdog line shows in its status words. -/
def State.syncEffect (s : State) (b : SyncBit) (level : Bool) : State :=
  match b with
  | .addrIn => { s with comm.addrIn := level }
  | .dieWatchdog d => { s with flt.dogs := if level then listAdd s.flt.dogs d.val else listErase s.flt.dogs d.val }
  | _ => s

/-- SYNC_LEVEL_CHANGE (R21, R281): a level that the sending side has made appears on the receiving side and is acknowledged; a bit that
reports events counts one, and its sender has one less to send. -/
def execSyncLevelChange (b : SyncBit) (level : Bool) (s : State) : Out :=
  .next (
    let x := Kv.getD s.clk.syncs (syncKey b) {}
    if s.syncLevel b = level ∨ s.syncSends b level = false then s
    else
      let y : SyncSt := if syncReports b then { level := level, events := x.events + 1, pending := x.pending - 1 }
        else { x with level := level, cleared := false }
      if s.pwr.on then { s with clk.syncs := Kv.setD s.clk.syncs (syncKey b) {} y }.syncEffect b level
      else match b with
        | .addrIn => s.syncEffect b level
        | _ => s)

end Sys2Proof.Machine
end

