-- ==== Sys2Proof/Machine/Dispatch.lean ====
section
/-! DEFINITION. What each command does: one arm per constructor. -/

namespace Sys2Proof.Machine

/-- The effect of a command on everything but the queue. -/
def exec (i : Instr) (s : State) : Host.Outcome State Fault Refusal :=
  match i with
  | .inputApplied => Sys2Proof.Machine.execInputApplied s
  | .prechargeDone => Sys2Proof.Machine.execPrechargeDone s
  | .pwrOkRise => Sys2Proof.Machine.execPwrOkRise s
  | .powerGood => Sys2Proof.Machine.execPowerGood s
  | .firmwareStart => Sys2Proof.Machine.execFirmwareStart s
  | .recorderReloadDone => Sys2Proof.Machine.execRecorderReloadDone s
  | .functionReady f => Sys2Proof.Machine.execFunctionReady f s
  | .readinessDeadline f => Sys2Proof.Machine.execReadinessDeadline f s
  | .pwrOkFall => Sys2Proof.Machine.execPwrOkFall s
  | .inputUndervoltage v => Sys2Proof.Machine.execInputUndervoltage v s
  | .inputOvervoltage => Sys2Proof.Machine.execInputOvervoltage s
  | .hardwareOvervoltageRemoval => Sys2Proof.Machine.execHardwareOvervoltageRemoval s
  | .evtTick => Sys2Proof.Machine.execEvtTick s
  | .evtTickLost => Sys2Proof.Machine.execEvtTickLost s
  | .powerControlTick m => Sys2Proof.Machine.execPowerControlTick m s
  | .clockStopRequest c => Sys2Proof.Machine.execClockStopRequest c s
  | .clockStopRelease c => Sys2Proof.Machine.execClockStopRelease c s
  | .peakStepdown => Sys2Proof.Machine.execPeakStepdown s
  | .transientSample mw => Sys2Proof.Machine.execTransientSample mw s
  | .thermalSample x milliC => Sys2Proof.Machine.execThermalSample x milliC s
  | .thermalTrip x => Sys2Proof.Machine.execThermalTrip x s
  | .energyBook b => Sys2Proof.Machine.execEnergyBook b s
  | .springDeferredApply => Sys2Proof.Machine.execSpringDeferredApply s
  | .queueEntryArrive q payload parityOk => Sys2Proof.Machine.execQueueEntryArrive q payload parityOk s
  | .queueSlotRelease q => Sys2Proof.Machine.execQueueSlotRelease q s
  | .syncLevelChange b level => Sys2Proof.Machine.execSyncLevelChange b level s
  | .tideRampStart u => Sys2Proof.Machine.execTideRampStart u s
  | .stationaryLoadAdmit c p => Sys2Proof.Machine.execStationaryLoadAdmit c p s
  | .passStart c p slip => Sys2Proof.Machine.execPassStart c p slip s
  | .tileComplete c p => Sys2Proof.Machine.execTileComplete c p s
  | .writebackDrain c p slip => Sys2Proof.Machine.execWritebackDrain c p slip s
  | .tideRampStop u => Sys2Proof.Machine.execTideRampStop u s
  | .polwinIdleStop u => Sys2Proof.Machine.execPolwinIdleStop u s
  | .segmentTestDone c p found => Sys2Proof.Machine.execSegmentTestDone c p found s
  | .sluicePassComplete c => Sys2Proof.Machine.execSluicePassComplete c s
  | .vectorChunkComplete c slip => Sys2Proof.Machine.execVectorChunkComplete c slip s
  | .forwardAttemptDone slot => Sys2Proof.Machine.execForwardAttemptDone slot s
  | .amaxPassDone slot others => Sys2Proof.Machine.execAmaxPassDone slot others s
  | .progLoadCheckDone => Sys2Proof.Machine.execProgLoadCheckDone s
  | .descAdmit d => Sys2Proof.Machine.execDescAdmit d s
  | .descReady slot => Sys2Proof.Machine.execDescReady slot s
  | .unitSchedule c => Sys2Proof.Machine.execUnitSchedule c s
  | .mcastDelivery d set => Sys2Proof.Machine.execMcastDelivery d set s
  | .finiteCheck => Sys2Proof.Machine.execFiniteCheck s
  | .finiteCheckResult others => Sys2Proof.Machine.execFiniteCheckResult others s
  | .finiteCheckTimeout => Sys2Proof.Machine.execFiniteCheckTimeout s
  | .rakeReductionDone others micros => Sys2Proof.Machine.execRakeReductionDone others micros s
  | .updateGatherDone layer => Sys2Proof.Machine.execUpdateGatherDone layer s
  | .applyChunkComplete c => Sys2Proof.Machine.execApplyChunkComplete c s
  | .updateComplete => Sys2Proof.Machine.execUpdateComplete s
  | .stepBoundary rank0 => Sys2Proof.Machine.execStepBoundary rank0 s
  | .nvpSelftestDone failures first => Sys2Proof.Machine.execNvpSelftestDone failures first s
  | .mapReqMap => Sys2Proof.Machine.execMapReqMap s
  | .mapReqUnmap => Sys2Proof.Machine.execMapReqUnmap s
  | .mapReqMigrate => Sys2Proof.Machine.execMapReqMigrate s
  | .mapReqSetRo => Sys2Proof.Machine.execMapReqSetRo s
  | .mapReqClearRo => Sys2Proof.Machine.execMapReqClearRo s
  | .mapReqSetCc => Sys2Proof.Machine.execMapReqSetCc s
  | .mapReqClearCc => Sys2Proof.Machine.execMapReqClearCc s
  | .mapRunComplete => Sys2Proof.Machine.execMapRunComplete s
  | .migrationDone page => Sys2Proof.Machine.execMigrationDone page s
  | .memTransaction r => Sys2Proof.Machine.execMemTransaction r s
  | .hbmCorrectableError st pc => Sys2Proof.Machine.execHbmCorrectableError st pc s
  | .hbmUncorrectableError st pc addr by_ => Sys2Proof.Machine.execHbmUncorrectableError st pc addr by_ s
  | .hbmScrubPass st => Sys2Proof.Machine.execHbmScrubPass st s
  | .pcSpareCopyDone st => Sys2Proof.Machine.execPcSpareCopyDone st s
  | .cxlEventRecord d e => Sys2Proof.Machine.execCxlEventRecord d e s
  | .cxlReplaceCopyDone d => Sys2Proof.Machine.execCxlReplaceCopyDone d s
  | .pageRebuildDone page => Sys2Proof.Machine.execPageRebuildDone page s
  | .arbGrant a resource present hold => Sys2Proof.Machine.execArbGrant a resource present hold s
  | .holdCutoff a resource => Sys2Proof.Machine.execHoldCutoff a resource s
  | .coreSwapDone c passed => Sys2Proof.Machine.execCoreSwapDone c passed s
  | .clusterSwapDone k passed => Sys2Proof.Machine.execClusterSwapDone k passed s
  | .crustResyncDone => Sys2Proof.Machine.execCrustResyncDone s
  | .heartbeatTx => Sys2Proof.Machine.execHeartbeatTx s
  | .memberLost rank mirrored sealedUnits answers => Sys2Proof.Machine.execMemberLost rank mirrored sealedUnits answers s
  | .rebuildComplete ledger => Sys2Proof.Machine.execRebuildComplete ledger s
  | .snapshotImageWritten => Sys2Proof.Machine.execSnapshotImageWritten s
  | .snapshotComplete => Sys2Proof.Machine.execSnapshotComplete s
  | .stockRestoreDone => Sys2Proof.Machine.execStockRestoreDone s
  | .faultLatch r => Sys2Proof.Machine.execFaultLatch r s
  | .faultHandlingDone l unit => Sys2Proof.Machine.execFaultHandlingDone l unit s
  | .aliveToggle => Sys2Proof.Machine.execAliveToggle s
  | .mgmtWatchdogExpiry => Sys2Proof.Machine.execMgmtWatchdogExpiry s
  | .dmpWatchdogExpiry d => Sys2Proof.Machine.execDmpWatchdogExpiry d s
  | .cprocWatchdogExpiry c => Sys2Proof.Machine.execCprocWatchdogExpiry c s
  | .mirrorFlush ok => Sys2Proof.Machine.execMirrorFlush ok s
  | .ixiqueRead src => Sys2Proof.Machine.execIxiqueRead src s
  | .ixiqueWrite src => Sys2Proof.Machine.execIxiqueWrite src s
  | .ixiqueDescribe src => Sys2Proof.Machine.execIxiqueDescribe src s
  | .segmentRead src => Sys2Proof.Machine.execSegmentRead src s
  | .segmentWrite src => Sys2Proof.Machine.execSegmentWrite src s
  | .segmentTransferTimeout => Sys2Proof.Machine.execSegmentTransferTimeout s
  | .chain src mac => Sys2Proof.Machine.execChain src mac s
  | .chainReset => Sys2Proof.Machine.execChainReset s
  | .notify => Sys2Proof.Machine.execNotify s
  | .mailboxDoorbell value w => Sys2Proof.Machine.execMailboxDoorbell value w s
  | .mailboxSlotFree slot value => Sys2Proof.Machine.execMailboxSlotFree slot value s
  | .perstAssert => Sys2Proof.Machine.execPerstAssert s
  | .hotReset => Sys2Proof.Machine.execHotReset s
  | .functionLevelReset => Sys2Proof.Machine.execFunctionLevelReset s
  | .powerStateChange d => Sys2Proof.Machine.execPowerStateChange d s
  | .hostBar4Read offset len => Sys2Proof.Machine.execHostBar4Read offset len s
  | .hostBar4Write offset data => Sys2Proof.Machine.execHostBar4Write offset data s
  | .pcieLinkError e => Sys2Proof.Machine.execPcieLinkError e s
  | .cxlLinkError d e => Sys2Proof.Machine.execCxlLinkError d e s
  | .brineLaneError p l e => Sys2Proof.Machine.execBrineLaneError p l e s
  | .collectiveDataRx h => Sys2Proof.Machine.execCollectiveDataRx h s
  | .brineAckRx h => Sys2Proof.Machine.execBrineAckRx h s
  | .brineNackRx h => Sys2Proof.Machine.execBrineNackRx h s
  | .brineRetxTimeout p l dst => Sys2Proof.Machine.execBrineRetxTimeout p l dst s
  | .brineAckTimer p l dst => Sys2Proof.Machine.execBrineAckTimer p l dst s
  | .heartbeatRx h => Sys2Proof.Machine.execHeartbeatRx h s
  | .withdrawalRx h => Sys2Proof.Machine.execWithdrawalRx h s
  | .abandonNoticeRx h => Sys2Proof.Machine.execAbandonNoticeRx h s
  | .epochChangeRx h => Sys2Proof.Machine.execEpochChangeRx h s
  | .epochAckRx h => Sys2Proof.Machine.execEpochAckRx h s
  | .crustDeltaRx h => Sys2Proof.Machine.execCrustDeltaRx h s
  | .crustSealAckRx h => Sys2Proof.Machine.execCrustSealAckRx h s
  | .crustSealRx h => Sys2Proof.Machine.execCrustSealRx h s
  | .mirrorRx h => Sys2Proof.Machine.execMirrorRx h s
  | .reducedStreamRx h => Sys2Proof.Machine.execReducedStreamRx h s
  | .laneStateRx h => Sys2Proof.Machine.execLaneStateRx h s
  | .attestReportDone => Sys2Proof.Machine.execAttestReportDone s
  | .stageDone => Sys2Proof.Machine.execStageDone s
  | .perstDeassert => Sys2Proof.Machine.execPerstDeassert s
  | .plcaTransmitOpportunity => Sys2Proof.Machine.execPlcaTransmitOpportunity s
  | .hotSpareOfferRx o => Sys2Proof.Machine.execHotSpareOfferRx o s
  | .linkRetrainDone k rate width => Sys2Proof.Machine.execLinkRetrainDone k rate width s
  | .dmpSwapDone d => Sys2Proof.Machine.execDmpSwapDone d s

end Sys2Proof.Machine
end

