-- ==== Sys2Proof/Safety.lean ====
section
/-! DEFINITION. What counts as a safe run: no command ever stops the machine, and between commands the state is sound. -/

namespace Sys2Proof

open Sys2Proof.Machine

/-- Memory is listed in its one canonical form (R262). -/
abbrev MemoryCanonical (s : State) : Prop := Kv.wf 0 s.mem.ram = true

/-- The next sequence number has not passed the reservation mark kept in flash, so that none is used again after power is lost (R339). -/
abbrev SeqReserved (s : State) : Prop := s.flt.nextSeq ≤ s.nv.mark

/-- Every error line that was asserted has been latched (R315). -/
abbrev LinesLatched (s : State) : Prop := s.flt.lines = []

/-- The event-time counters of every domain agree (R23). -/
abbrev EventTimeTogether (s : State) : Prop :=
  s.clk.evtCtrl0 = s.clk.evtMgmt ∧ s.clk.evtCtrl1 = s.clk.evtMgmt ∧ s.clk.evtArith = List.replicate 18 s.clk.evtMgmt

/-- A sound state. -/
structure Sound (s : State) : Prop where
  memory : MemoryCanonical s
  seq : SeqReserved s
  lines : LinesLatched s
  time : EventTimeTogether s

/-- A step that neither faults nor refuses, to a sound state. -/
def StepSafe (s : State) : Prop := ∃ t, step s = .next t ∧ Sound t

end Sys2Proof
end

