-- ==== Sys2Proof/Certificates/Slice0/Obligations.lean ====
section
/-! DEFINITION. What the provers are asked to show of the model: the rules of the spec that say what the module or a command does. A
conclusion of the form `exec c s = .next t` says that the command completes with its own effect, for every state and operands that
meet the hypotheses. -/

open Sys2Proof Sys2Proof.Machine

/-! ## Numbers -/

/-- R38, R39: an infinity converts to the infinity of its sign where the format has one, else to the largest finite value of that sign
with one saturation; a NaN to the canonical NaN of the format, for Flake-4 to the NaN block, with no saturation and no flush. -/
def Obligations.InfinitiesAndNansConvert : Prop :=
  (∀ (neg : Bool) (f : Fmt), (f = .e5m2 ∨ f = .fp16 ∨ f = .bf16 ∨ f = .fp32 → decode f (convert f (.inf neg)).code = .inf neg ∧
        (convert f (.inf neg)).saturated = false) ∧
      (f = .e4m3 ∨ f = .flake4 → (convert f (.inf neg)).code = withSign f neg f.maxCode ∧ (convert f (.inf neg)).saturated = true)) ∧
    ([Fmt.e4m3, .e5m2, .fp16, .bf16, .fp32].map fun f => convert f .nan) =
      [{ code := 0x7F }, { code := 0x7E }, { code := 0x7E00 }, { code := 0x7FC0 }, { code := 0x7FC00000 }] ∧
    ∀ (k : Counts) (t : Int) (xs : List Val) (draws : List (Option Nat)), Val.nan ∈ xs →
      let b := encodeBlock k t xs draws
      b.e = 255 ∧ b.codes = xs.map (fun _ => 0) ∧ b.counts.saturations = k.saturations ∧ b.counts.flushes = k.flushes

/-- A magnitude code's value on a format's grid extended without an upper exponent limit, in units of 2^e0. -/
def Sys2Proof.gridValue (f : Fmt) (e0 : Int) (c : Nat) : Int :=
  if c / 2 ^ f.mb = 0 then c * 2 ^ (f.qMin - e0).toNat
  else (2 ^ f.mb + c % 2 ^ f.mb : Nat) * 2 ^ (f.qMin + (c / 2 ^ f.mb - 1 : Nat) - e0).toNat

/-- R31, R40: a finite nonzero source whose rounded result is zero gives a zero of its sign and counts one flush; a zero source converts to a
zero of its sign; an element of a zero block decodes as +0, one of a NaN block as NaN, whatever its code, and one of any other block as its
code's value under the block's scale. Beside them, parts of R36 and R37: a finite source takes the nearest point of the target's extended
grid, the one whose last fraction bit is 0 where two are as near; beyond the largest finite magnitude it takes that value and counts one
saturation, never an infinity. -/
def Obligations.ConversionsRoundToTheNearest : Prop :=
  (∀ (f : Fmt) (neg : Bool) (m : Nat) (e : Int),
    let c := roundCode f m e
    (0 < m → (let e0 := min e f.qMin
        let x : Int := m * 2 ^ (e - e0).toNat
        ∀ d : Nat, (gridValue f e0 c - x).natAbs ≤ (gridValue f e0 d - x).natAbs ∧
          (d ≠ c → (gridValue f e0 c - x).natAbs = (gridValue f e0 d - x).natAbs → c % 2 = 0)) ∧
      convert f (.fin neg m e) = { code := withSign f neg (min c f.maxCode), finiteSat := decide (f.maxCode < c),
                                   saturated := decide (f.maxCode < c), flushed := decide (c = 0) }) ∧
    (m = 0 → convert f (.fin neg m e) = { code := withSign f neg 0 })) ∧
  ∀ (s : State) (v : View) (r c : Nat), v.fmt = .flake4 →
    let n := v.place r c
    let block := (s.ramByte (v.expAddr + n / 32)).toNat
    let code := (s.ramByte (v.addr + n / 2)).toNat / (if n % 2 = 0 then 1 else 16) % 16
    (block = 0 → s.elem v r c = .fin false 0 0) ∧ (block = 255 → s.elem v r c = .nan) ∧
      (0 < block → block < 255 → s.elem v r c = (decode .flake4 code).scale ((block : Int) - 127 + v.t))

/-! ## The block -/

/-- A step takes the command at the front of the queue and is that command's effect with the queue's rest; with no command waiting the
block idles (the model's choice, log 2). -/
def Obligations.StepTakesTheFrontCommand : Prop :=
  (∀ (c : Instr) (rest : List Instr) (s : State),
      step { s with pending := c :: rest } = exec c { s with pending := rest }) ∧
    ∀ s : State, s.pending = [] → step s = .next s

/-- No command stops the machine: each answers a next state from every state, whatever its operands (log 1). -/
def Obligations.EveryCommandAnswersANextState : Prop :=
  ∀ (c : Instr) (s : State), ∃ t, exec c s = .next t

/-- No command adds to, drops or reorders the commands that wait. -/
def Obligations.CommandsLeaveTheQueueAlone : Prop :=
  ∀ (c : Instr) (s t : State), exec c s = .next t → t.pending = s.pending

/-- The state after reset: no supply and no rail, no command waiting, event time zero, no fault latched, memory with nothing listed, every
entry of the dictionary at the default of its table. Corners that the spec leaves open follow the model's choice (log 5). -/
def Obligations.ResetIsTheModuleWithoutPower : Prop :=
  State.reset.pwr.on = false ∧ State.reset.pwr.pwrOk = false ∧ State.reset.pwr.inputOn = false ∧ State.reset.pending = [] ∧
    State.reset.clk.evtMgmt = 0 ∧ State.reset.flt.records = [] ∧ State.reset.flt.fatal = 0 ∧ State.reset.mem.ram = [] ∧
    (∀ k, State.reset.ent k = entryDefault k) ∧ ∀ c, State.reset.core c = {}

/-- Reset is a sound state. -/
def Obligations.ResetIsSound : Prop := Sound State.reset

/-- R262: memory stays in its canonical form: every step from a state whose memory is listed in rising order, with no byte listed that
reads as an unlisted one does, leaves it so. That an unlisted byte reads as zero is the model's choice (log 6), of which R262 gives the
zeros of a mapped page. -/
def Obligations.StepKeepsMemoryCanonical : Prop :=
  ∀ s t : State, MemoryCanonical s → step s = .next t → MemoryCanonical t

/-- R339: every step keeps the next sequence number at or below the reservation mark, and never lowers the mark, so that no number is
assigned twice. -/
def Obligations.StepKeepsSequenceNumbersReserved : Prop :=
  ∀ s t : State, SeqReserved s → step s = .next t → SeqReserved t ∧ s.nv.mark ≤ t.nv.mark

/-- R315: every step latches every error line that it asserts. That a line is latched within the command that asserts it is the model's
choice (log 8). -/
def Obligations.StepLatchesEveryLine : Prop :=
  ∀ s t : State, LinesLatched s → step s = .next t → LinesLatched t

/-- R23: the event-time counters of every domain stay together through every step. That a tick is a command of its own, so that no
counter runs ahead of another, is the model's choice (log 2). -/
def Obligations.StepKeepsEventTimeTogether : Prop :=
  ∀ s t : State, EventTimeTogether s → step s = .next t → EventTimeTogether t

/-- R420 and R424: no step restores a blown fuse or changes a counter entry once written. An entry that is still being programmed is
spoiled if power is lost (R438); how long its programming lasts is the model's choice (log 96). -/
def Obligations.StepNeverUnburns : Prop :=
  ∀ s t : State, step s = .next t →
    (∀ i, s.nv.fuses.testBit i = true → t.nv.fuses.testBit i = true) ∧
      ∀ i, s.nv.otp.getD i 0 ≠ 0 → s.sec.otpWriting ≠ some i → t.nv.otp.getD i 0 = s.nv.otp.getD i 0

/-- The commands that raise or remove the supply, its charge or the rails. -/
def Sys2Proof.suppliesPower : Instr → Bool
  | .inputApplied => true
  | .prechargeDone => true
  | .pwrOkRise => true
  | .powerGood => true
  | .pwrOkFall => true
  | .hardwareOvervoltageRemoval => true
  | .inputUndervoltage .below42 => true
  | .inputUndervoltage .withdrawn => true
  | _ => false

/-- R405, R407, R411, R447, R455: only those commands change the supply, its charge, PWR_OK, the sequencing or power good; and of all
commands only POWER_GOOD changes the boot count (R339). -/
def Obligations.OnlySupplyCommandsMoveTheRails : Prop :=
  ∀ (c : Instr) (s t : State), exec c s = .next t →
    (suppliesPower c = false → t.pwr.on = s.pwr.on ∧ t.pwr.sequencing = s.pwr.sequencing ∧ t.pwr.pwrOk = s.pwr.pwrOk ∧
      t.pwr.precharged = s.pwr.precharged ∧ t.pwr.inputOn = s.pwr.inputOn) ∧
    (c ≠ .powerGood → t.nv.boot = s.nv.boot)

/-- The commands that may store into memory: results, copies, host and message writes, deltas, restores, mirrors, and the loss of the
rails, which clears it. -/
def Sys2Proof.mayStore : Instr → Bool
  | .powerGood => true
  | .pwrOkFall => true
  | .hardwareOvervoltageRemoval => true
  | .inputUndervoltage .below42 => true
  | .inputUndervoltage .withdrawn => true
  | .writebackDrain _ _ _ => true
  | .sluicePassComplete _ => true
  | .vectorChunkComplete _ _ => true
  | .forwardAttemptDone _ => true
  | .collectiveDataRx _ => true
  | .unitSchedule _ => true
  | .amaxPassDone _ _ => true
  | .stepBoundary _ => true
  | .updateComplete => true
  | .updateGatherDone _ => true
  | .applyChunkComplete _ => true
  | .mapReqMap => true
  | .migrationDone _ => true
  | .memTransaction _ => true
  | .stockRestoreDone => true
  | .crustSealAckRx _ => true
  | .crustSealRx _ => true
  | .mirrorRx _ => true
  | .reducedStreamRx _ => true
  | .crustResyncDone => true
  | .memberLost _ _ _ _ => true
  | .rebuildComplete _ => true
  | .ixiqueRead _ => true
  | .ixiqueWrite _ => true
  | .ixiqueDescribe _ => true
  | .segmentRead _ => true
  | .segmentWrite _ => true
  | .hostBar4Write _ _ => true
  | .attestReportDone => true
  | _ => false

/-- Every other command leaves every byte of memory as it was. Corners that the spec leaves open follow the model's choice (log 60). -/
def Obligations.OtherCommandsStoreNothing : Prop :=
  ∀ (c : Instr) (s t : State), mayStore c = false → exec c s = .next t → ∀ a, t.ramByte a = s.ramByte a

/-! ## Supply, boot, readiness and event time -/

/-- R447, R405: the input starts the precharge; sequencing begins once the precharge is complete and PWR_OK is high, in either order.
Nothing else changes. -/
def Sys2Proof.SequencingWaitsForChargeAndPwrOk : Prop :=
  ∀ s : State,
    (s.pwr.inputOn = false → exec .inputApplied s = .next { s with pwr.inputOn := true, pwr.precharged := false }) ∧
    (s.pwr.inputOn = true → s.pwr.precharged = false →
      exec .prechargeDone s = .next { s with pwr.precharged := true, pwr.sequencing := s.pwr.pwrOk }) ∧
    (s.pwr.pwrOk = false → s.pwr.on = false →
      exec .pwrOkRise s = .next { s with pwr.pwrOk := true, pwr.sequencing := s.pwr.inputOn && s.pwr.precharged })

/-- R405, R339, R23: at power good the rails are up, event time starts from zero in every domain, the boot count rises by one, and the
records of the new boot are numbered from the reservation mark on. The commands that wait, the levels of PWR_OK and the input, and both
banks of flash stay. -/
def Sys2Proof.PowerGoodStartsFromZero : Prop :=
  ∀ s : State, s.pwr.sequencing = true → s.pwr.on = false →
    ∃ t, exec .powerGood s = .next t ∧ t.pwr.on = true ∧ t.clk.evtMgmt = 0 ∧ EventTimeTogether t ∧
      t.nv.boot = satAdd 16 s.nv.boot 1 ∧ s.nv.mark ≤ t.flt.nextSeq ∧ t.pwr.pwrOk = s.pwr.pwrOk ∧ t.pwr.inputOn = s.pwr.inputOn ∧
      t.nv.bankA = s.nv.bankA ∧ t.nv.bankB = s.nv.bankB ∧ t.pending = s.pending

/-- R407, R411, R430, R455: PWR_OK falling, an input above 57 V or below 42 V, or the module's withdrawal removes every rail: memory,
registers and readiness go; the attestation key of the boot is gone; the boot count and the stockpile's snapshots stay. An overvoltage
removal, rails that fall below 42 V, and a withdrawal write no record and bring none to flash; a withdrawn module has no input and no
PWR_OK. -/
def Sys2Proof.RailsTakeEverythingVolatile : Prop :=
  ∀ s : State, s.pwr.on = true →
    let gone := fun (t : State) => t.pwr.on = false ∧ t.pwr.sequencing = false ∧ t.mem = {} ∧ t.cores = [] ∧ t.dict = {} ∧ t.flt = {} ∧
      t.sec = {} ∧ t.nv = { s.nv with otp := s.otpAfterLoss } ∧ t.stock.snaps = s.stock.snaps ∧ t.pending = s.pending
    (s.pwr.pwrOk = true → ∃ t, exec .pwrOkFall s = .next t ∧ t.pwr.on = false ∧ t.pwr.pwrOk = false ∧ t.mem = {} ∧ t.cores = [] ∧
      t.dict = {} ∧ t.sec = {} ∧ t.nv.boot = s.nv.boot ∧ t.stock.snaps = s.stock.snaps ∧ t.pending = s.pending) ∧
    (∃ t, exec .hardwareOvervoltageRemoval s = .next t ∧ gone t ∧ t.pwr.inputOn = s.pwr.inputOn) ∧
    (∃ t, exec (.inputUndervoltage .below42) s = .next t ∧ gone t ∧ t.pwr.inputOn = s.pwr.inputOn) ∧
    (∃ t, exec (.inputUndervoltage .withdrawn) s = .next t ∧ gone t ∧ t.pwr.inputOn = false ∧ t.pwr.precharged = false ∧
      t.pwr.pwrOk = false)

/-- R411: an input below 48 V holds level 0 and is a POWER fault; below 45 V with PWR_OK high it is a POWER fault at Fatal; above 55 V the
latching of a POWER fault is all that happens. Each fault takes a record. -/
def Sys2Proof.InputVoltageFaultsAreLatched : Prop :=
  ∀ s : State, s.pwr.on = true → LinesLatched s →
    exec (.inputUndervoltage .below48) s =
      .next (({ s with pwr.voltHold := true, pwr.voltOkUs := 0 }.raise (fault 0x12 .module 0)).latchAll) ∧
    (s.pwr.pwrOk = true → ∃ t, exec (.inputUndervoltage .below45) s = .next t ∧ t.flt.fatal = 0x12 ∧ t.flt.alive = .stopped ∧
      t.train.admitStop = true ∧ s.flt.nextSeq < t.flt.nextSeq) ∧
    (exec .inputOvervoltage s = .next ((s.raise (fault 0x12 .module 0)).latchAll) ∧
      ∃ t, exec .inputOvervoltage s = .next t ∧ s.flt.nextSeq < t.flt.nextSeq ∧ LinesLatched t ∧ t.mem.ram = s.mem.ram)

/-- R23: a tick advances the counters of every domain together; with it the programming of a counter entry ends, and what the mirror of a
reserved page holds good is copied back to its primary (the model's choice, log 96, 98). Nothing else changes. R25: once the tick is lost
they stand. -/
def Sys2Proof.TickAdvancesEveryDomain : Prop :=
  ∀ s : State, s.pwr.on = true →
    (s.clk.lost = false → exec .evtTick s = .next { s with
        clk.evtMgmt := s.clk.evtMgmt + 1, clk.evtCtrl0 := s.clk.evtCtrl0 + 1, clk.evtCtrl1 := s.clk.evtCtrl1 + 1,
        clk.evtArith := s.clk.evtArith.map (· + 1), sec.otpWriting := none,
        mem.badMain := s.mem.badMain.filter s.mem.badMirror.contains }) ∧
    (s.clk.lost = true → exec .evtTick s = .next s)

/-- R25: 2 ms without a tick freezes every time field, under a Severe EVT fault that takes a record; event time itself does not move. -/
def Sys2Proof.LostTickFreezesTime : Prop :=
  ∀ s : State, s.pwr.on = true → s.clk.lost = false → LinesLatched s →
    ∃ t, exec .evtTickLost s = .next t ∧ t.clk.lost = true ∧ t.clk.evtMgmt = s.clk.evtMgmt ∧ t.clk.evtArith = s.clk.evtArith ∧
      s.flt.nextSeq < t.flt.nextSeq

/-- R329: the module inverts ALIVE and touches nothing else; once ALIVE has stopped it holds its last level. -/
def Sys2Proof.AliveInvertsUntilItStops : Prop :=
  ∀ s : State, s.pwr.on = true →
    (s.flt.alive ≠ .stopped → exec .aliveToggle s = .next { s with flt.alive := .running, flt.aliveLevel := !s.flt.aliveLevel }) ∧
    (s.flt.alive = .stopped → exec .aliveToggle s = .next s)

/-- R368, R369, R418: a function that comes ready sets its bit of ready.summary, or a core its bit of ready.cores. -/
def Sys2Proof.ReadyFunctionsSetTheirBits : Prop :=
  ∀ s : State, s.pwr.on = true →
    (∀ b : Fin 60, s.bitAllowed b.val = true →
      ∃ t, exec (.functionReady (.bit b)) s = .next t ∧ t.isReady b.val = true) ∧
    (∀ c : CoreId, s.sec.bootState ≠ 3 → s.rep.coreSwap.contains c.val = false →
      ∃ t, exec (.functionReady (.core c)) s = .next t ∧ t.coreReady c.val = true)

/-- R418: a function that is still not ready at its deadline takes a record at Warning before it is handled as a failed unit. -/
def Sys2Proof.LateFunctionsAreRecorded : Prop :=
  ∀ s : State, s.pwr.on = true →
    (∀ b : Fin 60, s.isReady b.val = false → b.val ≠ 6 → b.val ≠ 7 →
      ∃ t, exec (.readinessDeadline (.bit b)) s = .next t ∧ s.flt.nextSeq < t.flt.nextSeq ∧ t.mem.ram = s.mem.ram) ∧
    (∀ c : CoreId, s.coreReady c.val = false →
      ∃ t, exec (.readinessDeadline (.core c)) s = .next t ∧ s.flt.nextSeq < t.flt.nextSeq ∧ t.mem.ram = s.mem.ram)

/-- R339: when the reload completes, records whose CRC holds are back in the order of their numbers, none is held any more, and bit [4] of ready.summary is set. -/
def Sys2Proof.ReloadReleasesHeldRecords : Prop :=
  ∀ s : State, s.flt.reloading = true →
    ∃ t, exec .recorderReloadDone s = .next t ∧ t.flt.reloading = false ∧ t.flt.held = [] ∧ t.isReady 4 = true ∧
      (s.flt.held = [] → t.flt.records = sortRecords (s.nv.mirror.filter fun r => !s.nv.mirrorBad.contains r.seq))

/-- R422, R423: the firmware of a bank whose every component holds its digest starts, and makes the attestation key of this boot. -/
def Sys2Proof.FirmwareOfAGoodBankStarts : Prop :=
  ∀ s : State, s.pwr.on = true → s.sec.fwStarted = false → (s.sec.bootState = 1 ∨ s.sec.bootState = 2) →
    componentsOk (if s.sec.bankBooted = 1 then s.nv.bankB else s.nv.bankA) (fun _ => true) = true →
    exec .firmwareStart s = .next ({ s with sec.fwStarted := true, sec.fwTick := s.now }.createAttestKey.latchAll)

/-- R181: a numerics self-test that passes leaves its state at 2 and nothing failed, and gives back the compute bits unless a Fatal fault
or a loss beyond repair holds them; one that fails leaves it at 3 with its failures counted, clears the compute bits and is recorded. -/
def Sys2Proof.TheSelfTestReportsItsFailures : Prop :=
  ∀ (failures first : Nat) (s : State), s.pwr.on = true → s.ent Ent.nvpState = 1 → LinesLatched s →
    (failures = 0 → ∃ u, exec (.nvpSelftestDone failures first) s = .next u ∧ u.ent Ent.nvpState = 2 ∧ u.ent Ent.nvpFailures = 0 ∧
      u.ent Ent.nvpFirstFailure = 0xFFFFFFFF ∧ u.mem = s.mem ∧ u.cores = s.cores ∧ u.flt.fatal = s.flt.fatal ∧
      (s.dict.computeOnce = true → s.flt.fatal = 0 → s.dict.computeBarred = false → u.isReady 6 = true ∧ u.isReady 7 = true)) ∧
    (failures ≠ 0 → ∃ u, exec (.nvpSelftestDone failures first) s = .next u ∧ u.ent Ent.nvpState = 3 ∧
      u.ent Ent.nvpFailures = min failures 4096 ∧ u.ent Ent.nvpFirstFailure = first % 2 ^ 32 ∧ u.isReady 6 = false ∧ u.isReady 7 = false ∧
      s.flt.nextSeq < u.flt.nextSeq ∧ u.mem.ram = s.mem.ram ∧ u.cores = s.cores)

/-- R405, R407, R411, R430, R455: what the loss of the supply and its faults do. Corners that the spec leaves open follow the model's choice
(log 8, 32). -/
def Obligations.SupplyFaultsAndLossAreTaken : Prop := RailsTakeEverythingVolatile ∧ InputVoltageFaultsAreLatched

/-- R447, R405, R339, R23: sequencing waits for the charge and PWR_OK, and power good starts everything from zero. Corners that the spec
leaves open follow the model's choice (log 32). -/
def Obligations.PowerComesUpInOrder : Prop := SequencingWaitsForChargeAndPwrOk ∧ PowerGoodStartsFromZero

/-- R23, R25: the counters of every domain advance together until the tick is lost. Corners that the spec leaves open follow the model's
choice (log 2, 96, 98). -/
def Obligations.EventTimeRunsTogetherAndStops : Prop := TickAdvancesEveryDomain ∧ LostTickFreezesTime

/-- R368, R369, R418: a function sets its bit when it comes ready, and takes a record when it is late. Corners that the spec leaves open
follow the model's choice (log 34). -/
def Obligations.FunctionsComeReadyOrAreLate : Prop := ReadyFunctionsSetTheirBits ∧ LateFunctionsAreRecorded

/-- R329, R339, R422, R423, R181: ALIVE, the reload, the firmware and the numerics self-test each show that they run or have ended.
Corners that the spec leaves open follow the model's choice (log 58). -/
def Obligations.StartupWorkReportsItsEnd : Prop := AliveInvertsUntilItStops ∧ ReloadReleasesHeldRecords ∧ FirmwareOfAGoodBankStarts ∧ TheSelfTestReportsItsFailures

/-! ## Power, heat and energy -/

/-- R402: in a microsecond every cluster takes the next level toward the one asked of it: up by one at most, down by more than one in eight
equal steps, rounded down; a cluster is clock-stopped only at level 0, and one that was stopped resumes there. -/
def Sys2Proof.LevelsFollowTheirDemands : Prop :=
  (∀ (m : PowerMeas) (s : State), s.pwr.on = true → s.pwr.levels.length = 16 → s.pwr.stopped.length = 16 → LinesLatched s →
    (∀ e ∈ s.cores, e.2.faults = []) →
    let s1 := ((s.meterEntries m).accountTick m.avg10ms).voltTick m.inputMv
    ∃ t, exec (.powerControlTick m) s = .next t ∧ t.pwr.levels.length = 16 ∧
      (∀ k, k < 16 →
        let cur := s.pwr.levels.getD k 15
        t.pwr.levels.getD k 15 = (if s.pwr.stopped.getD k false then 0
          else (nextLevel cur (if s1.stopAsked k then 0 else s1.wanted k) (Kv.find? s.pwr.ramps k)).1) ∧
        t.pwr.levels.getD k 15 ≤ cur + 1 ∧ (t.pwr.stopped.getD k false = true ↔ s1.stopAsked k = true ∧ cur = 0)) ∧
      t.mem = s.mem ∧ t.cores = s.cores ∧ t.flt = s.flt) ∧
  ∀ a b i : Nat, b + 1 < a → i < 8 →
    let level := fun n => a - ((a - b) * n + 7) / 8
    level 8 = b ∧ (nextLevel (level i) b (if i = 0 then none else some (a, b, i))).1 = level (i + 1)

/-- R403: at the end of an excursion the cap loop enforces E, the step-down is counted, and one Notice is written. From then on no cluster is
asked for more than the cap loop's level: the levels themselves follow at the next POWER_CONTROL_TICK. -/
def Sys2Proof.PeakStepdownEnforcesTheCap : Prop :=
  ∀ s : State, s.pwr.on = true → s.pwr.capHeld = false → (s.pwr.account = 0 ∨ 2000000 ≤ s.pwr.excursionUs) →
    ∃ t, exec .peakStepdown s = .next t ∧ t.pwr = { s.pwr with capHeld := true, excursionUs := 0 } ∧ t.capActive = true ∧
      (∀ k, t.wanted k ≤ t.capDemand k) ∧ t.ent Ent.powerStepdowns = satAdd 32 (s.ent Ent.powerStepdowns) 1 ∧
      t.flt.nextSeq = s.flt.nextSeq + 1 ∧ t.mem = s.mem ∧ t.cores = s.cores

/-- R404: a 10 µs sample above 1,700 W lowers every cluster by two levels at once, and no cluster is asked for more until the next sample
(the model's choice, log 97); 4 ms above 1,620 W in 100 ms hold level 0 until a millisecond of quiet samples; a sample above 1,800 W with
every active cluster at level 0 keeps half of them clock-stopped. -/
def Sys2Proof.TransientGuardActsAtItsThresholds : Prop :=
  ∀ (mw : Nat) (s : State), s.pwr.on = true →
    let hot := (decide (1620000 < mw) :: s.pwr.hot).take 10000
    ∃ t, exec (.transientSample mw) s = .next t ∧
      t.pwr.levels = (if 1700000 < mw then s.pwr.levels.map (· - 2) else s.pwr.levels) ∧
      t.pwr.guardAsk = (if 1700000 < mw then t.pwr.levels else []) ∧
      t.pwr.guardQuiet = (if 1620000 < mw then 0 else s.pwr.guardQuiet + 1) ∧
      (t.pwr.guardHold = true ↔ (s.pwr.guardHold = true ∨ 400 ≤ (hot.filter id).length) ∧ t.pwr.guardQuiet < 100) ∧
      (1800000 < mw → (∀ k ∈ s.active, s.pwr.levels.getD k 15 = 0) →
        t.pwr.guardStop = s.active.drop (s.active.length - s.active.length / 2)) ∧
      t.pwr.account = s.pwr.account ∧ t.mem = s.mem ∧ t.cores = s.cores ∧ t.flt = s.flt ∧ t.nv = s.nv

/-- A flag after a sample: set from its threshold on, released 3 °C below it; clear where there is no threshold. -/
def Sys2Proof.FlagFollows (threshold : Option Int) (was now : Bool) (x : Int) : Prop :=
  (∀ v, threshold = some v → (now = true ↔ v ≤ x ∨ was = true ∧ v - 3000 < x)) ∧ (threshold = none → now = false)

/-- R409, R410: every sample sets its sensor's three flags by their thresholds and their 3 °C of hysteresis. One that crosses its Warning or
its Severe threshold is a POWER fault, which takes a record; any other raises nothing. While a cluster's flag is Severe its die's clusters
stand clock-stopped, while a regulator's is those that it feeds; while a stack's is its die's clusters are held at level 0, while the
inlet's is every cluster. -/
def Sys2Proof.ThermalSamplesFollowTheirThresholds : Prop :=
  ∀ (x : Sensor) (c : Int) (s : State), s.pwr.on = true → LinesLatched s →
    let th := s.thresholds x
    let was := s.sensor (sensorKey x)
    ∃ u now, exec (.thermalSample x c) s = .next u ∧ now = u.sensor (sensorKey x) ∧ now.milliC = c ∧
      FlagFollows th.1 was.throttle now.throttle c ∧ FlagFollows th.2.1 was.warning now.warning c ∧
      FlagFollows th.2.2 was.severe now.severe c ∧
      ((now.warning = true ∧ was.warning = false) ∨ (now.severe = true ∧ was.severe = false) → s.flt.nextSeq < u.flt.nextSeq) ∧
      ((now.warning = true → was.warning = true) → (now.severe = true → was.severe = true) → u.flt = s.flt ∧ u.cores = s.cores) ∧
      (now.severe = true → (∀ p, x = .cluster p → u.pwr.dieStop.getD (p.val / 9) false = true) ∧
        (∀ st, x = .stack st → u.pwr.dieLevel0.getD (st.val / 6) false = true) ∧
        (∀ r k, x = .regulator r → k < 16 → Config.regulatorFeeds r k = true → u.regulatorStops k = true) ∧
        (x = .inlet → u.pwr.inletHold = true)) ∧
      LinesLatched u ∧ u.mem.ram = s.mem.ram

/-- R409: a trip removes the rails of what it protects: a die's cores hold nothing and its processor is not ready; a stack's data cannot be
read and its readiness bit clears; the clusters that a regulator feeds hold nothing and are not ready. It is a POWER fault at Fatal: ALIVE
stops, and nothing more is admitted. -/
def Sys2Proof.ThermalTripIsFatal : Prop :=
  ∀ s : State, s.pwr.on = true → LinesLatched s →
    let stopped := fun (t : State) => t.flt.fatal = 0x12 ∧ t.flt.alive = .stopped ∧ t.train.admitStop = true ∧
      s.flt.nextSeq < t.flt.nextSeq ∧ t.mem.ram = s.mem.ram
    (∀ p, ∃ t, exec (.thermalTrip (.cluster p)) s = .next t ∧ stopped t ∧ t.isReady (56 + p.val / 9) = false ∧
      ∀ c, c < 64 → t.core (64 * (p.val / 9) + c) = {}) ∧
    (∀ st, ∃ t, exec (.thermalTrip (.stack st)) s = .next t ∧ stopped t ∧ t.pwr.stackOff = listAdd s.pwr.stackOff st.val ∧
      t.isReady (8 + st.val) = false ∧ (t.stack st).remap = 4 ∧ ∀ p ∈ s.pagesOn 0 st, t.mem.lostPages.contains p = true) ∧
    (∀ r, ∃ t, exec (.thermalTrip (.regulator r)) s = .next t ∧ stopped t ∧ t.pwr.regOff = listAdd s.pwr.regOff r.val ∧
      ∀ k, k < 16 → Config.regulatorFeeds r.val k = true → t.isReady (40 + k) = false ∧ ∀ i, i < 8 → t.core (8 * k + i) = {})

/-- R413: the energy of a microsecond is booked once: what the window and the supply total gain is what the layers and the unlayered
energy gain together. It is the input meter's energy, or that of the rails while the meters disagree (R411). -/
def Sys2Proof.EnergyIsBookedToLayersOnce : Prop :=
  ∀ (b : Booking) (s : State), s.pwr.on = true → s.pwr.meterUs + 1 < 1000000 → Kv.wf 0 s.pwr.layerUj = true →
    let total := if s.pwr.meterBad then bookedRails b else b.inputUj
    ∃ t, exec (.energyBook b) s = .next t ∧ t.pwr.inputUj = s.pwr.inputUj + total ∧
      t.pwr.windowUj = s.pwr.windowUj + total ∧
      t.pwr.unlayeredUj + sumNat (t.pwr.layerUj.map (·.2)) = s.pwr.unlayeredUj + sumNat (s.pwr.layerUj.map (·.2)) + total ∧
      t.pwr.meterBad = s.pwr.meterBad ∧ t.mem = s.mem ∧ t.flt = s.flt ∧ t.dict = s.dict

/-- R411: at the end of a second the input meter and the rail meters are compared; where they differ by more than a tenth, and did not
before, a POWER fault takes a record. -/
def Sys2Proof.TheMetersAreComparedEachSecond : Prop :=
  ∀ (b : Booking) (s : State), s.pwr.on = true → 1000000 ≤ s.pwr.meterUs + 1 → LinesLatched s →
    let bad := metersDiffer (s.pwr.meterInput + b.inputUj) (s.pwr.meterRails + bookedRails b)
    ∃ t, exec (.energyBook b) s = .next t ∧ t.pwr.meterBad = bad ∧ t.pwr.meterUs = 0 ∧ t.mem.ram = s.mem.ram ∧
      (bad = true → s.pwr.meterBad = false → s.flt.nextSeq < t.flt.nextSeq) ∧ (bad = false ∨ s.pwr.meterBad = true → t.flt = s.flt)

/-- R413, R411: the energy of a microsecond is booked once, and the meters are compared each second. Corners that the spec leaves open
follow the model's choice (log 33, 93). -/
def Obligations.EnergyIsBookedOnce : Prop := EnergyIsBookedToLayersOnce ∧ TheMetersAreComparedEachSecond

/-- R400: between steps, once the inlet has stayed cool for 10 s, a deferred Spring applies; until then, and while a step runs, nothing
changes. -/
def Sys2Proof.DeferredSpringAppliesAtTheBoundary : Prop :=
  ∀ s : State, s.pwr.on = true →
    (s.phase = 0 → s.pwr.springWaits = true → 100 ≤ s.pwr.springCool → s.inletMilliC ≤ 30000 →
      ∃ t, exec .springDeferredApply s = .next t ∧ t.ent Ent.powerModeInForce = 2 ∧ t.pwr.springWaits = false ∧ t.mem = s.mem ∧
        t.cores = s.cores ∧ t.flt = s.flt) ∧
    (s.phase ≠ 0 ∨ s.pwr.springWaits = false ∨ s.pwr.springCool < 100 → exec .springDeferredApply s = .next s)

/-- R79, R81: a clock-stop request freezes the core with all its state in place, and its release resumes it exactly there; a core that a
fault has struck meanwhile then discards what the fault has spoiled. -/
def Obligations.ClockStopKeepsTheCoreInPlace : Prop :=
  ∀ (c : CoreId) (s : State), s.pwr.on = true → (s.core c.val).frozen = false → Kv.wf {} s.cores = true → LinesLatched s →
    ∃ t, exec (.clockStopRequest c) s = .next t ∧ t.core c.val = { s.core c.val with frozen := true } ∧ t.coreLive c = false ∧
      (∀ d, d ≠ c.val → t.core d = s.core d) ∧ t.mem = s.mem ∧ t.flt = s.flt ∧
      ((s.core c.val).faults = [] → exec (.clockStopRelease c) t = .next s) ∧
      ((s.core c.val).faults ≠ [] → exec (.clockStopRelease c) t = .next ((s.thaw c.val).latchAll))

/-! ## Clock crossings -/

/-- Rows that the running pass of a row queue's pan still awaits. -/
def Sys2Proof.rowsAwaited (s : State) : QueueId → Nat
  | .panRows c p => (s.pan c p).rowsDue
  | _ => 0

/-- What enters this queue comes from outside the module's own units, as the command brings it. -/
def Sys2Proof.fromOutside : QueueId → Bool
  | .panShifts _ _ => false
  | q => !moduleSends q

/-- Reading this queue's oldest entry has no effect but the release. -/
def Sys2Proof.readsOnly : QueueId → Bool
  | .panShifts _ _ => false
  | .panWriteback _ _ => false
  | _ => true

/-- R278, R22: a queue delivers its entries once and in the order written. An entry with good parity is visible after those before it:
the oldest that a unit of the module has written, or one from outside. A running pass that still awaits rows takes one as it comes (R283).
A release takes the oldest visible entry once the receiver can read it. Every other queue stays. -/
def Sys2Proof.QueuesDeliverInOrder : Prop :=
  ∀ (q : QueueId) (p : Nat) (s : State), s.pwr.on = true →
    let x := s.queue q
    let alone := fun (t : State) => (∀ k, queueKey k ≠ queueKey q → t.queue k = s.queue k) ∧ t.mem = s.mem ∧ t.flt = s.flt
    (fromOutside q = true → x.held < queueDepth q → ∃ t, exec (.queueEntryArrive q p true) s = .next t ∧
      t.queue q = { x with visible := x.visible ++ [p % 2 ^ q.width],
                           taken := if 0 < rowsAwaited s q then min (x.visible.length + 1) (x.taken + 1) else x.taken } ∧
      rowsAwaited t q = rowsAwaited s q - 1 ∧ alone t) ∧
    (moduleSends q = true → ∀ e l, x.sending = e :: l → ∃ t, exec (.queueEntryArrive q p true) s = .next t ∧
      t.queue q = { x with sending := l, visible := x.visible ++ [e] } ∧ alone t) ∧
    (moduleSends q = true → x.sending = [] → ∀ ok, exec (.queueEntryArrive q p ok) s = .next s) ∧
    (readsOnly q = true → x.visible ≠ [] → LinesLatched s →
      (x.taken ≠ 0 ∨ (queueReader q).any s.coreStopped = false ∧ s.canRead q = true) →
      exec (.queueSlotRelease q) s = .next (s.setQueue q { x with visible := x.visible.drop 1, taken := x.taken - 1 })) ∧
    (x.visible = [] → exec (.queueSlotRelease q) s = .next s)

/-- R278, R25, R79: an entry from outside that finds the queue full only stalls its sender, which counts as a wait of the requester behind
it, for a queue behind which a die's memory arbiter lies that of the request held back; a receiver in a stopped core releases nothing that
it has not read. Which request is held back is the model's choice (log 37). -/
def Sys2Proof.FullQueuesStallTheirSenders : Prop :=
  ∀ (q : QueueId) (p : Nat) (ok : Bool) (s : State), s.pwr.on = true →
    (moduleSends q = false → queueDepth q ≤ (s.queue q).held → ∃ t, exec (.queueEntryArrive q p ok) s = .next t ∧
      t.queue q = { s.queue q with stalls := (s.queue q).stalls + 1 } ∧
      (∀ l i k, queueRequester q = some (l, i, k) → (t.arbCnt l i k).wait = satAdd 64 (s.arbCnt l i k).wait 1) ∧
      (queueRequester q = none → ∀ x, s.heldBack q = some x → (t.arbCnt 3 x.req.die.val (whoRank x.req.who)).wait =
        satAdd 64 (s.arbCnt 3 x.req.die.val (whoRank x.req.who)).wait 1) ∧
      (queueRequester q = none → s.heldBack q = none → t.arb = s.arb) ∧
      (∀ k, queueKey k ≠ queueKey q → t.queue k = s.queue k) ∧ t.mem = s.mem ∧ t.flt = s.flt) ∧
    ((s.queue q).taken = 0 → ∀ c, queueReader q = some c → s.coreStopped c = true → exec (.queueSlotRelease q) s = .next s)

/-- R282, R80, R318: an entry whose parity fails is not delivered: no queue changes but by what latching the fault does, so that a unit of
the module still has it to send. The fault of the receiving unit takes a record, and the oldest memory transaction that the queue carries
has ended with an error response (that it is the oldest is the model's choice, log 82). -/
def Sys2Proof.BadParityIsNotDelivered : Prop :=
  ∀ (q : QueueId) (p : Nat) (s : State), s.pwr.on = true →
    (fromOutside q = true ∧ (s.queue q).held < queueDepth q ∨ moduleSends q = true ∧ (s.queue q).sending ≠ [] ∨
      (s.queue q).held < queueDepth q ∧ ∃ c i tile n, q = .panShifts c i ∧ s.nextShifts c i = some (tile, .ok n)) →
    ∃ u t : State, exec (.queueEntryArrive q p false) s = .next t ∧ t = u.latchAll ∧ u.clk = s.clk ∧ u.cores = s.cores ∧
      u.flt.lines = s.flt.lines ++ [{ fault 0x03 (queueReceiver q).1 (queueReceiver q).2.1 with source := (queueReceiver q).2.2, detail := queueDetail q }] ∧
      (∀ x, s.mem.outstanding.find? (carries q) = some x → u.mem.outstanding = s.mem.outstanding.erase x) ∧
      s.flt.nextSeq < t.flt.nextSeq ∧ LinesLatched t ∧ t.mem.ram = s.mem.ram

/-- R21, R281, R443: a level that the sending side makes appears once on the receiving side; a bit that reports events counts each change of
level, and its sender has one less to send; a sticky line has to be cleared again. A level that has not changed, or that the sending side
does not make, does nothing. Without power only the level at ADDR_IN moves, which the tray drives. Corners that the spec leaves open follow
the model's choice (log 37). -/
def Obligations.SynchronisedBitsCountChanges : Prop :=
  (∀ (b : SyncBit) (s : State), s.pwr.on = true →
    let x := Kv.getD s.clk.syncs (syncKey b) {}
    let l := s.syncLevel b
    (exec (.syncLevelChange b l) s = .next s) ∧
    (s.syncSends b (!l) = false → exec (.syncLevelChange b (!l)) s = .next s) ∧
    (s.syncSends b (!l) = true → ∃ t, exec (.syncLevelChange b (!l)) s = .next t ∧ t.syncLevel b = !l ∧
      Kv.getD t.clk.syncs (syncKey b) {} = (if syncReports b then { level := !l, events := x.events + 1, pending := x.pending - 1 }
        else { x with level := !l, cleared := false }) ∧
      (∀ k, k ≠ syncKey b → Kv.getD t.clk.syncs k {} = Kv.getD s.clk.syncs k {}) ∧ t.mem = s.mem ∧ t.cores = s.cores ∧ t.dict = s.dict)) ∧
  ∀ (l : Bool) (s : State), s.pwr.on = false → exec (.syncLevelChange .addrIn l) s = .next { s with comm.addrIn := l } ∧
    ∀ b, b ≠ .addrIn → exec (.syncLevelChange b l) s = .next s

/-- R402 to R404: levels, the peak step-down and the transient guard. Corners that the spec leaves open follow the model's choice (log
30). -/
def Obligations.PowerControlHoldsTheCap : Prop := LevelsFollowTheirDemands ∧ PeakStepdownEnforcesTheCap ∧ TransientGuardActsAtItsThresholds

/-- R400, R409, R410: samples, trips and deferred Spring. Corners that the spec leaves open follow the model's choice (log 31). -/
def Obligations.HeatIsMeasuredAndGuarded : Prop := ThermalSamplesFollowTheirThresholds ∧ ThermalTripIsFatal ∧ DeferredSpringAppliesAtTheBoundary

/-- R278, R282: queues deliver in order, a full one stalls its sender, and a bad entry is never delivered. Corners that the spec leaves
open follow the model's choice (log 37, 82). -/
def Obligations.QueuesDeliverGoodEntriesInOrder : Prop := QueuesDeliverInOrder ∧ FullQueuesStallTheirSenders ∧ BadParityIsNotDelivered

/-! ## Pans, sluice paths and vector units -/

/-- Every pan but one stands as it stood. -/
def Sys2Proof.OtherPansStand (c p : Nat) (s t : State) : Prop := ∀ d q, (d, q) ≠ (c, p) → t.pan d q = s.pan d q

/-- R75 to R78, R88, R89: a unit of a native-mode core ramps up from rest once work is ready, and back down to rest when none is; in
Polwin mode it stops after its idle cycles, those that its waits have counted among them. A pan counts the dummy cycles of its ramps, and in
Polwin mode, with no tile, one for each row for which it idles. A pass that has become ready reverses a downward ramp, from a step that is a
free value. A pan whose pass still awaits rows keeps running. Memory, the other pans and everything latched stay.
Corners that the spec leaves open follow the model's choice (log 28, 83). -/
def Obligations.RampsMoveBetweenRestAndRunning : Prop :=
  ∀ (c : CoreId) (p : PanId) (s : State), s.coreLive c = true →
    let x := s.pan c p
    let k := Ent.panDummyCycles c p
    let moved := fun (t : State) (y : PanSt) (n : Nat) =>
      t.pan c p = y ∧ t.ent k = satAdd 64 (s.ent k) n ∧ OtherPansStand c p s t ∧ t.mem = s.mem ∧ t.flt = s.flt
    (s.native = true → x.motion = .rest → s.passReady c p = true →
      ∃ t, exec (.tideRampStart (.pan c p)) s = .next t ∧ moved t { x with motion := .filling, flipCycles := 40 } (s.ent Ent.panTideCycles)) ∧
    (s.native = true → x.rowsDue ≠ 0 → exec (.tideRampStop (.pan c p)) s = .next s) ∧
    (s.native = true → x.motion ≠ .rest → x.rowsDue = 0 → s.passReady c p = false →
      ∃ t, exec (.tideRampStop (.pan c p)) s = .next t ∧ moved t { x with motion := .rest } (s.stopCycles x)) ∧
    (s.native = true → x.motion ≠ .rest → s.passReady c p = true → 0 < s.ent Ent.panTideCycles →
      ∃ t n, n < s.stopCycles x + s.ent Ent.panTideCycles ∧ exec (.tideRampStop (.pan c p)) s = .next t ∧
        moved t { x with motion := .filling, flipCycles := 40 } n) ∧
    (s.native = false → x.motion ≠ .rest → s.passReady c p = false →
      ∃ t, exec (.polwinIdleStop (.pan c p)) s = .next t ∧ moved t { x with motion := .rest, idle := 0 } (s.ent Ent.panPolwinFill - x.idle)) ∧
    (s.native = false → x.motion ≠ .rest → x.tile = none → x.testing = false → ∀ slip, ∃ t, exec (.passStart c p slip) s = .next t ∧
      moved t { x with flipCycles := x.flipCycles + 1, idle := x.idle + 1 } 1) ∧
    (s.native = true → (s.core c).sluice = .rest → s.sluiceReady c = true →
      exec (.tideRampStart (.sluice c)) s = .next (s.setCore c { s.core c with sluice := .running })) ∧
    (s.native = true → (s.core c).sluice = .running → s.sluiceReady c = false →
      exec (.tideRampStop (.sluice c)) s = .next (s.setCore c { s.core c with sluice := .rest })) ∧
    (s.native = false → (s.core c).sluice = .running → s.sluiceReady c = false →
      exec (.polwinIdleStop (.sluice c)) s = .next (s.setCore c { s.core c with sluice := .rest }))

/-- R70, R61, R50: each load entry of the next pass leaves the stationary queue, and its elements go from the tile buffer into the bank
that is not selected; with the stationary tile whole, the load stalls and a cycle is counted. With no pass to come, the bank takes up to 40
entries ahead, whose elements come with the buffer of the next tile. The tile and the selected bank stay. -/
def Sys2Proof.LoadsFillTheIdleBank : Prop :=
  ∀ (c : CoreId) (p : PanId) (s : State), s.coreLive c = true → (s.pan c p).testing = false →
    s.queueReady (stationaryQueue c p) = true →
    let x := s.pan c p
    let stalls := exec (.stationaryLoadAdmit c p) s = .next (s.bump 64 (Ent.panLoadStallCycles c p) 1)
    let taken := fun (u : State) => (u.queueAt (stationaryQueue c p)).taken = (s.queueAt (stationaryQueue c p)).taken + 1 ∧
      OtherPansStand c p s u ∧ u.mem = s.mem ∧ u.flt = s.flt ∧ u.dict = s.dict
    (s.tileToCome c p = none → (40 ≤ x.preload → stalls) ∧
      (x.preload < 40 → ∃ u, exec (.stationaryLoadAdmit c p) s = .next u ∧ u.pan c p = { x with preload := x.preload + 1 } ∧ taken u)) ∧
    ∀ t r, s.tileToCome c p = some (t, r) →
      (loadEntries r.d.rung ≤ (x.loadingBank t).admitted → stalls) ∧
      ((x.loadingBank t).admitted < loadEntries r.d.rung → ∀ buf, (s.core c).statFor r t = some buf →
        ∃ u, exec (.stationaryLoadAdmit c p) s = .next u ∧ (u.pan c p).idleBank = some ((x.loadingBank t).load buf r.d.rung p) ∧
          ((x.loadingBank t).load buf r.d.rung p).admitted = (x.loadingBank t).admitted + 1 ∧ (u.pan c p).bankSel = x.bankSel ∧
          (if x.bankSel then (u.pan c p).bankB = x.bankB else (u.pan c p).bankA = x.bankA) ∧ (u.pan c p).tile = some t ∧ taken u)

/-- R105, R107, R278: the control processor sends a pan ten shifts an entry, shift i at bits [6i + 5:6i], the tile's output shifts first,
until the pass to come has all; an entry of their table that fails its complement twice ends the block instead, and is recorded. The pan
reads an entry into the registers that it is for, whose slot is released. That the entries arrive by QUEUE_ENTRY_ARRIVE, whatever payload
it names, is the model's choice (log 112). -/
def Sys2Proof.ShiftsReachThePan : Prop :=
  (∀ l : List ShiftReg, l.length = 10 → (∀ y ∈ l, y.value < 64 ∧ y.value + y.compl = 63) → unpackShifts (packShifts l) = l) ∧
  ∀ (c : CoreId) (p : PanId) (s : State) (t : TileRun) (r : DescRun), s.coreLive c = true → s.tileToCome c p = some (t, r) →
    LinesLatched s →
    let x := s.pan c p
    let q := s.queue (.panShifts c p)
    let n := x.shiftEntries + (q.visible.length - q.taken)
    let next := shiftSlot r.d.rung t.done n
    let here := shiftSlot r.d.rung t.done x.shiftEntries
    (q.held < 4 → ∀ payload ok,
      (shiftEntriesOf r.d.rung t.done ≤ n → exec (.queueEntryArrive (.panShifts c p) payload ok) s = .next s) ∧
      (n < shiftEntriesOf r.d.rung t.done → s.tileShiftTrouble r t next.1 next.2 10 = none →
        ∃ u, exec (.queueEntryArrive (.panShifts c p) payload true) s = .next u ∧
          u.queue (.panShifts c p) = { q with visible := q.visible ++ [packShifts ((s.tileRegs r t next.1).drop next.2)] } ∧
          u.cores = s.cores ∧ u.mem = s.mem ∧ u.flt = s.flt) ∧
      (n < shiftEntriesOf r.d.rung t.done → ∀ y, s.tileShiftTrouble r t next.1 next.2 10 = some y →
        ∃ u, exec (.queueEntryArrive (.panShifts c p) payload ok) s = .next u ∧ (u.pan c p).tile = none ∧
          s.flt.nextSeq < u.flt.nextSeq ∧ LinesLatched u ∧ u.mem.ram = s.mem.ram)) ∧
    (x.shiftEntries < shiftEntriesOf r.d.rung t.done → q.taken = 0 → ∀ payload rest, q.visible = payload :: rest →
      ∃ u, exec (.queueSlotRelease (.panShifts c p)) s = .next u ∧ (u.queue (.panShifts c p)).visible = rest ∧
        u.pan c p = (if here.1 then { x with shiftEntries := x.shiftEntries + 1,
                                             outRegs := (x.outRegs.take here.2 ++ unpackShifts payload).take (panN r.d.rung) }
          else { x with shiftEntries := x.shiftEntries + 1,
                        inRegs := (x.inRegs.take here.2 ++ unpackShifts payload).take (panK r.d.rung) }) ∧
        OtherPansStand c p s u ∧ u.mem = s.mem ∧ u.flt = s.flt)

/-- R69, R71, R64 to R67: a pass flips the bank select, so that the stationary tile just admitted is the one it reads, and adds the
products of the buffered rows and that bank into the tile's accumulators. A pan in Polwin mode starts from rest. Rows that the queue does
not hold yet are awaited, and till they are in no other pass starts (R283). No byte is stored and no other pan moves. After a slipped stream
tag at Flake's edge the tile's accumulators hold no product, to run again; with a shift register that fails its complement the tile stands
as it stood, unless its table fails too, and is gone; each takes a record. While the pass cannot start, a pan that moves counts a bubble row
(R91). -/
def Sys2Proof.PassesFlipTheBank : Prop :=
  ∀ (c : CoreId) (p : PanId) (s : State) (t : TileRun) (r : DescRun), s.coreLive c = true → (s.pan c p).tile = some t →
    s.desc? t.pos = some r → (s.pan c p).testing = false → t.done < t.passes →
    let x := s.pan c p
    (∀ rows, (s.core c).rowsFor r t = some rows → s.passReady c p = true → x.halfFree t = true → (x.motion ≠ .rest ∨ s.native = false) →
      let t1 := r.passTile p x.inRegs rows (x.idleBank.getD {}) t
      (x.badReg = none → ∃ u, exec (.passStart c p none) s = .next u ∧
        (u.pan c p).bankSel = !x.bankSel ∧ (u.pan c p).bankA = x.bankA ∧ (u.pan c p).bankB = x.bankB ∧
        (u.pan c p).tile = some t1 ∧ t1.done = t.done + 1 ∧ (u.pan c p).motion = .running ∧ (u.pan c p).shiftEntries = 0 ∧
        (u.pan c p).rowsDue = t.rows - s.rowsThere c p ∧ OtherPansStand c p s u ∧ u.mem = s.mem ∧ u.flt = s.flt) ∧
      (∀ y, r.d.rung = 0 → slipped y = true → LinesLatched s → ∃ u, exec (.passStart c p (some y)) s = .next u ∧
        (∀ z, (u.pan c p).tile = some z → z.done = 0 ∧ z.acc = []) ∧ s.flt.nextSeq < u.flt.nextSeq ∧ LinesLatched u ∧
        u.mem.ram = s.mem.ram) ∧
      (∀ i, x.badReg = some i → LinesLatched s → ∃ u, exec (.passStart c p none) s = .next u ∧
        (∀ z, (u.pan c p).tile = some z → z = t) ∧ s.flt.nextSeq < u.flt.nextSeq ∧ LinesLatched u ∧ u.mem.ram = s.mem.ram)) ∧
    (0 < x.rowsDue → ∀ slip, exec (.passStart c p slip) s = .next s) ∧
    (x.motion ≠ .rest → x.rowsDue = 0 → (s.passReady c p = false ∨ x.halfFree t = false) → ∀ slip,
      ∃ u, exec (.passStart c p slip) s = .next u ∧
        u.ent (Ent.panBubbleCycles c p) = satAdd 64 (s.ent (Ent.panBubbleCycles c p)) 1 ∧ (u.pan c p).tile = some t ∧
        (u.pan c p).bankSel = x.bankSel ∧ OtherPansStand c p s u ∧ u.mem = s.mem ∧ u.flt = s.flt)

/-- R72, R73, R205, R281: a tile whose last pass has been added leaves its pan with both banks free, and its tile-done event waits to
cross. Where its K ranges end, its results wait in the half it ran in, to drain from the first row; an amax pass keeps none. A row or column
that waited for the tile's end is retired (R56). No byte is stored and no other pan moves. -/
def Sys2Proof.CompletedTilesLeaveTheirPan : Prop :=
  ∀ (c : CoreId) (p : PanId) (s : State) (t : TileRun) (r : DescRun), s.coreLive c = true → (s.pan c p).tile = some t →
    s.desc? t.pos = some r → (s.pan c p).testing = false → t.passes ≤ t.done → (s.pan c p).rowsDue = 0 → (s.pan c p).halfFree t = true →
    s.salRoom c = true → LinesLatched s →
    ((s.pan c p).remapNext = [] ∨ ∃ w y, (s.pan c p).remapNext = [w] ∧ (s.pan c p).retire w.1 w.2 = some y) →
    ∃ u, exec (.tileComplete c p) s = .next u ∧ (u.pan c p).remapNext = [] ∧
      (∀ w y, (s.pan c p).remapNext = [w] → (s.pan c p).retire w.1 w.2 = some y →
        (u.pan c p).rowA = y.rowA ∧ (u.pan c p).rowB = y.rowB ∧ (u.pan c p).col = y.col) ∧ (u.pan c p).tile = none ∧ (u.pan c p).bankA = none ∧ (u.pan c p).bankB = none ∧
      OtherPansStand c p s u ∧ u.mem.ram = s.mem.ram ∧
      (Kv.getD u.clk.syncs (tileDoneKey c p) {}).pending = min 15 ((Kv.getD s.clk.syncs (tileDoneKey c p) {}).pending + 1) ∧
      (r.amaxPass = false → t.block % r.panCut.t + 1 = r.panCut.t →
        ∃ w, (if t.half then (u.pan c p).halfB else (u.pan c p).halfA) = some w ∧ w.pos = t.pos ∧ w.m0 = t.m0 ∧ w.n0 = t.n0 ∧
          w.rows = t.rows ∧ w.cols = t.cols ∧ w.drained = 0 ∧ w.waiting = 0 ∧ (r.panCut.t = 1 → w.vals = t.results) ∧
          w.shifts = (s.pan c p).outRegs.map ShiftReg.shift) ∧
      (r.amaxPass = true ∨ t.block % r.panCut.t + 1 ≠ r.panCut.t → (u.pan c p).halfA = (s.pan c p).halfA ∧ (u.pan c p).halfB = (s.pan c p).halfB)

/-- The byte at an address after a unit's writes, in their order: that of the last write that covers it, of those that its page
accepts. -/
def Sys2Proof.byteAfter (s : State) (ws : List (Nat × List Byte)) (a : Nat) : Byte :=
  ws.foldl (fun b w => if w.1 ≤ a ∧ a < w.1 + w.2.length ∧ s.writeCode false w.1 w.2.length = 0 then w.2.getD (a - w.1) 0 else b) (s.ramByte a)

/-- The writes of one output row as it drains: an element each, or the blocks that end with the row at Flake-4. -/
def Sys2Proof.rowWrites (s : State) (r : DescRun) (w : Writeback) : List (Nat × List Byte) :=
  let v := s.view r.d.c (s.writeT r.d.c r.attempt)
  if v.fmt = .flake4 then (w.drainFlake v {}).1 else (r.drainPlain w v {}).1

/-- The entries in which that row leaves the pan: its bytes, or at Flake-4 its codes with their blocks' exponents (the model's layout, log
103). -/
def Sys2Proof.rowEntriesOf (s : State) (r : DescRun) (w : Writeback) : List Nat :=
  let v := s.view r.d.c (s.writeT r.d.c r.attempt)
  if v.fmt = .flake4 then [w.flakeEntry v] else entriesOf (rowEntries r.d.rung v.fmt) (rowWrites s r w)

/-- R73, R74, R80, R111, R112: the older half drains a row at a time into memory and into the writeback queue; a full queue stalls it.
Every byte outside the row's writes stays, and so does every other pan. The half is free once all its rows are out and the last of its
entries has been acknowledged. -/
def Sys2Proof.ResultsDrainRowByRow : Prop :=
  ∀ (c : CoreId) (p : PanId) (s : State) (w : Writeback) (r : DescRun), s.coreLive c = true → (s.pan c p).draining = some w →
    s.desc? w.pos = some r → LinesLatched s →
    let n := rowEntries r.d.rung (s.fmtOf r.d.c)
    (w.drained < w.rows → s.drainRoom c p r w = true →
      (s.rowRanges r w).any (fun x => s.writeWaits w.sealUnit.isNone x.1 x.2) = false →
      ∃ u y, exec (.writebackDrain c p none) s = .next u ∧ (u.pan c p).draining = some y ∧ y.drained = w.drained + 1 ∧
        y.waiting = w.waiting + n ∧ y.vals = w.vals ∧ y.rows = w.rows ∧
        (u.queueAt (writebackQueue c p)).sending = (s.queueAt (writebackQueue c p)).sending ++ rowEntriesOf s r w ∧
        (u.pan c p).tile = (s.pan c p).tile ∧ OtherPansStand c p s u ∧ ∀ a, u.ramByte a = byteAfter s (rowWrites s r w) a) ∧
    (w.drained < w.rows → s.drainRoom c p r w = false →
      exec (.writebackDrain c p none) s = .next (s.stallSender (writebackQueue c p) 0 (4 * c + p) 0)) ∧
    ((s.queue (.panWriteback c p)).visible ≠ [] → ∃ u, exec (.queueSlotRelease (.panWriteback c p)) s = .next u ∧
      (u.queue (.panWriteback c p)).visible = (s.queue (.panWriteback c p)).visible.drop 1 ∧
      u.pan c p = (if w.waiting - 1 = 0 ∧ w.rows ≤ w.drained then (s.pan c p).endDrain
        else (s.pan c p).setDraining (some { w with waiting := w.waiting - 1 })) ∧ OtherPansStand c p s u ∧ u.mem = s.mem ∧ u.flt = s.flt)

/-- Physical row, or 256 more than the column, that the segment test found, and its column. -/
def Sys2Proof.segPlace : SegFinding → Nat × Nat
  | .grain row k => (row.val, k.val)
  | .columnPath k => (256 + k.val, k.val)

/-- R83, R57, R80: when the segment test ends, the row or column it found is retired while a spare absorbs it, and the pan's tile starts
again from its first pass; where none does, the core is handed to the cluster's spare core. -/
def Sys2Proof.TheSegmentTestRetiresWhatItFound : Prop :=
  ∀ (c : CoreId) (p : PanId) (f : SegFinding) (s : State), s.coreLive c = true → (s.pan c p).testing = true → LinesLatched s →
    s.rep.coreSwap.contains c.val = false → (s.pan c p).remapNext = [] →
    let x := { s.pan c p with testing := false, suspect := none }
    (∀ y, x.retire (segPlace f).1 (segPlace f).2 = some y → ∃ u, exec (.segmentTestDone c p f) s = .next u ∧
      u.pan c p = y.grainReplay ∧ (∀ t, (u.pan c p).tile = some t → t.done = 0 ∧ t.acc = []) ∧ OtherPansStand c p s u ∧
      u.mem.ram = s.mem.ram) ∧
    (x.retire (segPlace f).1 (segPlace f).2 = none → s.rep.spareCore.contains (c.val / 8) = false →
      ∃ u, exec (.segmentTestDone c p f) s = .next u ∧ u.rep.coreSwap.contains c.val = true ∧ u.rep.spareCore.contains (c.val / 8) = true ∧
        (u.core c).pans = [] ∧ (u.core c).units = [] ∧ (u.core c).combines = [] ∧ u.mem.ram = s.mem.ram)

/-- A unit has completed: the core's engine is free of it, and its descriptor holds it as finished. -/
def Sys2Proof.UnitFinished (c engine : Nat) (x : RunUnit) (t : State) : Prop :=
  Kv.find? (t.core c).units engine = none ∧ ∃ d, t.desc? x.pos = some d ∧ d.finished.contains x.number = true

/-- What a pass's columns hold once its K range is added to those before it (R86, R205). -/
def Sys2Proof.passSums (s : State) (c : Nat) (x : RunUnit) (r : DescRun) : KV F32 :=
  let y := r.sluicePass x.number
  let o := (s.laneSums r y x.number (s.vectorsOf r y)).vals
  if r.sluiceCut.j = 1 then o else ((Kv.getD (s.core c).combines x.pos {}).joinPass (decide (y.j = 0)) x.number o).vals

/-- The writes of a pass: none of an amax pass, nor before the last K range. -/
def Sys2Proof.passWrites (s : State) (c : Nat) (x : RunUnit) (r : DescRun) : List (Nat × List Byte) :=
  let y := r.sluicePass x.number
  if r.amaxPass ∨ y.j + 1 ≠ r.sluiceCut.j then [] else (s.sluiceOut r y (passSums s c x r)).1

/-- R84, R86, R87, R200, R205: a sluice pass completes. Its vector buffer holds the pass's vectors and its accumulators their sums. In 16
result entries leave the converted results of a pass that covers the whole K range, else its partials (their codes' places at Flake-4 are
the model's, log 103); the pass that ends its columns' K ranges writes the converted results, and no other byte changes; its unit is
finished. While the queues have no room it stalls. -/
def Sys2Proof.SluicePassesFinishTheirUnits : Prop :=
  ∀ (c : CoreId) (s : State) (x : RunUnit) (r : DescRun), s.coreLive c = true → Kv.find? (s.core c).units 1 = some x →
    s.desc? x.pos = some r → ((s.core c).sluice = .running ∨ s.native = false) →
    let y := r.sluicePass x.number
    let sums := (s.laneSums r y x.number (s.vectorsOf r y)).vals
    (s.passRoom c r = true → s.sluiceTrouble r y = none → LinesLatched s →
      (r.amaxPass = true ∨ ((s.view r.d.c 0).region y.m0 y.rows y.n0 y.cols).any (fun z => s.writeWaits true z.1 z.2) = false) →
      ∃ u, exec (.sluicePassComplete c) s = .next u ∧ UnitFinished c 1 x u ∧ (u.core c).sluice = .running ∧
        (u.core c).vecBuf = s.vectorsOf r y ∧ (u.core c).lanes = sums ∧
        (u.queueAt (sluiceResultQueue c)).sending = (s.queueAt (sluiceResultQueue c)).sending ++ resultEntries (s.passResults r y sums) ∧
        ∀ a, u.ramByte a = byteAfter s (passWrites s c x r) a) ∧
    (s.passRoom c r = false → exec (.sluicePassComplete c) s = .next (s.stallQueue (sluiceResultQueue c)))

/-- The writes of a chunk: none in an amax pass. -/
def Sys2Proof.chunkWrites (s : State) (x : RunUnit) (r : DescRun) : List (Nat × List Byte) :=
  if r.amaxPass then [] else (s.chunkOut r (s.runChunk r x.number)).writes

/-- R163, R200, R229: a chunk of a vector descriptor, or of an update's gather stage, completes: it writes what its code stores, no other
byte changes, and its unit is finished. With no room for its record it stalls. -/
def Sys2Proof.VectorChunksFinishTheirUnits : Prop :=
  ∀ (c : CoreId) (s : State) (x : RunUnit) (r : DescRun), s.coreLive c = true → s.vectorUnit c = some (x, r) →
    (r.isUpdate = false ∨ r.gathered = false) → s.chunkAfter r x.number = true → s.chunkTrouble r x.number = none →
    ((r.amaxPass = true ∨ s.salRoom c = true ∧ s.chunkWaits (s.chunkOut r (s.runChunk r x.number)) = false) → LinesLatched s →
      ∃ u, exec (.vectorChunkComplete c none) s = .next u ∧ UnitFinished c 2 x u ∧
        ∀ a, u.ramByte a = byteAfter s (chunkWrites s x r) a) ∧
    (r.amaxPass = false → s.salRoom c = false → exec (.vectorChunkComplete c none) s = .next (s.stallQueue (salQueue c)))

/-- R50, R61, R64 to R71, R91, R105, R107: the idle bank loads while the other is read, shifts reach the pan, and passes flip the banks.
Corners that the spec leaves open follow the model's choice (log 60, 83, 111, 112). -/
def Obligations.TilesLoadAndPass : Prop := LoadsFillTheIdleBank ∧ ShiftsReachThePan ∧ PassesFlipTheBank

/-- R72, R73, R74, R80, R111, R112, R205: a tile whose passes are done leaves its results to drain by rows. Corners that the spec leaves open follow
the model's choice (log 60, 103). -/
def Obligations.TilesCompleteAndDrain : Prop := CompletedTilesLeaveTheirPan ∧ ResultsDrainRowByRow

/-- R84, R86, R87, R163, R200, R229: sluice passes and vector chunks complete their units. Corners that the spec leaves open follow the model's
choice (log 51, 60, 103). -/
def Obligations.PassesAndChunksFinishTheirUnits : Prop := SluicePassesFinishTheirUnits ∧ VectorChunksFinishTheirUnits

/-! ## Scales, programs and scheduling -/

/-- R118 to R120, R98: an attempt that counted a finite saturation, and may be retried, starts again from no unit with its attempt number
risen, and the recompute is counted; no byte is stored. An attempt that has no saturation left to retry, its reductions included,
completes its descriptor, whose slot is free. It waits while the salinometer queues have no room for its last records (R132). -/
def Sys2Proof.SaturatedAttemptsAreRetried : Prop :=
  ∀ (slot : Nat) (s : State) (r : DescRun), s.pwr.on = true → s.desc? slot = some r → r.d.kind < 3 → r.isUpdate = false →
    r.amaxPass = false → s.producerOver r = true → LinesLatched s →
    (s.endRoom (s.producers r) = false → exec (.forwardAttemptDone slot) s = .next s) ∧
    (s.endRoom (s.producers r) = true → s.producerSat r = true → s.retriable r = true → ∃ u d, exec (.forwardAttemptDone slot) s = .next u ∧ u.desc? slot = some d ∧
      r.attempt < d.attempt ∧ d.issued = [] ∧ d.finished = [] ∧ d.saturated = false ∧
      u.ent Ent.scaleFwdRecomputes = satAdd 64 (s.ent Ent.scaleFwdRecomputes) 1 ∧ u.mem = s.mem ∧ u.flt = s.flt) ∧
    (s.endRoom (s.producers r) = true → (s.producerSat r && s.retriable r) = false →
      (∀ d, (s.endProducers r).desc? slot = some d → ((s.endProducers r).producerSat d && (s.endProducers r).retriable d) = false) →
      ∃ u, exec (.forwardAttemptDone slot) s = .next u ∧ u.desc? slot = none ∧
      u.prog.completed.contains slot = true ∧ LinesLatched u)

/-- R100, R233: at the end of an amax pass every record that its tensors name has its t, and the descriptor runs again from its first
unit, now to write; no byte is stored. A collective whose result waits for the group's magnitude has its t, and goes on. -/
def Sys2Proof.AmaxPassesGiveTheScale : Prop :=
  ∀ (slot : Nat) (others : List (Nat × F32)) (s : State) (r : DescRun), s.pwr.on = true → s.desc? slot = some r → r.amaxPass = true →
    LinesLatched s →
    (r.d.kind ≠ 3 → s.producerOver r = true →
      ∃ u d, exec (.amaxPassDone slot others) s = .next u ∧ u.desc? slot = some d ∧ d.amaxPass = false ∧ d.issued = [] ∧ d.finished = [] ∧
        (∀ e ∈ s.passAmaxes r, u.scale.presentLeft.contains (s.tensor e.1).scaleRecord = false) ∧ u.mem = s.mem ∧ u.flt = s.flt) ∧
    (r.d.kind = 3 → ∃ u, exec (.amaxPassDone slot others) s = .next u ∧ LinesLatched u ∧
      ∀ e ∈ r.amaxes, u.scale.presentLeft.contains (s.tensor e.1).scaleRecord = false)

/-- R185 to R187: a load that fails a check leaves the program, the records and the Rake as they were and names the place that failed; one
that passes replaces them by the image's, with every record and every layer as a fresh run starts. No byte is stored either way. Corners
that the spec leaves open follow the model's choice (log 44). -/
def Obligations.LoadsReplaceTheProgramOnlyWhenTheyPass : Prop :=
  ∀ (s : State) (a : Nat), s.prog.checking = some a →
    let s0 : State := { s with prog.checking := none, prog.verdict := none }
    (∀ v, s.prog.verdict.or (s.loadFails a) = some v → ∃ u, exec .progLoadCheckDone s = .next u ∧
      u = (s0.setEnt Ent.progState 3).setEnt Ent.progErrorOffset v.2 ∧ u.ent Ent.progState = 3 ∧ u.ent Ent.progErrorOffset = v.2 ∧ u.prog = { s.prog with checking := none, verdict := none } ∧ u.scale = s.scale ∧ u.rake = s.rake ∧
      u.mem = s.mem) ∧
    (s.prog.verdict.or (s.loadFails a) = none → ∃ u g, exec .progLoadCheckDone s = .next u ∧ u = s0.acceptProgram a ∧ u.ent Ent.progState = 2 ∧
      u.ent Ent.progErrorOffset = 0xFFFFFFFF ∧ u.prog.loaded = some g ∧ g.base = a ∧ u.prog.checking = none ∧ u.prog.pool = [] ∧
      (∀ i, (u.scaleRec i).count = 0) ∧ u.ent Ent.lossScaleExp = min (s.ent Ent.lossInitialExp) (s.ent Ent.lossMaxExp) ∧
      u.ent Ent.lossCleanSteps = 0 ∧ u.mem.ram = s.mem.ram)

/-- R198, R219: the next descriptor of a die's stream takes a slot while one of the 2,048 is free; with none free the stream waits and the
cycle is counted; after abandon a descriptor that is no collective is passed over. The other die's stream and memory stay. -/
def Sys2Proof.DescriptorsAreAdmittedInStreamOrder : Prop :=
  ∀ (d : DieId) (s : State) (it : Item) (rest : List Item), s.streamOf d = it :: rest → s.admits it = true →
    let passed := s.afterAbandon it && decide ((s.descAt it.index).kind ≠ 3)
    (passed = true → exec (.descAdmit d) s = .next (s.setStream d rest)) ∧
    (passed = false → s.programMigrates = false → s.inFlight d < poolSlots → ∃ u, exec (.descAdmit d) s = .next u ∧
      u.streamOf d = rest ∧ u.prog.pool = s.prog.pool ++ [s.runOf it d] ∧ (∀ x : DieId, x ≠ d → u.streamOf x = s.streamOf x) ∧
      u.mem = s.mem ∧ u.cores = s.cores ∧ u.flt = s.flt) ∧
    (passed = false → s.programMigrates = false → poolSlots ≤ s.inFlight d →
      exec (.descAdmit d) s = .next (s.bump 64 Ent.descFullCycles 1))

/-- R199, R196, R236: a descriptor is ready once every tensor that it reads is; a frozen group's update and an empty descriptor complete
at once, with no unit. No byte is stored. -/
def Sys2Proof.DescriptorsBecomeReady : Prop :=
  ∀ (slot : Nat) (s : State) (r : DescRun), s.pwr.on = true → s.desc? slot = some r → r.ready = false → r.hollow = false →
    LinesLatched s →
    let noop := r.isUpdate = true ∧ s.layerFrozen r.d.layer = true
    (noop → ∃ u, exec (.descReady slot) s = .next u ∧ u.desc? slot = none ∧ u.prog.completed.contains slot = true ∧ u.mem = s.mem) ∧
    (¬noop → s.isEmpty r = true → ∃ u, exec (.descReady slot) s = .next u ∧ u.desc? slot = none ∧
      u.prog.completed.contains slot = true ∧ u.mem = s.mem) ∧
    (¬noop → s.isEmpty r = false → (s.readsOf r.d r.update).all (s.tensorReady r) = true → ∃ u, exec (.descReady slot) s = .next u ∧
      u.desc? slot = some { r with ready := true } ∧ (∀ q, q ≠ slot → u.desc? q = s.desc? q) ∧ u.mem = s.mem ∧ u.cores = s.cores)

/-- R200, R203: an idle engine of a core takes the first unit left of the descriptor that offers it the best, and a core block's tiles
stand at their first pass on the pans that have columns. No byte is stored by a schedule that starts no collective or copy. -/
def Sys2Proof.IdleEnginesTakeTheBestUnit : Prop :=
  ∀ (c : CoreId) (e : Nat) (s : State) (r : DescRun) (n : Nat) (l : List Nat), s.coreTakes c = true → LinesLatched s → e < 3 →
    (∀ d ∈ s.prog.pool, d.d.kind < 3) → s.links.collectives = [] → (∀ p < 4, (s.pan c p).remapNext = []) → (∀ x < e, (Kv.find? (s.core c).units x).isSome = true) →
    Kv.find? (s.core c).units e = none → bestOffer (s.prog.pool.filter (s.offers c e)) = some r → r.unitsLeft c = n :: l →
    (∀ d ∈ s.prog.pool, s.complOk (s.descAddr d.index) 64 = true) →
    ∃ u d, exec (.unitSchedule c) s = .next u ∧ Kv.find? (u.core c).units e = some ⟨r.pos, n⟩ ∧ u.desc? r.pos = some d ∧
      d.issued.contains n = true ∧ u.mem = s.mem ∧ u.flt = s.flt ∧
      (r.d.kind = 0 → ∀ p < 4, (r.panBlock n).n0 + p * panN r.d.rung < r.n →
        ∃ t, (u.pan c p).tile = some t ∧ t.pos = r.pos ∧ t.block = n ∧ t.done = 0 ∧ t.acc = [])

/-- R208, R209: the lowest member that needs a set has it fetched once into its cluster's staging, and it leaves for every receiving
member's tile buffer once all of them have room, which is counted; while a member lags it stays staged, and the cycle is counted. -/
def Sys2Proof.MulticastWaitsForEveryMember : Prop :=
  ∀ (d : DieId) (set : Nat) (s : State) (r : DescRun), s.desc? (mcastSet set).pos = some r → s.pwr.on = true → r.ready = true → r.d.kind = 0 →
    r.d.die = d.val → ∀ c b l, s.mcastReceivers r (mcastSet set) = (c, b) :: l →
    let staged := Kv.find? (s.cluster (c / 8)).staging set
    let buf := staged.getD (s.fetchSet r (mcastSet set) b)
    let room := ((c, b) :: l).all fun m => s.mcastRoom r (mcastSet set) m.1 m.2
    (staged.isSome = true ∨ s.readTrouble (s.fetchRanges r (mcastSet set) b) = none) →
    (room = true → ∃ u, exec (.mcastDelivery d set) s = .next u ∧ u.ent Ent.mcastDeliveries = satAdd 64 (s.ent Ent.mcastDeliveries) 1 ∧
      u.ent Ent.mcastWaitCycles = s.ent Ent.mcastWaitCycles ∧ Kv.find? (u.cluster (c / 8)).staging set = none ∧
      (∀ m ∈ (c, b) :: l, buf ∈ (u.core m.1).bufs (mcastSet set).rows) ∧
      (∀ q, (∀ m ∈ (c, b) :: l, m.1 ≠ q) → u.core q = s.core q) ∧ u.mem = s.mem ∧ u.flt = s.flt) ∧
    (room = false → ∃ u, exec (.mcastDelivery d set) s = .next u ∧
      u.ent Ent.mcastWaitCycles = satAdd 64 (s.ent Ent.mcastWaitCycles) 1 ∧ u.ent Ent.mcastDeliveries = s.ent Ent.mcastDeliveries ∧
      Kv.find? (u.cluster (c / 8)).staging set = some buf ∧ u.mem = s.mem ∧ u.cores = s.cores ∧ u.flt = s.flt)

/-! ## The end of a step -/

/-- No scale record and no staged amax fails its complement. -/
def Sys2Proof.RecordsIntact (s : State) : Prop := (∀ e ∈ s.scale.recs, e.2.bad = false) ∧ ∀ e ∈ s.scale.staged, e.2.bad = false

/-- R216, R222, R223: with every forward and backward descriptor complete, phase 3 begins, and the member contributes once no mirror of
its contribution is left to acknowledge. The finite check then decides the outcome, writes the commit record of the step and moves the
step on to phase 4; a step that is not committed keeps every record. A lost predecessor's part comes from its mirror (R303). A check that
times out, or whose members stand at different steps or epochs (R304), ends the step with no outcome and is recorded. No byte is stored.
Corners that the spec leaves open follow the model's choice (log 25, 48, 89). -/
def Obligations.TheFiniteCheckDecidesTheStep : Prop :=
  ∀ s : State, s.pwr.on = true → LinesLatched s →
    (s.running = true → s.forwardDone = true → ∃ u, exec .finiteCheck s = .next u ∧ u.phase = 3 ∧
      u.train.contributed = !u.crust.mirrorWait.contains 2 ∧ u.mem.ram = s.mem.ram ∧ u.flt = s.flt) ∧
    (∀ heard, s.phase = 3 → s.train.contributed = true → s.train.replaying = false →
      let others := heard ++ s.mirroredCheck.toList
      others.length + 1 = max 1 (s.groupP (s.ent Ent.trainRunGroup)) →
      (s.stepsEqual others = true → RecordsIntact s → ∃ u, exec (.finiteCheckResult heard) s = .next u ∧
        u.phase = 4 ∧ u.train.outcome = s.checkOutcome others ∧ u.train.commit.outcome = s.checkOutcome others ∧
        u.train.commit.step = s.ent Ent.trainStepIndex ∧ u.ent Ent.trainStepIndex = (s.ent Ent.trainStepIndex + 1) % 2 ^ 64 ∧
        u.ent Ent.trainLastOutcome = s.checkOutcome others ∧ (s.checkOutcome others ≠ 1 → u.scale.recs = s.scale.recs) ∧
        u.mem.ram = s.mem.ram) ∧
      (s.stepsEqual others = false → s.dict.pend = [] → ∃ u, exec (.finiteCheckResult heard) s = .next u ∧ u.phase = 0 ∧
        u.ent Ent.trainLastOutcome = 4 ∧ u.ent Ent.trainHalted = 1 ∧ s.flt.nextSeq < u.flt.nextSeq ∧ u.mem.ram = s.mem.ram)) ∧
    (s.phase = 3 → s.train.replaying = false → s.dict.pend = [] → ∃ u, exec .finiteCheckTimeout s = .next u ∧ u.phase = 0 ∧
      u.ent Ent.trainLastOutcome = 4 ∧ u.ent Ent.trainHalted = 1 ∧ s.flt.nextSeq < u.flt.nextSeq ∧ u.mem.ram = s.mem.ram)

/-- R142, R144, R146, R304: the Rake runs once for a step. Members whose steps, epochs or Rake states differ halt it, and the fault is
recorded. With the Rake's mode at 0 no layer's rung moves; with agreement each layer's next window is of the step and its new rung, and the
windows in force stay up to the boundary, where all change together (R154; log 77). A lost predecessor's part comes from its mirror
(R303). Corners that the spec leaves open follow the model's choice (log 25, 47, 89). -/
def Obligations.TheRakeRunsOnceForAStep : Prop :=
  ∀ (heard : List RakeContribution) (us : Nat) (s : State) (g : Program), s.prog.loaded = some g → s.pwr.on = true → s.phase = 4 →
    let others := heard ++ s.mirroredVecs.toList
    s.rake.done = false → s.rep.dmpSwapping.contains 0 = false → s.rakeMembers others = true → s.dict.pend = [] → LinesLatched s →
    ∃ u, exec (.rakeReductionDone heard us) s = .next u ∧ u.rake.done = true ∧ u.ent Ent.rakeLastUs = us % 2 ^ 32 ∧
      exec (.rakeReductionDone heard us) u = .next u ∧
      (s.rakeDiverged others = true → u.train.rakeHalt = true ∧ s.flt.nextSeq < u.flt.nextSeq ∧ u.mem.ram = s.mem.ram) ∧
      (s.rakeDiverged others = false → (∀ l, (s.rakeOf l).bad = false) →
        (s.ent Ent.rakeMode = 0 → ∀ l, (u.rakeOf l).rung = (s.rakeOf l).rung) ∧
        u.rake.windows = s.rake.windows ∧
        ∀ l < g.layers.length, (Kv.getD u.rake.next l {}).step = s.stepNow ∧ (Kv.getD u.rake.next l {}).nextRung = (u.rakeOf l).rung)

/-- R229 to R232, R295: when every gather stage of a layer is complete its apply stages start, with the chunks done that the ledger marks
for them; an apply chunk completes its unit and, with no crust, is marked in the update ledger; with no descriptor left the update is
complete, and a non-finite value in a state tensor halts the run and is recorded. Corners that the spec leaves open follow the model's
choice (log 49). -/
def Obligations.TheUpdateGathersThenApplies : Prop :=
  (∀ (layer : Nat) (s : State), s.pwr.on = true → s.phase = 4 → s.train.updating = true → s.layerUpdates layer ≠ [] →
    s.updatesToCome layer = false → (s.layerUpdates layer).all s.gatherOver = true → s.endRoom (s.layerUpdates layer) = true →
    LinesLatched s → ∃ u, exec (.updateGatherDone layer) s = .next u ∧ LinesLatched u ∧
      ∀ r ∈ s.layerUpdates layer, r.gathered = false →
        ∃ d, u.desc? r.pos = some d ∧ d.gathered = true ∧ d.issued = d.finished ∧ (∀ n ∈ s.sealedChunks r.pos, n ∈ d.finished) ∧
          (s.crust.units = [] → d.finished = s.sealedChunks r.pos)) ∧
  (∀ (c : CoreId) (s : State) (x : RunUnit) (r : DescRun), s.coreLive c = true → s.vectorUnit c = some (x, r) → r.isUpdate = true →
    r.gathered = true → s.chunkAfter r x.number = true →
    (∀ y, slipped y = true → s.loadsFlake r = true → ∃ u, exec (.applyChunkComplete ⟨c, some y⟩) s = .next u ∧
      s.flt.nextSeq < u.flt.nextSeq ∧ LinesLatched u ∧ u.mem.ram = s.mem.ram) ∧
    (s.chunkTrouble r x.number = none → RecordsIntact s → LinesLatched s →
      (r.amaxPass = true ∨ s.salRoom c = true ∧ s.chunkWaits (s.chunkOut r (s.runChunk r x.number)) = false) →
      ∃ u, exec (.applyChunkComplete ⟨c, none⟩) s = .next u ∧ Kv.find? (u.core c).units 2 = none ∧
        (r.amaxPass = false → s.ent Ent.crustMode = 0 → u.train.ledger.contains (x.pos, x.number) = true))) ∧
  (∀ s : State, s.pwr.on = true → s.phase = 4 → s.train.updating = true → s.train.updateDone = false → s.prog.pool = [] →
    s.prog.stream0 = [] → s.prog.stream1 = [] → RecordsIntact s → LinesLatched s →
    ∃ u, exec .updateComplete s = .next u ∧ u.train.updateDone = true ∧ u.train.updating = false ∧ u.train.commit.update = 2 ∧
      u.mem.ram = s.mem.ram ∧ (s.train.badUpdate = none → u.flt = s.flt) ∧
      (s.train.badUpdate ≠ none → u.ent Ent.trainHalted = 1 ∧ s.flt.nextSeq < u.flt.nextSeq))

/-- R224, R235, R296, R216: at the end of a step a member of a crust first mirrors the step and waits for its successor; then the boundary
clears what belonged to the step, brings the frozen mask on which the finite check agreed into force, changes all statistics windows
together (R154) and returns to phase 0. With a statistics ring the step's slot is written (R155), and no other byte. Corners that the spec
leaves open follow the model's choice (log 48, 77, 78, 102). -/
def Obligations.TheBoundaryReturnsToPhaseZero : Prop :=
  ∀ (images : List RakeImage) (s : State), s.pwr.on = true → s.phase = 4 → s.rake.done = true → s.train.updateDone = true →
    LinesLatched s → s.dict.pend = [] → s.mem.owed = [] → (∀ c, (s.core c).windowBad = false) →
    (s.train.m3Wait = false → s.crustMember = true → ∃ u, exec (.stepBoundary images) s = .next u ∧ u.train.m3Wait = true ∧
      u.crust.mirrorWait.contains 3 = true ∧ u.phase = 4 ∧ u.mem = s.mem ∧ u.cores = s.cores) ∧
    (s.train.m3Wait = true ∨ s.crustMember = false → s.crust.mirrorWait.contains 3 = false →
      ∃ u, exec (.stepBoundary images) s = .next u ∧ u.phase = 0 ∧ u.prog.pool = [] ∧ u.rake.done = false ∧ u.train.outcome = 0 ∧
        u.ent Ent.commitFrozenMask =
          (if s.train.masksAgree then s.train.mask else s.ent Ent.commitFrozenMask) ∧ u.rake.next = [] ∧
        ((s.rake.next.map (·.1)).Nodup → ∀ l w, Kv.find? s.rake.next l = some w →
          (Kv.getD u.rake.windows l {}).step = w.step ∧ (Kv.getD u.rake.windows l {}).nextRung = w.nextRung) ∧
        let depth := s.ent Ent.salRingSteps
        let slot := s.ent Ent.salRingBase + s.stepNow % max depth 1 * (128 * s.layerCount)
        (∀ a, depth = 0 ∨ a < slot ∨ slot + 128 * s.layerCount ≤ a → u.ramByte a = s.ramByte a) ∧
        (depth ≠ 0 → s.rake.own ≠ [] → s.rangeMapped slot (128 * s.layerCount) = true → s.writeCode false slot (128 * s.layerCount) = 0 →
          u.ent Ent.salRingHead = s.stepNow))

/-- R98, R100, R118 to R120, R233: the ends of an attempt and of an amax pass. Corners that the spec leaves open follow the model's choice
(log 45). -/
def Obligations.AttemptsAndAmaxPassesEnd : Prop := SaturatedAttemptsAreRetried ∧ AmaxPassesGiveTheScale

/-- R196, R198, R199, R219, R236: admission in stream order, then readiness. Corners that the spec leaves open follow the model's choice
(log 49, 52). -/
def Obligations.DescriptorsAreAdmittedThenReady : Prop := DescriptorsAreAdmittedInStreamOrder ∧ DescriptorsBecomeReady

/-- R200, R203, R209: units of idle engines, and multicast deliveries. Corners that the spec leaves open follow the model's choice (log
52, 53). -/
def Obligations.UnitsAndDeliveriesAreScheduled : Prop := IdleEnginesTakeTheBestUnit ∧ MulticastWaitsForEveryMember

/-! ## Memory -/

/-- The command that processes requests of an operation. -/
def Sys2Proof.mapCommand (op : Nat) : Instr :=
  match op with
  | 1 => .mapReqMap
  | 2 => .mapReqUnmap
  | 3 => .mapReqMigrate
  | 4 => .mapReqSetRo
  | 5 => .mapReqClearRo
  | 6 => .mapReqSetCc
  | _ => .mapReqClearCc

/-- The run comes to a sound request of an operation, no page of which is being copied. -/
def Sys2Proof.RequestWaits (op : Nat) (s : State) : Prop :=
  s.runsMap = true ∧ s.reqOk = true ∧ s.nextReq.op = op ∧ s.reqBusy s.nextReq = false ∧ LinesLatched s

/-- A request has been processed: it is counted, and the pages that it does not name keep their entries. -/
def Sys2Proof.RequestDone (s t : State) : Prop :=
  t.mem.reqDone = s.mem.reqDone + 1 ∧ t.ent Ent.memReqDone = s.mem.reqDone + 1 ∧
    ∀ p, s.nextReq.pages.contains p = false → t.mapEntry p = s.mapEntry p

/-- Every page of the request that is next can be folded now: the crust lets no fold wait (R297). -/
def Sys2Proof.FoldsRun (cover : Bool) (act : State → Nat → State) (s : State) : Prop :=
  s.mem.reqAt = 0 ∧ s.nextReq.pages.length ≤ (State.foldPages cover act s.nextReq.pages s 0).2

/-- What MIGRATE does to the page at place `i` of its request: one that lies where it shall is left alone; any other has a copy to the frame
that it is given, whose entry shows MIG once an engine has taken it up. -/
def Sys2Proof.PageMoves (s t : State) (r : MapReq) (i : Nat) : Prop :=
  let p := r.pages.getD i 0
  let before := (s.placeAll r.tier r.device (State.placed r) State.startCopy (r.pages.take i)).1
  match Kv.find? t.mem.migrating p with
  | none => State.placed r before p = true ∧ t.mapEntry p = s.mapEntry p
  | some m => State.placed r before p = false ∧ before.placeReq r.tier r.device p = some (m.tier, m.device, m.frame) ∧
      t.mapEntry p = if m.active then { s.mapEntry p with mig := true } else s.mapEntry p

/-- R260 to R262, R257, R293: what each map request does to the pages that it names, where its conditions hold: a mapped page reads as
zeros, an unmapped one keeps only its generation, a migrating one keeps its frame until its copy is done, and the flags of the others
change alone. No other page's entry and no other byte changes, and no migration engine takes up more than 16 pages. -/
def Sys2Proof.MapRequestsDoWhatTheyName : Prop :=
  ∀ s : State, s.nextReq.fieldCode = 0 →
    let r := s.nextReq
    (RequestWaits 1 s → (∀ p ∈ r.pages, (s.mapEntry p).v = false) → (r.flags.testBit 1 = true → ∀ p ∈ r.pages, s.inCovered p = true) →
      (s.mapRun r).2 = 0 → ∃ t, exec .mapReqMap s = .next t ∧ RequestDone s t ∧
        (∀ p ∈ r.pages, (t.mapEntry p).v = true ∧ (t.mapEntry p).ro = r.flags.testBit 0 ∧ (t.mapEntry p).cc = r.flags.testBit 1 ∧
          (t.mapEntry p).mig = false ∧ (t.mapEntry p).gen = ((s.mapEntry p).gen + 1) % 256) ∧
        ∀ a, t.ramByte a = if r.pages.contains (pageOf a) then 0 else s.ramByte a) ∧
    (RequestWaits 2 s → FoldsRun false State.dropPage s → s.allMapped r = true →
      (∀ p ∈ r.pages, (s.programNames p || (s.mapEntry p).img || (s.mapEntry p).stp || (s.mapEntry p).fz) = false) →
      ∃ t, exec .mapReqUnmap s = .next t ∧ RequestDone s t ∧ (∀ p ∈ r.pages, t.mapEntry p = { gen := (s.mapEntry p).gen }) ∧
        t.mem.ram = s.mem.ram) ∧
    (RequestWaits 3 s → s.allMapped r = true → (s.phase = 0 ∨ r.pages.any s.programNames = false) → (s.migrateRun r).2 = 0 →
      ∃ t, exec .mapReqMigrate s = .next t ∧ RequestDone s t ∧ (∀ i < r.pages.length, PageMoves s t r i) ∧
        (∀ p, r.pages.contains p = false → Kv.find? t.mem.migrating p = Kv.find? s.mem.migrating p) ∧
        (∀ d, (t.engineCopies d).length ≤ max enginePages (s.engineCopies d).length) ∧ t.mem.ram = s.mem.ram) ∧
    (∀ on : Bool, RequestWaits (if on then 4 else 5) s → s.allMapped r = true →
      ∃ t, exec (mapCommand (if on then 4 else 5)) s = .next t ∧ RequestDone s t ∧
        (∀ p ∈ r.pages, t.mapEntry p = { s.mapEntry p with ro := on }) ∧ t.mem.ram = s.mem.ram) ∧
    (∀ on : Bool, RequestWaits (if on then 6 else 7) s → FoldsRun on (if on then State.coverPage else State.uncoverPage) s →
      s.allMapped r = true → s.phase = 0 → (on = true → ∀ p ∈ r.pages, s.inCovered p = true) →
      ∃ t, exec (mapCommand (if on then 6 else 7)) s = .next t ∧ RequestDone s t ∧
        (∀ p ∈ r.pages, t.mapEntry p = { s.mapEntry p with cc := on }) ∧ t.mem.ram = s.mem.ram)

/-- R293, R297: a request whose pages are folded and that has waited goes on where it stood, page by page: it is done with its last page,
and till then it stays the next one. No byte is stored. -/
def Sys2Proof.FoldsGoOnWhereTheyWaited : Prop :=
  ∀ s : State, s.mem.reqAt ≠ 0 →
    let went := fun (op : Nat) (x : State × Nat) => ∃ t, exec (mapCommand op) s = .next t ∧ t.mem.ram = s.mem.ram ∧
      (if x.2 < s.nextReq.pages.length then t.mem.reqDone = s.mem.reqDone ∧ t.mem.reqAt = x.2
        else t.mem.reqDone = s.mem.reqDone + 1 ∧ t.mem.reqAt = 0)
    let left := s.nextReq.pages.drop s.mem.reqAt
    (RequestWaits 2 s → went 2 (State.foldPages false State.dropPage left s s.mem.reqAt)) ∧
    (RequestWaits 6 s → went 6 (State.foldPages true State.coverPage left s s.mem.reqAt)) ∧
    (RequestWaits 7 s → went 7 (State.foldPages false State.uncoverPage left s s.mem.reqAt))

/-- R260 to R262, R257, R293, R297: map requests, those that the crust makes wait among them. Corners that the spec leaves open follow the
model's choice (log 39, 40, 81, 86). -/
def Obligations.MapRequestsChangeThePagesTheyName : Prop := MapRequestsDoWhatTheyName ∧ FoldsGoOnWhereTheyWaited

/-- R260, R262, R266: a request with a field out of range stops the run where it stands, with its code, under a violation record; no page
changes. A run whose requests and copies are done reads done, unless it waits for the crust. Corners that the spec leaves open follow the
model's choice (log 39, 100). -/
def Obligations.BadMapRequestsStopTheRun : Prop :=
  ∀ s : State,
    (∀ op, 1 ≤ op → op ≤ 7 → RequestWaits op s → s.mem.reqAt = 0 → s.nextReq.fieldCode ≠ 0 → ∃ t, exec (mapCommand op) s = .next t ∧
      t.ent Ent.memReqState = 3 ∧ t.ent Ent.memReqError = s.nextReq.fieldCode ∧ t.mem.reqDone = s.mem.reqDone ∧
      s.flt.nextSeq < t.flt.nextSeq ∧ (∀ p, t.mapEntry p = s.mapEntry p) ∧ t.mem.ram = s.mem.ram) ∧
    (s.runsMap = true → s.reqOk = true → (s.nextReq.op = 0 ∨ 7 < s.nextReq.op) → LinesLatched s →
      ∃ t, exec .mapRunComplete s = .next t ∧ t.ent Ent.memReqState = 3 ∧ t.ent Ent.memReqError = 3 ∧ s.flt.nextSeq < t.flt.nextSeq ∧
        (∀ p, t.mapEntry p = s.mapEntry p) ∧ t.mem.ram = s.mem.ram) ∧
    (s.runsMap = false → s.pwr.on = true → s.ent Ent.memReqState = 1 →
      s.mem.reqChanged.all (fun p => (Kv.find? s.mem.migrating p).isNone) = true → s.crustMember = false →
      s.crust.mirrorWait.contains 4 = false → ∃ t, exec .mapRunComplete s = .next t ∧ t.ent Ent.memReqState = 2 ∧
        (∀ p, t.mapEntry p = s.mapEntry p) ∧ t.mem.ram = s.mem.ram)

/-- Neither a posted write of the host, nor what follows it, nor a write of the module itself waits. -/
def Sys2Proof.HostIdle (s : State) : Prop :=
  s.links.host.held = [] ∧ s.links.host.bells = [] ∧ s.links.host.heldReads = [] ∧ s.mem.owed = []

/-- R262, R257, R259: when a page's copy is done its entry switches to the new frame under the next generation; copies that wait for an
engine may start, which their entries show; every other entry and every byte stays. -/
def Sys2Proof.CopiesSwitchTheEntry : Prop :=
  ∀ (page : Nat) (s : State) (m : MigTarget), Kv.find? s.mem.migrating page = some m → m.active = true → page < firstReserved →
    (m.tier ≠ 1 ∨ s.cxlActive m.device = true) → HostIdle s → LinesLatched s →
    ∃ t, exec (.migrationDone page) s = .next t ∧
      t.mapEntry page = { s.mapEntry page with
        mig := false, tier := m.tier, device := m.device, frame := m.frame, gen := ((s.mapEntry page).gen + 1) % 256 } ∧
      (Kv.find? t.mem.migrating page) = none ∧
      (∀ p, p ≠ page → t.mapEntry p = s.mapEntry p ∨
        t.mapEntry p = { s.mapEntry p with mig := true } ∧ ∃ e ∈ s.mem.migrating, e.1 = p ∧ e.2.active = false) ∧
      t.ent Ent.memMigrations = satAdd 64 (s.ent Ent.memMigrations) 1 ∧ t.mem.ram = s.mem.ram

/-- R263, R266, R328: with room for it, a transaction that nothing holds and no rule refuses takes a slot; a write stores exactly its
bytes at its address and a read none. After a Fatal fault no transaction is taken. -/
def Sys2Proof.TransactionsStoreExactlyTheirBytes : Prop :=
  ∀ (r : MemReq) (s : State), s.pwr.on = true → txnLegal r = true →
    (s.flt.fatal ≠ 0 → exec (.memTransaction r) s = .next (s.completeTxns r.die.val r.completed)) ∧
    (s.flt.fatal = 0 → s.mem.outstanding = [] → s.mem.waiting = [] → s.txnHeld r = false →
      s.txnCode r = 0 → s.mem.mapBad = [] → s.mem.mapLost = [] → LinesLatched s →
      (∀ l, r.data = some l → ∃ t, exec (.memTransaction r) s = .next t ∧ t.mem.outstanding = [{ req := r, home := s.txnHome r }] ∧
        ∀ a, t.ramByte a = if r.addr ≤ a ∧ a < r.addr + l.length then l.getD (a - r.addr) 0 else s.ramByte a) ∧
      (r.data = none → s.rangeTrouble r.addr r.len = none → ∃ t, exec (.memTransaction r) s = .next t ∧
        t.mem.outstanding = [{ req := r, home := s.txnHome r }] ∧ t.mem.ram = s.mem.ram ∧ t.mem.map = s.mem.map))

/-- R257, R259, R262, R263, R266, R328: what the end of a page copy and a transaction change. Corners that the spec leaves open follow
the model's choice (log 40, 42, 64, 86). -/
def Obligations.MemoryMovesOnlyWhatItIsTold : Prop := CopiesSwitchTheEntry ∧ TransactionsStoreExactlyTheirBytes

/-- R248 to R250, R253: a stack's or a device's error is counted and recorded as a fault of its pseudo-channel or device, and no byte
changes; the host's read of a line that cannot be corrected completes with the line's data, poisoned. A scrub pass is counted. -/
def Sys2Proof.MemoryErrorsAreCountedAndRecorded : Prop :=
  ∀ s : State, s.pwr.on = true → LinesLatched s →
    (∀ st pc, ∃ t, exec (.hbmCorrectableError st pc) s = .next t ∧ t.ent (Ent.hbmCeTotal st) = satAdd 64 (s.ent (Ent.hbmCeTotal st)) 1 ∧
      s.flt.nextSeq < t.flt.nextSeq ∧ t.mem.ram = s.mem.ram) ∧
    (∀ st pc addr by_, ∃ t, exec (.hbmUncorrectableError st pc addr by_) s = .next t ∧
      t.ent (Ent.hbmUeTotal st) = satAdd 64 (s.ent (Ent.hbmUeTotal st)) 1 ∧ s.flt.nextSeq < t.flt.nextSeq ∧ t.mem.ram = s.mem.ram ∧
      (pageOf addr < firstReserved → by_ = .host → t.links.host.completion = (2, s.memRead (addr / 256 * 256) 256))) ∧
    (∀ st, exec (.hbmScrubPass st) s = .next (s.bump 32 (Ent.hbmScrubPasses st) 1)) ∧
    (∀ d n, ∃ t, exec (.cxlEventRecord d (.corrected n)) s = .next t ∧
      t.ent (Ent.cxlCeTotal d) = satAdd 64 (s.ent (Ent.cxlCeTotal d)) n ∧ s.flt.nextSeq + n ≤ t.flt.nextSeq ∧ t.mem.ram = s.mem.ram) ∧
    (∀ d addr by_, ∃ t, exec (.cxlEventRecord d (.poisoned addr by_)) s = .next t ∧
      t.ent (Ent.cxlUeTotal d) = satAdd 64 (s.ent (Ent.cxlUeTotal d)) 1 ∧ s.flt.nextSeq < t.flt.nextSeq ∧ t.mem.ram = s.mem.ram ∧
      (pageOf addr < firstReserved → by_ = .host → t.links.host.completion = (2, s.memRead (addr / 256 * 256) 256)))

/-- R249, R254, R255, R250: the copies and failures of memory devices: the spare pseudo-channel or device takes the place of the old one,
which is retired; a device that fails is retired at once and not ready; a rebuilt page has its lines back, a page that a read waits for
before the others. No byte changes. -/
def Sys2Proof.SparesTakeThePlaceOfFailedMemory : Prop :=
  ∀ s : State,
    (∀ (st : StackId) pc, (s.stack st).copying = some pc → ∃ t, exec (.pcSpareCopyDone st) s = .next t ∧
      t.stack st = { s.stack st with spare := pc, copying := none, remap := 3 } ∧ (∀ k, k ≠ st.val → t.stack k = s.stack k) ∧
      t.mem.map = s.mem.map ∧ t.mem.ram = s.mem.ram) ∧
    (∀ (d : CxlId) sp, (s.dev d).replace = 1 → s.spareDev = some sp → sp ≠ d.val → ∃ t, exec (.cxlReplaceCopyDone d) s = .next t ∧
      (t.dev sp).role = (s.dev d).role ∧ (t.dev d).role = 0xFE ∧ (t.dev d).replace = 3 ∧ t.isReady (20 + d) = false ∧
      t.mem.map = s.mem.map ∧ t.mem.ram = s.mem.ram) ∧
    (∀ d : CxlId, s.pwr.on = true → LinesLatched s → ∃ t, exec (.cxlEventRecord d .failed) s = .next t ∧ (t.dev d).role = 0xFE ∧
      t.isReady (20 + d) = false ∧ t.mem.ram = s.mem.ram) ∧
    (∀ d : CxlId, s.pwr.on = true → LinesLatched s → s.spareDev.isSome = true → s.devCopying = false → (s.dev d).role < 11 →
      ∃ t, exec (.cxlEventRecord d .degraded) s = .next t ∧ t.dev d = { s.dev d with replace := 1 } ∧
        t.flt.nextSeq = s.flt.nextSeq + 1 ∧ t.mem.map = s.mem.map ∧ t.mem.ram = s.mem.ram) ∧
    (∀ page, s.rebuildsFirst page = true → exec (.pageRebuildDone page) s = .next s) ∧
    (∀ page, (s.mapEntry page).v = true → (s.mapEntry page).rb = true → s.rebuildsFirst page = false → HostIdle s → LinesLatched s →
      ∃ t, exec (.pageRebuildDone page) s = .next t ∧ t.mapEntry page = { s.mapEntry page with rb := false } ∧
        (∀ n ∈ t.mem.poison, n / 2048 ≠ page) ∧ t.mem.lostPages.contains page = false ∧ (∀ p, p ≠ page → t.mapEntry p = s.mapEntry p) ∧
        t.mem.ram = s.mem.ram)

/-- R248 to R255: errors of stacks and devices, and the spares that take over. Corners that the spec leaves open follow the model's choice
(log 41, 87). -/
def Obligations.MemoryErrorsAreContained : Prop := MemoryErrorsAreCountedAndRecorded ∧ SparesTakeThePlaceOfFailedMemory

/-! ## Arbitration and repairs -/

/-- R269 to R272, R275: a free resource goes to the highest-ranked requester present, whose grant is counted; every other requester
present waits a cycle, which counts once in a cycle of the instance at however many of its resources it waits; a holder keeps the resource while it holds and has not reached its limit; a hold at its limit is cut off, counted,
and recorded. Corners that the spec leaves open follow the model's choice (log 38, 85). -/
def Obligations.ArbitersGrantTheHighestRank : Prop :=
  ∀ (a : ArbId) (resource : Nat) (s : State), s.pwr.on = true → resource < arbResources (arbLevel a) →
    let l := arbLevel a
    let i := arbInstance a
    (∀ present keep r, s.hold? l i resource = none → topRank (present.filter (rankExists l i)) = some r →
      ∃ t, exec (.arbGrant a resource present keep) s = .next t ∧ (∀ q ∈ present, rankExists l i q = true → r ≤ q) ∧
        t.hold? l i resource = (if keep then some { rank := r, cycles := 1 } else none) ∧
        (t.arbCnt l i r).grants = satAdd 64 (s.arbCnt l i r).grants 1 ∧
        (∀ q, rankExists l i q = true → q ≠ r → (t.arbCnt l i q).grants = (s.arbCnt l i q).grants ∧
          (t.arbCnt l i q).wait = if present.contains q && !((s.turn l i resource).arbCycle l i).waited.contains q then
            satAdd 64 (s.arbCnt l i q).wait 1 else (s.arbCnt l i q).wait) ∧
        t.mem = s.mem ∧ t.cores = s.cores ∧ t.dict = s.dict ∧ t.flt = s.flt) ∧
    (∀ present keep h, s.hold? l i resource = some h → h.cycles < s.holdLimit l →
      ∃ t, exec (.arbGrant a resource present keep) s = .next t ∧
        t.hold? l i resource = (if keep then some { h with cycles := h.cycles + 1 } else none) ∧
        (∀ q, (t.arbCnt l i q).grants = (s.arbCnt l i q).grants) ∧ t.mem = s.mem ∧ t.cores = s.cores ∧ t.flt = s.flt) ∧
    (∀ h, s.hold? l i resource = some h → s.holdLimit l ≤ h.cycles → ∃ t, exec (.holdCutoff a resource) s = .next t ∧
      t.hold? l i resource = none ∧ (t.arbCnt l i h.rank).cutoffs = satAdd 32 (s.arbCnt l i h.rank).cutoffs 1 ∧
      s.flt.nextSeq < t.flt.nextSeq ∧ t.mem.ram = s.mem.ram)

/-- R12, R217, R284 to R286, R422: a swap that passes its check, with good firmware for its sequencers, ends with the spare ready under
the logical number and is counted; a core whose spare fails either passes the loss on to its cluster, and a cluster whose spare fails is a
loss that clears the compute bits. No byte changes. -/
def Sys2Proof.SwapsEndWithTheSpareReady : Prop :=
  ∀ (s : State) (ok : Bool), s.pwr.on = true → LinesLatched s →
    (∀ c : CoreId, s.rep.coreSwap.contains c.val = true →
      (s.loadsComponent 3 = true → ∃ t, exec (.coreSwapDone c true) s = .next t ∧ t.coreReady c = true ∧ t.rep.coreSwap.contains c.val = false ∧
        t.ent Ent.resilCoreSwaps = satAdd 32 (s.ent Ent.resilCoreSwaps) 1 ∧ t.cores = s.cores ∧ t.mem = s.mem) ∧
      ((ok && s.loadsComponent 3) = false → s.rep.spareCluster.contains (c.val / 64) = false → ∃ t,
        exec (.coreSwapDone c ok) s = .next t ∧ t.rep.clusterSwap.contains (c.val / 8) = true ∧
        t.rep.coreSwap.contains c.val = false ∧ t.isReady (40 + c / 8) = false ∧ t.mem.ram = s.mem.ram)) ∧
    (∀ k : ClusterId, s.rep.clusterSwap.contains k.val = true →
      (s.loadsComponent 3 = true → ∃ t, exec (.clusterSwapDone k true) s = .next t ∧ t.isReady (40 + k) = true ∧ (∀ i < 8, t.coreReady (8 * k + i) = true) ∧
        t.rep.clusterSwap.contains k.val = false ∧ t.ent Ent.resilClusterSwaps = satAdd 32 (s.ent Ent.resilClusterSwaps) 1 ∧
        t.cores = s.cores ∧ t.mem = s.mem) ∧
      ((ok && s.loadsComponent 3) = false → ∃ t, exec (.clusterSwapDone k ok) s = .next t ∧ t.isReady 6 = false ∧ t.isReady 7 = false ∧
        s.flt.nextSeq < t.flt.nextSeq ∧ t.mem.ram = s.mem.ram)) ∧
    (∀ d : DieId, s.rep.dmpSwapping.contains d.val = true → ∃ t, exec (.dmpSwapDone d) s = .next t ∧ t.isReady (56 + d) = true ∧
      t.rep.dmpSwapping.contains d.val = false ∧ t.flt.dogs.contains d.val = false ∧ t.cores = s.cores ∧ t.mem = s.mem)

/-- R12, R57, R80, R83, R217, R284 to R286: rows, columns, cores, clusters and die management processors are replaced by their spares.
Corners that the spec leaves open follow the model's choice (log 29, 43). -/
def Obligations.RepairsPutSparesInPlace : Prop := TheSegmentTestRetiresWhatItFound ∧ SwapsEndWithTheSpareReady

/-! ## Brine and the crust -/

/-- The commands of the frames that are acknowledged and resent (R387). -/
def Sys2Proof.acknowledgedFrames (h : BrineHdr) : List Instr :=
  [.collectiveDataRx h, .withdrawalRx h, .abandonNoticeRx h, .epochChangeRx h, .epochAckRx h, .crustDeltaRx h, .crustSealAckRx h,
    .crustSealRx h, .mirrorRx h, .reducedStreamRx h]

/-- A frame arrives in order at a module that hears it. -/
def Sys2Proof.InOrder (h : BrineHdr) (s : State) : Prop :=
  s.hears h = true ∧ h.psn % 2 ^ 24 = s.rxNext (laneIx h) h.src ∧ LinesLatched s

/-- R387: a frame of an acknowledged kind counts only in order; the next number expected then rises by 1, as shown for three of them. One
that repeats is answered by an acknowledgement, one after a gap by a negative acknowledgement that names the first missing number, and
neither does anything else. Corners that the spec leaves open follow the model's choice (log 23). -/
def Obligations.FramesCountOnlyInOrder : Prop :=
  ∀ (h : BrineHdr) (s : State), s.hears h = true → LinesLatched s →
    let next := s.rxNext (laneIx h) h.src
    (h.psn % 2 ^ 24 = next → ∀ c ∈ [Instr.epochAckRx h, .crustDeltaRx h, .abandonNoticeRx h], ∃ t, exec c s = .next t ∧
      t.rxNext (laneIx h) h.src = (h.psn + 1) % 2 ^ 24) ∧
    (h.psn % 2 ^ 24 ≠ next → ∀ c ∈ acknowledgedFrames h, ∃ t f, exec c s = .next t ∧ (t.lane (laneIx h)).lastTx = some f ∧ f.dst = h.src ∧
      f.kind = (if psnLe h.psn next then 2 else 3) ∧ (f.kind = 3 → f.payload = leBytes 4 next) ∧
      t.rxNext (laneIx h) h.src = next ∧ t.mem = s.mem ∧ t.cores = s.cores ∧ t.train = s.train ∧ t.links.groups = s.links.groups ∧
      t.links.collectives = s.links.collectives ∧ t.crust.heldDeltas = s.crust.heldDeltas ∧ t.flt = s.flt)

/-- No other lane of the port than the frame's own has gone out of use at the frame's sender since its last frame. -/
def Sys2Proof.LanesStay (h : BrineHdr) (s : State) : Prop :=
  ∀ l < 4, l ≠ h.lane.val → (Kv.getD s.links.farMask (65536 * h.port.val + h.src) 15).testBit l = true → h.liveMask.val.testBit l = true

/-- R384, R387, R388: an acknowledgement takes the frames up to its number off the lane; a resend counts every frame that it sends again,
and the last of them goes out last; a standalone acknowledgement goes out once a frame waits for one; a module without a node address
sends neither. A lane state gives the far end's live lanes, and no frame to that node stays on a lane that has gone there. No byte of
memory changes. -/
def Sys2Proof.AcknowledgementsSettleTheLane : Prop :=
  (∀ (h : BrineHdr) (s : State), s.hears h = true → LinesLatched s →
    (∃ t, exec (.brineAckRx h) s = .next t ∧ (∀ f ∈ (t.lane (laneIx h)).unacked, f.dst = h.src → psnLe f.psn h.ack = false) ∧
      (LanesStay h s → (t.lane (laneIx h)).unacked =
        ((s.lane (laneIx h)).unacked.filter fun f => f.dst != h.src || !psnLe f.psn h.ack)) ∧ t.mem = s.mem ∧ t.flt = s.flt) ∧
    (∃ t, exec (.laneStateRx h) s = .next t ∧ Kv.find? t.links.farMask (65536 * h.port.val + h.src) = some h.liveMask.val ∧
      (∀ l < 4, l ≠ h.lane.val → (Kv.getD s.links.farMask (65536 * h.port.val + h.src) 15).testBit l = true →
        h.liveMask.val.testBit l = false → ∀ f ∈ (t.lane (4 * h.port.val + l)).unacked, f.dst ≠ h.src) ∧
      t.mem = s.mem ∧ t.flt = s.flt) ∧
    (∀ again, LanesStay h s → again = (((s.lane (laneIx h)).unacked.filter fun f => f.dst != h.src || !psnLe f.psn h.ack).filter fun f =>
        f.dst == h.src && psnLe (leNat (h.payload.take 4)) f.psn) → again ≠ [] → ∃ t, exec (.brineNackRx h) s = .next t ∧
        (t.lane (laneIx h)).lastTx = again.getLast? ∧
        t.ent (Ent.brineResends h.port) = satAdd 64 (s.ent (Ent.brineResends h.port)) again.length ∧ t.mem = s.mem ∧ t.flt = s.flt)) ∧
  ∀ (p : PortId) (l : LaneId) (dst : Nat) (s : State), s.pwr.on = true → s.laneUp (4 * p + l) = true →
    (s.node = 0xFFFF → exec (.brineRetxTimeout p l dst) s = .next s ∧ exec (.brineAckTimer p l dst) s = .next s) ∧
    let x := s.lane (4 * p + l)
    s.node ≠ 0xFFFF →
    (∀ f, (x.unacked.filter fun f => f.dst == dst).getLast? = some f → ∃ t, exec (.brineRetxTimeout p l dst) s = .next t ∧
      (t.lane (4 * p + l)).lastTx = some f ∧ (t.lane (4 * p + l)).unacked = x.unacked ∧ t.ent (Ent.brineResends p) =
        satAdd 64 (s.ent (Ent.brineResends p)) (x.unacked.filter fun f => f.dst == dst).length ∧ t.mem = s.mem) ∧
    (0 < Kv.getD x.rxDue dst 0 → ∃ t f, exec (.brineAckTimer p l dst) s = .next t ∧ (t.lane (4 * p + l)).lastTx = some f ∧
      f.kind = 2 ∧ f.dst = dst ∧ Kv.getD (t.lane (4 * p + l)).rxDue dst 0 = 0 ∧ (t.lane (4 * p + l)).unacked = x.unacked ∧
      t.mem = s.mem)

/-- R166, R394, R220, R304: a contribution of the step for a collective that has not started waits for it; a hollow one makes the module
enter abandon; one of another epoch in a step that runs, or that awaits its outcome, is a fault, and the step has no outcome; outside
them it waits too. That holds of a sender that the group no longer has, too: a lost member that comes back, under the old epoch. No byte
is stored. -/
def Sys2Proof.EarlyContributionsWait : Prop :=
  ∀ (h : BrineHdr) (s : State), InOrder h s → (s.group h.group.val).valid = true →
    let member := ((s.group h.group.val).members.take (s.group h.group.val).p).contains h.src
    (member = true → h.epoch = (s.group h.group.val).epoch → h.step = s.ent Ent.trainStepIndex % 65536 → s.phase = 1 →
      s.coll? h.group.val h.sequence = none → s.collDone h.group.val h.sequence = false →
      ∃ t, exec (.collectiveDataRx h) s = .next t ∧ t.links.early = s.links.early ++ [h] ∧ t.phase = (if h.hollow then 2 else 1) ∧
        t.train.abandoned = (h.hollow || s.train.abandoned) ∧ t.mem = s.mem ∧ t.flt = s.flt) ∧
    (h.epoch ≠ (s.group h.group.val).epoch → s.running = true ∨ s.phase = 3 → s.train.replaying = false → s.dict.pend = [] →
      ∃ t, exec (.collectiveDataRx h) s = .next t ∧ t.phase = 0 ∧ t.ent Ent.trainLastOutcome = 4 ∧ s.flt.nextSeq < t.flt.nextSeq ∧
        t.mem.ram = s.mem.ram) ∧
    (member = true → h.epoch ≠ (s.group h.group.val).epoch → s.phase = 4 ∨ (s.phase = 0 ∧ s.coll? h.group.val h.sequence = none) →
      ∃ t, exec (.collectiveDataRx h) s = .next t ∧ t.links.early = s.links.early ++ [h] ∧ t.phase = s.phase ∧ t.mem = s.mem ∧
        t.flt = s.flt)

/-- R166, R220, R304, R387, R388, R394: acknowledgements, resends, lane states, early contributions. Corners that the spec leaves open
follow the model's choice (log 23, 24). -/
def Obligations.LanesAndContributionsSettle : Prop := AcknowledgementsSettleTheLane ∧ EarlyContributionsWait

/-- R291, R294: a holder keeps a member's deltas unapplied until their seal, which XORs them into parity and nothing else into memory, and
is remembered; a frame of a delta that is held, or whose unit is in parity, is not held again. A sender counts each holder's
acknowledgement, and its unit leaves once a holder has the seal. -/
def Sys2Proof.DeltasEnterParityAtTheirSeal : Prop :=
  ∀ (h : BrineHdr) (s : State) (r : Nat), InOrder h s → s.crustFrom h = some r →
    (∃ t, exec (.crustDeltaRx h) s = .next t ∧ t.crust.heldDeltas = (if s.deltaKnown r h then s.crust.heldDeltas else s.crust.heldDeltas ++
      [{ rank := r, unit := unitKey h, addr := leNat (h.payload.take 8), bytes := h.payload.drop 8, segment := h.segment, last := h.last }]) ∧
      t.mem = s.mem ∧ t.flt = s.flt) ∧
    (∃ t, exec (.crustSealRx h) s = .next t ∧
      t.crust.heldDeltas = (s.crust.heldDeltas.filter fun d => !(d.rank == r && d.unit == unitKey h)) ∧
      t.crust.sealsSeen = ((r, unitKey h) :: s.crust.sealsSeen).take sealMemory ∧
      (∀ d, (s.crust.heldDeltas.filter fun d => d.rank == r && d.unit == unitKey h) = [d] → ∀ a, t.ramByte a =
        if d.addr ≤ a ∧ a < d.addr + d.bytes.length then s.ramByte a ^^^ d.bytes.getD (a - d.addr) 0 else s.ramByte a) ∧
      ((s.crust.heldDeltas.filter fun d => d.rank == r && d.unit == unitKey h) = [] → t.mem = s.mem) ∧ t.flt = s.flt) ∧
    (∀ x, s.unit? (unitKey h) = some x → h.segment = 0 → ∃ t, exec (.crustSealAckRx h) s = .next t ∧
      t.crust.units = s.crust.units.map (fun z => if z.number = x.number then { x with acked := listAdd x.acked r } else z) ∧
      t.mem = s.mem) ∧
    (∀ x, s.unit? (unitKey h) = some x → h.segment = 1 → x.allAcked = true → x.chunk = none → HostIdle s →
      ∃ t, exec (.crustSealAckRx h) s = .next t ∧ t.crust.units = (s.crust.units.filter fun z => z.number != x.number) ∧ t.mem = s.mem)

/-- R296, R298, R301, R395: a whole mirror from the predecessor is held; a spare that the successor has sent the lost member's map takes
the epoch changes that waited for it. A segment of a reduced stream is stored where its receiver keeps it, a page without cover apart, and
nowhere else; any other contributor passes it on and stores nothing; neither takes a segment twice. A resync whose streams have all passed
leaves the crust fresh. -/
def Sys2Proof.MirrorsAndStreamsArrive : Prop :=
  (∀ (h : BrineHdr) (s : State) (r : Nat), InOrder h s → s.crustFrom h = some r →
    (h.segment = 0 → h.last = true → s.crust.taking = none → r = (s.crustRankOf + 7) % 8 → ∃ t, exec (.mirrorRx h) s = .next t ∧
      Kv.find? t.crust.mirrors h.sequence =
        some (if h.sequence = 4 then Kv.getD s.crust.mirrors 4 [] ++ h.payload else h.payload) ∧ t.mem = s.mem ∧ t.flt = s.flt) ∧
    (h.segment = 0 → h.last = true → h.sequence = 4 → ∀ q, s.crust.taking = some q → r = (q + 1) % 8 → ∃ t, exec (.mirrorRx h) s = .next t ∧
      Kv.find? t.crust.own 4 = some (Kv.getD s.crust.own 4 [] ++ h.payload) ∧ t.crust.heldChange = []) ∧
    let page := h.segment / pageSegments
    let seg := h.segment % pageSegments
    let key := 2 ^ 24 * h.sequence + page
    ((Kv.getD s.crust.passed key 0).testBit seg = true → ∃ t, exec (.reducedStreamRx h) s = .next t ∧ t.crust.passed = s.crust.passed ∧
      t.mem = s.mem ∧ t.flt = s.flt) ∧
    ((Kv.getD s.crust.passed key 0).testBit seg = false → s.ownRank = h.sequence % 256 → ∃ t, exec (.reducedStreamRx h) s = .next t ∧
      (Kv.getD t.crust.passed key 0).testBit seg = true ∧
      (let a := s.streamAddr h.sequence page seg
        ∀ b, t.ramByte b =
          if (h.sequence < 256 ∨ (s.mapEntry (s.ent Ent.crustSpanFirst + page)).cc = true) ∧ a ≤ b ∧ b < a + h.payload.length then
            h.payload.getD (b - a) 0 else s.ramByte b) ∧ t.flt = s.flt) ∧
    ((Kv.getD s.crust.passed key 0).testBit seg = false → s.ownRank ≠ h.sequence % 256 → s.crustMember = true → HostIdle s →
      ∃ t, exec (.reducedStreamRx h) s = .next t ∧ t.mem = s.mem ∧ t.flt = s.flt ∧ (Kv.getD t.crust.passed key 0).testBit seg = true)) ∧
  ∀ s : State, s.pwr.on = true → s.crust.resync = true → s.resyncOver = true → HostIdle s → LinesLatched s →
    ∃ t, exec .crustResyncDone s = .next t ∧ t.ent Ent.crustState = 2 ∧ t.ent Ent.crustFreshStep = s.ent Ent.trainStepIndex ∧
      t.crust.resync = false ∧ t.mem = s.mem ∧ t.flt = s.flt

/-- R291, R294, R296, R298, R301, R395: deltas and seals, mirrors and streams. Corners that the spec leaves open follow the model's choice
(log 54). -/
def Obligations.TheCrustKeepsParity : Prop := DeltasEnterParityAtTheirSeal ∧ MirrorsAndStreamsArrive

/-- R299: each period counts the ranks not heard of and forgets the others' misses; a heartbeat clears its rank's; a withdrawal counts its
sender lost at once, under a recorded fault, and a spare's at a lost rank counts every heartbeat of it as missed. -/
def Sys2Proof.HeartbeatsShowLostMembers : Prop :=
  (∀ s : State, s.pwr.on = true → (s.crustMember || s.crustTaker) = true → ∃ t, exec .heartbeatTx s = .next t ∧ t.crust.heard = [] ∧
    (∀ r ∈ s.awaited, Kv.getD t.crust.missed r 0 = if s.crust.heard.contains r then 0 else Kv.getD s.crust.missed r 0 + 1) ∧
    t.mem = s.mem ∧ t.flt = s.flt) ∧
  ∀ (h : BrineHdr) (s : State) (r : Nat), s.hears h = true → s.crustFrom h = some r → LinesLatched s →
    (∃ t, exec (.heartbeatRx h) s = .next t ∧ t.crust.heard = listAdd s.crust.heard r ∧ Kv.getD t.crust.missed r 0 = 0 ∧ t.mem = s.mem ∧
      t.flt = s.flt) ∧
    (InOrder h s → s.crust.lost.contains r = false → ∃ t, exec (.withdrawalRx h) s = .next t ∧ t.crust.lost = listAdd s.crust.lost r ∧
      s.flt.nextSeq < t.flt.nextSeq ∧ t.mem.ram = s.mem.ram) ∧
    (InOrder h s → s.crust.lost.contains r = true → ∃ t, exec (.withdrawalRx h) s = .next t ∧ t.crust.lost = s.crust.lost ∧
      Kv.getD t.crust.missed r 0 = s.ent Ent.crustLossAfter ∧ t.mem = s.mem ∧ t.flt = s.flt)

/-- A member, or a spare that stands in the group already, counts a rank as lost with no unit of either under way, and with no step in flight or the lost rank's M2 mirror made. -/
def Sys2Proof.LossIsDue (rank : Fin 8) (mirrored : Bool) (s : State) : Prop :=
  s.pwr.on = true ∧ (s.inCrust || s.crustTaker) = true ∧ rank.val ≠ s.crustRankOf ∧
    (s.crust.lost.contains rank.val = true ∨ s.ent Ent.crustLossAfter ≤ Kv.getD s.crust.missed rank.val 0) ∧
    (mirrored = true ∨ s.phase = 0) ∧ s.crust.heldDeltas = [] ∧ s.crust.units = [] ∧ LinesLatched s

/-- R300, R303, R314: a first loss in a fresh crust begins a rebuild onto the first eligible spare, or without one leaves the crust
degraded; a loss in a stale crust, in a resync, beside another lost rank, or at a spare that is being filled degrades it; the loss of the spare passes the rank to the next
eligible one. -/
def Sys2Proof.LostMembersAreRebuiltOnce : Prop :=
  ∀ (rank : Fin 8) (mirrored : Bool) (units : List Nat) (answers : List SpareAnswer) (s : State), LossIsDue rank mirrored s →
    let c := Instr.memberLost rank mirrored units answers
    let alone := s.crust.lost.all (· == rank.val)
    (s.crust.handled.contains rank.val = false → s.crust.rebuilding = none →
      (alone = true → s.crust.taking = none → s.ent Ent.crustState = 2 →
        (∀ j, s.takenSpare 0 answers = some j → ∃ t, exec c s = .next t ∧ t.crust.lost.contains rank.val = true ∧
          t.crust.handled.contains rank.val = true ∧ t.ent Ent.crustState = 4 ∧ t.crust.rebuilding = some (rank.val, j) ∧
          t.mem.ram = s.mem.ram) ∧
        (s.takenSpare 0 answers = none → HostIdle s → s.prog.pool.filter s.applyOver = [] → ∃ t, exec c s = .next t ∧ t.crust.lost.contains rank.val = true ∧
          t.ent Ent.crustState = 5 ∧ t.crust.rebuilding = none ∧ t.crust.unserved = some rank.val ∧ t.mem.ram = s.mem.ram)) ∧
      (alone = false ∨ s.crust.taking ≠ none ∨ (s.crust.unserved = none ∧ (s.ent Ent.crustState = 1 ∨ s.ent Ent.crustState = 3)) →
        HostIdle s → s.prog.pool.filter s.applyOver = [] → ∃ t, exec c s = .next t ∧ t.crust.lost.contains rank.val = true ∧
          t.ent Ent.crustState = 5 ∧ t.crust.rebuilding = none ∧ t.crust.taking = none ∧ t.crust.resync = false ∧
          t.mem.ram = s.mem.ram)) ∧
    ∀ j k, s.crust.taking = none → s.crust.handled.contains rank.val = true → s.crust.lost.contains rank.val = true → alone = true →
      s.crust.rebuilding = some (rank.val, j) → s.ent Ent.crustState = 4 →
      s.ent Ent.crustLossAfter ≤ Kv.getD s.crust.missed rank.val 0 → s.takenSpare (j + 1) answers = some k →
      ∃ t, exec c s = .next t ∧ t.crust.rebuilding = some (rank.val, k) ∧ t.ent Ent.crustState = 4 ∧
        t.ent Ent.crustRebuildBytes = 0 ∧ t.mem.ram = s.mem.ram ∧ t.flt = s.flt

/-- R299, R300, R303, R314: heartbeats, withdrawals and lost members. Corners that the spec leaves open follow the model's choice (log
54). -/
def Obligations.SilentMembersAreLost : Prop := HeartbeatsShowLostMembers ∧ LostMembersAreRebuiltOnce

/-- R304, R314, R391, R219: an epoch change, the next of its group or one for a node that the group still holds, puts the spare in the
lost node's place and raises the group's epoch by 1, and any other leaves the group; a spare that has not mapped the lost member's pages
takes the change only after that (R301). Its acknowledgement is waited for no more once it comes; a notice for the step in flight makes the
module enter abandon without notices of its own. -/
def Sys2Proof.EpochsChangeTogether : Prop :=
  ∀ (h : BrineHdr) (s : State), InOrder h s →
    (let e := s.group h.group.val
      let lost := leAt h.payload 2 2
      s.mapsFirst h = false → ∃ t, exec (.epochChangeRx h) s = .next t ∧ (∀ g, g ≠ h.group.val → t.group g = s.group g) ∧ t.mem = s.mem ∧ t.flt = s.flt ∧
        (h.epoch = e.epoch + 1 ∨ (e.members.take e.p).contains lost = true →
          t.group h.group.val = e.replace s.node lost (leAt h.payload 4 2) ∧
          (t.group h.group.val).epoch = (e.epoch + 1) % 2 ^ 32) ∧
        (h.epoch ≠ e.epoch + 1 → (e.members.take e.p).contains lost = false → t.group h.group.val = e)) ∧
    (s.mapsFirst h = true → ∃ t, exec (.epochChangeRx h) s = .next t ∧ t.crust.heldChange = s.crust.heldChange ++ [h] ∧
      t.links.groups = s.links.groups ∧ t.mem = s.mem ∧ t.flt = s.flt) ∧
    (∃ t, exec (.epochAckRx h) s = .next t ∧ t.crust.epochWait = listErase s.crust.epochWait (65536 * h.group.val + h.src) ∧
      t.links.groups = s.links.groups ∧ t.mem = s.mem ∧ t.flt = s.flt) ∧
    (h.group.val = s.ent Ent.trainRunGroup → h.step = s.ent Ent.trainStepIndex % 65536 → (s.others h.group.val).contains h.src = true →
      s.phase = 1 → ∃ t, exec (.abandonNoticeRx h) s = .next t ∧ t.phase = 2 ∧ t.train.abandoned = true ∧
        t.ent Ent.commitAbandons = satAdd 64 (s.ent Ent.commitAbandons) 1 ∧
        t.ent Ent.commitNoticesSent = s.ent Ent.commitNoticesSent ∧ t.mem = s.mem ∧ t.flt = s.flt)

/-- R300, R301, R303: an eligible spare takes the rank that it is offered; a spare that has every stream and intact control state, with no
step in flight, stands at its rank with the crust fresh, and one whose control state is damaged leaves the crust degraded; a survivor's rebuild ends with the crust fresh and the rank no longer lost. -/
def Sys2Proof.SparesStandAtTheLostRank : Prop :=
  (∀ (o : SpareOffer) (s : State), s.pwr.on = true → s.crust.taking = none → s.eligible o = true →
    ∃ t, exec (.hotSpareOfferRx o) s = .next t ∧ t.crust.taking = some o.rank.val ∧ t.ent Ent.crustState = 4 ∧
      t.ent Ent.crustRebuildBytes = 0 ∧ t.mem = s.mem ∧ t.cores = s.cores ∧ t.flt = s.flt) ∧
  ∀ (ledger : List (Nat × Nat)) (s : State), s.pwr.on = true → LinesLatched s →
    (∀ r, s.crust.taking = some r → s.spareFilled r = true → s.ownOk (s.m3Parts ((Kv.find? s.crust.own 3).getD [])) = true →
      s.flightOf = none → ∃ t, exec (.rebuildComplete ledger) s = .next t ∧ t.crust.taking = none ∧ t.ent Ent.crustRole = 0 ∧
        t.ent Ent.crustState = 2 ∧ t.mem.ram = s.mem.ram) ∧
    (∀ r, s.crust.taking = some r → s.spareFilled r = true → s.ownOk (s.m3Parts ((Kv.find? s.crust.own 3).getD [])) = false →
      ∃ t, exec (.rebuildComplete ledger) s = .next t ∧ t.ent Ent.crustState = 5 ∧ s.flt.nextSeq < t.flt.nextSeq ∧
        t.mem.ram = s.mem.ram) ∧
    (∀ r j, s.crust.taking = none → s.crust.rebuilding = some (r, j) → s.crust.epochWait = [] → HostIdle s →
      ∃ t, exec (.rebuildComplete ledger) s = .next t ∧ t.crust.rebuilding = none ∧ t.crust.lost = listErase s.crust.lost r ∧
        t.ent Ent.crustState = 2 ∧ t.ent Ent.crustFreshStep = s.ent Ent.trainStepIndex ∧ t.mem = s.mem ∧ t.flt = s.flt)

/-- R219, R300, R301, R303, R304, R391: epochs, offers to spares, and the end of a rebuild. Corners that the spec leaves open follow the
model's choice (log 54, 89, 105). -/
def Obligations.GroupsReplaceALostMember : Prop := EpochsChangeTogether ∧ SparesStandAtTheLostRank

/-! ## Messages and entries -/

/-- The commands of Ixique requests in band, with their op codes. -/
def Sys2Proof.mailboxRequests : List (Nat × Instr) :=
  [(1, .ixiqueRead .mailbox), (2, .ixiqueWrite .mailbox), (3, .ixiqueDescribe .mailbox), (4, .segmentRead .mailbox),
    (5, .segmentWrite .mailbox)]

/-- R353, R355, R360: the oldest mailbox message is taken whatever request is processed, if it is malformed: its slot reads 3, and it is
counted as rejected. R354: a request repeated within a second is answered with the stored response, and performs nothing. -/
def Sys2Proof.MailboxMessagesAreAnsweredOnce : Prop :=
  ∀ (s : State) (n : Nat) (msg : List Byte) (rest : List (Nat × List Byte)), s.pwr.on = true → s.comm.queue = (n, msg) :: rest →
    n < 16 → (s.slot n).state = 1 → ∀ r ∈ mailboxRequests,
    (parseMsg true msg = none → ∃ t, exec r.2 s = .next t ∧ t.comm.queue = rest ∧ t.slot n = { state := 3, bytes := (s.slot n).bytes } ∧
      t.ent Ent.mbxRejected = satAdd 64 (s.ent Ent.mbxRejected) 1 ∧ t.mem = s.mem ∧ t.cores = s.cores ∧ t.flt = s.flt) ∧
    (∀ h b, parseMsg true msg = some h → h.op = r.1 → s.repeated mailboxSource h.transaction = some b → ∃ t, exec r.2 s = .next t ∧
      t.comm.queue = rest ∧ t.slot n = { state := 2, bytes := overSlot (s.slot n).bytes b } ∧
      t.ent Ent.mbxDuplicates = satAdd 64 (s.ent Ent.mbxDuplicates) 1 ∧ (∀ k, k ≠ Ent.mbxDuplicates → t.ent k = s.ent k) ∧
      t.dict.last = s.dict.last ∧ t.dict.pend = s.dict.pend ∧ t.mem = s.mem ∧ t.cores = s.cores ∧ t.train = s.train ∧ t.prog = s.prog ∧
      t.flt = s.flt)

/-- The commands of Ixique requests on the field network, with their op codes. -/
def Sys2Proof.fieldRequests (p : FieldPacket) : List (Nat × Instr) :=
  [(1, .ixiqueRead (.field p)), (2, .ixiqueWrite (.field p)), (3, .ixiqueDescribe (.field p)), (4, .segmentRead (.field p)),
    (5, .segmentWrite (.field p))]

/-- R353, R362, R363, R355: a packet of another protocol or for another address is ignored, whatever its hop limit; a field message whose
checksum or layout fails is dropped and counted; one for another module does nothing; a repeated one is answered, after the mailbox
messages that stand before it, with the stored response to its own sender. -/
def Sys2Proof.FieldMessagesAreForTheModule : Prop :=
  ∀ (s : State) (p : FieldPacket), s.pwr.on = true → s.isReady 0 = true → ∀ r ∈ fieldRequests p,
    (p.udp = false ∨ (p.dst ≠ allNodes ∧ (s.nodeId = 0xFF ∨ p.dst ≠ nodeAddr s.nodeId)) → exec r.2 s = .next s) ∧
    (s.takesPacket p = true →
      (p.checksumOk = false ∨ parseMsg false p.bytes = none → exec r.2 s = .next (s.bump 64 Ent.fieldDropped 1)) ∧
      (∀ h, p.checksumOk = true → parseMsg false p.bytes = some h → h.dest ≠ 0xFF → h.dest ≠ s.nodeId ∨ p.dst = allNodes →
        exec r.2 s = .next s) ∧
      (∀ h b, p.checksumOk = true → parseMsg false p.bytes = some h → h.op = r.1 → h.dest = s.nodeId → s.nodeId ≠ 0xFF →
      p.dst ≠ allNodes →
      let d := State.drainMailbox s.comm.queue.length s
      d.nodeId ≠ 0xFF → h.src ≠ d.nodeId → d.repeated h.src h.transaction = some b → ∃ t, exec r.2 s = .next t ∧
        t.comm = { d.comm with outbox := d.comm.outbox ++ [.response p.src b] } ∧
        t.ent Ent.fieldDuplicates = satAdd 64 (d.ent Ent.fieldDuplicates) 1 ∧ (∀ k, k ≠ Ent.fieldDuplicates → t.ent k = d.ent k) ∧
        t.mem = d.mem ∧ t.cores = d.cores ∧ t.train = d.train ∧ t.prog = d.prog ∧ t.flt = d.flt))

/-- R353 to R355, R360, R362, R363: which requests are taken, and which are repeated. Corners that the spec leaves open follow the model's
choice (log 13). -/
def Obligations.RequestsAreAnsweredOnce : Prop := MailboxMessagesAreAnsweredOnce ∧ FieldMessagesAreForTheModule

/-- The mailbox's oldest message is a new request of one op and item. -/
def Sys2Proof.Asks (s : State) (n : Nat) (msg : List Byte) (rest : List (Nat × List Byte)) (h : MsgHdr) (op : Nat) : Prop :=
  s.pwr.on = true ∧ s.comm.queue = (n, msg) :: rest ∧ n < 16 ∧ (s.slot n).state = 1 ∧ parseMsg true msg = some h ∧ h.op = op ∧ h.items = 1 ∧
    s.repeated mailboxSource h.transaction = none ∧ LinesLatched s

/-- The slot of a request holds the response with a body over its first bytes, at state 2; the message is taken. -/
def Sys2Proof.Answered (s t : State) (n : Nat) (rest : List (Nat × List Byte)) (h : MsgHdr) (body : List Byte) : Prop :=
  t.comm.queue = rest ∧ t.slot n = { state := 2, bytes := overSlot (s.slot n).bytes (msgBytes (h.op + 0x80) h.src s.nodeId h.transaction 1 body) }

/-- Nothing stored for an entry fails its check as it is read (R343, R346). -/
def Sys2Proof.StoredSound (s : State) (rest : List (Nat × List Byte)) (k : Nat) : Prop :=
  ({ s with comm.queue := rest } : State).checkStored k = { s with comm.queue := rest }

/-- Entries whose write only sets them. -/
def Sys2Proof.plainEntries : List Nat :=
  [Ent.memInspectPage, Ent.memReqCount, Ent.arbHoldPan, Ent.arbHoldCore, Ent.arbHoldCluster, Ent.arbHoldDie, Ent.evExportFirst,
    Ent.evExportAddress, Ent.faultSelLevel, Ent.hostWindowBase, Ent.secStageAddress]

/-- R345, R349, R357: an item that no check fails is performed: a read or a describe shows the entry and changes nothing; a write of a
plain live entry sets that entry alone; a write of a boundary entry in a step waits, and the value in force stays. A write that a check
fails answers with that check's code, sets nothing, and is recorded. -/
def Sys2Proof.ItemsAreCheckedThenPerformed : Prop :=
  ∀ (s : State) (n : Nat) (msg : List Byte) (rest : List (Nat × List Byte)) (h : MsgHdr),
    let k := itemKey (h.body.take 24)
    (∀ e, Asks s n msg rest h 1 → s.row? k = some e → s.unreachable k = false → StoredSound s rest k →
      ∃ t o, exec (.ixiqueRead .mailbox) s = .next t ∧ Answered s t n rest h (itemBytes k o) ∧ o.status = 0 ∧
        ((leAt h.body 5 1).testBit 0 = false → o.value = s.readValue e k) ∧ (∀ j, j ≠ Ent.mbxMessages → t.ent j = s.ent j) ∧
        t.mem = s.mem ∧ t.cores = s.cores ∧ t.flt = s.flt) ∧
    (∀ e, Asks s n msg rest h 3 → s.row? k = some e → s.unreachable k = false →
      ∃ t o, exec (.ixiqueDescribe .mailbox) s = .next t ∧ Answered s t n rest h (itemBytes k o) ∧ o.status = 0 ∧
        o.value = s.describedDefault k e ∧ (∀ j, j ≠ Ent.mbxMessages → t.ent j = s.ent j) ∧ t.mem = s.mem ∧ t.cores = s.cores ∧
        t.flt = s.flt) ∧
    (∀ e ty v w, Asks s n msg rest h 2 → s.row? k = some e → ty = leAt h.body 4 1 → v = leAt h.body 8 8 → w = leAt h.body 16 8 →
      s.writeCheck k ty v w = 0 → plainEntries.contains k = true → e.apply ≠ .boundary →
      ∃ t o, exec (.ixiqueWrite .mailbox) s = .next t ∧ Answered s t n rest h (itemBytes k o) ∧ o.status = 0 ∧ t.ent k = v ∧
        (∀ j, j ≠ k → j ≠ Ent.mbxMessages → t.ent j = s.ent j) ∧ t.mem = s.mem ∧ t.cores = s.cores ∧ t.flt = s.flt) ∧
    (∀ e ty v w, Asks s n msg rest h 2 → s.row? k = some e → ty = leAt h.body 4 1 → v = leAt h.body 8 8 → w = leAt h.body 16 8 →
      s.writeCheck k ty v w = 0 → e.apply = .boundary → s.phase ≠ 0 → ¬(0x3480 ≤ k / 256 ∧ k / 256 ≤ 0x34BF ∧ k % 256 = 8) →
      ∃ t o, exec (.ixiqueWrite .mailbox) s = .next t ∧ Answered s t n rest h (itemBytes k o) ∧ o.status = 0 ∧
        t.dict.pend = (s.dict.pend.filter (fun e => e.1 != k)) ++ [(k, v)] ∧ (∀ j, j ≠ Ent.mbxMessages → t.ent j = s.ent j) ∧
        t.mem = s.mem ∧ t.cores = s.cores ∧ t.flt = s.flt) ∧
    (∀ ty v w c, Asks s n msg rest h 2 → ty = leAt h.body 4 1 → v = leAt h.body 8 8 → w = leAt h.body 16 8 → s.writeCheck k ty v w = c →
      c ≠ 0 → ∃ t o, exec (.ixiqueWrite .mailbox) s = .next t ∧ Answered s t n rest h (itemBytes k o) ∧ o.status = c ∧
        s.flt.nextSeq < t.flt.nextSeq ∧ t.dict.pend = s.dict.pend ∧ t.mem.ram = s.mem.ram)

/-- R358: a segment of a string or domain is read where the request names it, and nothing changes; the first segment of a longer write
opens its transfer, and the entry stays until the last. -/
def Sys2Proof.SegmentsAreTransferred : Prop :=
  ∀ (s : State) (n : Nat) (msg : List Byte) (rest : List (Nat × List Byte)) (h : MsgHdr),
    let x := segOf h.body
    (∀ e, Asks s n msg rest h 4 → s.row? x.k = some e → e.isBlob = true → x.len ≤ 512 → s.unreachable x.k = false →
      StoredSound s rest x.k →
      ∃ t o, exec (.segmentRead .mailbox) s = .next t ∧ Answered s t n rest h (segBytes x.k o) ∧ o.status = 0 ∧
        o.data = slice (s.blob x.k) x.off (if x.len = 0 then 512 else x.len) ∧ o.total = (s.blob x.k).length ∧ t.mem = s.mem ∧
        t.cores = s.cores ∧ t.flt = s.flt) ∧
    (Asks s n msg rest h 5 → s.segCheck mailboxSource x = 0 → x.flags = 1 → x.off = 0 → x.data.length ≤ blobMax x.k →
      ∃ t o, exec (.segmentWrite .mailbox) s = .next t ∧ Answered s t n rest h (segBytes x.k o) ∧ o.status = 0 ∧
        t.dict.transfers = (s.dict.transfers.filter fun y => y.source != mailboxSource) ++
          [{ source := mailboxSource, key := x.k, bytes := x.data, time := s.now }] ∧
        t.dict.blobs = s.dict.blobs ∧ t.mem = s.mem ∧ t.cores = s.cores ∧ t.flt = s.flt)

/-- R345, R349, R357, R358: items and segments of one request. Corners that the spec leaves open follow the model's choice (log 10, 17).
-/
def Obligations.EntriesAnswerByTheirChecks : Prop := ItemsAreCheckedThenPerformed ∧ SegmentsAreTransferred

/-- What the host writes before a doorbell touches nothing else than the message: no other byte of BAR 2, and no register. -/
def Sys2Proof.plainBell (w : Bar2Writes) : Prop :=
  w.irqEnable = none ∧ w.masks = [] ∧ w.bytes = [] ∧ w.config = [] ∧ w.bell = true

/-- R358 to R360, R375, R379: transfers without a segment for a second are discarded; a doorbell copies a free slot's message into the
queue, and one that names a slot in use, or none, is ignored and counted; only a 0 frees a slot that has been answered. A slot's bytes
read as the host wrote them, and reserved offsets read 0 and ignore writes. In D3hot a request completes with Unsupported Request. The
writes of the host ride on the doorbell, DESIGN CHOICE (log 95); corners that the spec leaves open follow the model's choice (log 17,
19). -/
def Obligations.TheMailboxKeepsItsSlots : Prop :=
  ∀ s : State,
    (exec .segmentTransferTimeout s =
      .next { s with dict.transfers := s.dict.transfers.filter fun x => decide (s.now < x.time + 32768) }) ∧
    (s.isReady 1 = true → s.links.host.d3 = false → s.links.host.perst = false → LinesLatched s → HostIdle s →
      ∀ (value : BitVec 32) (w : Bar2Writes), (toBar2 w = true → w.config = [] → exec (.mailboxDoorbell value w) s = .next (s.ring value w)) ∧
      (plainBell w →
      (value.toNat < 16 → (s.slot value.toNat).state = 0 → ∃ t, exec (.mailboxDoorbell value w) s = .next t ∧
        t.slot value.toNat = { state := 1, bytes := w.message } ∧ t.comm.queue = s.comm.queue ++ [(value.toNat, w.message)] ∧
        (∀ n, n ≠ value.toNat → t.slot n = s.slot n) ∧ t.mem = s.mem ∧ t.dict = s.dict ∧ t.flt = s.flt) ∧
      (16 ≤ value.toNat ∨ (s.slot value.toNat).state ≠ 0 → exec (.mailboxDoorbell value w) s = .next (s.bump 64 Ent.mbxDoorbellIgnored 1)))) ∧
    (s.isReady 1 = true → s.links.host.d3 = false → s.links.host.perst = false → ∀ (n : Fin 16) (v : Byte),
      (v = 0 → 2 ≤ (s.slot n).state → ∃ t, exec (.mailboxSlotFree n v) s = .next t ∧ t.slot n = { s.slot n with state := 0 } ∧
        (∀ m, m ≠ n.val → t.slot m = s.slot m) ∧ t.mem = s.mem ∧ t.dict = s.dict ∧ t.comm.queue = s.comm.queue) ∧
      (v ≠ 0 ∨ (s.slot n).state < 2 → exec (.mailboxSlotFree n v) s = .next s)) ∧
    (∀ off b, (off < 0x8000 → (s.writeBar2 off b).bar2Byte off = b) ∧
      ((0x8020 ≤ off ∧ off < 0x10000) ∨ (0x10200 ≤ off ∧ off < 0x18000) ∨ 0x18004 ≤ off → s.bar2Byte off = 0 ∧ s.writeBar2 off b = s)) ∧
    (s.links.host.up = true → s.links.host.d3 = true →
      (∀ value w, toBar2 w = true → w.config = [] → exec (.mailboxDoorbell value w) s = .next { s with links.host.aerUr := true }) ∧
      ∀ n v, exec (.mailboxSlotFree n v) s = .next { s with links.host.aerUr := true })

/-- R364 to R367, R372: a module without an ID whose ADDR_IN is high takes the ID after the chain frame's, and drives ADDR_OUT; any other
ignores the frame, and keeps only, from node 0's, where notifies go. A chain reset drops the ID and all that waits to be sent; a notify
waits once for a change since the last; each transmit opportunity sends the oldest frame that waits, to the address it is for. Memory
stays. Corners that the spec leaves open follow the model's choice (log 18). -/
def Obligations.TheChainGivesTheModuleItsId : Prop :=
  ∀ s : State, s.pwr.on = true →
    (s.isReady 0 = true → ∀ (src : Fin 256) (from_ : FieldAddr),
      (s.nodeId = 0xFF → s.comm.addrIn = true → src.val < 31 → ∃ t, exec (.chain src from_) s = .next t ∧ t.nodeId = src.val + 1 ∧
        t.comm.addrOut = true ∧ t.comm.outbox = [.chain (src.val + 1)] ∧ t.comm.transmitting = true ∧
        t.comm.chainFrom = (if src.val = 0 then from_ else s.comm.chainFrom) ∧ t.mem = s.mem ∧ t.flt = s.flt) ∧
      ((s.nodeId ≠ 0xFF ∧ src.val ≠ s.nodeId) ∨ (s.nodeId = 0xFF ∧ s.comm.addrIn = false) →
        exec (.chain src from_) s = .next { s with comm.chainFrom := if src.val = 0 then from_ else s.comm.chainFrom })) ∧
    (s.isReady 0 = true → ∃ t, exec .chainReset s = .next t ∧ t.nodeId = 0xFF ∧ t.comm.addrOut = false ∧ t.comm.outbox = [] ∧
      t.comm.transmitting = false ∧ t.flt.nextSeq = s.flt.nextSeq + 1 ∧ t.mem = s.mem) ∧
    (s.comm.notifyDue = false → ∃ t, exec .notify s = .next t ∧ t.comm.outbox = s.comm.outbox ∧ t.mem = s.mem ∧ t.dict = s.dict ∧
      t.flt = s.flt) ∧
    (s.nodeId ≠ 0xFF → s.ent Ent.fieldNotifyEnable = 1 → s.comm.notifyDue = true → s.paced s.comm.notifyAt = true →
      s.comm.outbox.contains .notify = false → ∃ t, exec .notify s = .next t ∧ t.comm.outbox = s.comm.outbox ++ [.notify] ∧
        t.mem = s.mem ∧ t.dict = s.dict ∧ t.flt = s.flt) ∧
    (∀ f rest, s.comm.transmitting = true → s.comm.outbox = f :: rest → ∃ t, exec .plcaTransmitOpportunity s = .next t ∧
      t.comm.outbox = rest ∧ t.comm.lastSent = s.frameBytes f ∧ t.comm.lastTo = s.frameTo f ∧ t.ent Ent.fieldTxMessages = satAdd 64 (s.ent Ent.fieldTxMessages) 1 ∧
      (f = .notify → t.comm.notifyDue = false ∧ t.comm.notifyAt = some s.now) ∧ t.mem = s.mem ∧ t.flt = s.flt)

/-! ## The host port and the links -/

/-- The function as a reset of the port leaves it: its registers, interrupts and mailbox at their reset values, doorbells and reads that
waited lost; posted writes that have arrived stay, and so does everything outside the port. -/
def Sys2Proof.FunctionIsReset (s t : State) : Prop :=
  t.ent Ent.hostWindowBase = 0 ∧ t.links.host.barLog = 43 ∧ t.links.host.maxPayload = 128 ∧ t.links.host.d3 = false ∧
    t.comm.irqEnable = false ∧ t.comm.masked = List.range 32 ∧ t.comm.msix = [] ∧ t.comm.pba = [] ∧ (∀ n, (t.slot n).state = 0) ∧ t.links.host.held = s.links.host.held ∧
    t.links.host.bells = [] ∧ t.links.host.heldReads = [] ∧ t.mem = s.mem ∧ t.cores = s.cores ∧ t.prog = s.prog ∧ t.train = s.train ∧ t.flt = s.flt

/-- The host link is down, with its two readiness bits clear. -/
def Sys2Proof.HostLinkDown (t : State) : Prop := t.links.host.up = false ∧ t.isReady 1 = false ∧ t.isReady 2 = false

/-- R361, R373, R375, R379, R396, R418: PERST# and Hot Reset reset the function and take the link down, and PERST# alone lets it train to
its highest rate again; a Function Level Reset leaves the link up and its readiness as it was. The module outside the port runs on. PERST#
released lets the port train; a change of power state keeps everything else. The host resizes BAR 4 and sets the maximum payload. What a
reset leaves of interrupts and of the maximum payload, and how configuration writes come, is the model's choice (log 20, 95). -/
def Obligations.HostResetsStayInThePort : Prop :=
  ∀ s : State,
    (s.links.host.perst = false → ∃ t, exec .perstAssert s = .next t ∧ FunctionIsReset s t ∧ HostLinkDown t ∧ t.links.host.perst = true ∧
      t.links.host.maxRate = 128) ∧
    (s.pwr.on = true → s.links.host.perst = false → ∃ t, exec .hotReset s = .next t ∧ FunctionIsReset s t ∧ HostLinkDown t ∧
      t.links.host.perst = false ∧ t.links.host.maxRate = s.links.host.maxRate) ∧
    (s.links.host.up = true → ∃ t, exec .functionLevelReset s = .next t ∧ FunctionIsReset s t ∧ t.links.host.up = true ∧
      t.links.host.rate = s.links.host.rate ∧ t.links.host.maxRate = s.links.host.maxRate ∧
      t.ent Ent.readySummary = s.ent Ent.readySummary) ∧
    exec .perstDeassert s = .next { s with links.host.perst := false } ∧
    (s.links.host.up = true → ∀ d, exec (.powerStateChange d) s = .next { s with links.host.d3 := decide (d = .d3hot) }) ∧
    (s.links.host.up = true → ∀ (value : BitVec 32) (c : ConfigWrite),
      let w : Bar2Writes := { message := [], irqEnable := none, masks := [], config := [c], bell := false }
      (∀ n, c = .barSize n → ∃ t, exec (.mailboxDoorbell value w) s = .next t ∧ t.barSize = 2 ^ (36 + n.val) ∧ t.mem = s.mem ∧
        t.dict = s.dict ∧ t.comm = s.comm) ∧
      (∀ n, c = .maxPayload n → ∃ t, exec (.mailboxDoorbell value w) s = .next t ∧ t.links.host.maxPayload = 128 * 2 ^ n.val ∧
        t.mem = s.mem ∧ t.dict = s.dict ∧ t.comm = s.comm))

/-- A host request lies in the BAR and, through the window, in ordinary pages whose entries are sound. -/
def Sys2Proof.HostReaches (s : State) (offset len : Nat) : Prop :=
  s.links.host.up = true ∧ s.flt.fatal = 0 ∧ 0 < len ∧ offset + len ≤ s.barSize ∧
    s.windowAddr offset + len ≤ firstReserved * pageBytes ∧ s.mem.mapBad = [] ∧ s.mem.mapLost = [] ∧ HostIdle s ∧ LinesLatched s

/-- R250, R266, R376, R377: a host read through the window returns the bytes of memory from its address, poisoned where a line of it is, and
waits where lines of it are being rebuilt or its device's link is down; a host write stores exactly its bytes there. In D3hot a read and a
write complete with Unsupported Request (R379); a request beyond the BAR is none of its own (R375). A read of a page that is not mapped completes with Unsupported Request under a violation record; a write that a page
refuses is dropped and recorded. After a Fatal fault the port moves nothing (log 64). Corners that the spec leaves open follow the model's
choice (log 6, 21, 87). -/
def Obligations.TheWindowReachesMemory : Prop :=
  ∀ (offset : Nat) (s : State),
    let a := s.windowAddr offset
    (∀ len, HostReaches s offset len → s.links.host.d3 = false → s.rangeTrouble a len = none →
      ∃ t, exec (.hostBar4Read offset len) s = .next t ∧ t.links.host.completion = (0, s.memRead a len) ∧ t.mem.ram = s.mem.ram ∧
        t.mem.map = s.mem.map ∧ t.flt = s.flt) ∧
    (∀ len, HostReaches s offset len → s.links.host.d3 = false → (∀ p ∈ pagesOf a len, (s.mapEntry p).v = true) →
      (∀ x, s.rangeTrouble a len = some (.poisoned x) → ∃ t, exec (.hostBar4Read offset len) s = .next t ∧
        t.links.host.completion = (2, s.memRead a len) ∧ s.flt.nextSeq < t.flt.nextSeq ∧ t.mem.ram = s.mem.ram) ∧
      (∀ p, s.rangeTrouble a len = some (.pending p) → ∃ t, exec (.hostBar4Read offset len) s = .next t ∧
        t.links.host.heldReads = [(offset, len)] ∧ t.links.host.completion = s.links.host.completion ∧ t.mem.rebuildNext =
          (if s.mem.lostPages.contains p then some p else s.mem.rebuildNext) ∧ t.mem.ram = s.mem.ram ∧ t.flt = s.flt)) ∧
    (s.flt.fatal ≠ 0 → (∀ len, exec (.hostBar4Read offset len) s = .next s) ∧
      ∀ data, exec (.hostBar4Write offset data) s = .next s) ∧
    (∀ data, HostReaches s offset data.length → s.links.host.d3 = false → s.writeCode true a data.length = 0 →
      (∀ p ∈ pagesOf a data.length, (Kv.find? s.mem.migrating p).isNone = true) → s.crustMember = false →
      ∃ t, exec (.hostBar4Write offset data) s = .next t ∧ t.links.host.held = [] ∧
        ∀ x, t.ramByte x = if a ≤ x ∧ x < a + data.length then data.getD (x - a) 0 else s.ramByte x) ∧
    (∀ len, HostReaches s offset len → s.links.host.d3 = true →
      (∃ t, exec (.hostBar4Read offset len) s = .next t ∧ t.links.host.completion = (1, []) ∧ t.mem = s.mem ∧ t.flt = s.flt) ∧
      ∀ data : List Byte, data.length = len → exec (.hostBar4Write offset data) s = .next { s with links.host.aerUr := true }) ∧
    (∀ len, s.barSize < offset + len → exec (.hostBar4Read offset len) s = .next s ∧
      ∀ data : List Byte, data.length = len → exec (.hostBar4Write offset data) s = .next s) ∧
    (∀ len, HostReaches s offset len → s.links.host.d3 = false → a % pageBytes + len ≤ pageBytes →
      ((s.mapEntry (pageOf a)).v = false → ∃ t, exec (.hostBar4Read offset len) s = .next t ∧ t.links.host.completion = (1, []) ∧
        s.flt.nextSeq < t.flt.nextSeq ∧ t.mem.ram = s.mem.ram) ∧
      ∀ data : List Byte, data.length = len → s.pageWriteCode true (pageOf a) ≠ 0 → ∃ t, exec (.hostBar4Write offset data) s = .next t ∧
        t.links.host.held = [] ∧ t.links.host.aerUr = true ∧ s.flt.nextSeq < t.flt.nextSeq ∧ t.mem.ram = s.mem.ram)

/-- R380, R382, R389, R396: an error of the host's, a device's or a lane's link is a LINK fault that takes a record; a device's link that
trains below what it should runs so, at the rates and widths that there are. A host link that goes down
is down until it has retrained, a device's likewise; a lane that loses lock is not live, one that fails training is retired, and codewords
that a lane's FEC corrects are no error and only count (R397). No byte changes. -/
def Sys2Proof.LinkErrorsAreRecorded : Prop :=
  ∀ s : State, s.pwr.on = true → LinesLatched s →
    (∀ e, s.links.host.perst = false → ∃ t, exec (.pcieLinkError e) s = .next t ∧ s.flt.nextSeq < t.flt.nextSeq ∧
      (e = .linkDown → t.links.host.up = false) ∧ t.mem.ram = s.mem.ram) ∧
    (∀ d : CxlId, (∃ t, exec (.cxlLinkError d .replay) s = .next t ∧ s.flt.nextSeq < t.flt.nextSeq ∧ t.mem.ram = s.mem.ram) ∧
      (∃ t, exec (.cxlLinkError d .linkDown) s = .next t ∧ s.flt.nextSeq < t.flt.nextSeq ∧
        (Kv.getD t.links.cxl d.val {}).up = false ∧ t.mem.ram = s.mem.ram) ∧
      ((Kv.getD s.links.cxl d.val {}).up = false → ∃ t, exec (.cxlLinkError d .stillDown) s = .next t ∧
        s.flt.nextSeq < t.flt.nextSeq ∧ t.mem.ram = s.mem.ram) ∧
      ∀ rate width, (cxlTrains rate width = false → exec (.cxlLinkError d (.trainedBelow rate width)) s = .next s) ∧
        (cxlTrains rate width = true → rate < 64 ∨ width < 8 → HostIdle s →
          ∃ t, exec (.cxlLinkError d (.trainedBelow rate width)) s = .next t ∧ s.flt.nextSeq + 1 < t.flt.nextSeq ∧
            Kv.getD t.links.cxl d.val {} = { up := true, rate := rate, width := width, hdm := some hdmDecoder } ∧
            t.mem.ram = s.mem.ram)) ∧
    (∀ (p : PortId) (l : LaneId) (n : Nat), (s.lane (4 * p.val + l.val)).retired = false →
      exec (.brineLaneError p l (.corrected n)) s = .next (s.bump 64 (Ent.brineFecCorrected p.val) n)) ∧
    (∀ (p : PortId) (l : LaneId) (e : LaneErr), (s.lane (4 * p.val + l.val)).retired = false → (∀ n, e ≠ .corrected n) →
      ∃ t, exec (.brineLaneError p l e) s = .next t ∧ s.flt.nextSeq < t.flt.nextSeq ∧
        (e = .lossOfLock → (t.lane (4 * p.val + l.val)).live = false) ∧
        (e = .failsTraining → (t.lane (4 * p.val + l.val)).retired = true) ∧ t.mem.ram = s.mem.ram)

/-- R373, R380, R389, R396: a link that has trained, at a rate and width that it has, carries traffic again: the host's at no more than the rate it may reach, with its readiness bit; a
device's with its count of failed retrains at zero; a lane of a port in service. Memory stays, and nothing is latched. -/
def Sys2Proof.TrainedLinksCarryTraffic : Prop :=
  ∀ (rate width : Nat) (s : State), s.pwr.on = true →
    (hostRuns rate width = false → exec (.linkRetrainDone .host rate width) s = .next s) ∧
    (∀ d : CxlId, cxlTrains rate width = false → exec (.linkRetrainDone (.cxl d) rate width) s = .next s) ∧
    (s.links.host.perst = false → s.links.host.up = false → hostRuns rate width = true → ∃ t, exec (.linkRetrainDone .host rate width) s = .next t ∧
      t.links.host.up = true ∧ t.links.host.rate = min rate s.links.host.maxRate ∧ t.links.host.width = width ∧ t.isReady 2 = true ∧
      t.mem = s.mem ∧ t.flt = s.flt) ∧
    (∀ d : CxlId, (s.dev d.val).role ≠ 0xFE → cxlTrains rate width = true → 64 ≤ rate → 8 ≤ width → HostIdle s → LinesLatched s → ∃ t, exec (.linkRetrainDone (.cxl d) rate width) s = .next t ∧
      Kv.getD t.links.cxl d.val {} = { up := true, rate := rate, width := width, hdm := some hdmDecoder } ∧ (t.dev d.val).downCount = 0 ∧
      t.mem.map = s.mem.map ∧ t.mem.ram = s.mem.ram ∧ t.flt = s.flt) ∧
    (∀ (p : PortId) (l : LaneId), (s.lane (4 * p.val + l.val)).retired = false → s.links.portsOut.contains p.val = false →
      ∃ t, exec (.linkRetrainDone (.lane p l) rate width) s = .next t ∧ (t.lane (4 * p.val + l.val)).live = true ∧ t.mem = s.mem ∧
        t.flt = s.flt)

/-- R373, R380, R382, R389, R396, R397: link errors, and links that have trained. Corners that the spec leaves open follow the model's choice
(log 22, 23). -/
def Obligations.LinksFailAndTrainAgain : Prop := LinkErrorsAreRecorded ∧ TrainedLinksCarryTraffic

/-! ## The stockpile -/

/-- The pages of a snapshot are listed once each, with their own bytes in canonical form. -/
def Sys2Proof.SnapshotSound (w : Snapshot) : Prop :=
  (w.pages.map (·.1)).Nodup ∧ ∀ x ∈ w.pages, Kv.wf 0 x.2 = true ∧ ∀ c ∈ x.2, pageOf c.1 = x.1

/-- R306 to R309, R453: with its control image written a snapshot lets the next step admit; when its last page and its entry are in flash
it is complete, with the pages already copied and the rest as memory holds them, its bytes counted toward the rating. A restore that is
done has put the bytes of every page of the snapshot back, and no other. Corners that the spec leaves open follow the model's choice (log
55). -/
def Obligations.SnapshotsHoldMemoryAndGiveItBack : Prop :=
  ∀ s : State, s.pwr.on = true →
    (∀ w, s.stock.writing = some w → s.stock.imageWritten = false → ∃ t, exec .snapshotImageWritten s = .next t ∧
      t.stock = { s.stock with imageWritten := true } ∧ t.train.snapHold = false ∧ t.mem = s.mem ∧ t.dict = s.dict) ∧
    (∀ w, s.stock.writing = some w → s.stock.imageWritten = true → s.ent Ent.stockState ≠ 4 → LinesLatched s →
      ∃ t, exec .snapshotComplete s = .next t ∧ t.stock.writing = none ∧ t.stock.todo = [] ∧
        t.stock.snaps = s.stock.snaps ++ [{ w with pages := w.pages ++ s.stock.todo.map s.pageCells, complete := true }] ∧
        t.stock.lifeBytes = s.stock.lifeBytes + w.bytes ∧
        (s.stock.lifeBytes + w.bytes < wornBytes → t.ent Ent.stockState = 0 ∧ t.flt = s.flt) ∧
        (wornBytes ≤ s.stock.lifeBytes + w.bytes → s.stock.wornNoted = false → s.flt.nextSeq < t.flt.nextSeq) ∧ t.mem.ram = s.mem.ram) ∧
    (∀ v w, s.stock.restoring = some v → s.snapshot? v = some w → SnapshotSound w → MemoryCanonical s →
      ∃ t, exec .stockRestoreDone s = .next t ∧ t.stock.restoring = none ∧ t.ent Ent.stockState = 0 ∧
        (∀ x ∈ w.pages, ∀ a, pageOf a = x.1 → t.ramByte a = Kv.getD x.2 a 0) ∧
        ∀ a, (∀ x ∈ w.pages, pageOf a ≠ x.1) → t.ramByte a = s.ramByte a)

/-! ## Faults -/

/-- R315, R320, R332: FAULT_LATCH completes for every report of a class, a level that latches it and a unit, with no line waiting: a
violation is recorded; a mismatch does what its reader does, and its line is latched, under the class that R332 gives one that repeats; any
other report is latched, as judged, by the collector that its class names, and a fault of Severe or above acts after its record. Whatever
the latching asserts is latched in turn. -/
def Sys2Proof.ReportsAreLatchedAsJudged : Prop :=
  ∀ (r : FaultReport) (s : State), s.pwr.on = true → reportOk r = true → LinesLatched s →
    (r.cls = 0x11 → exec (.faultLatch r) s = .next (s.violation r.cause r.space r.addr 0)) ∧
    (r.cls = 0x10 →
      let f := forward 4 { r with atLeast := if r.source = intRake then max 2 r.atLeast else r.atLeast }
      let m := s.mismatch r
      exec (.faultLatch r) s = .next ((m.raise f).latchAll) ∧
      (r.source ≠ intSignature → ((m.judge f).sev < 2 → exec (.faultLatch r) s = .next (State.settle 1 (m.latchIn f (m.judge f)))) ∧
        (2 ≤ (m.judge f).sev → r.source = intGroup → exec (.faultLatch r) s = .next (State.settle 1
          ((m.setSource 0x10 f.level f.unit f.addr []).latchOne { f with cls := 0x14, level := .module, unit := 0, source := 0 }))) ∧
        (2 ≤ (m.judge f).sev → r.source ≠ intGroup → exec (.faultLatch r) s = .next (State.settle 1
          ((m.latchIn f (m.judge f)).severeEffects f (m.judge f)))))) ∧
    (r.cls ≠ 0x10 → r.cls ≠ 0x11 →
      let f := forward 4 r
      let v := s.judge f
      (v.sev < 2 → exec (.faultLatch r) s = .next (State.settle 1 (s.latchIn f v))) ∧
      (2 ≤ v.sev → exec (.faultLatch r) s = .next (State.settle 1 ((s.latchIn f v).severeEffects f v))))

/-- R315, R316, R332: a report of a class that latches takes a record; with a free slot 1 at the collector that its class names, the fault
takes it. A violation is counted and recorded, and takes no slot. No byte of memory changes. -/
def Sys2Proof.FaultsTakeASlotAndARecord : Prop :=
  ∀ (r : FaultReport) (s : State), s.pwr.on = true → reportOk r = true → LinesLatched s →
    ∃ t, exec (.faultLatch r) s = .next t ∧ s.flt.nextSeq < t.flt.nextSeq ∧ t.mem.ram = s.mem.ram ∧ LinesLatched t ∧
      (r.cls = 0x11 → t.flt.collectors = s.flt.collectors ∧ t.flt.nextSeq = s.flt.nextSeq + 1) ∧
      (r.cls ≠ 0x10 → r.cls ≠ 0x11 →
        let f := forward 4 r
        let k := colKey (levelCode f.level) f.unit
        (s.collector k).slot1 = none → ∃ x, (t.collector k).slot1 = some x ∧ x.cls = r.cls ∧ x.source = r.source ∧
          s.flt.nextSeq ≤ x.seq ∧ x.seq < t.flt.nextSeq)

/-- R316, R317, R323, R324, R334: FAULT_HANDLING_DONE completes for every collector with a fault in slot 1: the fault of slot 2 takes its
place, and the first that waits takes slot 2; the sticky lines of the fault are cleared. A Notice or Warning is acknowledged with it, which
its record shows; a fault of Severe or above is not. Nothing else changes, and nothing at all at a collector whose slot 1 is free. -/
def Sys2Proof.HandlingMovesTheNextFaultUp : Prop :=
  ∀ (l : Level) (unit : Nat) (s : State), s.pwr.on = true → unit < levelInstances (levelCode l) →
    let k := colKey (levelCode l) unit
    let x := s.collector k
    (∀ f, x.slot1 = some f →
      ∃ t, exec (.faultHandlingDone l unit) s = .next t ∧ (t.collector k).slot1 = x.slot2 ∧
        (x.slot2 = none → (t.collector k).slot2 = none ∧ (t.collector k).waiting = x.waiting) ∧
        (x.slot2 ≠ none → (t.collector k).slot2 = x.waiting.head? ∧ (t.collector k).waiting = x.waiting.drop 1) ∧
        (f.sev < 2 → (t.collector k).unack = x.unack.filter (fun u => u.seq != f.seq) ∧
          t.flt.records = s.flt.records.map (fun r => r.ackedBy f.seq)) ∧
        (2 ≤ f.sev → (t.collector k).unack = x.unack ∧ t.flt.records = s.flt.records) ∧
        (∀ q, q ≠ k → t.collector q = s.collector q) ∧
        t.clk.syncs = s.clk.syncs.map (fun e => if (f.lines k).contains e.1 then (e.1, { e.2 with cleared := true }) else e) ∧
        t.mem = s.mem ∧ t.cores = s.cores ∧ t.dict = s.dict) ∧
    (x.slot1 = none → exec (.faultHandlingDone l unit) s = .next s)

/-- R328 to R330, R333: a watchdog that expires is recorded: the management complex's stops ALIVE, a die's stands in its status. The
oldest record that waits reaches its mirror in flash; a flash that fails is recorded, and is used no more. No byte changes. Corners that
the spec leaves open follow the model's choice (log 58). -/
def Obligations.WatchdogsAndTheMirrorAreRecorded : Prop :=
  ∀ s : State, s.pwr.on = true → LinesLatched s →
    (∃ t, exec .mgmtWatchdogExpiry s = .next t ∧ t.flt.alive = .stopped ∧ s.flt.nextSeq < t.flt.nextSeq ∧ t.mem.ram = s.mem.ram) ∧
    (∀ d : DieId, ∃ t, exec (.dmpWatchdogExpiry d) s = .next t ∧ t.flt.dogs.contains d.val = true ∧ s.flt.nextSeq < t.flt.nextSeq ∧
      t.mem.ram = s.mem.ram) ∧
    (∀ c : CoreId, ∃ t, exec (.cprocWatchdogExpiry c) s = .next t ∧ s.flt.nextSeq < t.flt.nextSeq ∧ t.mem.ram = s.mem.ram) ∧
    (s.flt.flashFailed = false → ∀ q rest r, s.flt.mirrorQueue = q :: rest → s.flt.records.find? (fun x => x.seq == q) = some r →
      ∃ t, exec (.mirrorFlush true) s = .next t ∧ t.flt.mirrorQueue = rest ∧ r ∈ t.nv.mirror ∧
        (∀ x ∈ t.nv.mirror, x.seq = q → x = r) ∧ t.nv.mirrorBad.contains q = false ∧ t.flt.records = s.flt.records ∧ t.mem = s.mem ∧
        t.nv.mark = s.nv.mark) ∧
    (s.flt.flashFailed = false → ∃ t, exec (.mirrorFlush false) s = .next t ∧ t.flt.flashFailed = true ∧ s.flt.nextSeq < t.flt.nextSeq ∧
      t.mem.ram = s.mem.ram)

/-! ## Reports and staging -/

/-- A report as it is signed: its bytes, then the 2,500 bytes of the signature, a free value. -/
def Sys2Proof.signedReport (s : State) (j : ReportJob) : List Byte :=
  j.bytes ++ (Config.attestSign s.nv.boot j.index j.bytes ++ zeros 2500).take 2500

/-- R432: a report that has been signed carries the signature after its bytes: it stands in its entry, or, where an address was asked for
and nothing refuses the write, at that address, and no other byte changes. A write that the crust holds back waits (R297); one that a page
refuses is recorded, and the report has failed. -/
def Sys2Proof.ReportsCarryTheirSignature : Prop :=
  ∀ (s : State) (j : ReportJob), s.sec.job = some j → LinesLatched s →
    (j.toAddress = none → ∃ t, exec .attestReportDone s = .next t ∧ t.sec.report = signedReport s j ∧ t.sec.reportState = 2 ∧
      t.sec.job = none ∧ t.mem = s.mem ∧ t.nv = s.nv ∧ t.flt = s.flt) ∧
    (∀ a, j.toAddress = some a → s.rangeOrdinary a (signedReport s j).length = true → s.writeCode true a (signedReport s j).length ≠ 0 →
      ∃ t, exec .attestReportDone s = .next t ∧ t.sec.reportState = 3 ∧ t.sec.job = none ∧ s.flt.nextSeq < t.flt.nextSeq ∧
        t.mem.ram = s.mem.ram) ∧
    (∀ a, j.toAddress = some a → s.rangeOrdinary a (signedReport s j).length = true → s.writeCode true a (signedReport s j).length = 0 →
      s.mem.owed = [] → (s.writeWaits true a (signedReport s j).length = true → ∃ t, exec .attestReportDone s = .next t ∧
        t.sec.reportState = 2 ∧ t.sec.job = none ∧ t.mem.owed = [(a, signedReport s j)] ∧ t.mem.ram = s.mem.ram ∧ t.flt = s.flt) ∧
      (s.writeWaits true a (signedReport s j).length = false → ∃ t, exec .attestReportDone s = .next t ∧ t.sec.reportState = 2 ∧
        t.sec.job = none ∧ ∀ x, t.ramByte x =
          if a ≤ x ∧ x < a + (signedReport s j).length then (signedReport s j).getD (x - a) 0 else s.ramByte x))

/-- R423, R425, R426: an image that no check rejects is in the bank it was staged for, and once that bank reads back whole and passes its
checks the selector names it; an image that is rejected shows the reason, and both banks and the selector stay; a bank that does not read
back is not selected. -/
def Sys2Proof.StagedImagesAreCheckedFirst : Prop :=
  ∀ (s : State) (img : List Byte) (toB inPlace : Bool), s.pwr.on = true → s.sec.staging = some (img, toB, inPlace) →
    let bank := if inPlace then (if toB then s.nv.bankB else s.nv.bankA) else img
    let readFails := if toB then s.nv.readFailB else s.nv.readFailA
    (s.stageReject img = 0 → s.stageReject bank = 0 → readFails = false → ∃ t, exec .stageDone s = .next t ∧
      t.ent Ent.secStageState = 2 ∧ t.nv.selector = bitN toB ∧ t.nv.selectorOk = true ∧ (if toB then t.nv.bankB else t.nv.bankA) = bank ∧
      (if toB then t.nv.bankA = s.nv.bankA else t.nv.bankB = s.nv.bankB) ∧ t.sec.staging = none ∧ t.mem = s.mem ∧ t.flt = s.flt) ∧
    (s.stageReject img = 0 → s.stageReject bank ≠ 0 ∨ readFails = true → ∃ t, exec .stageDone s = .next t ∧
      t.ent Ent.secStageState = 3 ∧ t.ent Ent.secStageReject = (if s.stageReject bank ≠ 0 then s.stageReject bank else 6) ∧
      t.nv.selector = s.nv.selector ∧ (if toB then t.nv.bankA = s.nv.bankA else t.nv.bankB = s.nv.bankB) ∧ t.sec.staging = none ∧
      t.mem = s.mem ∧ t.flt = s.flt) ∧
    (s.stageReject img ≠ 0 → ∃ t, exec .stageDone s = .next t ∧ t.ent Ent.secStageState = 3 ∧
      t.ent Ent.secStageReject = s.stageReject img ∧ t.nv = s.nv ∧ t.sec.staging = none ∧ t.mem = s.mem ∧ t.flt = s.flt)

/-- R423, R425, R426, R432: signed reports and staged images. Corners that the spec leaves open follow the model's choice (log 36, 62,
102). -/
def Obligations.ReportsAndImagesAreFinished : Prop := ReportsCarryTheirSignature ∧ StagedImagesAreCheckedFirst

/-- PERST# returns every slot to 0 and discards the stored response; a message already taken completes with no response written, and what
it wrote stands; the mailbox takes doorbells again only when readiness bit 1 is set (R361). What the reset leaves of the interrupts and of
what has not been processed is the model's choice (log 19, 20), as is how the host's other writes come (log 95). -/
def Obligations.PerstEmptiesTheMailbox : Prop :=
  (∀ s : State, s.links.host.perst = false → ∃ t, exec .perstAssert s = .next t ∧ (∀ n, (t.slot n).state = 0) ∧
    (∀ x, t.repeated mailboxSource x = none) ∧ t.comm.queue = s.comm.queue.map (fun e => (16, e.2)) ∧
    (∀ k, k ≠ Ent.readySummary → k ≠ Ent.hostWindowBase → t.ent k = s.ent k) ∧ t.dict.pend = s.dict.pend ∧
    t.dict.blobs = s.dict.blobs ∧ t.mem = s.mem ∧ t.isReady 1 = false) ∧
  (∀ (s : State) (msg : List Byte) (rest : List (Nat × List Byte)) (h : MsgHdr), s.pwr.on = true → s.comm.queue = (16, msg) :: rest →
    parseMsg true msg = some h → ∀ r ∈ mailboxRequests, h.op = r.1 → ∃ t, exec r.2 s = .next t ∧ t.comm.queue = rest ∧
      (∀ n, t.slot n = s.slot n) ∧
      t.mem = (({ s with comm.queue := rest } : State).answer mailboxSource false h).1.mem ∧
      t.dict.pend = (({ s with comm.queue := rest } : State).answer mailboxSource false h).1.dict.pend) ∧
  ∀ (s : State) (value : BitVec 32) (w : Bar2Writes),
    (s.isReady 1 = false → exec (.mailboxDoorbell value w) s = .next s) ∧
    (s.isReady 1 = true → s.links.host.d3 = false → s.links.host.perst = false → HostIdle s → LinesLatched s → plainBell w →
      value.toNat < 16 → (s.slot value.toNat).state = 0 →
      ∃ t, exec (.mailboxDoorbell value w) s = .next t ∧ (t.slot value.toNat).state = 1)

/-- R315 to R317, R323, R324, R332, R334: faults enter the slots of their collectors, and leave them in order. Corners that the spec leaves open
follow the model's choice (log 8, 9, 57). -/
def Obligations.FaultsPassThroughTheSlots : Prop := ReportsAreLatchedAsJudged ∧ FaultsTakeASlotAndARecord ∧ HandlingMovesTheNextFaultUp
end

