-- ==== Sys2Proof/Laws/Keccak.lean ====
section
/-! SUPPORT. SHAKE256 over natural numbers, one match for each round, equal to the model's: Lean's kernel evaluates it in far less time. -/

namespace Sys2Proof.Machine

/-- Rotation of a 64-bit number left by `r`, with `q = 64 - r`. -/
def fastRot (x r q : Nat) : Nat := Nat.lor (Nat.mod (Nat.shiftLeft x r) (nat_lit 18446744073709551616)) (Nat.shiftRight x q)

/-- An output lane of χ. -/
def fastChi (a b c : Nat) : Nat := Nat.xor a (Nat.land (Nat.sub (nat_lit 18446744073709551615) b) c)

theorem fastRot_eq (x r q : Nat) : fastRot x r q = ((x <<< r) % 2 ^ 64) ||| (x >>> q) := rfl
theorem fastChi_eq (a b c : Nat) : fastChi a b c = a ^^^ ((2 ^ 64 - 1 - b) &&& c) := rfl

/-- One round of the permutation on 25 lanes. -/
def fastRound (s : List Nat) (rc : Nat) : List Nat :=
  match s with
  | [x0, x1, x2, x3, x4, x5, x6, x7, x8, x9, x10, x11, x12,
      x13, x14, x15, x16, x17, x18, x19, x20, x21, x22, x23, x24] =>
    let c0 := Nat.xor (Nat.xor (Nat.xor (Nat.xor x0 x5) (x10)) (x15)) (x20)
    let c1 := Nat.xor (Nat.xor (Nat.xor (Nat.xor x1 x6) (x11)) (x16)) (x21)
    let c2 := Nat.xor (Nat.xor (Nat.xor (Nat.xor x2 x7) (x12)) (x17)) (x22)
    let c3 := Nat.xor (Nat.xor (Nat.xor (Nat.xor x3 x8) (x13)) (x18)) (x23)
    let c4 := Nat.xor (Nat.xor (Nat.xor (Nat.xor x4 x9) (x14)) (x19)) (x24)
    let d0 := Nat.xor c4 (fastRot c1 (nat_lit 1) (nat_lit 63))
    let d1 := Nat.xor c0 (fastRot c2 (nat_lit 1) (nat_lit 63))
    let d2 := Nat.xor c1 (fastRot c3 (nat_lit 1) (nat_lit 63))
    let d3 := Nat.xor c2 (fastRot c4 (nat_lit 1) (nat_lit 63))
    let d4 := Nat.xor c3 (fastRot c0 (nat_lit 1) (nat_lit 63))
    let b0 := fastRot (Nat.xor x0 d0) (nat_lit 0) (nat_lit 64)
    let b1 := fastRot (Nat.xor x6 d1) (nat_lit 44) (nat_lit 20)
    let b2 := fastRot (Nat.xor x12 d2) (nat_lit 43) (nat_lit 21)
    let b3 := fastRot (Nat.xor x18 d3) (nat_lit 21) (nat_lit 43)
    let b4 := fastRot (Nat.xor x24 d4) (nat_lit 14) (nat_lit 50)
    let b5 := fastRot (Nat.xor x3 d3) (nat_lit 28) (nat_lit 36)
    let b6 := fastRot (Nat.xor x9 d4) (nat_lit 20) (nat_lit 44)
    let b7 := fastRot (Nat.xor x10 d0) (nat_lit 3) (nat_lit 61)
    let b8 := fastRot (Nat.xor x16 d1) (nat_lit 45) (nat_lit 19)
    let b9 := fastRot (Nat.xor x22 d2) (nat_lit 61) (nat_lit 3)
    let b10 := fastRot (Nat.xor x1 d1) (nat_lit 1) (nat_lit 63)
    let b11 := fastRot (Nat.xor x7 d2) (nat_lit 6) (nat_lit 58)
    let b12 := fastRot (Nat.xor x13 d3) (nat_lit 25) (nat_lit 39)
    let b13 := fastRot (Nat.xor x19 d4) (nat_lit 8) (nat_lit 56)
    let b14 := fastRot (Nat.xor x20 d0) (nat_lit 18) (nat_lit 46)
    let b15 := fastRot (Nat.xor x4 d4) (nat_lit 27) (nat_lit 37)
    let b16 := fastRot (Nat.xor x5 d0) (nat_lit 36) (nat_lit 28)
    let b17 := fastRot (Nat.xor x11 d1) (nat_lit 10) (nat_lit 54)
    let b18 := fastRot (Nat.xor x17 d2) (nat_lit 15) (nat_lit 49)
    let b19 := fastRot (Nat.xor x23 d3) (nat_lit 56) (nat_lit 8)
    let b20 := fastRot (Nat.xor x2 d2) (nat_lit 62) (nat_lit 2)
    let b21 := fastRot (Nat.xor x8 d3) (nat_lit 55) (nat_lit 9)
    let b22 := fastRot (Nat.xor x14 d4) (nat_lit 39) (nat_lit 25)
    let b23 := fastRot (Nat.xor x15 d0) (nat_lit 41) (nat_lit 23)
    let b24 := fastRot (Nat.xor x21 d1) (nat_lit 2) (nat_lit 62)
    [Nat.xor (fastChi b0 b1 b2) rc, fastChi b1 b2 b3, fastChi b2 b3 b4,
      fastChi b3 b4 b0, fastChi b4 b0 b1, fastChi b5 b6 b7,
      fastChi b6 b7 b8, fastChi b7 b8 b9, fastChi b8 b9 b5,
      fastChi b9 b5 b6, fastChi b10 b11 b12, fastChi b11 b12 b13,
      fastChi b12 b13 b14, fastChi b13 b14 b10, fastChi b14 b10 b11,
      fastChi b15 b16 b17, fastChi b16 b17 b18, fastChi b17 b18 b19,
      fastChi b18 b19 b15, fastChi b19 b15 b16, fastChi b20 b21 b22,
      fastChi b21 b22 b23, fastChi b22 b23 b24, fastChi b23 b24 b20,
      fastChi b24 b20 b21]
  | l => l

/-- The fast round is the model's. -/
theorem fastRound_eq (s : List (BitVec 64)) (h : s.length = 25) (rc : BitVec 64) :
    (keccakRound s rc).length = 25 ∧ fastRound (s.map BitVec.toNat) rc.toNat = (keccakRound s rc).map BitVec.toNat := by
  match s, h with
  | [x0, x1, x2, x3, x4, x5, x6, x7, x8, x9, x10, x11, x12,
      x13, x14, x15, x16, x17, x18, x19, x20, x21, x22, x23, x24], _ =>
    constructor
    · simp [keccakRound]
    · simp [keccakRound, fastRound, fastRot_eq, fastChi_eq, List.range, List.range.loop, lane, keccakRot]

/-- The permutation on 25 lanes. -/
def fastF (s : List Nat) : List Nat := (keccakRc.map BitVec.toNat).foldl fastRound s

theorem fastF_eq (s : List (BitVec 64)) (h : s.length = 25) :
    (keccakF s).length = 25 ∧ fastF (s.map BitVec.toNat) = (keccakF s).map BitVec.toNat := by
  unfold keccakF fastF
  generalize keccakRc = l
  induction l generalizing s with
  | nil => exact ⟨h, rfl⟩
  | cons a t ih =>
    have k := fastRound_eq s h a
    simp only [List.foldl_cons, List.map_cons, k.2]
    exact ih _ k.1

/-- XOR of lanes into a state. -/
def fastXor (s m : List Nat) : List Nat := List.zipWith Nat.xor s m

/-- The 25 lanes that a block's first 17 give. -/
def blockLanes (m : List Nat) : List Nat := (List.range 25).map fun i => if i < 17 then m.getD i 0 else 0

/-- The sponge, over the lanes of a message. -/
def fastSponge : Nat → List Nat → List Nat → List Nat
  | 0, s, _ => s
  | f + 1, s, m => if m.isEmpty then s else fastSponge f (fastF (fastXor s (blockLanes m))) (m.drop 17)

/-- A message cut into lanes. -/
def lanesOf : Nat → List Byte → List Nat
  | 0, _ => []
  | f + 1, l => if l.isEmpty then [] else leNat (l.take 8) :: lanesOf f (l.drop 8)

theorem leNat_lt (l : List Byte) : leNat l < 256 ^ l.length := by
  induction l with
  | nil => decide
  | cons a t ih =>
    have := a.isLt
    simp only [leNat, List.length_cons, Nat.pow_succ]
    omega

theorem lanesOf_getD (f : Nat) (l : List Byte) (h : l.length ≤ 8 * f) (i : Nat) : (lanesOf f l).getD i 0 = leAt l (8 * i) 8 := by
  induction f generalizing l i with
  | zero =>
    have : l = [] := List.eq_nil_of_length_eq_zero (by omega)
    subst this
    simp [lanesOf, leAt, slice, leNat]
  | succ f ih =>
    unfold lanesOf
    split
    · next e =>
      rw [List.isEmpty_iff.1 e]
      simp [leAt, slice, leNat]
    · cases i with
      | zero => simp [leAt, slice]
      | succ i =>
        rw [List.getD_cons_succ, ih _ (by simp; omega)]
        simp [leAt, slice, Nat.mul_add, Nat.add_comm]

theorem lanesOf_length (f : Nat) (l : List Byte) (h : l.length ≤ 8 * f) : (lanesOf f l).length = (l.length + 7) / 8 := by
  induction f generalizing l with
  | zero =>
    have : l.length = 0 := by omega
    simp [lanesOf, this]
  | succ f ih =>
    unfold lanesOf
    split
    · next e => simp [List.isEmpty_iff.1 e]
    · next e =>
      have : 0 < l.length := List.length_pos_iff.2 fun x => e (by simp [x])
      rw [List.length_cons, ih _ (by simp; omega), List.length_drop]
      omega

/-- Lanes and bytes of one message. -/
structure SameMessage (m : List Nat) (l : List Byte) : Prop where
  lanes : ∀ i, m.getD i 0 = leAt l (8 * i) 8
  length : m.length = (l.length + 7) / 8

theorem SameMessage.drop {m : List Nat} {l : List Byte} (h : SameMessage m l) : SameMessage (m.drop 17) (l.drop 136) := by
  constructor
  · intro i
    have := h.lanes (17 + i)
    simp only [List.getD_eq_getElem?_getD, List.getElem?_drop] at this ⊢
    rw [this]
    simp [leAt, slice, Nat.mul_add, Nat.add_comm]
  · rw [List.length_drop, List.length_drop, h.length]
    omega

theorem leAt_lt (l : List Byte) (a : Nat) : leAt l a 8 < 2 ^ 64 := by
  have h := leNat_lt (slice l a 8)
  have k : (slice l a 8).length ≤ 8 := by simp only [slice, List.length_take, List.length_drop]; omega
  have j : 256 ^ (slice l a 8).length ≤ 256 ^ 8 := Nat.pow_le_pow_right (by decide) k
  have : (256 : Nat) ^ 8 = 2 ^ 64 := by decide
  unfold leAt
  omega

theorem fastXor_eq (s : List (BitVec 64)) (h : s.length = 25) {m : List Nat} {l : List Byte} (k : SameMessage m l) :
    (absorb s (l.take 136)).length = 25 ∧ fastXor (s.map BitVec.toNat) (blockLanes m) = (absorb s (l.take 136)).map BitVec.toNat := by
  constructor
  · simp [absorb]
  · apply List.ext_getElem
    · simp [absorb, fastXor, blockLanes, h]
    · intro i hi _
      have j : i < 25 := by simpa [absorb, fastXor, blockLanes, h] using hi
      have e : leAt (l.take 136) (8 * i) 8 = if i < 17 then leAt l (8 * i) 8 else 0 := by
        unfold leAt slice
        rw [List.drop_take, List.take_take]
        split
        · rw [show min 8 (136 - 8 * i) = 8 by omega]
        · rw [show min 8 (136 - 8 * i) = 0 by omega]
          rfl
      have b := leAt_lt l (8 * i)
      have q := k.lanes i
      simp only [List.getD_eq_getElem?_getD] at q
      have z : (BitVec.ofNat 64 (leAt (l.take 136) (8 * i) 8)).toNat = if i < 17 then m.getD i 0 else 0 := by
        rw [e, List.getD_eq_getElem?_getD, q, BitVec.toNat_ofNat]
        split
        · exact Nat.mod_eq_of_lt b
        · rfl
      simp only [absorb, fastXor, blockLanes, lane, List.getElem_map, List.getElem_zipWith, List.getElem_range, BitVec.toNat_xor, z,
        List.getD_eq_getElem?_getD, List.getElem?_eq_getElem (h ▸ j : i < s.length), Option.getD_some]
      rfl

theorem fastSponge_eq (f : Nat) (s : List (BitVec 64)) (h : s.length = 25) {m : List Nat} {l : List Byte} (k : SameMessage m l) :
    fastSponge f (s.map BitVec.toNat) m = (sponge f s l).map BitVec.toNat := by
  induction f generalizing s m l with
  | zero => rfl
  | succ f ih =>
    have e : m.isEmpty = l.isEmpty := by
      rw [Bool.eq_iff_iff, List.isEmpty_iff_length_eq_zero, List.isEmpty_iff_length_eq_zero, k.length]
      omega
    unfold fastSponge sponge
    rw [e]
    split
    · rfl
    · have q := fastXor_eq s h k
      have j := fastF_eq _ q.1
      rw [q.2, j.2]
      exact ih _ j.1 k.drop

/-- The first four lanes of a state as one number. -/
def digestOf (s : List Nat) : Nat := leNat ((s.take 4).flatMap fun w => leBytes 8 w)

/-- The digest of a padded message of `n` lanes, evaluated fast. -/
def fastDigest (p : List Byte) : Nat :=
  let n := p.length
  digestOf (fastSponge (n / 136 + 1) (List.replicate 25 0) (lanesOf (n / 8 + 1) p))

theorem digest256_eq (l : List Byte) : digest256 l = fastDigest (shakePad l) := by
  have e : List.replicate 25 0 = (List.replicate 25 0#64).map BitVec.toNat := by decide
  have h : (shakePad l).length ≤ 8 * ((shakePad l).length / 8 + 1) := by omega
  simp only [fastDigest]
  rw [e, fastSponge_eq _ _ (by decide) ⟨lanesOf_getD _ _ h, lanesOf_length _ _ h⟩]
  simp only [digest256, shake256, digestOf, ← List.map_take, List.flatMap_map]

end Sys2Proof.Machine
end

