-- ==== Sys2Proof/Laws/Kv.lean ====
section
/-! SUPPORT. Sparse tables: reads after writes, and that every table operation keeps the canonical form. -/

namespace Sys2Proof.Kv

variable {α : Type}

/-- In a table with rising keys, the keys after the first are above it. -/
theorem rising_cons {a : Nat × α} {t : KV α} : rising (a :: t) = true ↔ rising t = true ∧ ∀ p ∈ t, a.1 < p.1 := by
  induction t generalizing a with
  | nil => simp [rising]
  | cons b t ih =>
    obtain ⟨k, v⟩ := a
    obtain ⟨l, w⟩ := b
    simp only [rising, Bool.and_eq_true, decide_eq_true_eq, List.mem_cons, forall_eq_or_imp]
    constructor
    · rintro ⟨h, r⟩
      exact ⟨r, h, fun p hp => Nat.lt_trans h ((ih.1 r).2 p hp)⟩
    · rintro ⟨r, h, _⟩
      exact ⟨h, r⟩

theorem rising_filter {m : KV α} (f : Nat × α → Bool) (h : rising m = true) : rising (m.filter f) = true := by
  induction m with
  | nil => rfl
  | cons a t ih =>
    rw [rising_cons] at h
    by_cases hf : f a = true
    · rw [List.filter_cons_of_pos hf, rising_cons]
      exact ⟨ih h.1, fun p hp => h.2 p (List.mem_filter.1 hp).1⟩
    · rw [List.filter_cons_of_neg hf]
      exact ih h.1

theorem mem_put {m : KV α} {q : Nat} {v : α} {p : Nat × α} (hp : p ∈ put m q v) : p = (q, v) ∨ p ∈ m := by
  induction m with
  | nil => simpa [put] using hp
  | cons a t ih =>
    obtain ⟨k, w⟩ := a
    simp only [put] at hp
    split at hp
    · simpa using hp
    · split at hp
      · rcases List.mem_cons.1 hp with h | h
        · exact .inl h
        · exact .inr (by simp [h])
      · rcases List.mem_cons.1 hp with h | h
        · exact .inr (by simp [h])
        · rcases ih h with h | h
          · exact .inl h
          · exact .inr (by simp [h])

theorem rising_put {m : KV α} (q : Nat) (v : α) (h : rising m = true) : rising (put m q v) = true := by
  induction m with
  | nil => rfl
  | cons a t ih =>
    obtain ⟨k, w⟩ := a
    obtain ⟨ht, hk⟩ := rising_cons.1 h
    simp only [put]
    split
    · rename_i hq
      refine rising_cons.2 ⟨h, fun p hp => ?_⟩
      rcases List.mem_cons.1 hp with rfl | hp
      · exact hq
      · exact Nat.lt_trans hq (hk p hp)
    · split
      · rename_i e
        refine rising_cons.2 ⟨ht, fun p hp => ?_⟩
        have := hk p hp
        simp only at this ⊢
        omega
      · refine rising_cons.2 ⟨ih ht, fun p hp => ?_⟩
        rcases mem_put hp with rfl | hp
        · simp only
          omega
        · exact hk p hp

/-- A value just listed is read back. -/
@[simp] theorem find?_put_self (m : KV α) (q : Nat) (v : α) : find? (put m q v) q = some v := by
  induction m with
  | nil => simp [put, find?]
  | cons a t ih =>
    obtain ⟨k, w⟩ := a
    simp only [put]
    split
    · simp [find?]
    · split
      · simp [find?]
      · simp [find?, *]

/-- Listing a value leaves every other key as it was. -/
theorem find?_put_ne (m : KV α) {q r : Nat} (v : α) (h : r ≠ q) : find? (put m q v) r = find? m r := by
  induction m with
  | nil => simp [put, find?, Ne.symm h]
  | cons a t ih =>
    obtain ⟨k, w⟩ := a
    simp only [put]
    split
    · simp [find?, Ne.symm h]
    · split
      · rename_i e
        have : k ≠ r := by omega
        simp [find?, Ne.symm h, this]
      · simp [find?, ih]

theorem find?_filter_ne (m : KV α) {q r : Nat} (h : r ≠ q) : find? (m.filter fun p => p.1 != q) r = find? m r := by
  induction m with
  | nil => rfl
  | cons a t ih =>
    obtain ⟨k, w⟩ := a
    by_cases e : k = q
    · have : k ≠ r := by omega
      rw [List.filter_cons_of_neg (by simp [e]), ih]
      simp [find?, this]
    · rw [List.filter_cons_of_pos (by simp [e])]
      simp [find?, ih]

/-- A removed key is not listed. -/
@[simp] theorem find?_del_self (m : KV α) (q : Nat) : find? (del m q) q = none := by
  unfold del
  induction m with
  | nil => rfl
  | cons a t ih =>
    obtain ⟨k, w⟩ := a
    by_cases e : k = q
    · rw [List.filter_cons_of_neg (by simp [e]), ih]
    · rw [List.filter_cons_of_pos (by simp [e])]
      simp [find?, e, ih]

/-- Removing a key leaves every other key as it was. -/
theorem find?_del_ne (m : KV α) {q r : Nat} (h : r ≠ q) : find? (del m q) r = find? m r := find?_filter_ne m h

/-- A read after a write to the same key gives the value written. -/
@[simp] theorem getD_setD_self [DecidableEq α] (m : KV α) (q : Nat) (d v : α) : getD (setD m q d v) q d = v := by
  unfold setD getD
  split
  · rename_i e
    simp [e]
  · simp

/-- A write leaves every other key as it was, whatever that one's default. -/
theorem getD_setD_ne_of_ne [DecidableEq α] (m : KV α) {q r : Nat} (d e v : α) (h : r ≠ q) : getD (setD m q d v) r e = getD m r e := by
  unfold setD getD
  split
  · rw [find?_del_ne m h]
  · rw [find?_put_ne m v h]

/-- A write leaves every other key as it was. -/
theorem getD_setD_ne [DecidableEq α] (m : KV α) {q r : Nat} (d v : α) (h : r ≠ q) : getD (setD m q d v) r d = getD m r d :=
  getD_setD_ne_of_ne m d d v h

/-- A read of a listed value. -/
@[simp] theorem getD_put_self (m : KV α) (q : Nat) (d v : α) : getD (put m q v) q d = v := by simp [getD]

theorem getD_put_ne (m : KV α) {q r : Nat} (d v : α) (h : r ≠ q) : getD (put m q v) r d = getD m r d := by
  simp [getD, find?_put_ne m v h]

/-- The empty table is in canonical form. -/
theorem wf_nil [DecidableEq α] (d : α) : wf d ([] : KV α) = true := rfl

/-- Dropping entries keeps the canonical form. -/
theorem wf_filter [DecidableEq α] {d : α} {m : KV α} (f : Nat × α → Bool) (h : wf d m = true) : wf d (m.filter f) = true := by
  simp only [wf, Bool.and_eq_true, List.all_eq_true] at h ⊢
  exact ⟨rising_filter f h.1, fun p hp => h.2 p (List.mem_filter.1 hp).1⟩

/-- Removing a key keeps the canonical form. -/
theorem wf_del [DecidableEq α] {d : α} {m : KV α} (q : Nat) (h : wf d m = true) : wf d (del m q) = true := wf_filter _ h

/-- A write keeps the canonical form. -/
theorem wf_setD [DecidableEq α] {d : α} {m : KV α} (q : Nat) (v : α) (h : wf d m = true) : wf d (setD m q d v) = true := by
  unfold setD
  split
  · exact wf_del q h
  · rename_i e
    simp only [wf, Bool.and_eq_true, List.all_eq_true, decide_eq_true_eq] at h ⊢
    refine ⟨rising_put q v h.1, fun p hp => ?_⟩
    rcases mem_put hp with rfl | hp
    · exact e
    · exact h.2 p hp

end Sys2Proof.Kv
end

