-- ==== Sys2Proof/Laws/Keeps.lean ====
section
/-! SUPPORT. What every shared operation leaves alone or keeps: the relation `Keeps`, closed under composition and folds. -/

namespace Sys2Proof.Machine

/-- What no operation touches. -/
abbrev State.still (s : State) : List Instr × (Nat × Nat × Nat × List Nat) × (Bool × Bool × Bool × Bool × Bool) × Nat :=
  (s.pending, (s.clk.evtMgmt, s.clk.evtCtrl0, s.clk.evtCtrl1, s.clk.evtArith),
    (s.pwr.inputOn, s.pwr.precharged, s.pwr.pwrOk, s.pwr.sequencing, s.pwr.on), s.nv.boot)

/-- What `Keeps` speaks of. -/
abbrev State.kept (s : State) := (s.still, s.mem.ram, s.nv.fuses, s.nv.otp, s.flt.nextSeq, s.nv.mark)

/-- `t` keeps what `z` has: the waiting commands, event time, the supply, the boot count; memory's canonical form (R262); blown fuses
and written counter entries (R420, R424); sequence numbers never fall and stay below the reservation mark (R333, R339). -/
structure State.Keeps (z t : State) : Prop where
  still : t.still = z.still
  ram : Kv.wf 0 z.mem.ram = true → Kv.wf 0 t.mem.ram = true
  fuses : ∀ i, z.nv.fuses.testBit i = true → t.nv.fuses.testBit i = true
  otp : ∀ i, z.nv.otp.getD i 0 ≠ 0 → t.nv.otp.getD i 0 = z.nv.otp.getD i 0
  seq : z.flt.nextSeq ≤ t.flt.nextSeq
  mark : z.flt.nextSeq ≤ z.nv.mark → t.flt.nextSeq ≤ t.nv.mark
  raised : z.nv.mark ≤ t.nv.mark

variable {z u t : State}

theorem State.Keeps.rfl' : z.Keeps z := ⟨rfl, id, fun _ => id, fun _ _ => rfl, Nat.le_refl _, id, Nat.le_refl _⟩

theorem State.Keeps.of_eq (e : t.kept = u.kept) (h : z.Keeps u) : z.Keeps t := by
  have e1 : t.still = u.still := congrArg (·.1) e
  have e2 : t.mem.ram = u.mem.ram := congrArg (·.2.1) e
  have e3 : t.nv.fuses = u.nv.fuses := congrArg (·.2.2.1) e
  have e4 : t.nv.otp = u.nv.otp := congrArg (·.2.2.2.1) e
  have e5 : t.flt.nextSeq = u.flt.nextSeq := congrArg (·.2.2.2.2.1) e
  have e6 : t.nv.mark = u.nv.mark := congrArg (·.2.2.2.2.2) e
  obtain ⟨h1, h2, h3, h4, h5, h6, h7⟩ := h
  exact ⟨e1.trans h1, by rwa [e2], by rwa [e3], by rwa [e4], by rwa [e5], by rwa [e5, e6], by rwa [e6]⟩

/-- A record update of parts that `Keeps` does not speak of. -/
theorem State.Keeps.of_mk {p k w} {c : KV CoreSt} {ct : KV ClusterSt} {r sc rk pg tr m a f d co l cr st n se}
    (_ : p = u.pending) (e0 : (State.mk p k w c ct r sc rk pg tr m a f d co l cr st n se).kept = u.kept) (h : z.Keeps u) :
    z.Keeps (State.mk p k w c ct r sc rk pg tr m a f d co l cr st n se) := .of_eq e0 h

theorem State.Keeps.trans (h : z.Keeps u) (k : u.Keeps t) : z.Keeps t where
  still := k.still.trans h.still
  ram := fun w => k.ram (h.ram w)
  fuses := fun i w => k.fuses i (h.fuses i w)
  otp := fun i w => by
    have e := h.otp i w
    rw [k.otp i (by rw [e]; exact w), e]
  seq := Nat.le_trans h.seq k.seq
  mark := fun w => k.mark (h.mark w)
  raised := Nat.le_trans h.raised k.raised

theorem foldl_keeps {α : Type} {f : State → α → State} (hf : ∀ (s : State) (x : α), z.Keeps s → z.Keeps (f s x)) :
    ∀ (l : List α) {s : State}, z.Keeps s → z.Keeps (l.foldl f s)
  | [], _, h => h
  | x :: l, s, h => foldl_keeps hf l (hf s x h)

theorem foldl_keeps_fst {α β : Type} {f : State × β → α → State × β}
    (hf : ∀ (a : State × β) (x : α), z.Keeps a.1 → z.Keeps (f a x).1) :
    ∀ (l : List α) {a : State × β}, z.Keeps a.1 → z.Keeps (l.foldl f a).1
  | [], _, h => h
  | x :: l, a, h => foldl_keeps_fst hf l (hf a x h)

theorem ite_keeps {c : Prop} [Decidable c] {a b : State} (ha : z.Keeps a) (hb : z.Keeps b) : z.Keeps (if c then a else b) := by
  split <;> assumption

theorem ite_keeps_s {c : Prop} [Decidable c] {a b : Reply} (ha : z.Keeps a.s) (hb : z.Keeps b.s) : z.Keeps (if c then a else b).s := by
  split <;> assumption

theorem ite_keeps_fst {β : Type} {c : Prop} [Decidable c] {a b : State × β} (ha : z.Keeps a.1) (hb : z.Keeps b.1) :
    z.Keeps (if c then a else b).1 := by
  split <;> assumption

end Sys2Proof.Machine
end

