-- ==== Sys2Proof/Laws/KeepsBase.lean ====
section
/-! SUPPORT. `Keeps` for what a write, a record, a repair, a latched fault and a security operation leave alone: one lemma for each. -/

namespace Sys2Proof.Machine

variable {z : State}

/-! ## Ops -/

theorem ramPut_wf : ∀ (l : List Byte) (m : List Host.Cell) (a : Nat), Kv.wf 0 m = true → Kv.wf 0 (ramPut m a l) = true
  | [], _, _, h => h
  | _ :: l, _, a, h => ramPut_wf l _ (a + 1) (Kv.wf_setD _ _ h)

/-- An operation that changes memory alone keeps all but memory's form, which it must keep itself. -/
theorem State.Keeps.of_ram {s : State} {m : Memory} (hw : Kv.wf 0 s.mem.ram = true → Kv.wf 0 m.ram = true) (h : z.Keeps s) :
    z.Keeps { s with mem := m } :=
  h.trans ⟨rfl, hw, fun _ => id, fun _ _ => rfl, Nat.le_refl _, id, Nat.le_refl _⟩

theorem State.setEnt_keeps {z : State} (s : State) (k v : Nat) (hz : z.Keeps s) : z.Keeps (State.setEnt s k v) := by
  unfold State.setEnt
  repeat' with_reducible first | assumption | refine .of_mk rfl rfl ?_

theorem State.bump_keeps {z : State} (s : State) (w k n : Nat) (hz : z.Keeps s) : z.Keeps (State.bump s w k n) := by
  unfold State.bump
  repeat' with_reducible first | assumption | apply State.setEnt_keeps

theorem State.draw_keeps {z : State} (s : State) (hz : z.Keeps s) : z.Keeps (State.draw s) := by
  unfold State.draw
  repeat' with_reducible first | assumption | refine .of_mk rfl rfl ?_

theorem State.raiseVector_keeps {z : State} (s : State) (v : Nat) (hz : z.Keeps s) : z.Keeps (State.raiseVector s v) := by
  unfold State.raiseVector
  repeat' with_reducible first | assumption | apply ite_keeps | split | refine .of_mk rfl rfl ?_

theorem State.changed_keeps {z : State} (s : State) (p : Bool) (hz : z.Keeps s) : z.Keeps (State.changed s p) := by
  unfold State.changed
  repeat' with_reducible first | assumption | apply ite_keeps | split | refine .of_mk rfl rfl ?_

theorem State.setReady_keeps {z : State} (s : State) (b : Nat) (on : Bool) (hz : z.Keeps s) : z.Keeps (State.setReady s b on) := by
  unfold State.setReady
  try dsimp only
  repeat' with_reducible first
    | assumption | apply State.setEnt_keeps | apply State.changed_keeps | apply ite_keeps | split | refine .of_mk rfl rfl ?_

theorem State.setCoreReady_keeps {z : State} (s : State) (c : Nat) (on : Bool) (hz : z.Keeps s) : z.Keeps (State.setCoreReady s c on) := by
  unfold State.setCoreReady
  repeat' with_reducible first | assumption | apply State.setEnt_keeps

theorem State.clearCompute_keeps {z : State} (s : State) (hz : z.Keeps s) : z.Keeps (State.clearCompute s) := by
  unfold State.clearCompute
  repeat' with_reducible first | assumption | apply State.setReady_keeps

theorem State.setMapEntry_keeps {z : State} (s : State) (p : Nat) (e : MapEntry) (hz : z.Keeps s) : z.Keeps (State.setMapEntry s p e) := by
  unfold State.setMapEntry
  repeat' with_reducible first | assumption | refine .of_mk rfl rfl ?_

theorem State.ramWrite_keeps {z : State} (s : State) (a : Nat) (l : List Byte) (h : z.Keeps s) : z.Keeps (State.ramWrite s a l) :=
  .of_ram (ramPut_wf l _ a) h

theorem State.zeroPage_keeps {z : State} (s : State) (p : Nat) (h : z.Keeps s) : z.Keeps (State.zeroPage s p) :=
  .of_ram (Kv.wf_filter _) h

theorem State.storeRecord_keeps {z : State} (s : State) (r : EvRecord) (hz : z.Keeps s) : z.Keeps (State.storeRecord s r) := by
  unfold State.storeRecord
  try dsimp only
  repeat' with_reducible first
    | assumption | apply State.bump_keeps | apply State.raiseVector_keeps | apply ite_keeps | split | refine .of_mk rfl rfl ?_

theorem State.takeSeq_keeps {z : State} (s : State) (h : z.Keeps s) : z.Keeps (State.takeSeq s) := by
  refine h.trans ⟨rfl, id, fun _ => id, fun _ _ => rfl, Nat.le_succ _, fun w => ?_, ?_⟩ <;> simp only [State.takeSeq] <;> split <;> omega

theorem State.fileRecord_keeps {z : State} (s : State) (r : EvRecord) (hz : z.Keeps s) : z.Keeps (State.fileRecord s r) := by
  unfold State.fileRecord
  repeat' with_reducible first | assumption | apply State.storeRecord_keeps | apply ite_keeps | split | refine .of_mk rfl rfl ?_

theorem State.record_keeps {z : State} (s : State) (r : EvRecord) (hz : z.Keeps s) : z.Keeps (State.record s r) := by
  unfold State.record
  repeat' with_reducible first | assumption | apply State.takeSeq_keeps | apply State.fileRecord_keeps

theorem State.recordAt_keeps {z : State} (s : State) (die : Nat) (r : EvRecord) (hz : z.Keeps s) : z.Keeps (State.recordAt s die r) := by
  unfold State.recordAt
  repeat' with_reducible first
    | assumption | apply State.takeSeq_keeps | apply State.record_keeps | apply ite_keeps | split | refine .of_mk rfl rfl ?_

theorem State.recordsOfDie1_keeps {z : State} (s : State) (hz : z.Keeps s) : z.Keeps (State.recordsOfDie1 s) := by
  unfold State.recordsOfDie1
  repeat' with_reducible first
    | assumption | apply State.fileRecord_keeps | refine foldl_keeps (fun _ _ _ => ?_) _ ?_ | refine foldl_keeps_fst (fun _ _ _ => ?_) _ ?_
    | refine .of_mk rfl rfl ?_

theorem State.condition_keeps {z : State} (s : State) (sev code p0 p1 p2 : Nat)
    (hz : z.Keeps s) : z.Keeps (State.condition s sev code p0 p1 p2) := by
  unfold State.condition
  repeat' with_reducible first | assumption | apply State.record_keeps

theorem State.conditionAt_keeps {z : State} (s : State) (sev code space addr p0 p1 p2 : Nat)
    (hz : z.Keeps s) : z.Keeps (State.conditionAt s sev code space addr p0 p1 p2) := by
  unfold State.conditionAt
  repeat' with_reducible first | assumption | apply State.record_keeps

theorem State.repairRecord_keeps {z : State} (s : State) (die sev code phys p0 p1 p2 : Nat)
    (hz : z.Keeps s) : z.Keeps (State.repairRecord s die sev code phys p0 p1 p2) := by
  unfold State.repairRecord
  repeat' with_reducible first | assumption | apply State.recordAt_keeps

theorem State.setSource_keeps {z : State} (s : State) (c : Nat) (l : Level) (unit source : Nat) (times : List Nat)
    (hz : z.Keeps s) : z.Keeps (State.setSource s c l unit source times) := by
  unfold State.setSource
  try dsimp only
  repeat' with_reducible first | assumption | apply ite_keeps | split | refine .of_mk rfl rfl ?_

theorem State.dropSources_keeps {z : State} (s : State) (l : Level) (unit : Nat)
    (hz : z.Keeps s) : z.Keeps (State.dropSources s l unit) := by
  unfold State.dropSources
  try dsimp only
  repeat' with_reducible first | assumption | refine .of_mk rfl rfl ?_

theorem State.violation_keeps {z : State} (s : State) (code space addr p0 : Nat)
    (hz : z.Keeps s) : z.Keeps (State.violation s code space addr p0) := by
  unfold State.violation
  try dsimp only
  repeat' with_reducible first
    | assumption | apply State.bump_keeps | apply State.record_keeps | apply State.setSource_keeps | apply ite_keeps | split

theorem State.setLane_keeps {z : State} (s : State) (i : Nat) (l : LaneSt) (hz : z.Keeps s) : z.Keeps (State.setLane s i l) := by
  unfold State.setLane
  repeat' with_reducible first | assumption | refine .of_mk rfl rfl ?_

theorem State.classWait_keeps {z : State} (s : State) (i cls : Nat) (hz : z.Keeps s) : z.Keeps (State.classWait s i cls) := by
  unfold State.classWait
  try dsimp only
  repeat' with_reducible first | assumption | apply State.bump_keeps | apply State.draw_keeps | apply ite_keeps | split

theorem State.sendOn_keeps {z : State} (s0 : State) (i : Nat) (f : TxFrame) (hz : z.Keeps s0) : z.Keeps (State.sendOn s0 i f) := by
  unfold State.sendOn
  try dsimp only
  repeat' with_reducible first
    | assumption | apply State.bump_keeps | apply State.setLane_keeps | apply State.classWait_keeps | apply ite_keeps | split
    | refine .of_mk rfl rfl ?_

theorem State.sendFrame_keeps {z : State} (s : State) (f : TxFrame) (hz : z.Keeps s) : z.Keeps (State.sendFrame s f) := by
  unfold State.sendFrame
  repeat' with_reducible first | assumption | apply State.sendOn_keeps | split

theorem State.sendSegments_keeps {z : State} : ∀ (n : Nat) (s : State) (f : TxFrame) (l : List Byte), z.Keeps s →
    z.Keeps (State.sendSegments n s f l)
  | 0, s, f, l, h => State.sendFrame_keeps _ _ h
  | n + 1, s, f, l, h => by
    unfold State.sendSegments
    split
    · exact State.sendFrame_keeps _ _ h
    · exact State.sendSegments_keeps n _ _ _ (State.sendFrame_keeps _ _ h)

theorem State.sendBytes_keeps {z : State} (s : State) (f : TxFrame) (l : List Byte)
    (hz : z.Keeps s) : z.Keeps (State.sendBytes s f l) := by
  unfold State.sendBytes
  repeat' with_reducible first | assumption | apply State.sendSegments_keeps

theorem State.sendAllLanes_keeps {z : State} (s : State) (f : TxFrame) (hz : z.Keeps s) : z.Keeps (State.sendAllLanes s f) := by
  unfold State.sendAllLanes
  try dsimp only
  repeat' with_reducible first
    | assumption | apply State.sendOn_keeps | refine foldl_keeps (fun _ _ _ => ?_) _ ?_ | refine foldl_keeps_fst (fun _ _ _ => ?_) _ ?_

theorem State.sendGroup_keeps {z : State} (s : State) (kind g : Nat) (payload : List Byte)
    (hz : z.Keeps s) : z.Keeps (State.sendGroup s kind g payload) := by
  unfold State.sendGroup
  try dsimp only
  repeat' with_reducible first
    | assumption | apply State.sendFrame_keeps | refine foldl_keeps (fun _ _ _ => ?_) _ ?_ | refine foldl_keeps_fst (fun _ _ _ => ?_) _ ?_
    | refine .of_mk rfl rfl ?_

/-! ## Views -/

theorem State.setRake_keeps {z : State} (s : State) (l : Nat) (r : RakeSt) (hz : z.Keeps s) : z.Keeps (State.setRake s l r) := by
  unfold State.setRake
  repeat' with_reducible first | assumption | refine .of_mk rfl rfl ?_

/-! ## Crossings -/

theorem State.setQueueAt_keeps {z : State} (s : State) (k : Nat) (x : QueueSt) (hz : z.Keeps s) : z.Keeps (State.setQueueAt s k x) := by
  unfold State.setQueueAt
  repeat' with_reducible first | assumption | refine .of_mk rfl rfl ?_

theorem State.sendQueue_keeps {z : State} (s : State) (k : Nat) (l : List Nat) (hz : z.Keeps s) : z.Keeps (State.sendQueue s k l) := by
  unfold State.sendQueue
  repeat' with_reducible first | assumption | apply State.setQueueAt_keeps | refine .of_mk rfl rfl ?_

theorem State.readQueue_keeps {z : State} (s : State) (k n : Nat) (hz : z.Keeps s) : z.Keeps (State.readQueue s k n) := by
  unfold State.readQueue
  try dsimp only
  repeat' with_reducible first | assumption | apply State.setQueueAt_keeps | refine .of_mk rfl rfl ?_

theorem State.pendEvent_keeps {z : State} (s : State) (k : Nat) (hz : z.Keeps s) : z.Keeps (State.pendEvent s k) := by
  unfold State.pendEvent
  try dsimp only
  repeat' with_reducible first | assumption | refine .of_mk rfl rfl ?_

theorem State.setArbCnt_keeps {z : State} (s : State) (level inst rank : Nat) (x : ArbCnt)
    (hz : z.Keeps s) : z.Keeps (State.setArbCnt s level inst rank x) := by
  unfold State.setArbCnt
  repeat' with_reducible first | assumption | refine .of_mk rfl rfl ?_

theorem State.countWait_keeps {z : State} (s : State) (level inst resource rank n : Nat)
    (hz : z.Keeps s) : z.Keeps (State.countWait s level inst resource rank n) := by
  unfold State.countWait
  repeat' with_reducible first | assumption | apply State.setArbCnt_keeps

theorem State.stallQueue_keeps {z : State} (s : State) (k : Nat) (hz : z.Keeps s) : z.Keeps (State.stallQueue s k) := by
  unfold State.stallQueue
  repeat' with_reducible first | assumption | apply State.setQueueAt_keeps | refine .of_mk rfl rfl ?_

theorem State.stallSender_keeps {z : State} (s : State) (k level inst rank : Nat)
    (hz : z.Keeps s) : z.Keeps (State.stallSender s k level inst rank) := by
  unfold State.stallSender
  repeat' with_reducible first | assumption | apply State.countWait_keeps | apply State.stallQueue_keeps

/-! ## Boundary -/

theorem State.raise_keeps {z : State} (s : State) (r : FaultReport) (hz : z.Keeps s) : z.Keeps (State.raise s r) := by
  unfold State.raise
  repeat' with_reducible first | assumption | refine .of_mk rfl rfl ?_

theorem State.resetRecord_keeps {z : State} (s : State) (i reason : Nat) (hz : z.Keeps s) : z.Keeps (State.resetRecord s i reason) := by
  unfold State.resetRecord
  repeat' with_reducible first | assumption | refine .of_mk rfl rfl ?_

theorem State.syncAccount_keeps {z : State} (s : State) (hz : z.Keeps s) : z.Keeps (State.syncAccount s) := by
  unfold State.syncAccount
  repeat' with_reducible first | assumption | apply State.setEnt_keeps | refine .of_mk rfl rfl ?_

theorem State.applyMode_keeps {z : State} (s : State) (mode : Nat) (hz : z.Keeps s) : z.Keeps (State.applyMode s mode) := by
  unfold State.applyMode
  try dsimp only
  repeat' with_reducible first
    | assumption | apply State.setEnt_keeps | apply State.condition_keeps | apply State.syncAccount_keeps | apply ite_keeps | split
    | refine .of_mk rfl rfl ?_

theorem State.applyCrustMode_keeps {z : State} (s : State) (v : Nat) (hz : z.Keeps s) : z.Keeps (State.applyCrustMode s v) := by
  unfold State.applyCrustMode
  try dsimp only
  repeat' with_reducible first | assumption | apply State.setEnt_keeps | apply ite_keeps | split | refine .of_mk rfl rfl ?_

theorem State.startSnapshot_keeps {z : State} (s : State) (hz : z.Keeps s) : z.Keeps (State.startSnapshot s) := by
  unfold State.startSnapshot
  try dsimp only
  repeat' with_reducible first
    | assumption | apply State.setEnt_keeps | apply State.condition_keeps | apply ite_keeps | split | refine .of_mk rfl rfl ?_

theorem State.requestSnapshot_keeps {z : State} (s : State) (hz : z.Keeps s) : z.Keeps (State.requestSnapshot s) := by
  unfold State.requestSnapshot
  repeat' with_reducible first | assumption | refine .of_mk rfl rfl ?_

theorem State.rakeReset_keeps {z : State} (s : State) (hz : z.Keeps s) : z.Keeps (State.rakeReset s) := by
  unfold State.rakeReset
  try dsimp only
  repeat' with_reducible first | assumption | refine .of_mk rfl rfl ?_

theorem State.applyBoundary_keeps {z : State} (s : State) (k v : Nat) (hz : z.Keeps s) : z.Keeps (State.applyBoundary s k v) := by
  unfold State.applyBoundary
  try dsimp only
  repeat' with_reducible first
    | assumption | apply State.setEnt_keeps | apply State.setRake_keeps | apply State.resetRecord_keeps | apply State.syncAccount_keeps
    | apply State.applyMode_keeps | apply State.applyCrustMode_keeps | apply State.requestSnapshot_keeps | apply State.rakeReset_keeps
    | refine foldl_keeps (fun _ _ _ => ?_) _ ?_ | refine foldl_keeps_fst (fun _ _ _ => ?_) _ ?_ | apply ite_keeps | split
    | refine .of_mk rfl rfl ?_

theorem State.settlePending_keeps {z : State} (s : State) (k v : Nat) (hz : z.Keeps s) : z.Keeps (State.settlePending s k v) := by
  unfold State.settlePending
  try dsimp only
  repeat' with_reducible first | assumption | apply State.violation_keeps | apply State.applyBoundary_keeps | apply ite_keeps | split

theorem State.springBoundary_keeps {z : State} (s : State) (hz : z.Keeps s) : z.Keeps (State.springBoundary s) := by
  unfold State.springBoundary
  repeat' with_reducible first | assumption | apply State.applyMode_keeps | apply ite_keeps | split

theorem State.applyPending_keeps {z : State} (s : State) (hz : z.Keeps s) : z.Keeps (State.applyPending s) := by
  unfold State.applyPending
  try dsimp only
  repeat' with_reducible first
    | assumption | apply State.settlePending_keeps | apply State.springBoundary_keeps | refine foldl_keeps (fun _ _ _ => ?_) _ ?_
    | refine foldl_keeps_fst (fun _ _ _ => ?_) _ ?_ | refine .of_mk rfl rfl ?_

theorem State.enterAbandon_keeps {z : State} (s : State) (fromNotice : Bool)
    (hz : z.Keeps s) : z.Keeps (State.enterAbandon s fromNotice) := by
  unfold State.enterAbandon
  try dsimp only
  repeat' with_reducible first
    | assumption | apply State.setEnt_keeps | apply State.bump_keeps | apply State.sendGroup_keeps | apply ite_keeps | split
    | refine .of_mk rfl rfl ?_

theorem State.flagNonFinite_keeps {z : State} (s : State) (hz : z.Keeps s) : z.Keeps (State.flagNonFinite s) := by
  unfold State.flagNonFinite
  repeat' with_reducible first | assumption | apply State.enterAbandon_keeps | apply ite_keeps | split | refine .of_mk rfl rfl ?_

theorem State.flagFault_keeps {z : State} (s : State) (hz : z.Keeps s) : z.Keeps (State.flagFault s) := by
  unfold State.flagFault
  repeat' with_reducible first | assumption | apply State.enterAbandon_keeps | apply ite_keeps | split | refine .of_mk rfl rfl ?_

theorem State.setCore_keeps {z : State} (s : State) (c : Nat) (x : CoreSt) (hz : z.Keeps s) : z.Keeps (State.setCore s c x) := by
  unfold State.setCore
  repeat' with_reducible first | assumption | refine .of_mk rfl rfl ?_

theorem State.invalidNotice_keeps {z : State} (s : State) (l n : Nat) (hz : z.Keeps s) : z.Keeps (State.invalidNotice s l n) := by
  unfold State.invalidNotice
  try dsimp only
  repeat' with_reducible first
    | assumption | apply State.bump_keeps | apply State.record_keeps | apply State.raise_keeps | apply ite_keeps | split
    | refine .of_mk rfl rfl ?_

theorem State.invalidNotices_keeps {z : State} (s : State) (hz : z.Keeps s) : z.Keeps (State.invalidNotices s) := by
  unfold State.invalidNotices
  try dsimp only
  repeat' with_reducible first
    | assumption | apply State.bump_keeps | apply State.invalidNotice_keeps | refine foldl_keeps (fun _ _ _ => ?_) _ ?_
    | refine foldl_keeps_fst (fun _ _ _ => ?_) _ ?_ | apply ite_keeps | split | refine .of_mk rfl rfl ?_

theorem State.settleEnergy_keeps {z : State} (s : State) (committed : Bool)
    (hz : z.Keeps s) : z.Keeps (State.settleEnergy s committed) := by
  unfold State.settleEnergy
  try dsimp only
  repeat' with_reducible first | assumption | apply ite_keeps | split | refine .of_mk rfl rfl ?_

theorem State.clearStep_keeps {z : State} (s : State) (hz : z.Keeps s) : z.Keeps (State.clearStep s) := by
  unfold State.clearStep
  try dsimp only
  repeat' with_reducible first | assumption | apply ite_keeps | split | refine .of_mk rfl rfl ?_

theorem State.protect_keeps {z : State} (s : State) (hz : z.Keeps s) : z.Keeps (State.protect s) := by
  unfold State.protect
  try dsimp only
  repeat' with_reducible first | assumption | apply ite_keeps | split | refine .of_mk rfl rfl ?_

theorem State.setPhase_keeps {z : State} (s : State) (n : Nat) (hz : z.Keeps s) : z.Keeps (State.setPhase s n) := by
  unfold State.setPhase
  repeat' with_reducible first | assumption | apply State.setEnt_keeps | apply State.protect_keeps

theorem State.phaseZero_keeps {z : State} (s : State) (hz : z.Keeps s) : z.Keeps (State.phaseZero s) := by
  unfold State.phaseZero
  repeat' with_reducible first | assumption | apply State.raiseVector_keeps | apply State.applyPending_keeps | apply State.setPhase_keeps

theorem State.restoreMarks_keeps {z : State} (s : State) (hz : z.Keeps s) : z.Keeps (State.restoreMarks s) := by
  unfold State.restoreMarks
  try dsimp only
  repeat' with_reducible first | assumption | refine .of_mk rfl rfl ?_

theorem State.noOutcome_keeps {z : State} (s : State) (hz : z.Keeps s) : z.Keeps (State.noOutcome s) := by
  unfold State.noOutcome
  repeat' with_reducible first
    | assumption | apply State.setEnt_keeps | apply State.settleEnergy_keeps | apply State.clearStep_keeps | apply State.phaseZero_keeps
    | apply State.restoreMarks_keeps | apply ite_keeps | split

theorem State.withdraw_keeps {z : State} (s : State) (hz : z.Keeps s) : z.Keeps (State.withdraw s) := by
  unfold State.withdraw
  repeat' with_reducible first
    | assumption | apply State.setEnt_keeps | apply State.sendGroup_keeps | apply ite_keeps | split | refine .of_mk rfl rfl ?_

theorem State.loseCompute_keeps {z : State} (s : State) (hz : z.Keeps s) : z.Keeps (State.loseCompute s) := by
  unfold State.loseCompute
  repeat' with_reducible first | assumption | apply State.clearCompute_keeps | apply State.withdraw_keeps | refine .of_mk rfl rfl ?_

theorem State.failTest_keeps {z : State} (s : State) (hz : z.Keeps s) : z.Keeps (State.failTest s) := by
  unfold State.failTest
  repeat' with_reducible first | assumption | apply State.clearCompute_keeps | apply State.withdraw_keeps | refine .of_mk rfl rfl ?_

/-! ## Repair -/

theorem State.setPan_keeps {z : State} (s : State) (c p : Nat) (x : PanSt) (hz : z.Keeps s) : z.Keeps (State.setPan s c p x) := by
  unfold State.setPan
  repeat' with_reducible first | assumption | apply State.setCore_keeps | refine .of_mk rfl rfl ?_

theorem State.rerunUnit_keeps {z : State} (s : State) (pos number : Nat) (hz : z.Keeps s) : z.Keeps (State.rerunUnit s pos number) := by
  unfold State.rerunUnit
  try dsimp only
  repeat' with_reducible first | assumption | apply State.bump_keeps | apply ite_keeps | split | refine .of_mk rfl rfl ?_

theorem State.emptyCoreQueues_keeps {z : State} (s : State) (c : Nat) (hz : z.Keeps s) : z.Keeps (State.emptyCoreQueues s c) := by
  unfold State.emptyCoreQueues
  try dsimp only
  repeat' with_reducible first | assumption | refine .of_mk rfl rfl ?_

theorem State.dropRequests_keeps {z : State} (s : State) (own : Nat → Nat → Nat → Bool)
    (hz : z.Keeps s) : z.Keeps (State.dropRequests s own) := by
  unfold State.dropRequests
  try dsimp only
  repeat' with_reducible first | assumption | apply ite_keeps | split | refine .of_mk rfl rfl ?_

theorem State.retireCoreWork_keeps {z : State} (s : State) (c : Nat) (hz : z.Keeps s) : z.Keeps (State.retireCoreWork s c) := by
  unfold State.retireCoreWork
  try dsimp only
  repeat' with_reducible first
    | assumption | apply State.setCoreReady_keeps | apply State.dropSources_keeps | apply State.setCore_keeps | apply State.rerunUnit_keeps
    | apply State.emptyCoreQueues_keeps | apply State.dropRequests_keeps | refine foldl_keeps (fun _ _ _ => ?_) _ ?_
    | refine foldl_keeps_fst (fun _ _ _ => ?_) _ ?_ | refine .of_mk rfl rfl ?_

theorem State.swapCluster_keeps {z : State} (s : State) (k : Nat) (hz : z.Keeps s) : z.Keeps (State.swapCluster s k) := by
  unfold State.swapCluster
  try dsimp only
  repeat' with_reducible first
    | assumption | apply State.setReady_keeps | apply State.setCoreReady_keeps | apply State.dropSources_keeps | apply State.raise_keeps
    | apply State.dropRequests_keeps | apply State.retireCoreWork_keeps | refine foldl_keeps (fun _ _ _ => ?_) _ ?_
    | refine foldl_keeps_fst (fun _ _ _ => ?_) _ ?_ | apply ite_keeps | split | refine .of_mk rfl rfl ?_

theorem State.swapCore_keeps {z : State} (s : State) (c : Nat) (hz : z.Keeps s) : z.Keeps (State.swapCore s c) := by
  unfold State.swapCore
  try dsimp only
  repeat' with_reducible first
    | assumption | apply State.retireCoreWork_keeps | apply State.swapCluster_keeps | apply ite_keeps | split | refine .of_mk rfl rfl ?_

theorem State.swapDmp_keeps {z : State} (s : State) (d : Nat) (hz : z.Keeps s) : z.Keeps (State.swapDmp s d) := by
  unfold State.swapDmp
  repeat' with_reducible first | assumption | apply State.setReady_keeps | refine .of_mk rfl rfl ?_

theorem State.retirePan_keeps {z : State} (s : State) (c p what col : Nat)
    (hz : z.Keeps s) : z.Keeps (State.retirePan s c p what col) := by
  unfold State.retirePan
  try dsimp only
  repeat' with_reducible first
    | assumption | apply State.setPan_keeps | apply State.swapCore_keeps | apply ite_keeps | split | refine .of_mk rfl rfl ?_

theorem State.applyRemap_keeps {z : State} (s : State) (c p : Nat) (hz : z.Keeps s) : z.Keeps (State.applyRemap s c p) := by
  unfold State.applyRemap
  try dsimp only
  repeat' with_reducible first
    | assumption | apply State.setPan_keeps | apply State.retirePan_keeps | refine foldl_keeps (fun _ _ _ => ?_) _ ?_
    | refine foldl_keeps_fst (fun _ _ _ => ?_) _ ?_ | refine .of_mk rfl rfl ?_

theorem State.setStack_keeps {z : State} (s : State) (i : Nat) (x : StackSt) (hz : z.Keeps s) : z.Keeps (State.setStack s i x) := by
  unfold State.setStack
  repeat' with_reducible first | assumption | refine .of_mk rfl rfl ?_

theorem State.setDev_keeps {z : State} (s : State) (i : Nat) (x : CxlSt) (hz : z.Keeps s) : z.Keeps (State.setDev s i x) := by
  unfold State.setDev
  repeat' with_reducible first | assumption | refine .of_mk rfl rfl ?_

theorem State.clearLines_keeps {z : State} (s : State) (p : Nat) (hz : z.Keeps s) : z.Keeps (State.clearLines s p) := by
  unfold State.clearLines
  try dsimp only
  repeat' with_reducible first | assumption | apply ite_keeps | split | refine .of_mk rfl rfl ?_

theorem State.unmapPage_keeps {z : State} (s : State) (p : Nat) (hz : z.Keeps s) : z.Keeps (State.unmapPage s p) := by
  unfold State.unmapPage
  try dsimp only
  repeat' with_reducible first | assumption | apply State.setMapEntry_keeps | apply State.clearLines_keeps | refine .of_mk rfl rfl ?_

theorem State.losePageAt_keeps {z : State} (s : State) (p addr : Nat) (hz : z.Keeps s) : z.Keeps (State.losePageAt s p addr) := by
  unfold State.losePageAt
  repeat' with_reducible first
    | assumption | apply State.setEnt_keeps | apply State.bump_keeps | apply State.conditionAt_keeps | apply State.unmapPage_keeps

theorem State.losePage_keeps {z : State} (s : State) (p : Nat) (hz : z.Keeps s) : z.Keeps (State.losePage s p) := by
  unfold State.losePage
  repeat' with_reducible first | assumption | apply State.losePageAt_keeps

theorem State.strikePages_keeps {z : State} (s : State) (pages : List Nat) (hz : z.Keeps s) : z.Keeps (State.strikePages s pages) := by
  unfold State.strikePages
  try dsimp only
  repeat' with_reducible first
    | assumption | apply State.setMapEntry_keeps | apply State.losePage_keeps | refine foldl_keeps (fun _ _ _ => ?_) _ ?_
    | refine foldl_keeps_fst (fun _ _ _ => ?_) _ ?_ | apply ite_keeps | split | refine .of_mk rfl rfl ?_

theorem State.dropMemSource_keeps {z : State} (s : State) (source : Nat) (hz : z.Keeps s) : z.Keeps (State.dropMemSource s source) := by
  unfold State.dropMemSource
  try dsimp only
  repeat' with_reducible first | assumption | refine .of_mk rfl rfl ?_

theorem State.retirePc_keeps {z : State} (s0 : State) (st pc : Nat) (hz : z.Keeps s0) : z.Keeps (State.retirePc s0 st pc) := by
  unfold State.retirePc
  try dsimp only
  repeat' with_reducible first
    | assumption | apply State.repairRecord_keeps | apply State.raise_keeps | apply State.loseCompute_keeps | apply State.setStack_keeps
    | apply State.strikePages_keeps | apply State.dropMemSource_keeps | apply ite_keeps | split | refine .of_mk rfl rfl ?_

theorem State.copyPc_keeps {z : State} (s : State) (st pc : Nat) (hz : z.Keeps s) : z.Keeps (State.copyPc s st pc) := by
  unfold State.copyPc
  try dsimp only
  repeat' with_reducible first
    | assumption | apply State.repairRecord_keeps | apply State.setStack_keeps | apply ite_keeps | split | refine .of_mk rfl rfl ?_

theorem State.replaceDev_keeps {z : State} (s : State) (d : Nat) (hz : z.Keeps s) : z.Keeps (State.replaceDev s d) := by
  unfold State.replaceDev
  repeat' with_reducible first
    | assumption | apply State.repairRecord_keeps | apply State.setDev_keeps | apply ite_keeps | split | refine .of_mk rfl rfl ?_

theorem State.failDev_keeps {z : State} (s9 : State) (d : Nat) (hz : z.Keeps s9) : z.Keeps (State.failDev s9 d) := by
  unfold State.failDev
  try dsimp only
  repeat' with_reducible first
    | assumption | apply State.setEnt_keeps | apply State.setReady_keeps | apply State.setMapEntry_keeps | apply State.repairRecord_keeps
    | apply State.raise_keeps | apply State.loseCompute_keeps | apply State.setDev_keeps | apply State.strikePages_keeps
    | apply State.dropMemSource_keeps | refine foldl_keeps (fun _ _ _ => ?_) _ ?_ | refine foldl_keeps_fst (fun _ _ _ => ?_) _ ?_
    | apply ite_keeps | split | refine .of_mk rfl rfl ?_

theorem State.sendLaneState_keeps {z : State} (s : State) (port : Nat) (hz : z.Keeps s) : z.Keeps (State.sendLaneState s port) := by
  unfold State.sendLaneState
  try dsimp only
  repeat' with_reducible first
    | assumption | apply State.sendOn_keeps | refine foldl_keeps (fun _ _ _ => ?_) _ ?_ | refine foldl_keeps_fst (fun _ _ _ => ?_) _ ?_

theorem State.rerouteLane_keeps {z : State} (s : State) (i : Nat) (hz : z.Keeps s) : z.Keeps (State.rerouteLane s i) := by
  unfold State.rerouteLane
  try dsimp only
  repeat' with_reducible first
    | assumption | apply State.bump_keeps | apply State.setLane_keeps | apply State.sendFrame_keeps
    | refine foldl_keeps (fun _ _ _ => ?_) _ ?_ | refine foldl_keeps_fst (fun _ _ _ => ?_) _ ?_ | refine .of_mk rfl rfl ?_

theorem State.reroutePath_keeps {z : State} (s : State) (node i : Nat) (hz : z.Keeps s) : z.Keeps (State.reroutePath s node i) := by
  unfold State.reroutePath
  try dsimp only
  repeat' with_reducible first
    | assumption | apply State.bump_keeps | apply State.setLane_keeps | apply State.sendFrame_keeps
    | refine foldl_keeps (fun _ _ _ => ?_) _ ?_ | refine foldl_keeps_fst (fun _ _ _ => ?_) _ ?_ | apply ite_keeps | split
    | refine .of_mk rfl rfl ?_

theorem State.retireLane_keeps {z : State} (s : State) (i : Nat) (hz : z.Keeps s) : z.Keeps (State.retireLane s i) := by
  unfold State.retireLane
  try dsimp only
  repeat' with_reducible first
    | assumption | apply State.setReady_keeps | apply State.setLane_keeps | apply State.sendLaneState_keeps | apply State.rerouteLane_keeps
    | refine foldl_keeps (fun _ _ _ => ?_) _ ?_ | refine foldl_keeps_fst (fun _ _ _ => ?_) _ ?_ | apply ite_keeps | split
    | refine .of_mk rfl rfl ?_

theorem State.hostDown_keeps {z : State} (s : State) (hz : z.Keeps s) : z.Keeps (State.hostDown s) := by
  unfold State.hostDown
  repeat' with_reducible first | assumption | apply State.setReady_keeps | refine .of_mk rfl rfl ?_

theorem State.lowerHost_keeps {z : State} (s : State) (hz : z.Keeps s) : z.Keeps (State.lowerHost s) := by
  unfold State.lowerHost
  try dsimp only
  repeat' with_reducible first | assumption | apply State.hostDown_keeps | apply ite_keeps | split | refine .of_mk rfl rfl ?_

/-! ## Latch -/

theorem State.setCollector_keeps {z : State} (s : State) (k : Nat) (x : Collector)
    (hz : z.Keeps s) : z.Keeps (State.setCollector s k x) := by
  unfold State.setCollector
  repeat' with_reducible first | assumption | refine .of_mk rfl rfl ?_

theorem State.place_keeps {z : State} : ∀ (n : Nat) (s : State) (l u : Nat) (f : Latched), z.Keeps s → z.Keeps (State.place n s l u f)
  | 0, _, _, _, _, h => h
  | n + 1, s, l, u, f, h => by
    unfold State.place
    dsimp only
    split
    · exact State.setCollector_keeps _ _ _ h
    · exact State.setCollector_keeps _ _ _ h
    · split
      · exact State.place_keeps n _ _ _ _ (State.setCollector_keeps _ _ _ h)
      · exact State.setCollector_keeps _ _ _ h

theorem State.remapPan_keeps {z : State} (s : State) (r : FaultReport) (hz : z.Keeps s) : z.Keeps (State.remapPan s r) := by
  unfold State.remapPan
  try dsimp only
  repeat' with_reducible first
    | assumption | apply State.setPan_keeps | apply State.retirePan_keeps | apply ite_keeps | split | refine .of_mk rfl rfl ?_

theorem State.severeAction_keeps {z : State} (s : State) (r : FaultReport) (hz : z.Keeps s) : z.Keeps (State.severeAction s r) := by
  unfold State.severeAction
  try dsimp only
  repeat' with_reducible first
    | assumption | apply State.setEnt_keeps | apply State.setReady_keeps | apply State.loseCompute_keeps | apply State.failTest_keeps
    | apply State.swapCluster_keeps | apply State.swapCore_keeps | apply State.swapDmp_keeps | apply State.losePageAt_keeps
    | apply State.retirePc_keeps | apply State.copyPc_keeps | apply State.replaceDev_keeps | apply State.failDev_keeps
    | apply State.retireLane_keeps | apply State.lowerHost_keeps | apply State.remapPan_keeps | apply ite_keeps | split
    | refine .of_mk rfl rfl ?_

theorem State.stepEffect_keeps {z : State} (s : State) (r : FaultReport) (hz : z.Keeps s) : z.Keeps (State.stepEffect s r) := by
  unfold State.stepEffect
  repeat' with_reducible first | assumption | apply State.flagFault_keeps | apply State.noOutcome_keeps | apply ite_keeps | split

theorem State.flushMirror_keeps {z : State} (s : State) (hz : z.Keeps s) : z.Keeps (State.flushMirror s) := by
  unfold State.flushMirror
  repeat' with_reducible first | assumption | apply ite_keeps | split | refine .of_mk rfl rfl ?_

theorem State.fatalStop_keeps {z : State} (s : State) (cls : Nat) (hz : z.Keeps s) : z.Keeps (State.fatalStop s cls) := by
  unfold State.fatalStop
  try dsimp only
  repeat' with_reducible first
    | assumption | apply State.changed_keeps | apply State.loseCompute_keeps | apply State.flushMirror_keeps | refine .of_mk rfl rfl ?_

theorem State.dropShifts_keeps {z : State} (s : State) (c p : Nat) (hz : z.Keeps s) : z.Keeps (State.dropShifts s c p) := by
  unfold State.dropShifts
  repeat' with_reducible first | assumption | apply State.setQueueAt_keeps | refine .of_mk rfl rfl ?_

theorem State.replayPan_keeps {z : State} (s : State) (c p : Nat) (grain : Bool)
    (hz : z.Keeps s) : z.Keeps (State.replayPan s c p grain) := by
  unfold State.replayPan
  try dsimp only
  repeat' with_reducible first
    | assumption | apply State.bump_keeps | apply State.setCore_keeps | apply State.setPan_keeps | apply State.applyRemap_keeps
    | apply State.dropShifts_keeps | apply ite_keeps | split

theorem State.replaySluice_keeps {z : State} (s : State) (c : Nat) (hz : z.Keeps s) : z.Keeps (State.replaySluice s c) := by
  unfold State.replaySluice
  try dsimp only
  repeat' with_reducible first | assumption | apply State.bump_keeps | apply State.setCore_keeps | apply ite_keeps | split | refine .of_mk rfl rfl ?_

theorem State.replayVector_keeps {z : State} (s : State) (c : Nat) (hz : z.Keeps s) : z.Keeps (State.replayVector s c) := by
  unfold State.replayVector
  repeat' with_reducible first | assumption | apply State.setCore_keeps | apply State.rerunUnit_keeps | split | refine .of_mk rfl rfl ?_

theorem State.panFault_keeps {z : State} (s : State) (r : FaultReport) (hz : z.Keeps s) : z.Keeps (State.panFault s r) := by
  unfold State.panFault
  try dsimp only
  repeat' with_reducible first
    | assumption | apply State.setCore_keeps | apply State.setPan_keeps | apply State.dropShifts_keeps | apply State.replayPan_keeps
    | apply State.replaySluice_keeps | apply State.replayVector_keeps | apply ite_keeps | split | refine .of_mk rfl rfl ?_

theorem State.workFault_keeps {z : State} (s : State) (r : FaultReport) (hz : z.Keeps s) : z.Keeps (State.workFault s r) := by
  unfold State.workFault
  repeat' with_reducible first
    | assumption | apply State.setCore_keeps | apply State.panFault_keeps | apply ite_keeps | split | refine .of_mk rfl rfl ?_

theorem State.thaw_keeps {z : State} (s : State) (c : Nat) (hz : z.Keeps s) : z.Keeps (State.thaw s c) := by
  unfold State.thaw
  repeat' with_reducible first
    | assumption | apply State.setCore_keeps | apply State.panFault_keeps | refine foldl_keeps (fun _ _ _ => ?_) _ ?_
    | refine foldl_keeps_fst (fun _ _ _ => ?_) _ ?_ | apply ite_keeps | split | refine .of_mk rfl rfl ?_

theorem State.countFault_keeps {z : State} (s : State) (r : FaultReport) (v : Verdict)
    (hz : z.Keeps s) : z.Keeps (State.countFault s r v) := by
  unfold State.countFault
  try dsimp only
  repeat' with_reducible first | assumption | apply State.bump_keeps | apply ite_keeps | split

theorem State.classHolds_keeps {z : State} (s : State) (r : FaultReport) (v : Verdict)
    (hz : z.Keeps s) : z.Keeps (State.classHolds s r v) := by
  unfold State.classHolds
  repeat' with_reducible first | assumption | refine .of_mk rfl rfl ?_

theorem State.latchIn_keeps {z : State} (s : State) (r : FaultReport) (v : Verdict) (hz : z.Keeps s) : z.Keeps (State.latchIn s r v) := by
  unfold State.latchIn
  try dsimp only
  repeat' with_reducible first
    | assumption | apply State.changed_keeps | apply State.recordAt_keeps | apply State.setSource_keeps | apply State.setCollector_keeps
    | apply State.place_keeps | apply State.workFault_keeps | apply State.countFault_keeps | apply State.classHolds_keeps | apply ite_keeps
    | split | refine .of_mk rfl rfl ?_

theorem State.severeEffects_keeps {z : State} (s : State) (r : FaultReport) (v : Verdict)
    (hz : z.Keeps s) : z.Keeps (State.severeEffects s r v) := by
  unfold State.severeEffects
  repeat' with_reducible first
    | assumption | apply State.severeAction_keeps | apply State.stepEffect_keeps | apply State.fatalStop_keeps | apply ite_keeps | split

theorem State.latchOne_keeps {z : State} (s : State) (r : FaultReport) (hz : z.Keeps s) : z.Keeps (State.latchOne s r) := by
  unfold State.latchOne
  try dsimp only
  repeat' with_reducible first | assumption | apply State.latchIn_keeps | apply State.severeEffects_keeps | apply ite_keeps | split

theorem State.latchAt_keeps {z : State} (s : State) (sev : Nat) (r : FaultReport) (hz : z.Keeps s) : z.Keeps (State.latchAt s sev r) := by
  unfold State.latchAt
  repeat' with_reducible first | assumption | apply State.latchIn_keeps | refine .of_mk rfl rfl ?_

theorem State.latchHandled_keeps {z : State} (s : State) (r : FaultReport) (hz : z.Keeps s) : z.Keeps (State.latchHandled s r) := by
  unfold State.latchHandled
  try dsimp only
  repeat' with_reducible first | assumption | apply State.setCollector_keeps | apply State.latchAt_keeps | refine .of_mk rfl rfl ?_

theorem State.latch_keeps {z : State} (s : State) (r : FaultReport) (hz : z.Keeps s) : z.Keeps (State.latch s r) := by
  unfold State.latch
  try dsimp only
  repeat' with_reducible first | assumption | apply State.setSource_keeps | apply State.latchOne_keeps | apply ite_keeps | split

theorem State.settle_keeps {z : State} : ∀ (n : Nat) (s : State), z.Keeps s → z.Keeps (State.settle n s)
  | 0, _, h => h
  | n + 1, _, h => State.settle_keeps n _ (foldl_keeps (fun _ _ h => State.latch_keeps _ _ h) _ (.of_mk rfl rfl h))

theorem State.latchAll_keeps {z : State} (s : State) (hz : z.Keeps s) : z.Keeps (State.latchAll s) := by
  unfold State.latchAll
  repeat' with_reducible first | assumption | apply State.settle_keeps

theorem State.markAcked_keeps {z : State} (s : State) (seq : Nat) (hz : z.Keeps s) : z.Keeps (State.markAcked s seq) := by
  unfold State.markAcked
  try dsimp only
  repeat' with_reducible first | assumption | refine .of_mk rfl rfl ?_

theorem State.ackSeq_keeps {z : State} (s : State) (seq : Nat) (hz : z.Keeps s) : z.Keeps (State.ackSeq s seq) := by
  unfold State.ackSeq
  try dsimp only
  repeat' with_reducible first | assumption | apply State.changed_keeps | apply State.markAcked_keeps | refine .of_mk rfl rfl ?_

theorem State.clearLinesOf_keeps {z : State} (s : State) (keys : List Nat) (hz : z.Keeps s) : z.Keeps (State.clearLinesOf s keys) := by
  unfold State.clearLinesOf
  try dsimp only
  repeat' with_reducible first | assumption | apply ite_keeps | split | refine .of_mk rfl rfl ?_

theorem State.handled_keeps {z : State} (s : State) (k : Nat) (hz : z.Keeps s) : z.Keeps (State.handled s k) := by
  unfold State.handled
  try dsimp only
  repeat' with_reducible first
    | assumption | apply State.changed_keeps | apply State.setCollector_keeps | apply State.markAcked_keeps
    | apply State.clearLinesOf_keeps | apply ite_keeps | split

/-! ## Security -/

/-- The next entry of the counter is blank. -/
theorem otpNext_blank {l : List Nat} {i : Nat} (h : l.getD i 0 ≠ 0) : i ≠ otpNext l := by
  rintro rfl
  apply h
  unfold otpNext
  have key : ∀ m : List Nat, (m.reverse).getD (m.length - (m.takeWhile (· == 0)).length) 0 = 0 := by
    intro m
    induction m with
    | nil => rfl
    | cons a t ih =>
      by_cases ha : a = 0
      · subst ha
        have le : (t.takeWhile (· == 0)).length ≤ t.length := (List.takeWhile_sublist _).length_le
        simp only [List.reverse_cons, List.takeWhile_cons, beq_self_eq_true, if_true, List.length_cons, Nat.add_sub_add_right]
        simp only [List.getD_eq_getElem?_getD] at ih ⊢
        by_cases hlt : t.length - (t.takeWhile (· == 0)).length < t.reverse.length
        · rw [List.getElem?_append_left hlt]
          exact ih
        · simp only [List.length_reverse] at hlt
          have e : t.length - (t.takeWhile (· == 0)).length = t.reverse.length := by
            simp only [List.length_reverse]
            omega
          rw [e, List.getElem?_append_right (Nat.le_refl _)]
          simp
      · simp [ha, List.getD_eq_getElem?_getD]
  simpa using key l.reverse

theorem State.advanceCounter_keeps {z : State} (s : State) (v : Nat) (hz : z.Keeps s) : z.Keeps (State.advanceCounter s v) := by
  unfold State.advanceCounter
  dsimp only
  split
  · refine hz.trans ⟨rfl, id, fun i h => ?_, fun i h => ?_, Nat.le_refl _, id, Nat.le_refl _⟩
    · simp only [Nat.testBit_or, h, Bool.true_or]
    · simp only [List.getD_eq_getElem?_getD, List.getElem?_set_ne (Ne.symm (otpNext_blank h))]
  · exact State.condition_keeps _ _ _ _ _ _ hz

theorem State.runImage_keeps {z : State} (s : State) (img : List Byte) (hz : z.Keeps s) : z.Keeps (State.runImage s img) := by
  unfold State.runImage
  repeat' with_reducible first | assumption | refine .of_mk rfl rfl ?_

theorem State.recoveryMode_keeps {z : State} (s : State) (hz : z.Keeps s) : z.Keeps (State.recoveryMode s) := by
  unfold State.recoveryMode
  repeat' with_reducible first | assumption | apply State.raise_keeps | refine .of_mk rfl rfl ?_

theorem State.bootBank_keeps {z : State} (s : State) (b other : Bool) (hz : z.Keeps s) : z.Keeps (State.bootBank s b other) := by
  unfold State.bootBank
  try dsimp only
  repeat' with_reducible first
    | assumption | apply State.latchAt_keeps | apply State.runImage_keeps | apply ite_keeps | split | refine .of_mk rfl rfl ?_

theorem State.bootRom_keeps {z : State} (s : State) (hz : z.Keeps s) : z.Keeps (State.bootRom s) := by
  unfold State.bootRom
  try dsimp only
  repeat' with_reducible first
    | assumption | apply State.recoveryMode_keeps | apply State.bootBank_keeps | apply ite_keeps | split | refine .of_mk rfl rfl ?_

theorem State.ringFaults_keeps {z : State} (s : State) (l : List RingRec) (base : Nat)
    (hz : z.Keeps s) : z.Keeps (State.ringFaults s l base) := by
  unfold State.ringFaults
  try dsimp only
  repeat' with_reducible first
    | assumption | apply State.latchHandled_keeps | refine foldl_keeps (fun _ _ _ => ?_) _ ?_
    | refine foldl_keeps_fst (fun _ _ _ => ?_) _ ?_ | apply ite_keeps | split

theorem State.createAttestKey_keeps {z : State} (s : State) (hz : z.Keeps s) : z.Keeps (State.createAttestKey s) := by
  unfold State.createAttestKey
  try dsimp only
  repeat' with_reducible first
    | assumption | apply State.setReady_keeps | apply State.raise_keeps | apply State.ringFaults_keeps | apply ite_keeps | split
    | refine .of_mk rfl rfl ?_

theorem State.destroyAttestKey_keeps {z : State} (s : State) (hz : z.Keeps s) : z.Keeps (State.destroyAttestKey s) := by
  unfold State.destroyAttestKey
  repeat' with_reducible first
    | assumption | apply State.setReady_keeps | apply State.raise_keeps | apply ite_keeps | split | refine .of_mk rfl rfl ?_

theorem State.attestGo_keeps {z : State} (s : State) (v : Nat) (hz : z.Keeps s) : z.Keeps (State.attestGo s v).s := by
  unfold State.attestGo
  try dsimp only
  repeat' with_reducible first
    | assumption | apply State.destroyAttestKey_keeps | apply ite_keeps_s | apply ite_keeps | split | refine .of_mk rfl rfl ?_

theorem State.enrol_keeps {z : State} (s : State) (slot : Nat) (k : List Byte) (h : Nat)
    (hz : z.Keeps s) : z.Keeps (State.enrol s slot k h) := by
  unfold State.enrol
  repeat' with_reducible first | assumption | refine .of_mk rfl rfl ?_

theorem State.enrolGo_keeps {z : State} (s : State) (hz : z.Keeps s) : z.Keeps (State.enrolGo s).s := by
  unfold State.enrolGo
  try dsimp only
  repeat' with_reducible first | assumption | apply State.enrol_keeps | apply ite_keeps_s | apply ite_keeps | split | refine .of_mk rfl rfl ?_

theorem State.acceptToken_keeps {z : State} (s : State) (t : Token) (hz : z.Keeps s) : z.Keeps (State.acceptToken s t) := by
  unfold State.acceptToken
  repeat' with_reducible first | assumption | refine .of_mk rfl rfl ?_

theorem State.tokenEffect_keeps {z : State} (s : State) (t : Token) (hz : z.Keeps s) : z.Keeps (State.tokenEffect s t) := by
  unfold State.tokenEffect
  repeat' with_reducible first | assumption | apply State.advanceCounter_keeps | apply State.enrol_keeps | split | refine .of_mk rfl rfl ?_

theorem State.tokenGo_keeps {z : State} (s : State) (hz : z.Keeps s) : z.Keeps (State.tokenGo s).s := by
  unfold State.tokenGo
  try dsimp only
  repeat' with_reducible first
    | assumption | apply State.bump_keeps | apply State.condition_keeps | apply State.acceptToken_keeps | apply State.tokenEffect_keeps
    | apply ite_keeps_s | apply ite_keeps | split | refine .of_mk rfl rfl ?_

theorem State.clearGo_keeps {z : State} (s : State) (hz : z.Keeps s) : z.Keeps (State.clearGo s).s := by
  unfold State.clearGo
  try dsimp only
  repeat' with_reducible first
    | assumption | apply State.bump_keeps | apply State.record_keeps | apply State.acceptToken_keeps
    | refine foldl_keeps (fun _ _ _ => ?_) _ ?_ | refine foldl_keeps_fst (fun _ _ _ => ?_) _ ?_ | apply ite_keeps_s | apply ite_keeps
    | split | refine .of_mk rfl rfl ?_

theorem State.stageGo_keeps {z : State} (s : State) (v : Nat) (hz : z.Keeps s) : z.Keeps (State.stageGo s v).s := by
  unfold State.stageGo
  try dsimp only
  repeat' with_reducible first | assumption | apply State.setEnt_keeps | apply ite_keeps_s | apply ite_keeps | split | refine .of_mk rfl rfl ?_

theorem State.stageDone_keeps {z : State} (s : State) (hz : z.Keeps s) : z.Keeps (State.stageDone s) := by
  unfold State.stageDone
  try dsimp only
  repeat' with_reducible first | assumption | apply State.setEnt_keeps | apply ite_keeps | split | refine .of_mk rfl rfl ?_

/-! ## Supply -/

theorem State.autoAdvance_keeps {z : State} (s : State) (hz : z.Keeps s) : z.Keeps (State.autoAdvance s) := by
  unfold State.autoAdvance
  repeat' with_reducible first | assumption | apply State.advanceCounter_keeps | apply ite_keeps | split

theorem State.setCompute_keeps {z : State} (s : State) (hz : z.Keeps s) : z.Keeps (State.setCompute s) := by
  unfold State.setCompute
  try dsimp only
  repeat' with_reducible first | assumption | apply State.setReady_keeps | refine .of_mk rfl rfl ?_

theorem State.computeCheck_keeps {z : State} (s : State) (hz : z.Keeps s) : z.Keeps (State.computeCheck s) := by
  unfold State.computeCheck
  repeat' with_reducible first | assumption | apply State.autoAdvance_keeps | apply State.setCompute_keeps | apply ite_keeps | split

theorem State.bringUp_keeps {z : State} (s : State) (b : Nat) (hz : z.Keeps s) : z.Keeps (State.bringUp s b) := by
  unfold State.bringUp
  try dsimp only
  repeat' with_reducible first
    | assumption | apply State.setLane_keeps | apply State.sendLaneState_keeps | refine foldl_keeps (fun _ _ _ => ?_) _ ?_
    | refine foldl_keeps_fst (fun _ _ _ => ?_) _ ?_ | apply ite_keeps | split | refine .of_mk rfl rfl ?_

theorem State.bitSet_keeps {z : State} (s : State) (b : Nat) (hz : z.Keeps s) : z.Keeps (State.bitSet s b) := by
  unfold State.bitSet
  repeat' with_reducible first | assumption | apply State.recordsOfDie1_keeps | apply ite_keeps | split

theorem State.lateRecord_keeps {z : State} (s : State) (cls : Nat) (f : FnId) (hz : z.Keeps s) : z.Keeps (State.lateRecord s cls f) := by
  unfold State.lateRecord
  repeat' with_reducible first | assumption | apply State.latchAt_keeps | apply ite_keeps | split | refine .of_mk rfl rfl ?_

theorem State.lateStack_keeps {z : State} (s : State) (st : Nat) (hz : z.Keeps s) : z.Keeps (State.lateStack s st) := by
  unfold State.lateStack
  repeat' with_reducible first
    | assumption | apply State.raise_keeps | apply State.loseCompute_keeps | apply State.setStack_keeps | refine .of_mk rfl rfl ?_

/-! ## Power -/

theorem State.raisePower_keeps {z : State} (s : State) (source atLeast : Nat)
    (hz : z.Keeps s) : z.Keeps (State.raisePower s source atLeast) := by
  unfold State.raisePower
  repeat' with_reducible first | assumption | apply State.raise_keeps | refine .of_mk rfl rfl ?_

theorem State.tickCluster_keeps {z : State} (s0 s : State) (k : Nat) (hz : z.Keeps s) : z.Keeps (State.tickCluster s0 s k) := by
  unfold State.tickCluster
  try dsimp only
  repeat' with_reducible first | assumption | apply ite_keeps | split | refine .of_mk rfl rfl ?_

theorem State.accountTick_keeps {z : State} (s : State) (p : Nat) (hz : z.Keeps s) : z.Keeps (State.accountTick s p) :=
  State.syncAccount_keeps _ (.of_mk rfl rfl hz)

theorem State.voltTick_keeps {z : State} (s : State) (mv : Nat) (hz : z.Keeps s) : z.Keeps (State.voltTick s mv) := by
  unfold State.voltTick
  try dsimp only
  repeat' with_reducible first | assumption | apply ite_keeps | split | refine .of_mk rfl rfl ?_

theorem State.meterEntries_keeps {z : State} (s : State) (m : PowerMeas) (hz : z.Keeps s) : z.Keeps (State.meterEntries s m) := by
  unfold State.meterEntries
  try dsimp only
  repeat' with_reducible first | assumption | apply State.setEnt_keeps

theorem State.thawAll_keeps {z : State} (s : State) (hz : z.Keeps s) : z.Keeps (State.thawAll s) := by
  unfold State.thawAll
  try dsimp only
  repeat' with_reducible first
    | assumption | apply State.thaw_keeps | refine foldl_keeps (fun _ _ _ => ?_) _ ?_ | refine foldl_keeps_fst (fun _ _ _ => ?_) _ ?_

theorem State.heatHolds_keeps {z : State} (s : State) (hz : z.Keeps s) : z.Keeps (State.heatHolds s) := by
  unfold State.heatHolds
  try dsimp only
  repeat' with_reducible first | assumption | refine .of_mk rfl rfl ?_

theorem State.springSample_keeps {z : State} (s : State) (x : Sensor) (t : Int) (hz : z.Keeps s) : z.Keeps (State.springSample s x t) := by
  unfold State.springSample
  repeat' with_reducible first | assumption | apply ite_keeps | split | refine .of_mk rfl rfl ?_

theorem State.dieTrip_keeps {z : State} (s : State) (d : Nat) (hz : z.Keeps s) : z.Keeps (State.dieTrip s d) := by
  unfold State.dieTrip
  try dsimp only
  repeat' with_reducible first
    | assumption | apply State.setEnt_keeps | apply State.setReady_keeps | refine foldl_keeps (fun _ _ _ => ?_) _ ?_
    | refine foldl_keeps_fst (fun _ _ _ => ?_) _ ?_ | refine .of_mk rfl rfl ?_

theorem State.clusterOff_keeps {z : State} (s : State) (k : Nat) (hz : z.Keeps s) : z.Keeps (State.clusterOff s k) := by
  unfold State.clusterOff
  try dsimp only
  repeat' with_reducible first
    | assumption | apply State.setReady_keeps | apply State.setCoreReady_keeps | refine foldl_keeps (fun _ _ _ => ?_) _ ?_
    | refine foldl_keeps_fst (fun _ _ _ => ?_) _ ?_ | refine .of_mk rfl rfl ?_

theorem State.regulatorTrip_keeps {z : State} (s : State) (r : Nat) (hz : z.Keeps s) : z.Keeps (State.regulatorTrip s r) := by
  unfold State.regulatorTrip
  try dsimp only
  repeat' with_reducible first
    | assumption | apply State.clusterOff_keeps | refine foldl_keeps (fun _ _ _ => ?_) _ ?_ | refine foldl_keeps_fst (fun _ _ _ => ?_) _ ?_
    | apply ite_keeps | split | refine .of_mk rfl rfl ?_

theorem State.stackTrip_keeps {z : State} (s : State) (st : Nat) (hz : z.Keeps s) : z.Keeps (State.stackTrip s st) := by
  unfold State.stackTrip
  repeat' with_reducible first
    | assumption | apply State.setReady_keeps | apply State.setStack_keeps | refine foldl_keeps (fun _ _ _ => ?_) _ ?_
    | refine foldl_keeps_fst (fun _ _ _ => ?_) _ ?_ | refine .of_mk rfl rfl ?_

theorem State.bookShare_keeps {z : State} (s : State) (x : EnergyShare) (uj : Nat)
    (hz : z.Keeps s) : z.Keeps (State.bookShare s x uj) := by
  unfold State.bookShare
  try dsimp only
  repeat' with_reducible first | assumption | apply ite_keeps | split | refine .of_mk rfl rfl ?_

theorem State.bookAll_keeps {z : State} (s : State) (l : List EnergyShare) (sum total : Nat)
    (hz : z.Keeps s) : z.Keeps (State.bookAll s l sum total) := by
  unfold State.bookAll
  try dsimp only
  repeat' with_reducible first
    | assumption | apply State.bookShare_keeps | refine foldl_keeps (fun _ _ _ => ?_) _ ?_ | refine foldl_keeps_fst (fun _ _ _ => ?_) _ ?_

theorem State.meterRailEnergy_keeps {z : State} (s : State) (l : List (Rail × Nat))
    (hz : z.Keeps s) : z.Keeps (State.meterRailEnergy s l) := by
  unfold State.meterRailEnergy
  try dsimp only
  repeat' with_reducible first
    | assumption | refine foldl_keeps (fun _ _ _ => ?_) _ ?_ | refine foldl_keeps_fst (fun _ _ _ => ?_) _ ?_ | refine .of_mk rfl rfl ?_

theorem State.compareMeters_keeps {z : State} (s : State) (input rails : Nat)
    (hz : z.Keeps s) : z.Keeps (State.compareMeters s input rails) := by
  unfold State.compareMeters
  try dsimp only
  repeat' with_reducible first | assumption | apply ite_keeps | split | refine .of_mk rfl rfl ?_

end Sys2Proof.Machine
end

