-- ==== Sys2Proof/Laws/KeepsCompute.lean ====
section
/-! SUPPORT. `Keeps` for the operations of pans, sluice paths, vector units, scaling, loading and links: one lemma for each. -/

namespace Sys2Proof.Machine

variable {z : State}

/-! ## Store -/

theorem State.memViolation_keeps {z : State} (s : State) (code addr : Nat)
    (hz : z.Keeps s) : z.Keeps (State.memViolation s code addr) := by
  unfold State.memViolation
  try dsimp only
  repeat' with_reducible first
    | assumption | apply State.setEnt_keeps | apply State.bump_keeps | apply State.violation_keeps
    | refine foldl_keeps (fun _ _ _ => ?_) _ ?_ | refine foldl_keeps_fst (fun _ _ _ => ?_) _ ?_ | apply ite_keeps | split

theorem State.stallSeals_keeps {z : State} (s : State) (l : List (Nat × Nat)) (hz : z.Keeps s) : z.Keeps (State.stallSeals s l) := by
  unfold State.stallSeals
  try dsimp only
  repeat' with_reducible first | assumption | apply State.bump_keeps | apply State.draw_keeps | apply ite_keeps | split

theorem State.dropUnits_keeps {z : State} (s : State) (hz : z.Keeps s) : z.Keeps (State.dropUnits s) := by
  unfold State.dropUnits
  repeat' with_reducible first | assumption | refine .of_mk rfl rfl ?_

theorem State.goStale_keeps {z : State} (s : State) (hz : z.Keeps s) : z.Keeps (State.goStale s) :=
  State.setEnt_keeps _ _ _ (State.dropUnits_keeps s hz)

theorem State.copyBeforeWrite_keeps {z : State} (s : State) (p : Nat) (hz : z.Keeps s) : z.Keeps (State.copyBeforeWrite s p) := by
  unfold State.copyBeforeWrite
  try dsimp only
  repeat' with_reducible first | assumption | apply State.bump_keeps | apply State.draw_keeps | apply ite_keeps | split | refine .of_mk rfl rfl ?_

theorem State.addDelta_keeps {z : State} (s : State) (su : Option Nat) (d : Nat × Nat × Nat × List Byte)
    (hz : z.Keeps s) : z.Keeps (State.addDelta s su d).1 := by
  unfold State.addDelta
  try dsimp only
  repeat' with_reducible first | assumption | apply State.goStale_keeps | apply ite_keeps_fst | apply ite_keeps | split | refine .of_mk rfl rfl ?_

theorem State.storePiece_keeps {z : State} (s : State) (su : Option Nat) (a : Nat) (l : List Byte)
    (hz : z.Keeps s) : z.Keeps (State.storePiece s su a l).1 := by
  unfold State.storePiece
  try dsimp only
  repeat' with_reducible first
    | assumption | apply State.ramWrite_keeps | apply State.copyBeforeWrite_keeps | apply State.addDelta_keeps | apply ite_keeps_fst
    | apply ite_keeps | split

theorem State.storeIn_keeps {z : State} (s : State) (su : Option Nat) (a : Nat) (l : List Byte)
    (hz : z.Keeps s) : z.Keeps (State.storeIn s su a l).1 := by
  unfold State.storeIn
  try dsimp only
  repeat' with_reducible first
    | assumption | apply State.storePiece_keeps | refine foldl_keeps (fun _ _ _ => ?_) _ ?_ | refine foldl_keeps_fst (fun _ _ _ => ?_) _ ?_

theorem State.sendDeltas_keeps {z : State} (s : State) (h : Nat) (x : SealUnit) (frames : List (List Byte))
    (hz : z.Keeps s) : z.Keeps (State.sendDeltas s h x frames) := by
  unfold State.sendDeltas
  try dsimp only
  repeat' with_reducible first
    | assumption | apply State.sendFrame_keeps | refine foldl_keeps (fun _ _ _ => ?_) _ ?_ | refine foldl_keeps_fst (fun _ _ _ => ?_) _ ?_
    | apply ite_keeps | split | refine .of_mk rfl rfl ?_

theorem State.closeSeal_keeps {z : State} (s : State) (su : Option Nat) (chunk : Option (Nat × Nat))
    (hz : z.Keeps s) : z.Keeps (State.closeSeal s su chunk) := by
  unfold State.closeSeal
  try dsimp only
  repeat' with_reducible first
    | assumption | apply State.bump_keeps | apply State.sendDeltas_keeps | refine foldl_keeps (fun _ _ _ => ?_) _ ?_
    | refine foldl_keeps_fst (fun _ _ _ => ?_) _ ?_ | apply ite_keeps | split | refine .of_mk rfl rfl ?_

theorem State.storeUnit_keeps {z : State} (s : State) (ws : List (Nat × List Byte)) (hz : z.Keeps s) : z.Keeps (State.storeUnit s ws) := by
  unfold State.storeUnit
  try dsimp only
  repeat' with_reducible first
    | assumption | apply State.storeIn_keeps | apply State.closeSeal_keeps | refine foldl_keeps (fun _ _ _ => ?_) _ ?_
    | refine foldl_keeps_fst (fun _ _ _ => ?_) _ ?_

theorem State.ownWrite_keeps {z : State} (s : State) (a : Nat) (l : List Byte) (hz : z.Keeps s) : z.Keeps (State.ownWrite s a l) := by
  unfold State.ownWrite
  try dsimp only
  repeat' with_reducible first
    | assumption | apply State.memViolation_keeps | apply State.stallSeals_keeps | apply State.storeUnit_keeps | apply ite_keeps | split
    | refine .of_mk rfl rfl ?_

theorem State.owe_keeps {z : State} (s : State) (l : List (Nat × List Byte)) (hz : z.Keeps s) : z.Keeps (State.owe s l) := by
  unfold State.owe
  repeat' with_reducible first | assumption | refine .of_mk rfl rfl ?_

theorem State.drainOwn_keeps {z : State} : ∀ (n : Nat) (s : State), z.Keeps s → z.Keeps (State.drainOwn n s)
  | 0, _, h => h
  | n + 1, s, h => by
    unfold State.drainOwn
    split
    · exact h
    · split
      · exact State.stallSeals_keeps _ _ h
      · exact State.drainOwn_keeps n _ (State.owe_keeps _ _ (State.ownWrite_keeps _ _ _ (.of_mk rfl rfl h)))

theorem State.drainOwed_keeps {z : State} (s : State) (hz : z.Keeps s) : z.Keeps (State.drainOwed s) := by
  unfold State.drainOwed
  repeat' with_reducible first | assumption | apply State.drainOwn_keeps

theorem State.sendMirror_keeps {z : State} (s : State) (point : Nat) (l : List Byte)
    (hz : z.Keeps s) : z.Keeps (State.sendMirror s point l) := by
  unfold State.sendMirror
  try dsimp only
  repeat' with_reducible first | assumption | apply State.sendBytes_keeps | apply ite_keeps | split | refine .of_mk rfl rfl ?_

theorem State.refuseStep_keeps {z : State} (s : State) (code a : Nat) (hz : z.Keeps s) : z.Keeps (State.refuseStep s code a) := by
  unfold State.refuseStep
  try dsimp only
  repeat' with_reducible first | assumption | apply State.flagFault_keeps | apply State.memViolation_keeps | apply ite_keeps | split

theorem State.stepStore_keeps {z : State} (s : State) (su : Option Nat) (a : Nat) (l : List Byte)
    (hz : z.Keeps s) : z.Keeps (State.stepStore s su a l).1 := by
  unfold State.stepStore
  try dsimp only
  repeat' with_reducible first
    | assumption | apply State.storeIn_keeps | apply State.refuseStep_keeps | apply ite_keeps_fst | apply ite_keeps | split

/-! ## Operands -/

theorem State.rebuildFirst_keeps {z : State} (s : State) (p : Nat) (hz : z.Keeps s) : z.Keeps (State.rebuildFirst s p) := by
  unfold State.rebuildFirst
  repeat' with_reducible first | assumption | apply ite_keeps | split | refine .of_mk rfl rfl ?_

theorem State.rebuildLine_keeps {z : State} (s : State) (p : Nat) (hz : z.Keeps s) : z.Keeps (State.rebuildLine s p) := by
  unfold State.rebuildLine
  repeat' with_reducible first | assumption | apply State.setMapEntry_keeps | apply ite_keeps | split | refine .of_mk rfl rfl ?_

theorem State.memEvent_keeps {z : State} (s : State) (addr : Nat) (hz : z.Keeps s) : z.Keeps (State.memEvent s addr) := by
  unfold State.memEvent
  repeat' with_reducible first | assumption | apply State.setEnt_keeps | apply State.bump_keeps

theorem State.uncorrectable_keeps {z : State} (s : State) (addr : Nat) (hz : z.Keeps s) : z.Keeps (State.uncorrectable s addr) := by
  unfold State.uncorrectable
  try dsimp only
  repeat' with_reducible first
    | assumption | apply State.bump_keeps | apply State.raise_keeps | apply State.rebuildLine_keeps | apply State.memEvent_keeps
    | apply ite_keeps | split | refine .of_mk rfl rfl ?_

theorem State.troubled_keeps {z : State} (s : State) (core : Nat) (x : Trouble) (hz : z.Keeps s) : z.Keeps (State.troubled s core x) := by
  unfold State.troubled
  try dsimp only
  repeat' with_reducible first
    | assumption | apply State.bump_keeps | apply State.raise_keeps | apply State.flagFault_keeps | apply State.memViolation_keeps
    | apply State.rebuildFirst_keeps | apply State.uncorrectable_keeps | split

/-! ## Flags -/

theorem State.reportInvalid_keeps {z : State} (s : State) (c layer n : Nat) (w : ExWindow)
    (hz : z.Keeps s) : z.Keeps (State.reportInvalid s c layer n w) := by
  unfold State.reportInvalid
  try dsimp only
  repeat' with_reducible first | assumption | apply State.setCore_keeps | apply ite_keeps | split | refine .of_mk rfl rfl ?_

theorem State.queueRecord_keeps {z : State} (s : State) (c : Nat) (r : SalRec) (hz : z.Keeps s) : z.Keeps (State.queueRecord s c r) := by
  unfold State.queueRecord
  repeat' with_reducible first | assumption | apply State.sendQueue_keeps

theorem State.joinRecord_keeps {z : State} (s : State) (c : Nat) (r : SalRec) (hz : z.Keeps s) : z.Keeps (State.joinRecord s c r) := by
  unfold State.joinRecord
  try dsimp only
  repeat' with_reducible first | assumption | apply State.setCore_keeps | refine .of_mk rfl rfl ?_

theorem State.sendRecord_keeps {z : State} (s : State) (c : Nat) (r : SalRec) (hz : z.Keeps s) : z.Keeps (State.sendRecord s c r) := by
  unfold State.sendRecord
  repeat' with_reducible first | assumption | apply State.queueRecord_keeps | apply State.joinRecord_keeps

theorem State.holdRecord_keeps {z : State} (s : State) (c key : Nat) (r : SalRec)
    (hz : z.Keeps s) : z.Keeps (State.holdRecord s c key r) := by
  unfold State.holdRecord
  try dsimp only
  repeat' with_reducible first | assumption | apply State.setCore_keeps | apply State.queueRecord_keeps | refine .of_mk rfl rfl ?_

theorem State.joinHeld_keeps {z : State} (s : State) (c key : Nat) (hz : z.Keeps s) : z.Keeps (State.joinHeld s c key) := by
  unfold State.joinHeld
  try dsimp only
  repeat' with_reducible first
    | assumption | apply State.setCore_keeps | apply State.joinRecord_keeps | refine foldl_keeps (fun _ _ _ => ?_) _ ?_
    | refine foldl_keeps_fst (fun _ _ _ => ?_) _ ?_ | refine .of_mk rfl rfl ?_

theorem State.backwardSat_keeps {z : State} (s : State) (hz : z.Keeps s) : z.Keeps (State.backwardSat s) := by
  unfold State.backwardSat
  try dsimp only
  repeat' with_reducible first
    | assumption | apply State.bump_keeps | apply State.flagNonFinite_keeps | apply ite_keeps | split | refine .of_mk rfl rfl ?_

theorem State.mapDesc_keeps {z : State} (s : State) (pos : Nat) (f : DescRun → DescRun)
    (hz : z.Keeps s) : z.Keeps (State.mapDesc s pos f) := by
  unfold State.mapDesc
  try dsimp only
  repeat' with_reducible first | assumption | apply ite_keeps | split | refine .of_mk rfl rfl ?_

theorem State.unitFlags_keeps {z : State} (s : State) (overflows : Nat) (k : Counts)
    (hz : z.Keeps s) : z.Keeps (State.unitFlags s overflows k) := by
  unfold State.unitFlags
  try dsimp only
  repeat' with_reducible first | assumption | apply State.bump_keeps | apply State.flagNonFinite_keeps | apply ite_keeps | split

theorem State.unitSats_keeps {z : State} (s : State) (pos : Nat) (backward : Bool) (k : Counts)
    (hz : z.Keeps s) : z.Keeps (State.unitSats s pos backward k) := by
  unfold State.unitSats
  try dsimp only
  repeat' with_reducible first
    | assumption | apply State.backwardSat_keeps | apply State.mapDesc_keeps | apply ite_keeps | split | refine .of_mk rfl rfl ?_

theorem State.markLayer_keeps {z : State} (s : State) (l : Nat) (hz : z.Keeps s) : z.Keeps (State.markLayer s l) := by
  unfold State.markLayer
  repeat' with_reducible first | assumption | apply State.setRake_keeps | refine .of_mk rfl rfl ?_

/-! ## Plan -/

theorem State.finishUnit_keeps {z : State} (s : State) (c engine pos number : Nat)
    (hz : z.Keeps s) : z.Keeps (State.finishUnit s c engine pos number) := by
  unfold State.finishUnit
  try dsimp only
  repeat' with_reducible first
    | assumption | apply State.setCore_keeps | apply State.mapDesc_keeps | apply ite_keeps | split | refine .of_mk rfl rfl ?_

theorem State.finishOutput_keeps {z : State} (s : State) (c engine pos number : Nat)
    (hz : z.Keeps s) : z.Keeps (State.finishOutput s c engine pos number) := by
  unfold State.finishOutput
  try dsimp only
  repeat' with_reducible first | assumption | apply State.joinHeld_keeps | apply State.finishUnit_keeps | apply ite_keeps | split

/-! ## Pans -/

theorem State.settlePreload_keeps {z : State} (s : State) (c p : Nat) (hz : z.Keeps s) : z.Keeps (State.settlePreload s c p) := by
  unfold State.settlePreload
  try dsimp only
  repeat' with_reducible first
    | assumption | apply State.setPan_keeps | refine foldl_keeps (fun _ _ _ => ?_) _ ?_ | refine foldl_keeps_fst (fun _ _ _ => ?_) _ ?_
    | apply ite_keeps | split | refine .of_mk rfl rfl ?_

theorem State.settleBlock_keeps {z : State} (s : State) (c pos block : Nat)
    (hz : z.Keeps s) : z.Keeps (State.settleBlock s c pos block) := by
  unfold State.settleBlock
  try dsimp only
  repeat' with_reducible first
    | assumption | apply State.setCore_keeps | apply State.finishOutput_keeps | apply ite_keeps | split | refine .of_mk rfl rfl ?_

theorem State.dropBlock_keeps {z : State} (s : State) (c pos block : Nat) (hz : z.Keeps s) : z.Keeps (State.dropBlock s c pos block) := by
  unfold State.dropBlock
  try dsimp only
  repeat' with_reducible first
    | assumption | apply State.setCore_keeps | apply State.joinHeld_keeps | apply State.settleBlock_keeps | apply ite_keeps | split
    | refine .of_mk rfl rfl ?_

theorem State.tagFault_keeps {z : State} (s : State) (c p : Nat) (x : TagSlip) (bit : Nat)
    (hz : z.Keeps s) : z.Keeps (State.tagFault s c p x bit) := by
  unfold State.tagFault
  try dsimp only
  repeat' with_reducible first
    | assumption | apply State.bump_keeps | apply State.raise_keeps | apply State.setPan_keeps | apply State.latchAll_keeps
    | apply ite_keeps | split | refine .of_mk rfl rfl ?_

theorem State.runPass_keeps {z : State} (s : State) (c p : Nat) (r : DescRun) (t : TileRun) (rows : TileBuf)
    (hz : z.Keeps s) : z.Keeps (State.runPass s c p r t rows) := by
  unfold State.runPass
  try dsimp only
  repeat' with_reducible first
    | assumption | apply State.bump_keeps | apply State.draw_keeps | apply State.readQueue_keeps | apply State.setCore_keeps
    | apply State.setPan_keeps | apply ite_keeps | split | refine .of_mk rfl rfl ?_

theorem State.waitRow_keeps {z : State} (s : State) (c p : Nat) (hz : z.Keeps s) : z.Keeps (State.waitRow s c p) := by
  unfold State.waitRow
  try dsimp only
  repeat' with_reducible first | assumption | apply State.bump_keeps | apply State.setPan_keeps | apply ite_keeps | split | refine .of_mk rfl rfl ?_

theorem State.badRegister_keeps {z : State} (s : State) (c p : Nat) (r : DescRun) (t : TileRun) (i : Nat)
    (hz : z.Keeps s) : z.Keeps (State.badRegister s c p r t i) := by
  unfold State.badRegister
  try dsimp only
  repeat' with_reducible first
    | assumption | apply State.bump_keeps | apply State.raise_keeps | apply State.setPan_keeps | apply State.latchAll_keeps
    | apply State.troubled_keeps | apply State.dropBlock_keeps | split | refine .of_mk rfl rfl ?_

theorem State.takeShifts_keeps {z : State} (s : State) (c p payload : Nat)
    (hz : z.Keeps s) : z.Keeps (State.takeShifts s c p payload) := by
  unfold State.takeShifts
  try dsimp only
  repeat' with_reducible first | assumption | apply State.setPan_keeps | apply ite_keeps | split | refine .of_mk rfl rfl ?_

theorem State.fillRow_keeps {z : State} (s : State) (c p : Nat) (hz : z.Keeps s) : z.Keeps (State.fillRow s c p) := by
  unfold State.fillRow
  try dsimp only
  repeat' with_reducible first | assumption | apply State.bump_keeps | apply State.setPan_keeps | apply ite_keeps | split | refine .of_mk rfl rfl ?_

theorem State.reportTile_keeps {z : State} (s : State) (c : Nat) (r : DescRun) (sr : SalRec) (w : ExWindow) (send : Bool)
    (hz : z.Keeps s) : z.Keeps (State.reportTile s c r sr w send) := by
  unfold State.reportTile
  try dsimp only
  repeat' with_reducible first
    | assumption | apply State.reportInvalid_keeps | apply State.holdRecord_keeps | apply State.unitFlags_keeps | apply ite_keeps | split

theorem State.completeTile_keeps {z : State} (s : State) (c p : Nat) (r : DescRun) (t : TileRun)
    (hz : z.Keeps s) : z.Keeps (State.completeTile s c p r t) := by
  unfold State.completeTile
  try dsimp only
  repeat' with_reducible first
    | assumption | apply State.setCore_keeps | apply State.setPan_keeps | apply State.mapDesc_keeps | apply State.settleBlock_keeps
    | apply State.reportTile_keeps | refine foldl_keeps (fun _ _ _ => ?_) _ ?_ | refine foldl_keeps_fst (fun _ _ _ => ?_) _ ?_
    | apply ite_keeps | split | refine .of_mk rfl rfl ?_

theorem State.storeRow_keeps {z : State} (s : State) (su : Option Nat) (ws : List (Nat × List Byte))
    (hz : z.Keeps s) : z.Keeps (State.storeRow s su ws).1 := by
  unfold State.storeRow
  try dsimp only
  repeat' with_reducible first
    | assumption | apply State.stepStore_keeps | refine foldl_keeps (fun _ _ _ => ?_) _ ?_ | refine foldl_keeps_fst (fun _ _ _ => ?_) _ ?_

theorem State.endRows_keeps {z : State} (s : State) (c : Nat) (r : DescRun) (w : Writeback) (su : Option Nat)
    (hz : z.Keeps s) : z.Keeps (State.endRows s c r w su) := by
  unfold State.endRows
  try dsimp only
  repeat' with_reducible first
    | assumption | apply State.closeSeal_keeps | apply State.holdRecord_keeps | apply State.mapDesc_keeps | refine .of_mk rfl rfl ?_

theorem State.ackWriteback_keeps {z : State} (s : State) (c p : Nat) (hz : z.Keeps s) : z.Keeps (State.ackWriteback s c p) := by
  unfold State.ackWriteback
  try dsimp only
  repeat' with_reducible first
    | assumption | apply State.setPan_keeps | apply State.settleBlock_keeps | apply ite_keeps | split | refine .of_mk rfl rfl ?_

theorem State.drainRow_keeps {z : State} (s : State) (c p : Nat) (r : DescRun) (w : Writeback)
    (hz : z.Keeps s) : z.Keeps (State.drainRow s c p r w) := by
  unfold State.drainRow
  try dsimp only
  repeat' with_reducible first
    | assumption | apply State.sendQueue_keeps | apply State.setPan_keeps | apply State.unitFlags_keeps | apply State.unitSats_keeps
    | apply State.storeRow_keeps | apply State.endRows_keeps | apply ite_keeps | split | refine .of_mk rfl rfl ?_

/-! ## Sluice -/

theorem State.storeAll_keeps {z : State} (s : State) (ws : List (Nat × List Byte)) (hz : z.Keeps s) : z.Keeps (State.storeAll s ws) := by
  unfold State.storeAll
  try dsimp only
  repeat' with_reducible first | assumption | apply State.closeSeal_keeps | apply State.storeRow_keeps

theorem State.completePass_keeps {z : State} (s : State) (c : Nat) (u : RunUnit) (r : DescRun)
    (hz : z.Keeps s) : z.Keeps (State.completePass s c u r) := by
  unfold State.completePass
  try dsimp only
  repeat' with_reducible first
    | assumption | apply State.bump_keeps | apply State.draw_keeps | apply State.sendQueue_keeps | apply State.setCore_keeps
    | apply State.reportInvalid_keeps | apply State.holdRecord_keeps | apply State.mapDesc_keeps | apply State.unitFlags_keeps
    | apply State.unitSats_keeps | apply State.finishOutput_keeps | apply State.storeAll_keeps | refine foldl_keeps (fun _ _ _ => ?_) _ ?_
    | refine foldl_keeps_fst (fun _ _ _ => ?_) _ ?_ | apply ite_keeps | split | refine .of_mk rfl rfl ?_

theorem State.dropPass_keeps {z : State} (s : State) (c : Nat) (u : RunUnit) (r : DescRun)
    (hz : z.Keeps s) : z.Keeps (State.dropPass s c u r) := by
  unfold State.dropPass
  repeat' with_reducible first | assumption | apply State.setCore_keeps | apply State.joinHeld_keeps | apply State.finishUnit_keeps

/-! ## Vector -/

theorem State.vectorTag_keeps {z : State} (s : State) (c : Nat) (x : TagSlip) (hz : z.Keeps s) : z.Keeps (State.vectorTag s c x) := by
  unfold State.vectorTag
  try dsimp only
  repeat' with_reducible first
    | assumption | apply State.bump_keeps | apply State.raise_keeps | apply State.setCore_keeps | apply State.latchAll_keeps
    | apply ite_keeps | split | refine .of_mk rfl rfl ?_

theorem State.updateSats_keeps {z : State} (s : State) (r : DescRun) (counts : KV Counts)
    (hz : z.Keeps s) : z.Keeps (State.updateSats s r counts) := by
  unfold State.updateSats
  try dsimp only
  repeat' with_reducible first
    | assumption | apply State.bump_keeps | apply State.condition_keeps | apply State.markLayer_keeps
    | refine foldl_keeps (fun _ _ _ => ?_) _ ?_ | refine foldl_keeps_fst (fun _ _ _ => ?_) _ ?_ | apply ite_keeps | split

theorem State.updateNonFinite_keeps {z : State} (s : State) (r : DescRun) (counts : KV Counts)
    (hz : z.Keeps s) : z.Keeps (State.updateNonFinite s r counts) := by
  unfold State.updateNonFinite
  try dsimp only
  repeat' with_reducible first | assumption | apply ite_keeps | split | refine .of_mk rfl rfl ?_

theorem State.reduceEvent_keeps {z : State} (s : State) (r : DescRun) (number : Nat) (x : Nat × Nat × Option Nat)
    (hz : z.Keeps s) : z.Keeps (State.reduceEvent s r number x) := by
  unfold State.reduceEvent
  try dsimp only
  repeat' with_reducible first
    | assumption | apply State.reportInvalid_keeps | apply State.joinRecord_keeps | apply ite_keeps | split | refine .of_mk rfl rfl ?_

theorem State.reportChunk_keeps {z : State} (s : State) (c number : Nat) (r : DescRun) (x : ChunkRun) (counts : KV Counts)
    (hz : z.Keeps s) : z.Keeps (State.reportChunk s c number r x counts) := by
  unfold State.reportChunk
  try dsimp only
  repeat' with_reducible first
    | assumption | apply State.reportInvalid_keeps | apply State.sendRecord_keeps | apply State.mapDesc_keeps | apply State.unitFlags_keeps
    | apply State.unitSats_keeps | apply State.updateSats_keeps | apply State.updateNonFinite_keeps | apply State.reduceEvent_keeps
    | refine foldl_keeps (fun _ _ _ => ?_) _ ?_ | refine foldl_keeps_fst (fun _ _ _ => ?_) _ ?_ | apply ite_keeps | split
    | refine .of_mk rfl rfl ?_

theorem State.clearSlip_keeps {z : State} (s : State) (c : Nat) (hz : z.Keeps s) : z.Keeps (State.clearSlip s c) := by
  unfold State.clearSlip
  repeat' with_reducible first | assumption | apply State.setCore_keeps | refine .of_mk rfl rfl ?_

theorem State.completeChunk_keeps {z : State} (s : State) (c : Nat) (u : RunUnit) (r : DescRun) (chunk : Option (Nat × Nat))
    (hz : z.Keeps s) : z.Keeps (State.completeChunk s c u r chunk) := by
  unfold State.completeChunk
  try dsimp only
  repeat' with_reducible first
    | assumption | apply State.closeSeal_keeps | apply State.mapDesc_keeps | apply State.finishUnit_keeps | apply State.storeRow_keeps
    | apply State.reportChunk_keeps | apply State.clearSlip_keeps | apply ite_keeps | split | refine .of_mk rfl rfl ?_

theorem State.dropChunk_keeps {z : State} (s : State) (c : Nat) (u : RunUnit) (r : DescRun) (y : Trouble)
    (hz : z.Keeps s) : z.Keeps (State.dropChunk s c u r y) := by
  unfold State.dropChunk
  try dsimp only
  repeat' with_reducible first
    | assumption | apply State.latchAll_keeps | apply State.troubled_keeps | apply State.finishUnit_keeps | apply ite_keeps | split

/-! ## Scaling -/

theorem State.settleT_keeps {z : State} (s : State) (i : Nat) (t : Int) (hz : z.Keeps s) : z.Keeps (State.settleT s i t) := by
  unfold State.settleT
  try dsimp only
  repeat' with_reducible first | assumption | apply State.sendMirror_keeps | apply ite_keeps | split | refine .of_mk rfl rfl ?_

theorem State.putNorm_keeps {z : State} (s : State) (layer : Nat) (upd : Bool) (v : F32)
    (hz : z.Keeps s) : z.Keeps (State.putNorm s layer upd v) := by
  unfold State.putNorm
  try dsimp only
  repeat' with_reducible first | assumption | apply ite_keeps | split | refine .of_mk rfl rfl ?_

theorem State.endReduce_keeps {z : State} (s : State) (r : DescRun) (k : KV Counts) (x : Bool × Nat × Nat)
    (hz : z.Keeps s) : z.Keeps (State.endReduce s r k x).1 := by
  unfold State.endReduce
  try dsimp only
  repeat' with_reducible first
    | assumption | apply State.mapDesc_keeps | apply State.storeAll_keeps | apply State.putNorm_keeps | apply ite_keeps_fst
    | apply ite_keeps | split | refine .of_mk rfl rfl ?_

theorem State.endVector_keeps {z : State} (s : State) (r : DescRun) (hz : z.Keeps s) : z.Keeps (State.endVector s r) := by
  unfold State.endVector
  try dsimp only
  repeat' with_reducible first
    | assumption | apply State.sendRecord_keeps | apply State.mapDesc_keeps | apply State.unitFlags_keeps | apply State.unitSats_keeps
    | apply State.updateSats_keeps | apply State.updateNonFinite_keeps | apply State.endReduce_keeps
    | refine foldl_keeps (fun _ _ _ => ?_) _ ?_ | refine foldl_keeps_fst (fun _ _ _ => ?_) _ ?_ | apply ite_keeps | split
    | refine .of_mk rfl rfl ?_

theorem State.retireTotals_keeps {z : State} (s : State) (pos attempt layer : Nat)
    (hz : z.Keeps s) : z.Keeps (State.retireTotals s pos attempt layer) := by
  unfold State.retireTotals
  try dsimp only
  repeat' with_reducible first | assumption | refine .of_mk rfl rfl ?_

theorem State.countRecompute_keeps {z : State} (s : State) (layer : Nat) (hz : z.Keeps s) : z.Keeps (State.countRecompute s layer) := by
  unfold State.countRecompute
  try dsimp only
  repeat' with_reducible first | assumption | apply State.bump_keeps | refine .of_mk rfl rfl ?_

theorem State.retryProducer_keeps {z : State} (s : State) (r : DescRun) (hz : z.Keeps s) : z.Keeps (State.retryProducer s r) := by
  unfold State.retryProducer
  try dsimp only
  repeat' with_reducible first
    | assumption | apply State.mapDesc_keeps | apply State.retireTotals_keeps | apply State.countRecompute_keeps
    | refine foldl_keeps (fun _ _ _ => ?_) _ ?_ | refine foldl_keeps_fst (fun _ _ _ => ?_) _ ?_ | refine .of_mk rfl rfl ?_

theorem State.stageTensor_keeps {z : State} (s : State) (attempt : Nat) (e : Nat × F32)
    (hz : z.Keeps s) : z.Keeps (State.stageTensor s attempt e) := by
  unfold State.stageTensor
  try dsimp only
  repeat' with_reducible first | assumption | apply ite_keeps | split | refine .of_mk rfl rfl ?_

theorem State.freeDesc_keeps {z : State} (s : State) (pos : Nat) (hz : z.Keeps s) : z.Keeps (State.freeDesc s pos) := by
  unfold State.freeDesc
  try dsimp only
  repeat' with_reducible first | assumption | refine .of_mk rfl rfl ?_

theorem State.keepPass_keeps {z : State} (s : State) (pos : Nat) (hz : z.Keeps s) : z.Keeps (State.keepPass s pos) := by
  unfold State.keepPass
  repeat' with_reducible first | assumption | refine .of_mk rfl rfl ?_

theorem State.completeDesc_keeps {z : State} (s : State) (r : DescRun) (hz : z.Keeps s) : z.Keeps (State.completeDesc s r) := by
  unfold State.completeDesc
  try dsimp only
  repeat' with_reducible first
    | assumption | apply State.stageTensor_keeps | apply State.freeDesc_keeps | apply State.keepPass_keeps
    | refine foldl_keeps (fun _ _ _ => ?_) _ ?_ | refine foldl_keeps_fst (fun _ _ _ => ?_) _ ?_

theorem State.exhausted_keeps {z : State} (s : State) (r : DescRun) (hz : z.Keeps s) : z.Keeps (State.exhausted s r) := by
  unfold State.exhausted
  try dsimp only
  repeat' with_reducible first
    | assumption | apply State.bump_keeps | apply State.condition_keeps | apply State.markLayer_keeps | apply ite_keeps | split

theorem State.endProducers_keeps {z : State} (s : State) (r : DescRun) (hz : z.Keeps s) : z.Keeps (State.endProducers s r) := by
  unfold State.endProducers
  try dsimp only
  repeat' with_reducible first
    | assumption | apply State.endVector_keeps | refine foldl_keeps (fun _ _ _ => ?_) _ ?_ | refine foldl_keeps_fst (fun _ _ _ => ?_) _ ?_
    | split

theorem State.decideAttempt_keeps {z : State} (s : State) (r : DescRun) (hz : z.Keeps s) : z.Keeps (State.decideAttempt s r) := by
  unfold State.decideAttempt
  try dsimp only
  repeat' with_reducible first
    | assumption | apply State.retryProducer_keeps | apply State.completeDesc_keeps | apply State.exhausted_keeps
    | refine foldl_keeps (fun _ _ _ => ?_) _ ?_ | refine foldl_keeps_fst (fun _ _ _ => ?_) _ ?_ | apply ite_keeps | split

theorem State.presentT_keeps {z : State} (s : State) (others : List (Nat × F32)) (e : Nat × F32)
    (hz : z.Keeps s) : z.Keeps (State.presentT s others e) := by
  unfold State.presentT
  try dsimp only
  repeat' with_reducible first
    | assumption | apply State.settleT_keeps | refine foldl_keeps (fun _ _ _ => ?_) _ ?_ | refine foldl_keeps_fst (fun _ _ _ => ?_) _ ?_
    | apply ite_keeps | split

/-! ## Load -/

theorem State.freshRun_keeps {z : State} (s : State) (g : Program) (hz : z.Keeps s) : z.Keeps (State.freshRun s g) := by
  unfold State.freshRun
  try dsimp only
  repeat' with_reducible first | assumption | apply State.setEnt_keeps | refine .of_mk rfl rfl ?_

theorem State.acceptProgram_keeps {z : State} (s : State) (a : Nat) (hz : z.Keeps s) : z.Keeps (State.acceptProgram s a) := by
  unfold State.acceptProgram
  try dsimp only
  repeat' with_reducible first
    | assumption | apply State.setEnt_keeps | apply State.protect_keeps | apply State.freshRun_keeps | refine .of_mk rfl rfl ?_

theorem State.unload_keeps {z : State} (s : State) (hz : z.Keeps s) : z.Keeps (State.unload s) := by
  unfold State.unload
  repeat' with_reducible first | assumption | apply State.setEnt_keeps | apply State.protect_keeps | refine .of_mk rfl rfl ?_

theorem State.startLoad_keeps {z : State} (s : State) (hz : z.Keeps s) : z.Keeps (State.startLoad s) := by
  unfold State.startLoad
  try dsimp only
  repeat' with_reducible first | assumption | apply State.setEnt_keeps | refine .of_mk rfl rfl ?_

/-! ## Brine -/

theorem State.takeAck_keeps {z : State} (s : State) (h : BrineHdr) (hz : z.Keeps s) : z.Keeps (State.takeAck s h) := by
  unfold State.takeAck
  try dsimp only
  repeat' with_reducible first | assumption | apply State.setLane_keeps | refine .of_mk rfl rfl ?_

theorem State.takeMask_keeps {z : State} (s : State) (h : BrineHdr) (hz : z.Keeps s) : z.Keeps (State.takeMask s h) := by
  unfold State.takeMask
  try dsimp only
  repeat' with_reducible first
    | assumption | apply State.reroutePath_keeps | refine foldl_keeps (fun _ _ _ => ?_) _ ?_
    | refine foldl_keeps_fst (fun _ _ _ => ?_) _ ?_ | refine .of_mk rfl rfl ?_

theorem State.settleMirrors_keeps {z : State} (s : State) (hz : z.Keeps s) : z.Keeps (State.settleMirrors s) := by
  unfold State.settleMirrors
  repeat' with_reducible first | assumption | refine .of_mk rfl rfl ?_

theorem State.takeHeader_keeps {z : State} (s : State) (h : BrineHdr) (hz : z.Keeps s) : z.Keeps (State.takeHeader s h) := by
  unfold State.takeHeader
  repeat' with_reducible first
    | assumption | apply State.bump_keeps | apply State.takeAck_keeps | apply State.takeMask_keeps | apply State.settleMirrors_keeps

theorem State.sendAck_keeps {z : State} (s : State) (i dst : Nat) (hz : z.Keeps s) : z.Keeps (State.sendAck s i dst) := by
  unfold State.sendAck
  repeat' with_reducible first | assumption | apply State.sendOn_keeps

theorem State.noteFrame_keeps {z : State} (s : State) (h : BrineHdr) (hz : z.Keeps s) : z.Keeps (State.noteFrame s h) := by
  unfold State.noteFrame
  try dsimp only
  repeat' with_reducible first
    | assumption | apply State.setLane_keeps | apply State.sendAck_keeps | apply ite_keeps | split | refine .of_mk rfl rfl ?_

theorem State.receive_keeps {z : State} (s : State) (b : BrineHdr) (f : State → State) (hf : ∀ s : State, z.Keeps s → z.Keeps (f s))
    (hz : z.Keeps s) : z.Keeps (State.receive s b f) := by
  unfold State.receive
  have h1 := State.takeHeader_keeps s b hz
  dsimp only
  split
  · split
    · exact State.latchAll_keeps _ (hf _ (State.noteFrame_keeps _ _ h1))
    · split
      · exact State.sendAck_keeps _ _ _ h1
      · exact State.sendOn_keeps _ _ _ h1
  · exact hz

theorem State.receiveFree_keeps {z : State} (s : State) (b : BrineHdr) (f : State → State) (hf : ∀ s : State, z.Keeps s → z.Keeps (f s))
    (hz : z.Keeps s) : z.Keeps (State.receiveFree s b f) := by
  unfold State.receiveFree
  split
  · exact State.latchAll_keeps _ (hf _ (State.takeHeader_keeps s b hz))
  · exact hz

theorem State.resend_keeps {z : State} (s : State) (i : Nat) (p : TxFrame → Bool) (hz : z.Keeps s) : z.Keeps (State.resend s i p) := by
  unfold State.resend
  try dsimp only
  repeat' with_reducible first | assumption | apply State.bump_keeps | apply State.setLane_keeps | apply ite_keeps | split | refine .of_mk rfl rfl ?_

/-! ## Collect -/

theorem State.mapColl_keeps {z : State} (s : State) (pos : Nat) (f : Collective → Collective)
    (hz : z.Keeps s) : z.Keeps (State.mapColl s pos f) := by
  unfold State.mapColl
  try dsimp only
  repeat' with_reducible first | assumption | apply ite_keeps | split | refine .of_mk rfl rfl ?_

theorem State.rootAttempts_keeps {z : State} : ∀ (n : Nat) (s : State) (r : DescRun) (b : CollBlock) (l : List F32), z.Keeps s →
    z.Keeps (State.rootAttempts n s r b l).1
  | 0, _, _, _, _, h => h
  | n + 1, s, r, b, l, h => by
    unfold State.rootAttempts
    split
    · exact State.rootAttempts_keeps n _ _ _ _ (State.countRecompute_keeps _ _ h)
    · exact h

theorem State.presentRoot_keeps {z : State} (s : State) (r : DescRun) (vals : List F32)
    (hz : z.Keeps s) : z.Keeps (State.presentRoot s r vals) := by
  unfold State.presentRoot
  try dsimp only
  repeat' with_reducible first | assumption | apply State.settleT_keeps | apply ite_keeps | split

theorem State.reportRoot_keeps {z : State} (s : State) (r : DescRun) (k : Counts) (hz : z.Keeps s) : z.Keeps (State.reportRoot s r k) := by
  unfold State.reportRoot
  try dsimp only
  repeat' with_reducible first
    | assumption | apply State.bump_keeps | apply State.condition_keeps | apply State.sendRecord_keeps | apply State.backwardSat_keeps
    | apply State.unitFlags_keeps | apply State.markLayer_keeps | apply State.completeDesc_keeps | apply ite_keeps | split
    | refine .of_mk rfl rfl ?_

theorem State.dropColl_keeps {z : State} (s : State) (pos : Nat) (hz : z.Keeps s) : z.Keeps (State.dropColl s pos) := by
  unfold State.dropColl
  try dsimp only
  repeat' with_reducible first | assumption | refine .of_mk rfl rfl ?_

theorem State.settleRoot_keeps {z : State} (s : State) (r : DescRun) (b : CollBlock) (vals : List F32)
    (hz : z.Keeps s) : z.Keeps (State.settleRoot s r b vals) := by
  unfold State.settleRoot
  try dsimp only
  repeat' with_reducible first
    | assumption | apply State.mapDesc_keeps | apply State.mapColl_keeps | apply State.rootAttempts_keeps | apply State.presentRoot_keeps
    | refine .of_mk rfl rfl ?_

theorem State.storeOn_keeps {z : State} : ∀ (l : List (Nat × List Byte)) (s : State) (n : Nat), z.Keeps s → z.Keeps (State.storeOn l s n).1
  | [], _, _, h => h
  | w :: t, s, n, h => by
    unfold State.storeOn
    split
    · exact State.stallSeals_keeps _ _ h
    · exact State.storeOn_keeps t _ _ (State.storeAll_keeps _ _ h)

theorem State.finishColl_keeps {z : State} (s : State) (c : Collective) (r : DescRun) (b : CollBlock) (n : Nat) (parts : List (List Byte))
    (h : z.Keeps s) : z.Keeps (State.finishColl s c r b n parts) := by
  unfold State.finishColl
  have h1 : z.Keeps (if c.settled then s else s.settleRoot r b (collVals b parts)) := ite_keeps h (State.settleRoot_keeps _ _ _ _ h)
  extract_lets s1 r1 w l x
  have h2 : z.Keeps x.1 := State.storeOn_keeps _ _ _ h1
  exact ite_keeps (State.mapColl_keeps _ _ _ h2)
    (ite_keeps (State.reportRoot_keeps _ _ _ (State.dropColl_keeps _ _ h2)) (State.completeDesc_keeps _ _ (State.dropColl_keeps _ _ h2)))

theorem State.reduceOwn_keeps {z : State} (s : State) (c : Collective) (r : DescRun) (b : CollBlock) (n : Nat)
    (hz : z.Keeps s) : z.Keeps (State.reduceOwn s c r b n) := by
  unfold State.reduceOwn
  try dsimp only
  repeat' with_reducible first
    | assumption | apply State.sendBytes_keeps | apply State.mapColl_keeps | refine foldl_keeps (fun _ _ _ => ?_) _ ?_
    | refine foldl_keeps_fst (fun _ _ _ => ?_) _ ?_ | apply ite_keeps | split | refine .of_mk rfl rfl ?_

theorem State.advanceColl_keeps {z : State} (s : State) (pos : Nat) (hz : z.Keeps s) : z.Keeps (State.advanceColl s pos) := by
  unfold State.advanceColl
  try dsimp only
  repeat' with_reducible first
    | assumption | apply State.mapDesc_keeps | apply State.finishColl_keeps | apply State.reduceOwn_keeps | apply ite_keeps | split
    | refine .of_mk rfl rfl ?_

theorem State.endWithout_keeps {z : State} (s : State) (r : DescRun) (hz : z.Keeps s) : z.Keeps (State.endWithout s r) := by
  unfold State.endWithout
  repeat' with_reducible first | assumption | apply State.completeDesc_keeps | apply State.dropColl_keeps | refine .of_mk rfl rfl ?_

theorem State.contributeHollow_keeps {z : State} (s : State) (r : DescRun) (hz : z.Keeps s) : z.Keeps (State.contributeHollow s r) := by
  unfold State.contributeHollow
  try dsimp only
  repeat' with_reducible first
    | assumption | apply State.bump_keeps | apply State.sendFrame_keeps | apply State.endWithout_keeps
    | refine foldl_keeps (fun _ _ _ => ?_) _ ?_ | refine foldl_keeps_fst (fun _ _ _ => ?_) _ ?_ | refine .of_mk rfl rfl ?_

theorem State.sendEmpty_keeps {z : State} (s : State) (d : Desc) (pos : Nat) (hz : z.Keeps s) : z.Keeps (State.sendEmpty s d pos) := by
  unfold State.sendEmpty
  try dsimp only
  repeat' with_reducible first
    | assumption | apply State.sendFrame_keeps | refine foldl_keeps (fun _ _ _ => ?_) _ ?_ | refine foldl_keeps_fst (fun _ _ _ => ?_) _ ?_
    | refine .of_mk rfl rfl ?_

theorem State.deliver_keeps {z : State} (s : State) (c : Collective) (h : BrineHdr) (hz : z.Keeps s) : z.Keeps (State.deliver s c h) := by
  unfold State.deliver
  try dsimp only
  repeat' with_reducible first
    | assumption | apply State.bump_keeps | apply State.enterAbandon_keeps | apply State.mapColl_keeps | apply State.advanceColl_keeps
    | apply State.endWithout_keeps | apply ite_keeps | split

theorem State.wrongEpoch_keeps {z : State} (s : State) (h : BrineHdr) (hz : z.Keeps s) : z.Keeps (State.wrongEpoch s h) := by
  unfold State.wrongEpoch
  repeat' with_reducible first | assumption | apply State.raise_keeps | refine .of_mk rfl rfl ?_

theorem State.takeEarly_keeps {z : State} (s : State) (pos g seq : Nat) (hz : z.Keeps s) : z.Keeps (State.takeEarly s pos g seq) := by
  unfold State.takeEarly
  try dsimp only
  repeat' with_reducible first
    | assumption | apply State.deliver_keeps | apply State.wrongEpoch_keeps | refine foldl_keeps (fun _ _ _ => ?_) _ ?_
    | refine foldl_keeps_fst (fun _ _ _ => ?_) _ ?_ | apply ite_keeps | split | refine .of_mk rfl rfl ?_

theorem State.startColl_keeps {z : State} (s : State) (r : DescRun) (hz : z.Keeps s) : z.Keeps (State.startColl s r) := by
  unfold State.startColl
  try dsimp only
  repeat' with_reducible first
    | assumption | apply State.sendBytes_keeps | apply State.troubled_keeps | apply State.mapDesc_keeps | apply State.advanceColl_keeps
    | apply State.contributeHollow_keeps | apply State.takeEarly_keeps | refine foldl_keeps (fun _ _ _ => ?_) _ ?_
    | refine foldl_keeps_fst (fun _ _ _ => ?_) _ ?_ | apply ite_keeps | split | refine .of_mk rfl rfl ?_

theorem State.takeContribution_keeps {z : State} (s : State) (h : BrineHdr) (hz : z.Keeps s) : z.Keeps (State.takeContribution s h) := by
  unfold State.takeContribution
  try dsimp only
  repeat' with_reducible first
    | assumption | apply State.enterAbandon_keeps | apply State.deliver_keeps | apply State.wrongEpoch_keeps | apply ite_keeps | split
    | refine .of_mk rfl rfl ?_

end Sys2Proof.Machine
end

