-- ==== Sys2Proof/Laws/KeepsTrain.lean ====
section
/-! SUPPORT. `Keeps` for the operations of the step, the Rake and the update: one lemma for each. -/

namespace Sys2Proof.Machine

variable {z : State}

/-! ## StepStart -/

theorem State.rejectDescs_keeps {z : State} (s : State) (g : Program) (l : List Nat)
    (hz : z.Keeps s) : z.Keeps (State.rejectDescs s g l) := by
  unfold State.rejectDescs
  try dsimp only
  repeat' with_reducible first
    | assumption | apply State.bump_keeps | apply State.conditionAt_keeps | refine foldl_keeps (fun _ _ _ => ?_) _ ?_
    | refine foldl_keeps_fst (fun _ _ _ => ?_) _ ?_

theorem State.syncFormats_keeps {z : State} (s : State) (g : Program) (rung : Nat → Nat)
    (hz : z.Keeps s) : z.Keeps (State.syncFormats s g rung) := by
  unfold State.syncFormats
  try dsimp only
  repeat' with_reducible first | assumption | split | refine .of_mk rfl rfl ?_

theorem State.lostRecord_keeps {z : State} (s : State) (i addr : Nat) (hz : z.Keeps s) : z.Keeps (State.lostRecord s i addr) := by
  unfold State.lostRecord
  repeat' with_reducible first | assumption | apply State.bump_keeps | apply State.raise_keeps | apply State.resetRecord_keeps

theorem State.checkRecords_keeps {z : State} (s : State) (hz : z.Keeps s) : z.Keeps (State.checkRecords s) := by
  unfold State.checkRecords
  try dsimp only
  repeat' with_reducible first
    | assumption | apply State.lostRecord_keeps | refine foldl_keeps (fun _ _ _ => ?_) _ ?_ | refine foldl_keeps_fst (fun _ _ _ => ?_) _ ?_

theorem State.presentNotice_keeps {z : State} (s : State) (n reason : Nat)
    (hz : z.Keeps s) : z.Keeps (State.presentNotice s n reason) := by
  unfold State.presentNotice
  repeat' with_reducible first | assumption | apply State.condition_keeps | apply ite_keeps | split

theorem State.chooseScales_keeps {z : State} (s : State) (hz : z.Keeps s) : z.Keeps (State.chooseScales s) := by
  unfold State.chooseScales
  try dsimp only
  repeat' with_reducible first
    | assumption | apply State.setEnt_keeps | apply State.condition_keeps | apply State.presentNotice_keeps
    | refine foldl_keeps (fun _ _ _ => ?_) _ ?_ | refine foldl_keeps_fst (fun _ _ _ => ?_) _ ?_ | apply ite_keeps | split
    | refine .of_mk rfl rfl ?_

theorem State.layStream_keeps {z : State} (s : State) (g : Program) (items : List Item)
    (hz : z.Keeps s) : z.Keeps (State.layStream s g items) := by
  unfold State.layStream
  try dsimp only
  repeat' with_reducible first | assumption | refine .of_mk rfl rfl ?_

theorem State.putReplay_keeps {z : State} (s : State) (r : ReplayRec) (hz : z.Keeps s) : z.Keeps (State.putReplay s r) := by
  unfold State.putReplay
  try dsimp only
  repeat' with_reducible first | assumption | apply State.sendMirror_keeps | apply ite_keeps | split | refine .of_mk rfl rfl ?_

theorem State.sendStream_keeps {z : State} (s : State) (stream page seg rank : Nat) (l : List Byte)
    (hz : z.Keeps s) : z.Keeps (State.sendStream s stream page seg rank l) := by
  unfold State.sendStream
  try dsimp only
  repeat' with_reducible first | assumption | apply State.sendFrame_keeps | refine .of_mk rfl rfl ?_

theorem State.startStream_keeps {z : State} (s : State) (stream page : Nat) (l : List Byte)
    (hz : z.Keeps s) : z.Keeps (State.startStream s stream page l) := by
  unfold State.startStream
  try dsimp only
  repeat' with_reducible first
    | assumption | apply State.sendStream_keeps | refine foldl_keeps (fun _ _ _ => ?_) _ ?_ | refine foldl_keeps_fst (fun _ _ _ => ?_) _ ?_

theorem State.startParity_keeps {z : State} (s : State) (holder : Nat) (hz : z.Keeps s) : z.Keeps (State.startParity s holder) := by
  unfold State.startParity
  try dsimp only
  repeat' with_reducible first
    | assumption | apply State.startStream_keeps | refine foldl_keeps (fun _ _ _ => ?_) _ ?_
    | refine foldl_keeps_fst (fun _ _ _ => ?_) _ ?_ | apply ite_keeps | split

theorem State.startResync_keeps {z : State} (s : State) (hz : z.Keeps s) : z.Keeps (State.startResync s) := by
  unfold State.startResync
  try dsimp only
  repeat' with_reducible first
    | assumption | apply State.setEnt_keeps | apply State.startParity_keeps | refine foldl_keeps (fun _ _ _ => ?_) _ ?_
    | refine foldl_keeps_fst (fun _ _ _ => ?_) _ ?_ | apply ite_keeps | split | refine .of_mk rfl rfl ?_

theorem State.freshStep_keeps {z : State} (s : State) (hz : z.Keeps s) : z.Keeps (State.freshStep s) := by
  unfold State.freshStep
  try dsimp only
  repeat' with_reducible first | assumption | refine .of_mk rfl rfl ?_

theorem State.beginStep_keeps {z : State} (s : State) (g : Program) (shapes : List Nat)
    (hz : z.Keeps s) : z.Keeps (State.beginStep s g shapes) := by
  unfold State.beginStep
  try dsimp only
  repeat' with_reducible first
    | assumption | apply State.setPhase_keeps | apply State.syncFormats_keeps | apply State.checkRecords_keeps
    | apply State.chooseScales_keeps | apply State.layStream_keeps | apply State.putReplay_keeps | apply State.startResync_keeps
    | apply State.freshStep_keeps | refine .of_mk rfl rfl ?_

theorem State.badRake_keeps {z : State} (s : State) (l : Nat) (hz : z.Keeps s) : z.Keeps (State.badRake s l) := by
  unfold State.badRake
  repeat' with_reducible first | assumption | apply State.raise_keeps | refine .of_mk rfl rfl ?_

theorem State.refuseStart_keeps {z : State} (s : State) (g : Program) (code : Nat) (l : List Nat)
    (hz : z.Keeps s) : z.Keeps (State.refuseStart s g code l).s := by
  unfold State.refuseStart
  try dsimp only
  repeat' with_reducible first | assumption | apply State.rejectDescs_keeps

theorem State.stepStart_keeps {z : State} (s : State) (v : Nat) (hz : z.Keeps s) : z.Keeps (State.stepStart s v).s := by
  unfold State.stepStart
  try dsimp only
  repeat' with_reducible first
    | assumption | apply State.beginStep_keeps | apply State.badRake_keeps | apply State.refuseStart_keeps | apply ite_keeps_s
    | apply ite_keeps | split | refine .of_mk rfl rfl ?_

theorem State.beginReplay_keeps {z : State} (s : State) (g : Program) (r : ReplayRec)
    (hz : z.Keeps s) : z.Keeps (State.beginReplay s g r) := by
  unfold State.beginReplay
  try dsimp only
  repeat' with_reducible first
    | assumption | apply State.setEnt_keeps | apply State.setPhase_keeps | apply State.layStream_keeps | apply State.freshStep_keeps
    | refine .of_mk rfl rfl ?_

theorem State.replayRequest_keeps {z : State} (s : State) (v : Nat) (hz : z.Keeps s) : z.Keeps (State.replayRequest s v).s := by
  unfold State.replayRequest
  try dsimp only
  repeat' with_reducible first | assumption | apply State.beginReplay_keeps | apply ite_keeps_s | apply ite_keeps | split | refine .of_mk rfl rfl ?_

/-! ## Programs -/

theorem State.setStream_keeps {z : State} (s : State) (d : Nat) (l : List Item) (hz : z.Keeps s) : z.Keeps (State.setStream s d l) := by
  unfold State.setStream
  repeat' with_reducible first | assumption | apply ite_keeps | split | refine .of_mk rfl rfl ?_

theorem State.admitItem_keeps {z : State} (s : State) (d : Nat) (it : Item) (rest : List Item)
    (hz : z.Keeps s) : z.Keeps (State.admitItem s d it rest) := by
  unfold State.admitItem
  try dsimp only
  repeat' with_reducible first
    | assumption | apply State.setEnt_keeps | apply State.setStream_keeps | apply ite_keeps | split | refine .of_mk rfl rfl ?_

theorem State.noopUpdate_keeps {z : State} (s : State) (r : DescRun) (hz : z.Keeps s) : z.Keeps (State.noopUpdate s r) := by
  unfold State.noopUpdate
  try dsimp only
  repeat' with_reducible first
    | assumption | apply State.bump_keeps | apply State.condition_keeps | apply State.freeDesc_keeps | apply ite_keeps | split
    | refine .of_mk rfl rfl ?_

theorem State.completeEmpty_keeps {z : State} (s : State) (r : DescRun) (hz : z.Keeps s) : z.Keeps (State.completeEmpty s r) := by
  unfold State.completeEmpty
  try dsimp only
  repeat' with_reducible first
    | assumption | apply State.bump_keeps | apply State.endWithout_keeps | apply State.sendEmpty_keeps | apply ite_keeps | split

theorem State.startBlock_keeps {z : State} (s : State) (c : Nat) (r : DescRun) (number : Nat)
    (hz : z.Keeps s) : z.Keeps (State.startBlock s c r number) := by
  unfold State.startBlock
  try dsimp only
  repeat' with_reducible first
    | assumption | apply State.setCore_keeps | apply State.setPan_keeps | apply State.dropShifts_keeps
    | refine foldl_keeps (fun _ _ _ => ?_) _ ?_ | refine foldl_keeps_fst (fun _ _ _ => ?_) _ ?_ | apply ite_keeps | split
    | refine .of_mk rfl rfl ?_

theorem State.startUnit_keeps {z : State} (s : State) (c engine : Nat) (r : DescRun) (number : Nat)
    (hz : z.Keeps s) : z.Keeps (State.startUnit s c engine r number) := by
  unfold State.startUnit
  try dsimp only
  repeat' with_reducible first
    | assumption | apply State.setCore_keeps | apply State.mapDesc_keeps | apply State.startBlock_keeps | apply ite_keeps | split
    | refine .of_mk rfl rfl ?_

theorem State.countPreemption_keeps {z : State} (s : State) (hz : z.Keeps s) : z.Keeps (State.countPreemption s) := by
  unfold State.countPreemption
  repeat' with_reducible first | assumption | apply State.setEnt_keeps | apply State.bump_keeps | apply State.draw_keeps

theorem State.badDesc_keeps {z : State} (s : State) (c : Nat) (r : DescRun) (addr : Nat)
    (hz : z.Keeps s) : z.Keeps (State.badDesc s c r addr) := by
  unfold State.badDesc
  try dsimp only
  repeat' with_reducible first
    | assumption | apply State.raise_keeps | apply State.endWithout_keeps | apply State.contributeHollow_keeps | apply ite_keeps | split

theorem State.remapIdle_keeps {z : State} (s : State) (c : Nat) (hz : z.Keeps s) : z.Keeps (State.remapIdle s c) := by
  unfold State.remapIdle
  try dsimp only
  repeat' with_reducible first
    | assumption | apply State.applyRemap_keeps | refine foldl_keeps (fun _ _ _ => ?_) _ ?_ | refine foldl_keeps_fst (fun _ _ _ => ?_) _ ?_
    | apply ite_keeps | split

theorem State.scheduleEngine_keeps {z : State} (s : State) (c engine : Nat)
    (hz : z.Keeps s) : z.Keeps (State.scheduleEngine s c engine) := by
  unfold State.scheduleEngine
  try dsimp only
  repeat' with_reducible first
    | assumption | apply State.startUnit_keeps | apply State.countPreemption_keeps | apply State.badDesc_keeps | apply ite_keeps | split

theorem State.copyTxn_keeps {z : State} (s : State) (w : Nat × List Byte) (hz : z.Keeps s) : z.Keeps (State.copyTxn s w) := by
  unfold State.copyTxn
  try dsimp only
  repeat' with_reducible first
    | assumption | apply State.flagFault_keeps | apply State.memViolation_keeps | apply State.storeUnit_keeps | apply ite_keeps | split

theorem State.copyOn_keeps {z : State} : ∀ (l : List (Nat × List Byte)) (s : State) (n : Nat), z.Keeps s → z.Keeps (State.copyOn l s n).1
  | [], _, _, h => h
  | w :: t, s, n, h => by
    unfold State.copyOn
    split
    · exact State.stallSeals_keeps _ _ h
    · exact State.copyOn_keeps t _ _ (State.copyTxn_keeps _ _ h)

theorem State.runCopy_keeps {z : State} (s : State) (r : DescRun) (hz : z.Keeps s) : z.Keeps (State.runCopy s r) := by
  unfold State.runCopy
  try dsimp only
  repeat' with_reducible first
    | assumption | apply State.troubled_keeps | apply State.mapDesc_keeps | apply State.endWithout_keeps | apply State.copyOn_keeps
    | apply ite_keeps | split | refine .of_mk rfl rfl ?_

theorem State.scheduleColl_keeps {z : State} (s : State) (c : Nat) (hz : z.Keeps s) : z.Keeps (State.scheduleColl s c) := by
  unfold State.scheduleColl
  try dsimp only
  repeat' with_reducible first
    | assumption | apply State.advanceColl_keeps | apply State.startColl_keeps | apply State.badDesc_keeps
    | refine foldl_keeps (fun _ _ _ => ?_) _ ?_ | refine foldl_keeps_fst (fun _ _ _ => ?_) _ ?_ | apply ite_keeps | split

theorem State.scheduleCopy_keeps {z : State} (s : State) (c : Nat) (hz : z.Keeps s) : z.Keeps (State.scheduleCopy s c) := by
  unfold State.scheduleCopy
  repeat' with_reducible first | assumption | apply State.badDesc_keeps | apply State.runCopy_keeps | apply ite_keeps | split

theorem State.setCluster_keeps {z : State} (s : State) (k : Nat) (x : ClusterSt) (hz : z.Keeps s) : z.Keeps (State.setCluster s k x) := by
  unfold State.setCluster
  repeat' with_reducible first | assumption | refine .of_mk rfl rfl ?_

theorem State.takeSet_keeps {z : State} (s : State) (rows : Bool) (buf : TileBuf) (c : Nat)
    (hz : z.Keeps s) : z.Keeps (State.takeSet s rows buf c) := by
  unfold State.takeSet
  try dsimp only
  repeat' with_reducible first
    | assumption | apply State.setCore_keeps | apply State.settlePreload_keeps | refine foldl_keeps (fun _ _ _ => ?_) _ ?_
    | refine foldl_keeps_fst (fun _ _ _ => ?_) _ ?_

theorem State.deliverSet_keeps {z : State} (s : State) (k set : Nat) (r : DescRun) (buf : TileBuf) (l : List (Nat × Nat))
    (hz : z.Keeps s) : z.Keeps (State.deliverSet s k set r buf l) := by
  unfold State.deliverSet
  try dsimp only
  repeat' with_reducible first
    | assumption | apply State.bump_keeps | apply State.setCluster_keeps | apply State.takeSet_keeps
    | refine foldl_keeps (fun _ _ _ => ?_) _ ?_ | refine foldl_keeps_fst (fun _ _ _ => ?_) _ ?_ | apply ite_keeps | split
    | refine .of_mk rfl rfl ?_

theorem State.fetchTrouble_keeps {z : State} (s : State) (r : DescRun) (l : List (Nat × Nat)) (c : Nat) (y : Trouble)
    (hz : z.Keeps s) : z.Keeps (State.fetchTrouble s r l c y) := by
  unfold State.fetchTrouble
  try dsimp only
  repeat' with_reducible first
    | assumption | apply State.latchAll_keeps | apply State.troubled_keeps | apply State.dropBlock_keeps
    | refine foldl_keeps (fun _ _ _ => ?_) _ ?_ | refine foldl_keeps_fst (fun _ _ _ => ?_) _ ?_ | apply ite_keeps | split

/-! ## RakeDecide -/

theorem State.rollUp_keeps {z : State} (s : State) (hz : z.Keeps s) : z.Keeps (State.rollUp s) := by
  unfold State.rollUp
  try dsimp only
  repeat' with_reducible first
    | assumption | refine foldl_keeps (fun _ _ _ => ?_) _ ?_ | refine foldl_keeps_fst (fun _ _ _ => ?_) _ ?_ | refine .of_mk rfl rfl ?_

theorem State.silentEvents_keeps {z : State} (s : State) (l : Nat) (x : Silent) (v : DecVec)
    (hz : z.Keeps s) : z.Keeps (State.silentEvents s l x v) := by
  unfold State.silentEvents
  try dsimp only
  repeat' with_reducible first | assumption | apply State.condition_keeps | apply ite_keeps | split

theorem State.changeWindows_keeps {z : State} (s : State) (hz : z.Keeps s) : z.Keeps (State.changeWindows s) := by
  unfold State.changeWindows
  try dsimp only
  repeat' with_reducible first
    | assumption | refine foldl_keeps (fun _ _ _ => ?_) _ ?_ | refine foldl_keeps_fst (fun _ _ _ => ?_) _ ?_ | refine .of_mk rfl rfl ?_

theorem State.writeRing_keeps {z : State} (s : State) (hz : z.Keeps s) : z.Keeps (State.writeRing s) := by
  unfold State.writeRing
  try dsimp only
  repeat' with_reducible first
    | assumption | apply State.setEnt_keeps | apply State.memViolation_keeps | apply State.ownWrite_keeps | apply ite_keeps | split

theorem State.rakeOne_keeps {z : State} (s : State) (g : Program) (committed : Bool) (l : Nat) (own v : DecVec)
    (hz : z.Keeps s) : z.Keeps (State.rakeOne s g committed l own v).1 := by
  unfold State.rakeOne
  try dsimp only
  repeat' with_reducible first
    | assumption | apply State.bump_keeps | apply State.setRake_keeps | apply State.silentEvents_keeps | apply ite_keeps_fst
    | apply ite_keeps | split | refine .of_mk rfl rfl ?_

theorem State.silentRaise_keeps {z : State} (s : State) (due : Bool) (hz : z.Keeps s) : z.Keeps (State.silentRaise s due) := by
  unfold State.silentRaise
  try dsimp only
  repeat' with_reducible first | assumption | apply State.setEnt_keeps | apply ite_keeps | split | refine .of_mk rfl rfl ?_

theorem State.rakeAll_keeps {z : State} (s : State) (g : Program) (committed : Bool) (vs : List (DecVec × DecVec))
    (hz : z.Keeps s) : z.Keeps (State.rakeAll s g committed vs).1 := by
  unfold State.rakeAll
  try dsimp only
  repeat' with_reducible first
    | assumption | apply State.rakeOne_keeps | refine foldl_keeps (fun _ _ _ => ?_) _ ?_ | refine foldl_keeps_fst (fun _ _ _ => ?_) _ ?_

theorem State.runRake_keeps {z : State} (s : State) (g : Program) (others : List RakeContribution)
    (hz : z.Keeps s) : z.Keeps (State.runRake s g others) := by
  unfold State.runRake
  try dsimp only
  repeat' with_reducible first
    | assumption | apply State.syncFormats_keeps | apply State.silentRaise_keeps | apply State.rakeAll_keeps | refine .of_mk rfl rfl ?_

theorem State.installFloors_keeps {z : State} (s : State) (hz : z.Keeps s) : z.Keeps (State.installFloors s) := by
  unfold State.installFloors
  try dsimp only
  repeat' with_reducible first
    | assumption | apply State.settlePending_keeps | refine foldl_keeps (fun _ _ _ => ?_) _ ?_
    | refine foldl_keeps_fst (fun _ _ _ => ?_) _ ?_ | refine .of_mk rfl rfl ?_

/-! ## Train -/

theorem State.groupFault_keeps {z : State} (s : State) (hz : z.Keeps s) : z.Keeps (State.groupFault s) := by
  unfold State.groupFault
  repeat' with_reducible first | assumption | apply State.raise_keeps | refine .of_mk rfl rfl ?_

theorem State.pushStaged_keeps {z : State} (s : State) (others : List FcContribution) (i : Nat) (x : Staged)
    (hz : z.Keeps s) : z.Keeps (State.pushStaged s others i x) := by
  unfold State.pushStaged
  try dsimp only
  repeat' with_reducible first
    | assumption | apply State.resetRecord_keeps | apply State.lostRecord_keeps | apply ite_keeps | split | refine .of_mk rfl rfl ?_

theorem State.settleRecord_keeps {z : State} (s : State) (i : Nat) (hz : z.Keeps s) : z.Keeps (State.settleRecord s i) := by
  unfold State.settleRecord
  try dsimp only
  repeat' with_reducible first | assumption | apply ite_keeps | split | refine .of_mk rfl rfl ?_

theorem State.commitScales_keeps {z : State} (s : State) (others : List FcContribution)
    (hz : z.Keeps s) : z.Keeps (State.commitScales s others) := by
  unfold State.commitScales
  try dsimp only
  repeat' with_reducible first
    | assumption | apply State.resetRecord_keeps | apply State.checkRecords_keeps | apply State.pushStaged_keeps
    | apply State.settleRecord_keeps | refine foldl_keeps (fun _ _ _ => ?_) _ ?_ | refine foldl_keeps_fst (fun _ _ _ => ?_) _ ?_

theorem State.moveCounters_keeps {z : State} (s : State) (c : CommitRec) (grew : Bool)
    (hz : z.Keeps s) : z.Keeps (State.moveCounters s c grew) := by
  unfold State.moveCounters
  try dsimp only
  repeat' with_reducible first | assumption | apply State.setEnt_keeps | refine .of_mk rfl rfl ?_

theorem State.countOutcome_keeps {z : State} (s : State) (outcome tokens : Nat)
    (hz : z.Keeps s) : z.Keeps (State.countOutcome s outcome tokens) := by
  unfold State.countOutcome
  try dsimp only
  repeat' with_reducible first | assumption | apply State.setEnt_keeps | apply State.bump_keeps | apply ite_keeps | split

theorem State.dropResync_keeps {z : State} (s : State) (hz : z.Keeps s) : z.Keeps (State.dropResync s) := by
  unfold State.dropResync
  repeat' with_reducible first | assumption | apply State.goStale_keeps | apply ite_keeps | split | refine .of_mk rfl rfl ?_

theorem State.stopUncovered_keeps {z : State} (s : State) (hz : z.Keeps s) : z.Keeps (State.stopUncovered s) := by
  unfold State.stopUncovered
  repeat' with_reducible first | assumption | apply State.setEnt_keeps | apply State.raise_keeps | apply ite_keeps | split | refine .of_mk rfl rfl ?_

theorem State.commitStep_keeps {z : State} (s : State) (others : List FcContribution) (outcome : Nat)
    (hz : z.Keeps s) : z.Keeps (State.commitStep s others outcome) := by
  unfold State.commitStep
  try dsimp only
  repeat' with_reducible first
    | assumption | apply State.condition_keeps | apply State.setPhase_keeps | apply State.commitScales_keeps
    | apply State.moveCounters_keeps | apply State.countOutcome_keeps | apply State.dropResync_keeps | apply State.stopUncovered_keeps
    | apply ite_keeps | split | refine .of_mk rfl rfl ?_

theorem State.endReplay_keeps {z : State} (s : State) (outcome : Nat) (hz : z.Keeps s) : z.Keeps (State.endReplay s outcome) := by
  unfold State.endReplay
  repeat' with_reducible first
    | assumption | apply State.setEnt_keeps | apply State.invalidNotices_keeps | apply State.settleEnergy_keeps
    | apply State.clearStep_keeps | apply State.phaseZero_keeps | apply State.restoreMarks_keeps

theorem State.askReset_keeps {z : State} (s : State) (others : List RakeContribution)
    (hz : z.Keeps s) : z.Keeps (State.askReset s others) := by
  unfold State.askReset
  try dsimp only
  repeat' with_reducible first | assumption | apply State.rakeReset_keeps | refine .of_mk rfl rfl ?_

theorem State.startApply_keeps {z : State} (s : State) (r : DescRun) (hz : z.Keeps s) : z.Keeps (State.startApply s r) := by
  unfold State.startApply
  try dsimp only
  repeat' with_reducible first
    | assumption | apply State.bump_keeps | apply State.mapDesc_keeps | apply State.endVector_keeps | apply ite_keeps | split
    | refine .of_mk rfl rfl ?_

theorem State.pushLayer_keeps {z : State} (s : State) (l : Nat) (hz : z.Keeps s) : z.Keeps (State.pushLayer s l) := by
  unfold State.pushLayer
  try dsimp only
  repeat' with_reducible first
    | assumption | apply State.pushStaged_keeps | refine foldl_keeps (fun _ _ _ => ?_) _ ?_ | refine foldl_keeps_fst (fun _ _ _ => ?_) _ ?_

theorem State.endUpdate_keeps {z : State} (s : State) (r : DescRun) (hz : z.Keeps s) : z.Keeps (State.endUpdate s r) := by
  unfold State.endUpdate
  try dsimp only
  repeat' with_reducible first
    | assumption | apply State.bump_keeps | apply State.endVector_keeps | apply State.completeDesc_keeps | apply State.pushLayer_keeps
    | apply ite_keeps | split

theorem State.settleUpdates_keeps {z : State} (s : State) (hz : z.Keeps s) : z.Keeps (State.settleUpdates s) := by
  unfold State.settleUpdates
  try dsimp only
  repeat' with_reducible first
    | assumption | apply State.endUpdate_keeps | refine foldl_keeps (fun _ _ _ => ?_) _ ?_ | refine foldl_keeps_fst (fun _ _ _ => ?_) _ ?_
    | apply ite_keeps | split

theorem State.clearNorms_keeps {z : State} (s : State) (hz : z.Keeps s) : z.Keeps (State.clearNorms s) := by
  unfold State.clearNorms
  repeat' with_reducible first | assumption | apply ite_keeps | split | refine .of_mk rfl rfl ?_

theorem State.adoptRake_keeps {z : State} (s : State) (images : List RakeImage) (hz : z.Keeps s) : z.Keeps (State.adoptRake s images) := by
  unfold State.adoptRake
  try dsimp only
  repeat' with_reducible first
    | assumption | apply State.condition_keeps | apply State.setRake_keeps | refine foldl_keeps (fun _ _ _ => ?_) _ ?_
    | refine foldl_keeps_fst (fun _ _ _ => ?_) _ ?_ | apply ite_keeps | split | refine .of_mk rfl rfl ?_

theorem State.snapshotDue_keeps {z : State} (s : State) (hz : z.Keeps s) : z.Keeps (State.snapshotDue s) := by
  unfold State.snapshotDue
  try dsimp only
  repeat' with_reducible first
    | assumption | apply State.bump_keeps | apply State.condition_keeps | apply State.startSnapshot_keeps | apply ite_keeps | split

theorem State.lastEnergy_keeps {z : State} (s : State) (hz : z.Keeps s) : z.Keeps (State.lastEnergy s) := by
  unfold State.lastEnergy
  try dsimp only
  repeat' with_reducible first | assumption | apply State.setEnt_keeps | apply ite_keeps | split

theorem State.applyMask_keeps {z : State} (s : State) (hz : z.Keeps s) : z.Keeps (State.applyMask s) := by
  unfold State.applyMask
  repeat' with_reducible first | assumption | apply State.setEnt_keeps | apply ite_keeps | split

theorem State.tablesAtEnd_keeps {z : State} (s : State) (images : List RakeImage)
    (hz : z.Keeps s) : z.Keeps (State.tablesAtEnd s images) := by
  unfold State.tablesAtEnd
  try dsimp only
  repeat' with_reducible first
    | assumption | apply State.rakeReset_keeps | apply State.adoptRake_keeps | apply State.applyMask_keeps | apply ite_keeps | split

theorem State.closeBoundary_keeps {z : State} (s : State) (images : List RakeImage)
    (hz : z.Keeps s) : z.Keeps (State.closeBoundary s images) := by
  unfold State.closeBoundary
  try dsimp only
  repeat' with_reducible first
    | assumption | apply State.bump_keeps | apply State.rakeReset_keeps | apply State.invalidNotices_keeps | apply State.settleEnergy_keeps
    | apply State.clearStep_keeps | apply State.phaseZero_keeps | apply State.drainOwed_keeps | apply State.rollUp_keeps
    | apply State.changeWindows_keeps | apply State.writeRing_keeps | apply State.clearNorms_keeps | apply State.adoptRake_keeps
    | apply State.snapshotDue_keeps | apply State.lastEnergy_keeps | apply State.applyMask_keeps | apply ite_keeps | split
    | refine .of_mk rfl rfl ?_

end Sys2Proof.Machine
end

