-- ==== Sys2Proof/Laws/KeepsPlatform.lean ====
section
/-! SUPPORT. `Keeps` for the operations of memory, arbitration, the crust, the stockpile, the dictionary and the host link: one lemma for each. -/

namespace Sys2Proof.Machine

variable {z : State}

/-! ## HostMem -/

theorem State.setTc_keeps {z : State} (s : State) (die : Nat) (l : List Nat) (hz : z.Keeps s) : z.Keeps (State.setTc s die l) := by
  unfold State.setTc
  repeat' with_reducible first | assumption | apply ite_keeps | split | refine .of_mk rfl rfl ?_

theorem State.fillTc_keeps {z : State} (s : State) (die p : Nat) (hz : z.Keeps s) : z.Keeps (State.fillTc s die p) := by
  unfold State.fillTc
  try dsimp only
  repeat' with_reducible first | assumption | apply State.draw_keeps | apply State.setTc_keeps | apply ite_keeps | split

theorem State.walk_keeps {z : State} (s : State) (p : Nat) (hz : z.Keeps s) : z.Keeps (State.walk s p) := by
  unfold State.walk
  try dsimp only
  repeat' with_reducible first
    | assumption | apply State.raise_keeps | apply State.latchAll_keeps | apply ite_keeps | split | refine .of_mk rfl rfl ?_

theorem State.translate_keeps {z : State} (s : State) (die p : Nat) (hz : z.Keeps s) : z.Keeps (State.translate s die p) := by
  unfold State.translate
  try dsimp only
  repeat' with_reducible first | assumption | apply State.bump_keeps | apply State.fillTc_keeps | apply State.walk_keeps | apply ite_keeps | split

theorem State.hostPart_keeps {z : State} (s0 : State) (w : Nat × List Byte) (hz : z.Keeps s0) : z.Keeps (State.hostPart s0 w) := by
  unfold State.hostPart
  try dsimp only
  repeat' with_reducible first
    | assumption | apply State.bump_keeps | apply State.memViolation_keeps | apply State.storeUnit_keeps | apply State.translate_keeps
    | apply ite_keeps | split | refine .of_mk rfl rfl ?_

theorem State.drainParts_keeps {z : State} : ∀ (n : Nat) (s : State), z.Keeps s → z.Keeps (State.drainParts n s)
  | 0, _, h => h
  | n + 1, s, h => by
    unfold State.drainParts
    split
    · exact h
    · split
      · exact State.stallSeals_keeps _ _ h
      · exact State.drainParts_keeps n _ (State.hostPart_keeps _ _ (.of_mk rfl rfl h))

theorem State.maskVector_keeps {z : State} (s : State) (v : Nat) (on : Bool) (hz : z.Keeps s) : z.Keeps (State.maskVector s v on) := by
  unfold State.maskVector
  try dsimp only
  repeat' with_reducible first | assumption | apply State.raiseVector_keeps | apply ite_keeps | split | refine .of_mk rfl rfl ?_

theorem State.setSlot_keeps {z : State} (s : State) (n : Nat) (x : MbxSlot) (hz : z.Keeps s) : z.Keeps (State.setSlot s n x) := by
  unfold State.setSlot
  repeat' with_reducible first | assumption | refine .of_mk rfl rfl ?_

theorem State.freeSlot_keeps {z : State} (s : State) (n : Nat) (value : Byte) (hz : z.Keeps s) : z.Keeps (State.freeSlot s n value) := by
  unfold State.freeSlot
  repeat' with_reducible first | assumption | apply State.setSlot_keeps | apply ite_keeps | split | refine .of_mk rfl rfl ?_

theorem State.writeBar2_keeps {z : State} (s : State) (off : Nat) (b : Byte) (hz : z.Keeps s) : z.Keeps (State.writeBar2 s off b) := by
  unfold State.writeBar2
  try dsimp only
  repeat' with_reducible first
    | assumption | apply State.maskVector_keeps | apply State.setSlot_keeps | apply State.freeSlot_keeps | apply ite_keeps | split
    | refine .of_mk rfl rfl ?_

theorem State.doorbell_keeps {z : State} (s : State) (n : Nat) (message : List Byte)
    (hz : z.Keeps s) : z.Keeps (State.doorbell s n message) := by
  unfold State.doorbell
  repeat' with_reducible first | assumption | apply State.bump_keeps | apply State.setSlot_keeps | apply ite_keeps | split | refine .of_mk rfl rfl ?_

theorem State.configWrite_keeps {z : State} (s : State) (w : ConfigWrite) (hz : z.Keeps s) : z.Keeps (State.configWrite s w) := by
  unfold State.configWrite
  repeat' with_reducible first | assumption | split | refine .of_mk rfl rfl ?_

theorem State.takeBar2_keeps {z : State} (s : State) (w : Bar2Writes) (hz : z.Keeps s) : z.Keeps (State.takeBar2 s w) := by
  unfold State.takeBar2
  try dsimp only
  repeat' with_reducible first
    | assumption | apply State.maskVector_keeps | apply State.writeBar2_keeps | refine foldl_keeps (fun _ _ _ => ?_) _ ?_
    | refine foldl_keeps_fst (fun _ _ _ => ?_) _ ?_ | split | refine .of_mk rfl rfl ?_

theorem State.ring_keeps {z : State} (s : State) (value : BitVec 32) (w : Bar2Writes)
    (hz : z.Keeps s) : z.Keeps (State.ring s value w) := by
  unfold State.ring
  repeat' with_reducible first | assumption | apply State.doorbell_keeps | apply State.takeBar2_keeps | apply ite_keeps | split

theorem State.completeRead_keeps {z : State} (s0 : State) (a len : Nat) (parts : List (Nat × Nat))
    (hz : z.Keeps s0) : z.Keeps (State.completeRead s0 a len parts) := by
  unfold State.completeRead
  try dsimp only
  repeat' with_reducible first
    | assumption | apply State.memViolation_keeps | apply State.uncorrectable_keeps | apply State.translate_keeps
    | refine foldl_keeps (fun _ _ _ => ?_) _ ?_ | refine foldl_keeps_fst (fun _ _ _ => ?_) _ ?_ | apply ite_keeps | split
    | refine .of_mk rfl rfl ?_

theorem State.hostReadNow_keeps {z : State} (s : State) (offset len : Nat)
    (hz : z.Keeps s) : z.Keeps (State.hostReadNow s offset len) := by
  unfold State.hostReadNow
  try dsimp only
  repeat' with_reducible first
    | assumption | apply State.rebuildFirst_keeps | apply State.completeRead_keeps | apply ite_keeps | split | refine .of_mk rfl rfl ?_

theorem State.afterWrites_keeps {z : State} (s : State) (hz : z.Keeps s) : z.Keeps (State.afterWrites s) := by
  unfold State.afterWrites
  try dsimp only
  repeat' with_reducible first
    | assumption | apply State.ring_keeps | apply State.hostReadNow_keeps | refine foldl_keeps (fun _ _ _ => ?_) _ ?_
    | refine foldl_keeps_fst (fun _ _ _ => ?_) _ ?_ | apply ite_keeps | split | refine .of_mk rfl rfl ?_

theorem State.drainHost_keeps {z : State} (s : State) (hz : z.Keeps s) : z.Keeps (State.drainHost s) := by
  unfold State.drainHost
  repeat' with_reducible first | assumption | apply State.drainOwed_keeps | apply State.drainParts_keeps | apply State.afterWrites_keeps

theorem State.hostWrite_keeps {z : State} (s : State) (offset : Nat) (data : List Byte)
    (hz : z.Keeps s) : z.Keeps (State.hostWrite s offset data) := by
  unfold State.hostWrite
  try dsimp only
  repeat' with_reducible first | assumption | apply State.drainHost_keeps | refine .of_mk rfl rfl ?_

theorem State.hostRead_keeps {z : State} (s : State) (offset len : Nat) (hz : z.Keeps s) : z.Keeps (State.hostRead s offset len) := by
  unfold State.hostRead
  repeat' with_reducible first | assumption | apply State.hostReadNow_keeps | apply ite_keeps | split | refine .of_mk rfl rfl ?_

theorem State.retryRead_keeps {z : State} (s : State) (hz : z.Keeps s) : z.Keeps (State.retryRead s) := by
  unfold State.retryRead
  repeat' with_reducible first | assumption | apply State.afterWrites_keeps

/-! ## Arb -/

theorem State.endRun_keeps {z : State} (s : State) (level inst resource rank : Nat)
    (hz : z.Keeps s) : z.Keeps (State.endRun s level inst resource rank) := by
  unfold State.endRun
  try dsimp only
  repeat' with_reducible first | assumption | apply State.setArbCnt_keeps | apply ite_keeps | split | refine .of_mk rfl rfl ?_

theorem State.countGrant_keeps {z : State} (s : State) (level inst resource rank : Nat)
    (hz : z.Keeps s) : z.Keeps (State.countGrant s level inst resource rank) := by
  unfold State.countGrant
  try dsimp only
  repeat' with_reducible first | assumption | apply State.setArbCnt_keeps | refine .of_mk rfl rfl ?_

theorem State.setHold_keeps {z : State} (s : State) (level inst resource : Nat) (h : Option Hold)
    (hz : z.Keeps s) : z.Keeps (State.setHold s level inst resource h) := by
  unfold State.setHold
  repeat' with_reducible first | assumption | split | refine .of_mk rfl rfl ?_

theorem State.cutHold_keeps {z : State} (s : State) (level inst resource : Nat) (h : Hold)
    (hz : z.Keeps s) : z.Keeps (State.cutHold s level inst resource h) := by
  unfold State.cutHold
  try dsimp only
  repeat' with_reducible first
    | assumption | apply State.bump_keeps | apply State.setArbCnt_keeps | apply State.raise_keeps | apply State.setCollector_keeps
    | apply State.latchAll_keeps | apply State.setHold_keeps | refine .of_mk rfl rfl ?_

theorem State.cutIfDue_keeps {z : State} (s : State) (level inst resource : Nat)
    (hz : z.Keeps s) : z.Keeps (State.cutIfDue s level inst resource) := by
  unfold State.cutIfDue
  repeat' with_reducible first | assumption | apply State.cutHold_keeps | apply ite_keeps | split

theorem State.setArbCycle_keeps {z : State} (s : State) (level inst : Nat) (x : ArbCycle)
    (hz : z.Keeps s) : z.Keeps (State.setArbCycle s level inst x) := by
  unfold State.setArbCycle
  repeat' with_reducible first | assumption | refine .of_mk rfl rfl ?_

theorem State.turn_keeps {z : State} (s : State) (level inst resource : Nat)
    (hz : z.Keeps s) : z.Keeps (State.turn s level inst resource) := by
  unfold State.turn
  try dsimp only
  repeat' with_reducible first | assumption | apply State.setArbCycle_keeps | apply ite_keeps | split | refine .of_mk rfl rfl ?_

theorem State.waitCycle_keeps {z : State} (s : State) (level inst resource rank : Nat)
    (hz : z.Keeps s) : z.Keeps (State.waitCycle s level inst resource rank) := by
  unfold State.waitCycle
  try dsimp only
  repeat' with_reducible first
    | assumption | apply State.setArbCnt_keeps | apply State.countWait_keeps | apply State.setArbCycle_keeps | apply ite_keeps | split
    | refine .of_mk rfl rfl ?_

theorem State.countCycle_keeps {z : State} (s : State) (level inst resource : Nat) (present : List Nat) (winner : Nat) (fresh : Bool)
    (hz : z.Keeps s) : z.Keeps (State.countCycle s level inst resource present winner fresh) := by
  unfold State.countCycle
  try dsimp only
  repeat' with_reducible first
    | assumption | apply State.endRun_keeps | apply State.countGrant_keeps | apply State.turn_keeps | apply State.waitCycle_keeps
    | refine foldl_keeps (fun _ _ _ => ?_) _ ?_ | refine foldl_keeps_fst (fun _ _ _ => ?_) _ ?_ | apply ite_keeps | split

theorem State.selRank_keeps {z : State} (s : State) (v : Nat) (hz : z.Keeps s) : z.Keeps (State.selRank s v).s := by
  unfold State.selRank
  try dsimp only
  repeat' with_reducible first | assumption | apply State.setEnt_keeps | apply ite_keeps_s | apply ite_keeps | split

theorem State.clearMax_keeps {z : State} (s : State) (v : Nat) (hz : z.Keeps s) : z.Keeps (State.clearMax s v).s := by
  unfold State.clearMax
  try dsimp only
  repeat' with_reducible first | assumption | apply ite_keeps_s | apply ite_keeps | split | refine .of_mk rfl rfl ?_

/-! ## Memory -/

theorem State.reqGo_keeps {z : State} (s : State) (v : Nat) (hz : z.Keeps s) : z.Keeps (State.reqGo s v).s := by
  unfold State.reqGo
  try dsimp only
  repeat' with_reducible first | assumption | apply State.setEnt_keeps | apply ite_keeps_s | apply ite_keeps | split | refine .of_mk rfl rfl ?_

theorem State.sendMapMirror_keeps {z : State} (s : State) (hz : z.Keeps s) : z.Keeps (State.sendMapMirror s) := by
  unfold State.sendMapMirror
  repeat' with_reducible first | assumption | apply State.sendMirror_keeps | apply ite_keeps | split | refine .of_mk rfl rfl ?_

theorem State.failReq_keeps {z : State} (s : State) (code : Nat) (hz : z.Keeps s) : z.Keeps (State.failReq s code) := by
  unfold State.failReq
  try dsimp only
  repeat' with_reducible first
    | assumption | apply State.setEnt_keeps | apply State.raiseVector_keeps | apply State.violation_keeps | apply State.sendMapMirror_keeps
    | refine .of_mk rfl rfl ?_

theorem State.passReq_keeps {z : State} (s : State) (pages : List Nat) (hz : z.Keeps s) : z.Keeps (State.passReq s pages) := by
  unfold State.passReq
  try dsimp only
  repeat' with_reducible first
    | assumption | apply State.setEnt_keeps | refine foldl_keeps (fun _ _ _ => ?_) _ ?_ | refine foldl_keeps_fst (fun _ _ _ => ?_) _ ?_
    | refine .of_mk rfl rfl ?_

theorem State.processReq_keeps {z : State} (s : State) (op : Nat) (code : State → MapReq → Nat) (act : State → MapReq → State)
    (hf : ∀ (s : State) (r : MapReq), z.Keeps s → z.Keeps (act s r)) (hz : z.Keeps s) : z.Keeps (State.processReq s op code act) := by
  unfold State.processReq
  dsimp only
  refine ite_keeps (ite_keeps ?_ ?_) hz
  · exact State.latchAll_keeps _ (State.failReq_keeps _ _ hz)
  · exact State.latchAll_keeps _ (State.passReq_keeps _ _ (hf _ _ hz))

theorem State.placeAll_keeps {z : State} (s : State) (tier dev : Nat) (skip : State → Nat → Bool)
    (put : State → Nat → Nat × Nat × Nat → State) (pages : List Nat)
    (hf : ∀ (s : State) (p : Nat) (y : Nat × Nat × Nat), z.Keeps s → z.Keeps (put s p y)) (hz : z.Keeps s) :
    z.Keeps (State.placeAll s tier dev skip put pages).1 := by
  unfold State.placeAll
  refine foldl_keeps_fst (fun a p ha => ?_) _ hz
  split
  · exact ha
  · split
    · exact ha
    · split
      · exact ha
      · exact hf _ _ _ ha

theorem State.foldPage_keeps {z : State} (s : State) (p : Nat) (hz : z.Keeps s) : z.Keeps (State.foldPage s p) := by
  unfold State.foldPage
  try dsimp only
  repeat' with_reducible first | assumption | apply State.addDelta_keeps | apply State.closeSeal_keeps | apply ite_keeps | split

theorem State.foldPages_keeps {z : State} (cover : Bool) (act : State → Nat → State) (hf : ∀ (s : State) (p : Nat), z.Keeps s → z.Keeps (act s p)) :
    ∀ (l : List Nat) (s : State) (n : Nat), z.Keeps s → z.Keeps (State.foldPages cover act l s n).1
  | [], _, _, h => h
  | p :: t, s, n, h => by
    unfold State.foldPages
    split
    · exact State.draw_keeps _ (State.bump_keeps _ _ _ _ h)
    · exact State.foldPages_keeps cover act hf t _ _ (hf _ _ h)

theorem State.processFold_keeps {z : State} (s : State) (op : Nat) (cover : Bool) (code : State → MapReq → Nat) (act : State → Nat → State)
    (hf : ∀ (s : State) (p : Nat), z.Keeps s → z.Keeps (act s p)) (h : z.Keeps s) : z.Keeps (State.processFold s op cover code act) := by
  unfold State.processFold
  extract_lets r c x
  have hx : z.Keeps x.1 := State.foldPages_keeps cover act hf _ _ _ h
  refine ite_keeps (ite_keeps ?_ (ite_keeps ?_ ?_)) h
  · exact State.latchAll_keeps _ (State.failReq_keeps _ _ h)
  · exact State.latchAll_keeps _ (.of_mk rfl rfl hx)
  · exact State.latchAll_keeps _ (State.passReq_keeps _ _ (.of_mk rfl rfl hx))

theorem State.mapPage_keeps {z : State} (ro cc : Bool) (s : State) (p : Nat) (y : Nat × Nat × Nat)
    (hz : z.Keeps s) : z.Keeps (State.mapPage ro cc s p y) := by
  unfold State.mapPage
  try dsimp only
  repeat' with_reducible first | assumption | apply State.setMapEntry_keeps | apply State.zeroPage_keeps | apply State.clearLines_keeps

theorem State.mapRun_keeps {z : State} (s : State) (r : MapReq) (hz : z.Keeps s) : z.Keeps (State.mapRun s r).1 := by
  unfold State.mapRun
  try dsimp only
  repeat' with_reducible first | assumption | apply State.placeAll_keeps | apply State.mapPage_keeps

theorem State.dropPage_keeps {z : State} (s : State) (p : Nat) (hz : z.Keeps s) : z.Keeps (State.dropPage s p) := by
  unfold State.dropPage
  repeat' with_reducible first | assumption | apply State.unmapPage_keeps | apply State.copyBeforeWrite_keeps | apply State.foldPage_keeps

theorem State.startCopy_keeps {z : State} (s : State) (p : Nat) (y : Nat × Nat × Nat)
    (hz : z.Keeps s) : z.Keeps (State.startCopy s p y) := by
  unfold State.startCopy
  try dsimp only
  repeat' with_reducible first | assumption | apply State.setMapEntry_keeps | apply ite_keeps | split | refine .of_mk rfl rfl ?_

theorem State.nextCopies_keeps {z : State} (s : State) (hz : z.Keeps s) : z.Keeps (State.nextCopies s) := by
  unfold State.nextCopies
  try dsimp only
  repeat' with_reducible first
    | assumption | apply State.startCopy_keeps | refine foldl_keeps (fun _ _ _ => ?_) _ ?_ | refine foldl_keeps_fst (fun _ _ _ => ?_) _ ?_
    | apply ite_keeps | split

theorem State.migrateRun_keeps {z : State} (s : State) (r : MapReq) (hz : z.Keeps s) : z.Keeps (State.migrateRun s r).1 := by
  unfold State.migrateRun
  try dsimp only
  repeat' with_reducible first | assumption | apply State.placeAll_keeps | apply State.startCopy_keeps

theorem State.flagPages_keeps {z : State} (s : State) (r : MapReq) (f : MapEntry → MapEntry)
    (hz : z.Keeps s) : z.Keeps (State.flagPages s r f) := by
  unfold State.flagPages
  try dsimp only
  repeat' with_reducible first
    | assumption | apply State.setMapEntry_keeps | refine foldl_keeps (fun _ _ _ => ?_) _ ?_
    | refine foldl_keeps_fst (fun _ _ _ => ?_) _ ?_

theorem State.coverPage_keeps {z : State} (s : State) (p : Nat) (hz : z.Keeps s) : z.Keeps (State.coverPage s p) := by
  unfold State.coverPage
  repeat' with_reducible first
    | assumption | apply State.setMapEntry_keeps | apply State.foldPage_keeps | apply ite_keeps | split | refine .of_mk rfl rfl ?_

theorem State.uncoverPage_keeps {z : State} (s : State) (p : Nat) (hz : z.Keeps s) : z.Keeps (State.uncoverPage s p) := by
  unfold State.uncoverPage
  try dsimp only
  repeat' with_reducible first
    | assumption | apply State.setMapEntry_keeps | apply State.copyBeforeWrite_keeps | apply State.foldPage_keeps | apply ite_keeps | split
    | refine .of_mk rfl rfl ?_

theorem State.discardReads_keeps {z : State} (s : State) (c : Nat) (hz : z.Keeps s) : z.Keeps (State.discardReads s c) := by
  unfold State.discardReads
  try dsimp only
  repeat' with_reducible first
    | assumption | apply State.finishUnit_keeps | apply State.dropBlock_keeps | apply State.dropPass_keeps
    | refine foldl_keeps (fun _ _ _ => ?_) _ ?_ | refine foldl_keeps_fst (fun _ _ _ => ?_) _ ?_ | apply ite_keeps | split

theorem State.readPoison_keeps {z : State} (s : State) (r : MemReq) (hz : z.Keeps s) : z.Keeps (State.readPoison s r) := by
  unfold State.readPoison
  repeat' with_reducible first | assumption | apply State.flagFault_keeps | apply State.uncorrectable_keeps | apply State.discardReads_keeps | split

theorem State.refuseTxn_keeps {z : State} (s : State) (r : MemReq) (code : Nat) (hz : z.Keeps s) : z.Keeps (State.refuseTxn s r code) := by
  unfold State.refuseTxn
  try dsimp only
  repeat' with_reducible first | assumption | apply State.flagFault_keeps | apply State.memViolation_keeps | apply ite_keeps | split

theorem State.performTxn_keeps {z : State} (s : State) (r : MemReq) (hz : z.Keeps s) : z.Keeps (State.performTxn s r) := by
  unfold State.performTxn
  try dsimp only
  repeat' with_reducible first
    | assumption | apply State.ramWrite_keeps | apply State.storeUnit_keeps | apply State.readPoison_keeps | apply State.refuseTxn_keeps
    | apply ite_keeps | split

theorem State.notePeak_keeps {z : State} (s : State) (die : Nat) (hz : z.Keeps s) : z.Keeps (State.notePeak s die) := by
  unfold State.notePeak
  repeat' with_reducible first | assumption | apply State.setEnt_keeps

theorem State.admitTxn_keeps {z : State} (s : State) (r : MemReq) (hz : z.Keeps s) : z.Keeps (State.admitTxn s r) := by
  unfold State.admitTxn
  try dsimp only
  repeat' with_reducible first
    | assumption | apply State.translate_keeps | apply State.endRun_keeps | apply State.performTxn_keeps | apply State.notePeak_keeps
    | refine .of_mk rfl rfl ?_

theorem State.delayTxn_keeps {z : State} (s : State) (r : MemReq) (full : Bool) (hz : z.Keeps s) : z.Keeps (State.delayTxn s r full) := by
  unfold State.delayTxn
  try dsimp only
  repeat' with_reducible first
    | assumption | apply State.bump_keeps | apply State.draw_keeps | apply State.countWait_keeps | apply State.rebuildFirst_keeps
    | apply ite_keeps | split | refine .of_mk rfl rfl ?_

theorem State.stallTxn_keeps {z : State} (s : State) (r : MemReq) (hz : z.Keeps s) : z.Keeps (State.stallTxn s r) := by
  unfold State.stallTxn
  repeat' with_reducible first | assumption | apply State.stallSeals_keeps | apply ite_keeps | split

theorem State.offerTxn_keeps {z : State} (s : State) (r : MemReq) (hz : z.Keeps s) : z.Keeps (State.offerTxn s r) := by
  unfold State.offerTxn
  repeat' with_reducible first
    | assumption | apply State.admitTxn_keeps | apply State.delayTxn_keeps | apply State.stallTxn_keeps | apply ite_keeps | split

theorem State.retryTxns_keeps {z : State} (s : State) (die : Nat) (hz : z.Keeps s) : z.Keeps (State.retryTxns s die) := by
  unfold State.retryTxns
  try dsimp only
  repeat' with_reducible first
    | assumption | apply State.offerTxn_keeps | refine foldl_keeps (fun _ _ _ => ?_) _ ?_ | refine foldl_keeps_fst (fun _ _ _ => ?_) _ ?_
    | refine .of_mk rfl rfl ?_

theorem State.completeTxns_keeps {z : State} (s : State) (die n : Nat) (hz : z.Keeps s) : z.Keeps (State.completeTxns s die n) := by
  unfold State.completeTxns
  try dsimp only
  repeat' with_reducible first
    | assumption | refine foldl_keeps (fun _ _ _ => ?_) _ ?_ | refine foldl_keeps_fst (fun _ _ _ => ?_) _ ?_ | refine .of_mk rfl rfl ?_

theorem State.completeTxn_keeps {z : State} (s : State) (t : Txn) (hz : z.Keeps s) : z.Keeps (State.completeTxn s t) := by
  unfold State.completeTxn
  try dsimp only
  repeat' with_reducible first | assumption | apply ite_keeps | split | refine .of_mk rfl rfl ?_

theorem State.bearPoison_keeps {z : State} (s : State) (by_ : Reader) (addr : Nat)
    (hz : z.Keeps s) : z.Keeps (State.bearPoison s by_ addr) := by
  unfold State.bearPoison
  repeat' with_reducible first | assumption | apply State.flagFault_keeps | apply State.discardReads_keeps | split | refine .of_mk rfl rfl ?_

theorem State.poisonLine_keeps {z : State} (s : State) (addr : Nat) (hz : z.Keeps s) : z.Keeps (State.poisonLine s addr) := by
  unfold State.poisonLine
  repeat' with_reducible first | assumption | refine .of_mk rfl rfl ?_

theorem State.reservedError_keeps {z : State} (s : State) (st addr : Nat) (hz : z.Keeps s) : z.Keeps (State.reservedError s st addr) := by
  unfold State.reservedError
  try dsimp only
  repeat' with_reducible first | assumption | apply State.raise_keeps | apply ite_keeps | split | refine .of_mk rfl rfl ?_

theorem State.cxlCorrected_keeps {z : State} : ∀ (n : Nat) (s : State) (d : Nat), z.Keeps s → z.Keeps (State.cxlCorrected n s d)
  | 0, _, _, h => h
  | n + 1, _, d, h => State.cxlCorrected_keeps n _ d (State.latchAll_keeps _ (State.raise_keeps _ _ h))

theorem State.stackRebuilt_keeps {z : State} (s : State) (st : Nat) (hz : z.Keeps s) : z.Keeps (State.stackRebuilt s st) := by
  unfold State.stackRebuilt
  repeat' with_reducible first | assumption | apply State.setStack_keeps | apply ite_keeps | split | refine .of_mk rfl rfl ?_

/-! ## Queues -/

theorem State.setQueue_keeps {z : State} (s : State) (q : QueueId) (x : QueueSt) (hz : z.Keeps s) : z.Keeps (State.setQueue s q x) := by
  unfold State.setQueue
  repeat' with_reducible first | assumption | apply State.setQueueAt_keeps

theorem State.failOldest_keeps {z : State} (s : State) (q : QueueId) (hz : z.Keeps s) : z.Keeps (State.failOldest s q) := by
  unfold State.failOldest
  repeat' with_reducible first | assumption | apply State.violation_keeps | apply State.completeTxn_keeps | split

theorem State.queueParity_keeps {z : State} (s : State) (q : QueueId) (hz : z.Keeps s) : z.Keeps (State.queueParity s q) := by
  unfold State.queueParity
  try dsimp only
  repeat' with_reducible first | assumption | apply State.raise_keeps | apply State.failOldest_keeps | refine .of_mk rfl rfl ?_

theorem State.stallAt_keeps {z : State} (s : State) (q : QueueId) (hz : z.Keeps s) : z.Keeps (State.stallAt s q) := by
  unfold State.stallAt
  repeat' with_reducible first | assumption | apply State.countWait_keeps | apply State.stallQueue_keeps | apply State.stallSender_keeps | split

theorem State.seeEntry_keeps {z : State} (s : State) (q : QueueId) (payload : Nat)
    (hz : z.Keeps s) : z.Keeps (State.seeEntry s q payload) := by
  unfold State.seeEntry
  try dsimp only
  repeat' with_reducible first
    | assumption | apply State.readQueue_keeps | apply State.setPan_keeps | apply State.setQueue_keeps | apply ite_keeps | split
    | refine .of_mk rfl rfl ?_

theorem State.shiftsArrive_keeps {z : State} (s : State) (c p : Nat) (q : QueueId) (parityOk : Bool)
    (hz : z.Keeps s) : z.Keeps (State.shiftsArrive s c p q parityOk) := by
  unfold State.shiftsArrive
  repeat' with_reducible first
    | assumption | apply State.latchAll_keeps | apply State.troubled_keeps | apply State.dropBlock_keeps | apply State.queueParity_keeps
    | apply State.seeEntry_keeps | apply ite_keeps | split

theorem State.entryRead_keeps {z : State} (s : State) (q : QueueId) (fresh : Bool) (payload : Nat)
    (hz : z.Keeps s) : z.Keeps (State.entryRead s q fresh payload) := by
  unfold State.entryRead
  repeat' with_reducible first | assumption | apply State.takeShifts_keeps | apply State.ackWriteback_keeps | apply ite_keeps | split

theorem State.syncEffect_keeps {z : State} (s : State) (b : SyncBit) (level : Bool)
    (hz : z.Keeps s) : z.Keeps (State.syncEffect s b level) := by
  unfold State.syncEffect
  repeat' with_reducible first | assumption | apply ite_keeps | split | refine .of_mk rfl rfl ?_

/-! ## Swaps -/

theorem State.countSwap_keeps {z : State} (s : State) (key entry : Nat) (hz : z.Keeps s) : z.Keeps (State.countSwap s key entry) := by
  unfold State.countSwap
  try dsimp only
  repeat' with_reducible first | assumption | apply State.setEnt_keeps | apply State.bump_keeps | refine .of_mk rfl rfl ?_

/-! ## Image -/

theorem foldl_setD_wf : ∀ (l m : List Host.Cell), Kv.wf 0 m = true →
    Kv.wf 0 (l.foldl (fun (m : List Host.Cell) c => Kv.setD m c.1 0 c.2) m) = true
  | [], _, h => h
  | _ :: l, _, h => foldl_setD_wf l _ (Kv.wf_setD _ _ h)

theorem State.loadScales_keeps {z : State} (s : State) (l : List Byte) (hz : z.Keeps s) : z.Keeps (State.loadScales s l) := by
  unfold State.loadScales
  try dsimp only
  repeat' with_reducible first | assumption | refine .of_mk rfl rfl ?_

theorem State.loadRake_keeps {z : State} (s : State) (l : List Byte) (hz : z.Keeps s) : z.Keeps (State.loadRake s l) := by
  unfold State.loadRake
  try dsimp only
  repeat' with_reducible first | assumption | refine .of_mk rfl rfl ?_

theorem State.loadGroups_keeps {z : State} (s : State) (l : List Byte) (hz : z.Keeps s) : z.Keeps (State.loadGroups s l) := by
  unfold State.loadGroups
  try dsimp only
  repeat' with_reducible first | assumption | refine .of_mk rfl rfl ?_

theorem State.loadReplay_keeps {z : State} (s : State) (r : ReplayRec) (hz : z.Keeps s) : z.Keeps (State.loadReplay s r) := by
  unfold State.loadReplay
  repeat' with_reducible first | assumption | apply State.ring_keeps | apply ite_keeps | split | refine .of_mk rfl rfl ?_

theorem State.checkResume_keeps {z : State} (s : State) (hz : z.Keeps s) : z.Keeps (State.checkResume s) := by
  unfold State.checkResume
  try dsimp only
  repeat' with_reducible first | assumption | apply State.setEnt_keeps | apply ite_keeps | split

theorem State.realign_keeps {z : State} (s : State) (hz : z.Keeps s) : z.Keeps (State.realign s) := by
  unfold State.realign
  try dsimp only
  repeat' with_reducible first | assumption | apply State.setEnt_keeps | apply State.condition_keeps | apply State.checkResume_keeps

theorem State.mapListed_keeps {z : State} (s : State) (w : Nat) (hz : z.Keeps s) : z.Keeps (State.mapListed s w) := by
  unfold State.mapListed
  try dsimp only
  repeat' with_reducible first
    | assumption | apply State.setMapEntry_keeps | apply State.mapPage_keeps | apply ite_keeps | split | refine .of_mk rfl rfl ?_

theorem State.loadValues_keeps {z : State} (s : State) (l : List Byte) (hz : z.Keeps s) : z.Keeps (State.loadValues s l) := by
  unfold State.loadValues
  try dsimp only
  repeat' with_reducible first
    | assumption | apply State.setEnt_keeps | refine foldl_keeps (fun _ _ _ => ?_) _ ?_ | refine foldl_keeps_fst (fun _ _ _ => ?_) _ ?_
    | apply ite_keeps | split

theorem State.resumeLambda_keeps {z : State} (s : State) (r : ReplayRec) (hz : z.Keeps s) : z.Keeps (State.resumeLambda s r) := by
  unfold State.resumeLambda
  repeat' with_reducible first | assumption | apply State.setEnt_keeps | apply ite_keeps | split

theorem State.applyImage_keeps {z : State} (s : State) (x : Image) (hz : z.Keeps s) : z.Keeps (State.applyImage s x) := by
  unfold State.applyImage
  try dsimp only
  repeat' with_reducible first
    | assumption | apply State.protect_keeps | apply State.loadScales_keeps | apply State.loadRake_keeps | apply State.loadGroups_keeps
    | apply State.loadReplay_keeps | apply State.checkResume_keeps | apply State.mapListed_keeps | apply State.loadValues_keeps
    | apply State.resumeLambda_keeps | refine foldl_keeps (fun _ _ _ => ?_) _ ?_ | refine foldl_keeps_fst (fun _ _ _ => ?_) _ ?_ | split
    | refine .of_mk rfl rfl ?_

theorem State.exportTo_keeps {z : State} (s : State) (a : Nat) (l : List Byte) (hz : z.Keeps s) : z.Keeps (State.exportTo s a l).s := by
  unfold State.exportTo
  try dsimp only
  repeat' with_reducible first | assumption | apply State.ownWrite_keeps | apply ite_keeps_s | apply ite_keeps | split

theorem State.exportImage_keeps {z : State} (s : State) (hz : z.Keeps s) : z.Keeps (State.exportImage s).s := by
  unfold State.exportImage
  try dsimp only
  repeat' with_reducible first | assumption | apply State.exportTo_keeps

theorem State.importImage_keeps {z : State} (s : State) (hz : z.Keeps s) : z.Keeps (State.importImage s).s := by
  unfold State.importImage
  try dsimp only
  repeat' with_reducible first | assumption | apply State.applyImage_keeps | apply ite_keeps_s | apply ite_keeps | split | refine .of_mk rfl rfl ?_

theorem State.exportReplay_keeps {z : State} (s : State) (hz : z.Keeps s) : z.Keeps (State.exportReplay s).s := by
  unfold State.exportReplay
  try dsimp only
  repeat' with_reducible first
    | assumption | apply State.ring_keeps | apply State.exportTo_keeps | apply ite_keeps_s | apply ite_keeps | split
    | refine .of_mk rfl rfl ?_

theorem State.wear_keeps {z : State} (s : State) (n : Nat) (hz : z.Keeps s) : z.Keeps (State.wear s n) := by
  unfold State.wear
  try dsimp only
  repeat' with_reducible first | assumption | apply State.raise_keeps | apply ite_keeps | split | refine .of_mk rfl rfl ?_

theorem State.restoreStep_keeps {z : State} (s : State) (v : Nat) (hz : z.Keeps s) : z.Keeps (State.restoreStep s v).s := by
  unfold State.restoreStep
  try dsimp only
  repeat' with_reducible first
    | assumption | apply State.setEnt_keeps | apply State.applyImage_keeps | apply ite_keeps_s | apply ite_keeps | split
    | refine .of_mk rfl rfl ?_

theorem State.restorePage_keeps {z : State} (s : State) (x : Nat × List Host.Cell) (hz : z.Keeps s) : z.Keeps (State.restorePage s x) :=
  .of_ram (foldl_setD_wf _ _) (State.zeroPage_keeps _ _ (State.clearLines_keeps _ _ hz))

/-! ## Crust -/

theorem State.becomeFresh_keeps {z : State} (s : State) (hz : z.Keeps s) : z.Keeps (State.becomeFresh s) := by
  unfold State.becomeFresh
  repeat' with_reducible first | assumption | apply State.setEnt_keeps

theorem State.ackUnit_keeps {z : State} (s : State) (rank unit seg : Nat) (hz : z.Keeps s) : z.Keeps (State.ackUnit s rank unit seg) := by
  unfold State.ackUnit
  repeat' with_reducible first | assumption | apply State.sendFrame_keeps | refine .of_mk rfl rfl ?_

theorem State.holdDelta_keeps {z : State} (s : State) (rank : Nat) (h : BrineHdr)
    (hz : z.Keeps s) : z.Keeps (State.holdDelta s rank h) := by
  unfold State.holdDelta
  try dsimp only
  repeat' with_reducible first | assumption | apply State.ackUnit_keeps | apply ite_keeps | split | refine .of_mk rfl rfl ?_

theorem State.sendSeals_keeps {z : State} (s : State) (x : SealUnit) (hz : z.Keeps s) : z.Keeps (State.sendSeals s x) := by
  unfold State.sendSeals
  try dsimp only
  repeat' with_reducible first
    | assumption | apply State.sendFrame_keeps | refine foldl_keeps (fun _ _ _ => ?_) _ ?_ | refine foldl_keeps_fst (fun _ _ _ => ?_) _ ?_
    | refine .of_mk rfl rfl ?_

theorem State.unitSealed_keeps {z : State} (s : State) (x : SealUnit) (hz : z.Keeps s) : z.Keeps (State.unitSealed s x) := by
  unfold State.unitSealed
  try dsimp only
  repeat' with_reducible first | assumption | apply State.settleUpdates_keeps | apply State.drainHost_keeps | split | refine .of_mk rfl rfl ?_

theorem State.unitAcked_keeps {z : State} (s : State) (x : SealUnit) (rank : Nat)
    (hz : z.Keeps s) : z.Keeps (State.unitAcked s x rank) := by
  unfold State.unitAcked
  try dsimp only
  repeat' with_reducible first | assumption | apply State.sendSeals_keeps | apply ite_keeps | split | refine .of_mk rfl rfl ?_

theorem State.applyUnit_keeps {z : State} (s : State) (rank unit : Nat) (hz : z.Keeps s) : z.Keeps (State.applyUnit s rank unit) := by
  unfold State.applyUnit
  try dsimp only
  repeat' with_reducible first
    | assumption | apply State.ramWrite_keeps | refine foldl_keeps (fun _ _ _ => ?_) _ ?_ | refine foldl_keeps_fst (fun _ _ _ => ?_) _ ?_
    | refine .of_mk rfl rfl ?_

theorem State.dropParts_keeps {z : State} (s : State) (k : Nat) (hz : z.Keeps s) : z.Keeps (State.dropParts s k) := by
  unfold State.dropParts
  try dsimp only
  repeat' with_reducible first | assumption | refine .of_mk rfl rfl ?_

theorem State.takeMapped_keeps {z : State} (s : State) (w : Nat) (hz : z.Keeps s) : z.Keeps (State.takeMapped s w) := by
  unfold State.takeMapped
  try dsimp only
  repeat' with_reducible first | assumption | apply State.unmapPage_keeps | apply State.mapListed_keeps | apply ite_keeps | split

theorem State.takeSegment_keeps {z : State} (s : State) (stream page seg : Nat) (l : List Byte)
    (hz : z.Keeps s) : z.Keeps (State.takeSegment s stream page seg l) := by
  unfold State.takeSegment
  try dsimp only
  repeat' with_reducible first
    | assumption | apply State.bump_keeps | apply State.ramWrite_keeps | apply ite_keeps | split | refine .of_mk rfl rfl ?_

theorem State.passSegment_keeps {z : State} (s : State) (h : BrineHdr) (hz : z.Keeps s) : z.Keeps (State.passSegment s h) := by
  unfold State.passSegment
  try dsimp only
  repeat' with_reducible first
    | assumption | apply State.sendStream_keeps | apply State.drainHost_keeps | apply State.takeSegment_keeps | apply ite_keeps | split

theorem State.countLost_keeps {z : State} (s : State) (rank : Nat) (hz : z.Keeps s) : z.Keeps (State.countLost s rank) := by
  unfold State.countLost
  repeat' with_reducible first | assumption | apply State.raise_keeps | apply ite_keeps | split | refine .of_mk rfl rfl ?_

theorem State.takeWithdrawal_keeps {z : State} (s : State) (rank : Nat) (hz : z.Keeps s) : z.Keeps (State.takeWithdrawal s rank) := by
  unfold State.takeWithdrawal
  repeat' with_reducible first | assumption | apply State.countLost_keeps | apply ite_keeps | split | refine .of_mk rfl rfl ?_

theorem State.settleHeld_keeps {z : State} (s : State) (rank : Nat) (sealedUnits : List Nat)
    (hz : z.Keeps s) : z.Keeps (State.settleHeld s rank sealedUnits) := by
  unfold State.settleHeld
  try dsimp only
  repeat' with_reducible first
    | assumption | apply State.applyUnit_keeps | refine foldl_keeps (fun _ _ _ => ?_) _ ?_ | refine foldl_keeps_fst (fun _ _ _ => ?_) _ ?_
    | apply ite_keeps | split | refine .of_mk rfl rfl ?_

theorem State.releaseHolder_keeps {z : State} (s : State) (rank : Nat) (hz : z.Keeps s) : z.Keeps (State.releaseHolder s rank) := by
  unfold State.releaseHolder
  try dsimp only
  repeat' with_reducible first
    | assumption | apply State.unitSealed_keeps | apply State.unitAcked_keeps | refine foldl_keeps (fun _ _ _ => ?_) _ ?_
    | refine foldl_keeps_fst (fun _ _ _ => ?_) _ ?_ | apply ite_keeps | split | refine .of_mk rfl rfl ?_

theorem State.setGroup_keeps {z : State} (s : State) (g : Nat) (e : Group) (hz : z.Keeps s) : z.Keeps (State.setGroup s g e) := by
  unfold State.setGroup
  try dsimp only
  repeat' with_reducible first | assumption | refine .of_mk rfl rfl ?_

theorem State.sendMap_keeps {z : State} (s : State) (rank spare : Nat) (hz : z.Keeps s) : z.Keeps (State.sendMap s rank spare) := by
  unfold State.sendMap
  repeat' with_reducible first | assumption | apply State.sendBytes_keeps | apply ite_keeps | split | refine .of_mk rfl rfl ?_

theorem State.serveSpare_keeps {z : State} (s : State) (rank lost spare : Nat)
    (hz : z.Keeps s) : z.Keeps (State.serveSpare s rank lost spare) := by
  unfold State.serveSpare
  try dsimp only
  repeat' with_reducible first
    | assumption | apply State.sendFrame_keeps | apply State.sendBytes_keeps | refine foldl_keeps (fun _ _ _ => ?_) _ ?_
    | refine foldl_keeps_fst (fun _ _ _ => ?_) _ ?_ | apply ite_keeps | split | refine .of_mk rfl rfl ?_

theorem State.startRebuild_keeps {z : State} (s : State) (hz : z.Keeps s) : z.Keeps (State.startRebuild s) := by
  unfold State.startRebuild
  try dsimp only
  repeat' with_reducible first
    | assumption | apply State.startStream_keeps | apply State.startParity_keeps | refine foldl_keeps (fun _ _ _ => ?_) _ ?_
    | refine foldl_keeps_fst (fun _ _ _ => ?_) _ ?_ | apply ite_keeps | split

theorem State.beginRebuild_keeps {z : State} (s : State) (rank slot : Nat)
    (hz : z.Keeps s) : z.Keeps (State.beginRebuild s rank slot) := by
  unfold State.beginRebuild
  repeat' with_reducible first | assumption | apply State.setEnt_keeps | refine .of_mk rfl rfl ?_

theorem State.installEpoch_keeps {z : State} (s : State) (g rank lost spare : Nat)
    (hz : z.Keeps s) : z.Keeps (State.installEpoch s g rank lost spare) := by
  unfold State.installEpoch
  try dsimp only
  repeat' with_reducible first
    | assumption | apply State.setGroup_keeps | apply State.sendMap_keeps | apply State.serveSpare_keeps | apply State.beginRebuild_keeps
    | apply ite_keeps | split

theorem State.changeEpochs_keeps {z : State} (s : State) (lost spare : Nat)
    (hz : z.Keeps s) : z.Keeps (State.changeEpochs s lost spare) := by
  unfold State.changeEpochs
  try dsimp only
  repeat' with_reducible first
    | assumption | apply State.sendFrame_keeps | apply State.installEpoch_keeps | refine foldl_keeps (fun _ _ _ => ?_) _ ?_
    | refine foldl_keeps_fst (fun _ _ _ => ?_) _ ?_ | refine .of_mk rfl rfl ?_

theorem State.lossEndsStep_keeps {z : State} (s : State) (mirrored : Bool) (hz : z.Keeps s) : z.Keeps (State.lossEndsStep s mirrored) := by
  unfold State.lossEndsStep
  repeat' with_reducible first | assumption | apply State.noOutcome_keeps | apply ite_keeps | split

theorem State.degrade_keeps {z : State} (s : State) (hz : z.Keeps s) : z.Keeps (State.degrade s) := by
  unfold State.degrade
  repeat' with_reducible first
    | assumption | apply State.setEnt_keeps | apply State.dropUnits_keeps | apply State.settleUpdates_keeps | apply State.drainHost_keeps
    | refine .of_mk rfl rfl ?_

theorem State.offerRank_keeps {z : State} (s : State) (rank first : Nat) (answers : List SpareAnswer)
    (hz : z.Keeps s) : z.Keeps (State.offerRank s rank first answers) := by
  unfold State.offerRank
  try dsimp only
  repeat' with_reducible first
    | assumption | apply State.sendMap_keeps | apply State.beginRebuild_keeps | apply State.changeEpochs_keeps | apply State.degrade_keeps
    | apply ite_keeps | split | refine .of_mk rfl rfl ?_

theorem State.survive_keeps {z : State} (s : State) (rank : Nat) (mirrored : Bool) (sealedUnits : List Nat)
    (hz : z.Keeps s) : z.Keeps (State.survive s rank mirrored sealedUnits) := by
  unfold State.survive
  try dsimp only
  repeat' with_reducible first
    | assumption | apply State.handled_keeps | apply State.settleHeld_keeps | apply State.releaseHolder_keeps
    | apply State.lossEndsStep_keeps | refine .of_mk rfl rfl ?_

theorem State.handleLoss_keeps {z : State} (s : State) (rank : Nat) (mirrored : Bool) (sealedUnits : List Nat) (answers : List SpareAnswer)
    (hz : z.Keeps s) : z.Keeps (State.handleLoss s rank mirrored sealedUnits answers) := by
  unfold State.handleLoss
  try dsimp only
  repeat' with_reducible first
    | assumption | apply State.handled_keeps | apply State.degrade_keeps | apply State.offerRank_keeps | apply State.survive_keeps
    | apply ite_keeps | split

theorem State.takeChange_keeps {z : State} (s : State) (h : BrineHdr) (hz : z.Keeps s) : z.Keeps (State.takeChange s h) := by
  unfold State.takeChange
  try dsimp only
  repeat' with_reducible first
    | assumption | apply State.setEnt_keeps | apply State.sendFrame_keeps | apply State.installEpoch_keeps | apply ite_keeps | split
    | refine .of_mk rfl rfl ?_

theorem State.takeMirror_keeps {z : State} (s : State) (rank point : Nat) (l : List Byte)
    (hz : z.Keeps s) : z.Keeps (State.takeMirror s rank point l) := by
  unfold State.takeMirror
  try dsimp only
  repeat' with_reducible first
    | assumption | apply State.takeMapped_keeps | apply State.takeChange_keeps | refine foldl_keeps (fun _ _ _ => ?_) _ ?_
    | refine foldl_keeps_fst (fun _ _ _ => ?_) _ ?_ | apply ite_keeps | split | refine .of_mk rfl rfl ?_

theorem State.takePart_keeps {z : State} (s : State) (rank : Nat) (h : BrineHdr) (hz : z.Keeps s) : z.Keeps (State.takePart s rank h) := by
  unfold State.takePart
  try dsimp only
  repeat' with_reducible first
    | assumption | apply State.dropParts_keeps | apply State.takeMirror_keeps | apply ite_keeps | split | refine .of_mk rfl rfl ?_

theorem State.loadGroupsM3_keeps {z : State} (s : State) (l : List Byte) (hz : z.Keeps s) : z.Keeps (State.loadGroupsM3 s l) := by
  unfold State.loadGroupsM3
  try dsimp only
  repeat' with_reducible first
    | assumption | refine foldl_keeps (fun _ _ _ => ?_) _ ?_ | refine foldl_keeps_fst (fun _ _ _ => ?_) _ ?_ | apply ite_keeps | split
    | refine .of_mk rfl rfl ?_

theorem State.loadM3_keeps {z : State} (s : State) (x : M3Parts) (hz : z.Keeps s) : z.Keeps (State.loadM3 s x) := by
  unfold State.loadM3
  try dsimp only
  repeat' with_reducible first
    | assumption | apply State.setEnt_keeps | apply State.loadScales_keeps | apply State.loadRake_keeps | apply State.loadGroupsM3_keeps
    | refine .of_mk rfl rfl ?_

theorem State.loadM1_keeps {z : State} (s : State) (r : ReplayRec) (hz : z.Keeps s) : z.Keeps (State.loadM1 s r) := by
  unfold State.loadM1
  try dsimp only
  repeat' with_reducible first | assumption | apply State.setEnt_keeps | apply State.loadReplay_keeps

theorem State.loadRun_keeps {z : State} (s : State) (r : ReplayRec) (hz : z.Keeps s) : z.Keeps (State.loadRun s r) := by
  unfold State.loadRun
  repeat' with_reducible first | assumption | apply State.setEnt_keeps | apply State.loadReplay_keeps

theorem State.resumeStep_keeps {z : State} (s : State) (g : Program) (r : ReplayRec) (m2 : List Byte) (ledger : List (Nat × Nat))
    (hz : z.Keeps s) : z.Keeps (State.resumeStep s g r m2 ledger) := by
  unfold State.resumeStep
  try dsimp only
  repeat' with_reducible first
    | assumption | apply State.setPhase_keeps | apply State.syncFormats_keeps | apply State.layStream_keeps | apply State.freshStep_keeps
    | apply ite_keeps | split | refine .of_mk rfl rfl ?_

theorem State.standAtRank_keeps {z : State} (s : State) (hz : z.Keeps s) : z.Keeps (State.standAtRank s) := by
  unfold State.standAtRank
  repeat' with_reducible first
    | assumption | apply State.setEnt_keeps | apply State.handled_keeps | apply State.becomeFresh_keeps | refine .of_mk rfl rfl ?_

theorem State.finishSpare_keeps {z : State} (s : State) (ledger : List (Nat × Nat))
    (hz : z.Keeps s) : z.Keeps (State.finishSpare s ledger) := by
  unfold State.finishSpare
  try dsimp only
  repeat' with_reducible first
    | assumption | apply State.setEnt_keeps | apply State.raise_keeps | apply State.loadM3_keeps | apply State.loadM1_keeps
    | apply State.loadRun_keeps | apply State.resumeStep_keeps | apply State.standAtRank_keeps | apply ite_keeps | split
    | refine .of_mk rfl rfl ?_

/-! ## FaultCmds -/

theorem State.reloadValue_keeps {z : State} (s : State) (k : Nat) (hz : z.Keeps s) : z.Keeps (State.reloadValue s k) := by
  unfold State.reloadValue
  repeat' with_reducible first | assumption | apply State.bump_keeps | refine .of_mk rfl rfl ?_

theorem State.mismatch_keeps {z : State} (s : State) (r : FaultReport) (hz : z.Keeps s) : z.Keeps (State.mismatch s r) := by
  unfold State.mismatch
  try dsimp only
  repeat' with_reducible first
    | assumption | apply State.bump_keeps | apply State.resetRecord_keeps | apply State.setCore_keeps | apply State.destroyAttestKey_keeps
    | apply State.reloadValue_keeps | apply ite_keeps | split | refine .of_mk rfl rfl ?_

theorem State.mirrorOne_keeps {z : State} (s : State) (seq : Nat) (hz : z.Keeps s) : z.Keeps (State.mirrorOne s seq) := by
  unfold State.mirrorOne
  try dsimp only
  repeat' with_reducible first | assumption | split | refine .of_mk rfl rfl ?_

/-! ## EntryAccess -/

theorem State.respond_keeps {z : State} (s : State) (code space addr k : Nat)
    (hz : z.Keeps s) : z.Keeps (State.respond s code space addr k) := by
  unfold State.respond
  try dsimp only
  repeat' with_reducible first
    | assumption | apply State.violation_keeps | apply State.raise_keeps | apply State.latchAll_keeps | apply ite_keeps | split

theorem State.reloadEntry_keeps {z : State} (s : State) (k : Nat) (hz : z.Keeps s) : z.Keeps (State.reloadEntry s k) := by
  unfold State.reloadEntry
  repeat' with_reducible first | assumption | apply State.raise_keeps | apply State.reloadValue_keeps

theorem State.mendGroup_keeps {z : State} (s : State) (g : Nat) (hz : z.Keeps s) : z.Keeps (State.mendGroup s g) := by
  unfold State.mendGroup
  repeat' with_reducible first | assumption | apply State.raise_keeps | apply ite_keeps | split | refine .of_mk rfl rfl ?_

theorem State.checkStored_keeps {z : State} (s : State) (k : Nat) (hz : z.Keeps s) : z.Keeps (State.checkStored s k) := by
  unfold State.checkStored
  try dsimp only
  repeat' with_reducible first
    | assumption | apply State.raise_keeps | apply State.latchAll_keeps | apply State.lostRecord_keeps | apply State.badRake_keeps
    | apply State.walk_keeps | apply State.reloadEntry_keeps | apply State.mendGroup_keeps | apply ite_keeps | split

theorem State.holdPending_keeps {z : State} (s : State) (k v : Nat) (hz : z.Keeps s) : z.Keeps (State.holdPending s k v) := by
  unfold State.holdPending
  try dsimp only
  repeat' with_reducible first | assumption | refine .of_mk rfl rfl ?_

theorem State.progLoad_keeps {z : State} (s : State) (v : Nat) (hz : z.Keeps s) : z.Keeps (State.progLoad s v).s := by
  unfold State.progLoad
  try dsimp only
  repeat' with_reducible first
    | assumption | apply State.unload_keeps | apply State.startLoad_keeps | apply ite_keeps_s | apply ite_keeps | split
    | refine .of_mk rfl rfl ?_

theorem State.exportRecords_keeps {z : State} (s : State) (hz : z.Keeps s) : z.Keeps (State.exportRecords s).s := by
  unfold State.exportRecords
  try dsimp only
  repeat' with_reducible first | assumption | apply State.exportTo_keeps | apply ite_keeps_s | apply ite_keeps | split

theorem State.ackFault_keeps {z : State} (s : State) (v : Nat) (hz : z.Keeps s) : z.Keeps (State.ackFault s v).s := by
  unfold State.ackFault
  try dsimp only
  repeat' with_reducible first | assumption | apply State.ackSeq_keeps | apply ite_keeps_s | apply ite_keeps | split | refine .of_mk rfl rfl ?_

theorem State.selClear_keeps {z : State} (s : State) (hz : z.Keeps s) : z.Keeps (State.selClear s).s := by
  unfold State.selClear
  try dsimp only
  repeat' with_reducible first | assumption | apply State.setCollector_keeps | apply ite_keeps_s | apply ite_keeps | split | refine .of_mk rfl rfl ?_

theorem State.resetWindow_keeps {z : State} (s : State) (hz : z.Keeps s) : z.Keeps (State.resetWindow s) := by
  unfold State.resetWindow
  repeat' with_reducible first | assumption | apply State.setEnt_keeps | refine .of_mk rfl rfl ?_

theorem State.setNotify_keeps {z : State} (s : State) (v : Nat) (hz : z.Keeps s) : z.Keeps (State.setNotify s v) := by
  unfold State.setNotify
  repeat' with_reducible first | assumption | apply State.setEnt_keeps | apply ite_keeps | split | refine .of_mk rfl rfl ?_

theorem State.freezeWindows_keeps {z : State} (s : State) (v : Nat) (hz : z.Keeps s) : z.Keeps (State.freezeWindows s v) := by
  unfold State.freezeWindows
  try dsimp only
  repeat' with_reducible first | assumption | apply State.setEnt_keeps | apply ite_keeps | split | refine .of_mk rfl rfl ?_

theorem State.act_keeps {z : State} (s : State) (k v : Nat) (hz : z.Keeps s) : z.Keeps (State.act s k v).s := by
  unfold State.act
  try dsimp only
  repeat' with_reducible first
    | assumption | apply State.setEnt_keeps | apply State.attestGo_keeps | apply State.enrolGo_keeps | apply State.tokenGo_keeps
    | apply State.clearGo_keeps | apply State.stageGo_keeps | apply State.stepStart_keeps | apply State.replayRequest_keeps
    | apply State.selRank_keeps | apply State.clearMax_keeps | apply State.reqGo_keeps | apply State.checkResume_keeps
    | apply State.realign_keeps | apply State.exportImage_keeps | apply State.importImage_keeps | apply State.exportReplay_keeps
    | apply State.restoreStep_keeps | apply State.progLoad_keeps | apply State.exportRecords_keeps | apply State.ackFault_keeps
    | apply State.selClear_keeps | apply State.resetWindow_keeps | apply State.setNotify_keeps | apply State.freezeWindows_keeps
    | apply ite_keeps_s | apply ite_keeps | split | refine .of_mk rfl rfl ?_

theorem State.performWrite_keeps {z : State} (s : State) (r : EntryRow) (k v : Nat)
    (hz : z.Keeps s) : z.Keeps (State.performWrite s r k v).s := by
  unfold State.performWrite
  try dsimp only
  repeat' with_reducible first
    | assumption | apply State.setEnt_keeps | apply State.applyBoundary_keeps | apply State.holdPending_keeps | apply State.act_keeps
    | apply ite_keeps_s | apply ite_keeps | split

theorem State.journalWrite_keeps {z : State} (s : State) (r : EntryRow) (k v : Nat)
    (hz : z.Keeps s) : z.Keeps (State.journalWrite s r k v) := by
  unfold State.journalWrite
  repeat' with_reducible first | assumption | apply ite_keeps | split | refine .of_mk rfl rfl ?_

theorem State.failItem_keeps {z : State} (s : State) (code space addr k : Nat)
    (hz : z.Keeps s) : z.Keeps (State.failItem s code space addr k).1 := by
  unfold State.failItem
  try dsimp only
  repeat' with_reducible first | assumption | apply State.respond_keeps | split | refine .of_mk rfl rfl ?_

theorem State.readItem_keeps {z : State} (s : State) (k : Nat) (pend : Bool) (hz : z.Keeps s) : z.Keeps (State.readItem s k pend).1 := by
  unfold State.readItem
  try dsimp only
  repeat' with_reducible first
    | assumption | apply State.draw_keeps | apply State.checkStored_keeps | apply State.failItem_keeps | apply ite_keeps_fst
    | apply ite_keeps | split | refine .of_mk rfl rfl ?_

theorem State.writeItem_keeps {z : State} (s : State) (k ty v compl : Nat)
    (hz : z.Keeps s) : z.Keeps (State.writeItem s k ty v compl).1 := by
  unfold State.writeItem
  try dsimp only
  repeat' with_reducible first
    | assumption | apply State.latchAll_keeps | apply State.performWrite_keeps | apply State.journalWrite_keeps
    | apply State.failItem_keeps | apply ite_keeps_fst | apply ite_keeps | split | refine .of_mk rfl rfl ?_

theorem State.describeItem_keeps {z : State} (s : State) (k : Nat) (hz : z.Keeps s) : z.Keeps (State.describeItem s k).1 := by
  unfold State.describeItem
  try dsimp only
  repeat' with_reducible first | assumption | apply State.failItem_keeps | apply ite_keeps_fst | apply ite_keeps | split | refine .of_mk rfl rfl ?_

theorem State.failSeg_keeps {z : State} (s : State) (code k : Nat) (x : Seg) (hz : z.Keeps s) : z.Keeps (State.failSeg s code k x).1 := by
  unfold State.failSeg
  try dsimp only
  repeat' with_reducible first | assumption | apply State.respond_keeps

theorem State.readSeg_keeps {z : State} (s : State) (x : Seg) (hz : z.Keeps s) : z.Keeps (State.readSeg s x).1 := by
  unfold State.readSeg
  try dsimp only
  repeat' with_reducible first
    | assumption | apply State.checkStored_keeps | apply State.failSeg_keeps | apply ite_keeps_fst | apply ite_keeps | split
    | refine .of_mk rfl rfl ?_

theorem State.dropTransfer_keeps {z : State} (s : State) (src : Nat) (hz : z.Keeps s) : z.Keeps (State.dropTransfer s src) := by
  unfold State.dropTransfer
  try dsimp only
  repeat' with_reducible first | assumption | refine .of_mk rfl rfl ?_

theorem State.writeBlob_keeps {z : State} (s : State) (k : Nat) (l : List Byte) (hz : z.Keeps s) : z.Keeps (State.writeBlob s k l).s := by
  unfold State.writeBlob
  try dsimp only
  repeat' with_reducible first | assumption | apply State.setGroup_keeps | apply ite_keeps_s | apply ite_keeps | split | refine .of_mk rfl rfl ?_

theorem State.writeSeg_keeps {z : State} (s : State) (src : Nat) (x : Seg) (hz : z.Keeps s) : z.Keeps (State.writeSeg s src x).1 := by
  unfold State.writeSeg
  try dsimp only
  repeat' with_reducible first
    | assumption | apply State.latchAll_keeps | apply State.journalWrite_keeps | apply State.failSeg_keeps | apply State.dropTransfer_keeps
    | apply State.writeBlob_keeps | apply ite_keeps_fst | apply ite_keeps | split | refine .of_mk rfl rfl ?_

/-! ## Messages -/

theorem State.doItem_keeps {z : State} (s : State) (op : Nat) (it : List Byte) (hz : z.Keeps s) : z.Keeps (State.doItem s op it).1 := by
  unfold State.doItem
  try dsimp only
  repeat' with_reducible first
    | assumption | apply State.readItem_keeps | apply State.writeItem_keeps | apply State.describeItem_keeps | apply ite_keeps_fst
    | apply ite_keeps | split

theorem State.doItems_keeps {z : State} : ∀ (s : State) (op n : Nat) (b : List Byte), z.Keeps s → z.Keeps (State.doItems s op n b).1
  | _, _, 0, _, h => h
  | s, op, n + 1, b, h => State.doItems_keeps _ op n _ (State.doItem_keeps s op _ h)

theorem State.perform_keeps {z : State} (s : State) (src : Nat) (h : MsgHdr) (hz : z.Keeps s) : z.Keeps (State.perform s src h).1 := by
  unfold State.perform
  try dsimp only
  repeat' with_reducible first
    | assumption | apply State.readSeg_keeps | apply State.writeSeg_keeps | apply State.doItems_keeps | apply ite_keeps_fst
    | apply ite_keeps | split

theorem State.answer_keeps {z : State} (s : State) (src : Nat) (sent : Bool) (h : MsgHdr)
    (hz : z.Keeps s) : z.Keeps (State.answer s src sent h).1 := by
  unfold State.answer
  try dsimp only
  repeat' with_reducible first | assumption | apply State.perform_keeps | apply ite_keeps_fst | apply ite_keeps | split | refine .of_mk rfl rfl ?_

theorem State.slotDone_keeps {z : State} (s : State) (n : Nat) (x : MbxSlot) (hz : z.Keeps s) : z.Keeps (State.slotDone s n x) := by
  unfold State.slotDone
  try dsimp only
  repeat' with_reducible first | assumption | apply State.raiseVector_keeps | apply State.setSlot_keeps | apply ite_keeps | split

theorem State.mailboxNext_keeps {z : State} (s : State) (hz : z.Keeps s) : z.Keeps (State.mailboxNext s) := by
  unfold State.mailboxNext
  try dsimp only
  repeat' with_reducible first
    | assumption | apply State.bump_keeps | apply State.answer_keeps | apply State.slotDone_keeps | apply ite_keeps | split
    | refine .of_mk rfl rfl ?_

theorem State.mailboxRequest_keeps {z : State} (s : State) (op : Nat) (hz : z.Keeps s) : z.Keeps (State.mailboxRequest s op) := by
  unfold State.mailboxRequest
  try dsimp only
  repeat' with_reducible first | assumption | apply State.mailboxNext_keeps | apply ite_keeps | split

theorem State.drainMailbox_keeps {z : State} : ∀ (n : Nat) (s : State), z.Keeps s → z.Keeps (State.drainMailbox n s)
  | 0, _, h => h
  | n + 1, _, h => State.drainMailbox_keeps n _ (State.mailboxNext_keeps _ h)

theorem State.dropFrame_keeps {z : State} (s : State) (hz : z.Keeps s) : z.Keeps (State.dropFrame s) := by
  unfold State.dropFrame
  repeat' with_reducible first | assumption | apply State.bump_keeps

theorem State.checkClaim_keeps {z : State} (s : State) (src mac : Nat) (hz : z.Keeps s) : z.Keeps (State.checkClaim s src mac) := by
  unfold State.checkClaim
  repeat' with_reducible first | assumption | apply State.conditionAt_keeps | apply ite_keeps | split

theorem State.queueResponse_keeps {z : State} (s : State) (dst : FieldAddr) (b : List Byte)
    (hz : z.Keeps s) : z.Keeps (State.queueResponse s dst b) := by
  unfold State.queueResponse
  repeat' with_reducible first | assumption | apply ite_keeps | split | refine .of_mk rfl rfl ?_

theorem State.fieldRequest_keeps {z : State} (s : State) (op : Nat) (p : FieldPacket)
    (hz : z.Keeps s) : z.Keeps (State.fieldRequest s op p) := by
  unfold State.fieldRequest
  try dsimp only
  repeat' with_reducible first
    | assumption | apply State.bump_keeps | apply State.answer_keeps | apply State.drainMailbox_keeps | apply State.dropFrame_keeps
    | apply State.checkClaim_keeps | apply State.queueResponse_keeps | apply ite_keeps | split

theorem State.request_keeps {z : State} (s : State) (op : Nat) (src : IxSource) (hz : z.Keeps s) : z.Keeps (State.request s op src) := by
  unfold State.request
  repeat' with_reducible first | assumption | apply State.mailboxRequest_keeps | apply State.fieldRequest_keeps | apply ite_keeps | split

theorem State.bar2_keeps {z : State} (s : State) (f : State → State) (hf : ∀ s : State, z.Keeps s → z.Keeps (f s)) (hz : z.Keeps s) :
    z.Keeps (s.bar2 f) := by
  unfold State.bar2
  exact ite_keeps (.of_mk rfl rfl hz) (ite_keeps (hf s hz) hz)

theorem State.takeId_keeps {z : State} (s : State) (id : Nat) (hz : z.Keeps s) : z.Keeps (State.takeId s id) := by
  unfold State.takeId
  repeat' with_reducible first | assumption | apply State.setEnt_keeps | refine .of_mk rfl rfl ?_

theorem State.vectorOne_keeps {z : State} (s : State) (hz : z.Keeps s) : z.Keeps (State.vectorOne s) := by
  unfold State.vectorOne
  repeat' with_reducible first | assumption | apply State.raiseVector_keeps | apply ite_keeps | split | refine .of_mk rfl rfl ?_

theorem State.fieldNotify_keeps {z : State} (s : State) (hz : z.Keeps s) : z.Keeps (State.fieldNotify s) := by
  unfold State.fieldNotify
  repeat' with_reducible first | assumption | apply ite_keeps | split | refine .of_mk rfl rfl ?_

/-! ## HostLink -/

theorem State.resetMailbox_keeps {z : State} (s : State) (hz : z.Keeps s) : z.Keeps (State.resetMailbox s) := by
  unfold State.resetMailbox
  try dsimp only
  repeat' with_reducible first | assumption | refine .of_mk rfl rfl ?_

theorem State.resetFunction_keeps {z : State} (s : State) (hz : z.Keeps s) : z.Keeps (State.resetFunction s) := by
  unfold State.resetFunction
  repeat' with_reducible first | assumption | apply State.setEnt_keeps | apply State.resetMailbox_keeps | refine .of_mk rfl rfl ?_

theorem State.resetPort_keeps {z : State} (s : State) (hz : z.Keeps s) : z.Keeps (State.resetPort s) := by
  unfold State.resetPort
  repeat' with_reducible first | assumption | apply State.hostDown_keeps | apply State.resetFunction_keeps

theorem State.cxlRuns_keeps {z : State} (s : State) (d rate width : Nat) (hz : z.Keeps s) : z.Keeps (State.cxlRuns s d rate width) := by
  unfold State.cxlRuns
  try dsimp only
  repeat' with_reducible first
    | assumption | apply State.condition_keeps | apply State.raise_keeps | apply State.latchAll_keeps | apply State.retryRead_keeps
    | apply ite_keeps | split | refine .of_mk rfl rfl ?_

theorem State.downForGood_keeps {z : State} (s : State) (d : Nat) (hz : z.Keeps s) : z.Keeps (State.downForGood s d) := by
  unfold State.downForGood
  repeat' with_reducible first | assumption | apply State.failDev_keeps | apply ite_keeps | split

theorem State.hostUp_keeps {z : State} (s : State) (rate width : Nat) (hz : z.Keeps s) : z.Keeps (State.hostUp s rate width) := by
  unfold State.hostUp
  try dsimp only
  repeat' with_reducible first
    | assumption | apply State.bump_keeps | apply State.setReady_keeps | apply ite_keeps | split | refine .of_mk rfl rfl ?_

end Sys2Proof.Machine
end

