-- ==== Sys2Proof/Laws/Quiet.lean ====
section
/-! SUPPORT. Asserted error lines (R315): operations that assert none, and latching, which leaves none. -/

namespace Sys2Proof.Machine

/-- No error line is asserted. -/
abbrev State.Quiet (s : State) : Prop := s.flt.lines = []

variable {l0 : List FaultReport}

/-- A record update of parts other than the lines. -/
theorem quiet_mk {u : State} {p k w} {c : KV CoreSt} {ct : KV ClusterSt} {r sc rk pg tr m a f d co l cr st n se}
    (_ : p = u.pending) (e : f.lines = u.flt.lines) (h : u.flt.lines = l0) :
    (State.mk p k w c ct r sc rk pg tr m a f d co l cr st n se).flt.lines = l0 := e.trans h

theorem foldl_quiet {α : Type} {f : State → α → State} (hf : ∀ (s : State) (x : α), s.flt.lines = l0 → (f s x).flt.lines = l0) :
    ∀ (l : List α) {s : State}, s.flt.lines = l0 → (l.foldl f s).flt.lines = l0
  | [], _, h => h
  | x :: l, s, h => foldl_quiet hf l (hf s x h)

theorem foldl_quiet_fst {α β : Type} {f : State × β → α → State × β}
    (hf : ∀ (a : State × β) (x : α), a.1.flt.lines = l0 → (f a x).1.flt.lines = l0) :
    ∀ (l : List α) {a : State × β}, a.1.flt.lines = l0 → (l.foldl f a).1.flt.lines = l0
  | [], _, h => h
  | x :: l, a, h => foldl_quiet_fst hf l (hf a x h)

theorem ite_quiet {c : Prop} [Decidable c] {a b : State} (ha : a.flt.lines = l0) (hb : b.flt.lines = l0) :
    (if c then a else b).flt.lines = l0 := by
  split <;> assumption

theorem ite_quiet_s {c : Prop} [Decidable c] {a b : Reply} (ha : a.s.flt.lines = l0) (hb : b.s.flt.lines = l0) :
    (if c then a else b).s.flt.lines = l0 := by
  split <;> assumption

theorem ite_quiet_fst {β : Type} {c : Prop} [Decidable c] {a b : State × β} (ha : a.1.flt.lines = l0) (hb : b.1.flt.lines = l0) :
    (if c then a else b).1.flt.lines = l0 := by
  split <;> assumption

end Sys2Proof.Machine
end

