-- ==== Sys2Proof/Laws/QuietBase.lean ====
section
/-! SUPPORT. That no line stays asserted (R315), for what reports no error, up to latching, which leaves no line: one lemma for each. -/

namespace Sys2Proof.Machine

/-! ## Ops -/

theorem State.setEnt_quiet {l0 : List FaultReport} (s : State) (k v : Nat)
    (hq : s.flt.lines = l0) : (State.setEnt s k v).flt.lines = l0 := by
  unfold State.setEnt
  repeat' with_reducible first | assumption | refine quiet_mk rfl rfl ?_

theorem State.bump_quiet {l0 : List FaultReport} (s : State) (w k n : Nat)
    (hq : s.flt.lines = l0) : (State.bump s w k n).flt.lines = l0 := by
  unfold State.bump
  repeat' with_reducible first | assumption | apply State.setEnt_quiet

theorem State.draw_quiet {l0 : List FaultReport} (s : State) (hq : s.flt.lines = l0) : (State.draw s).flt.lines = l0 := by
  unfold State.draw
  repeat' with_reducible first | assumption | refine quiet_mk rfl rfl ?_

theorem State.raiseVector_quiet {l0 : List FaultReport} (s : State) (v : Nat)
    (hq : s.flt.lines = l0) : (State.raiseVector s v).flt.lines = l0 := by
  unfold State.raiseVector
  repeat' with_reducible first | assumption | apply ite_quiet | split | refine quiet_mk rfl rfl ?_

theorem State.changed_quiet {l0 : List FaultReport} (s : State) (p : Bool)
    (hq : s.flt.lines = l0) : (State.changed s p).flt.lines = l0 := by
  unfold State.changed
  repeat' with_reducible first | assumption | apply ite_quiet | split | refine quiet_mk rfl rfl ?_

theorem State.setReady_quiet {l0 : List FaultReport} (s : State) (b : Nat) (on : Bool)
    (hq : s.flt.lines = l0) : (State.setReady s b on).flt.lines = l0 := by
  unfold State.setReady
  try dsimp only
  repeat' with_reducible first
    | assumption | apply State.setEnt_quiet | apply State.changed_quiet | apply ite_quiet | split | refine quiet_mk rfl rfl ?_

theorem State.setCoreReady_quiet {l0 : List FaultReport} (s : State) (c : Nat) (on : Bool)
    (hq : s.flt.lines = l0) : (State.setCoreReady s c on).flt.lines = l0 := by
  unfold State.setCoreReady
  repeat' with_reducible first | assumption | apply State.setEnt_quiet

theorem State.clearCompute_quiet {l0 : List FaultReport} (s : State) (hq : s.flt.lines = l0) : (State.clearCompute s).flt.lines = l0 := by
  unfold State.clearCompute
  repeat' with_reducible first | assumption | apply State.setReady_quiet

theorem State.setMapEntry_quiet {l0 : List FaultReport} (s : State) (p : Nat) (e : MapEntry)
    (hq : s.flt.lines = l0) : (State.setMapEntry s p e).flt.lines = l0 := by
  unfold State.setMapEntry
  repeat' with_reducible first | assumption | refine quiet_mk rfl rfl ?_

theorem State.ramWrite_quiet {l0 : List FaultReport} (s : State) (a : Nat) (l : List Byte)
    (hq : s.flt.lines = l0) : (State.ramWrite s a l).flt.lines = l0 := by
  unfold State.ramWrite
  repeat' with_reducible first | assumption | refine quiet_mk rfl rfl ?_

theorem State.zeroPage_quiet {l0 : List FaultReport} (s : State) (p : Nat)
    (hq : s.flt.lines = l0) : (State.zeroPage s p).flt.lines = l0 := by
  unfold State.zeroPage
  try dsimp only
  repeat' with_reducible first | assumption | refine quiet_mk rfl rfl ?_

theorem State.storeRecord_quiet {l0 : List FaultReport} (s : State) (r : EvRecord)
    (hq : s.flt.lines = l0) : (State.storeRecord s r).flt.lines = l0 := by
  unfold State.storeRecord
  try dsimp only
  repeat' with_reducible first
    | assumption | apply State.bump_quiet | apply State.raiseVector_quiet | apply ite_quiet | split | refine quiet_mk rfl rfl ?_

theorem State.takeSeq_quiet {l0 : List FaultReport} (s : State) (hq : s.flt.lines = l0) : (State.takeSeq s).flt.lines = l0 := by
  unfold State.takeSeq
  repeat' with_reducible first | assumption | apply ite_quiet | split | refine quiet_mk rfl rfl ?_

theorem State.fileRecord_quiet {l0 : List FaultReport} (s : State) (r : EvRecord)
    (hq : s.flt.lines = l0) : (State.fileRecord s r).flt.lines = l0 := by
  unfold State.fileRecord
  repeat' with_reducible first | assumption | apply State.storeRecord_quiet | apply ite_quiet | split | refine quiet_mk rfl rfl ?_

theorem State.record_quiet {l0 : List FaultReport} (s : State) (r : EvRecord)
    (hq : s.flt.lines = l0) : (State.record s r).flt.lines = l0 := by
  unfold State.record
  repeat' with_reducible first | assumption | apply State.takeSeq_quiet | apply State.fileRecord_quiet

theorem State.recordAt_quiet {l0 : List FaultReport} (s : State) (die : Nat) (r : EvRecord)
    (hq : s.flt.lines = l0) : (State.recordAt s die r).flt.lines = l0 := by
  unfold State.recordAt
  repeat' with_reducible first
    | assumption | apply State.takeSeq_quiet | apply State.record_quiet | apply ite_quiet | split | refine quiet_mk rfl rfl ?_

theorem State.recordsOfDie1_quiet {l0 : List FaultReport} (s : State)
    (hq : s.flt.lines = l0) : (State.recordsOfDie1 s).flt.lines = l0 := by
  unfold State.recordsOfDie1
  repeat' with_reducible first
    | assumption | apply State.fileRecord_quiet | refine foldl_quiet (fun _ _ _ => ?_) _ ?_ | refine foldl_quiet_fst (fun _ _ _ => ?_) _ ?_
    | refine quiet_mk rfl rfl ?_

theorem State.condition_quiet {l0 : List FaultReport} (s : State) (sev code p0 p1 p2 : Nat)
    (hq : s.flt.lines = l0) : (State.condition s sev code p0 p1 p2).flt.lines = l0 := by
  unfold State.condition
  repeat' with_reducible first | assumption | apply State.record_quiet

theorem State.conditionAt_quiet {l0 : List FaultReport} (s : State) (sev code space addr p0 p1 p2 : Nat)
    (hq : s.flt.lines = l0) : (State.conditionAt s sev code space addr p0 p1 p2).flt.lines = l0 := by
  unfold State.conditionAt
  repeat' with_reducible first | assumption | apply State.record_quiet

theorem State.repairRecord_quiet {l0 : List FaultReport} (s : State) (die sev code phys p0 p1 p2 : Nat)
    (hq : s.flt.lines = l0) : (State.repairRecord s die sev code phys p0 p1 p2).flt.lines = l0 := by
  unfold State.repairRecord
  repeat' with_reducible first | assumption | apply State.recordAt_quiet

theorem State.setSource_quiet {l0 : List FaultReport} (s : State) (c : Nat) (l : Level) (unit source : Nat) (times : List Nat)
    (hq : s.flt.lines = l0) : (State.setSource s c l unit source times).flt.lines = l0 := by
  unfold State.setSource
  try dsimp only
  repeat' with_reducible first | assumption | apply ite_quiet | split | refine quiet_mk rfl rfl ?_

theorem State.dropSources_quiet {l0 : List FaultReport} (s : State) (l : Level) (unit : Nat)
    (hq : s.flt.lines = l0) : (State.dropSources s l unit).flt.lines = l0 := by
  unfold State.dropSources
  try dsimp only
  repeat' with_reducible first | assumption | refine quiet_mk rfl rfl ?_

theorem State.violation_quiet {l0 : List FaultReport} (s : State) (code space addr p0 : Nat)
    (hq : s.flt.lines = l0) : (State.violation s code space addr p0).flt.lines = l0 := by
  unfold State.violation
  try dsimp only
  repeat' with_reducible first
    | assumption | apply State.bump_quiet | apply State.record_quiet | apply State.setSource_quiet | apply ite_quiet | split

theorem State.setLane_quiet {l0 : List FaultReport} (s : State) (i : Nat) (l : LaneSt)
    (hq : s.flt.lines = l0) : (State.setLane s i l).flt.lines = l0 := by
  unfold State.setLane
  repeat' with_reducible first | assumption | refine quiet_mk rfl rfl ?_

theorem State.classWait_quiet {l0 : List FaultReport} (s : State) (i cls : Nat)
    (hq : s.flt.lines = l0) : (State.classWait s i cls).flt.lines = l0 := by
  unfold State.classWait
  try dsimp only
  repeat' with_reducible first | assumption | apply State.bump_quiet | apply State.draw_quiet | apply ite_quiet | split

theorem State.sendOn_quiet {l0 : List FaultReport} (s0 : State) (i : Nat) (f : TxFrame)
    (hq : s0.flt.lines = l0) : (State.sendOn s0 i f).flt.lines = l0 := by
  unfold State.sendOn
  try dsimp only
  repeat' with_reducible first
    | assumption | apply State.bump_quiet | apply State.setLane_quiet | apply State.classWait_quiet | apply ite_quiet | split
    | refine quiet_mk rfl rfl ?_

theorem State.sendFrame_quiet {l0 : List FaultReport} (s : State) (f : TxFrame)
    (hq : s.flt.lines = l0) : (State.sendFrame s f).flt.lines = l0 := by
  unfold State.sendFrame
  repeat' with_reducible first | assumption | apply State.sendOn_quiet | split

theorem State.sendSegments_quiet {l0 : List FaultReport} : ∀ (n : Nat) (s : State) (f : TxFrame) (l : List Byte), s.flt.lines = l0 →
    (State.sendSegments n s f l).flt.lines = l0
  | 0, _, _, _, h => State.sendFrame_quiet _ _ h
  | n + 1, s, f, l, h => by
    unfold State.sendSegments
    split
    · exact State.sendFrame_quiet _ _ h
    · exact State.sendSegments_quiet n _ _ _ (State.sendFrame_quiet _ _ h)

theorem State.sendBytes_quiet {l0 : List FaultReport} (s : State) (f : TxFrame) (l : List Byte)
    (hq : s.flt.lines = l0) : (State.sendBytes s f l).flt.lines = l0 := by
  unfold State.sendBytes
  repeat' with_reducible first | assumption | apply State.sendSegments_quiet

theorem State.sendAllLanes_quiet {l0 : List FaultReport} (s : State) (f : TxFrame)
    (hq : s.flt.lines = l0) : (State.sendAllLanes s f).flt.lines = l0 := by
  unfold State.sendAllLanes
  try dsimp only
  repeat' with_reducible first
    | assumption | apply State.sendOn_quiet | refine foldl_quiet (fun _ _ _ => ?_) _ ?_ | refine foldl_quiet_fst (fun _ _ _ => ?_) _ ?_

theorem State.sendGroup_quiet {l0 : List FaultReport} (s : State) (kind g : Nat) (payload : List Byte)
    (hq : s.flt.lines = l0) : (State.sendGroup s kind g payload).flt.lines = l0 := by
  unfold State.sendGroup
  try dsimp only
  repeat' with_reducible first
    | assumption | apply State.sendFrame_quiet | refine foldl_quiet (fun _ _ _ => ?_) _ ?_ | refine foldl_quiet_fst (fun _ _ _ => ?_) _ ?_
    | refine quiet_mk rfl rfl ?_

/-! ## Views -/

theorem State.setRake_quiet {l0 : List FaultReport} (s : State) (l : Nat) (r : RakeSt)
    (hq : s.flt.lines = l0) : (State.setRake s l r).flt.lines = l0 := by
  unfold State.setRake
  repeat' with_reducible first | assumption | refine quiet_mk rfl rfl ?_

/-! ## Crossings -/

theorem State.setQueueAt_quiet {l0 : List FaultReport} (s : State) (k : Nat) (x : QueueSt)
    (hq : s.flt.lines = l0) : (State.setQueueAt s k x).flt.lines = l0 := by
  unfold State.setQueueAt
  repeat' with_reducible first | assumption | refine quiet_mk rfl rfl ?_

theorem State.sendQueue_quiet {l0 : List FaultReport} (s : State) (k : Nat) (l : List Nat)
    (hq : s.flt.lines = l0) : (State.sendQueue s k l).flt.lines = l0 := by
  unfold State.sendQueue
  repeat' with_reducible first | assumption | apply State.setQueueAt_quiet | refine quiet_mk rfl rfl ?_

theorem State.readQueue_quiet {l0 : List FaultReport} (s : State) (k n : Nat)
    (hq : s.flt.lines = l0) : (State.readQueue s k n).flt.lines = l0 := by
  unfold State.readQueue
  try dsimp only
  repeat' with_reducible first | assumption | apply State.setQueueAt_quiet | refine quiet_mk rfl rfl ?_

theorem State.pendEvent_quiet {l0 : List FaultReport} (s : State) (k : Nat)
    (hq : s.flt.lines = l0) : (State.pendEvent s k).flt.lines = l0 := by
  unfold State.pendEvent
  try dsimp only
  repeat' with_reducible first | assumption | refine quiet_mk rfl rfl ?_

theorem State.setArbCnt_quiet {l0 : List FaultReport} (s : State) (level inst rank : Nat) (x : ArbCnt)
    (hq : s.flt.lines = l0) : (State.setArbCnt s level inst rank x).flt.lines = l0 := by
  unfold State.setArbCnt
  repeat' with_reducible first | assumption | refine quiet_mk rfl rfl ?_

theorem State.countWait_quiet {l0 : List FaultReport} (s : State) (level inst resource rank n : Nat)
    (hq : s.flt.lines = l0) : (State.countWait s level inst resource rank n).flt.lines = l0 := by
  unfold State.countWait
  repeat' with_reducible first | assumption | apply State.setArbCnt_quiet

theorem State.stallQueue_quiet {l0 : List FaultReport} (s : State) (k : Nat)
    (hq : s.flt.lines = l0) : (State.stallQueue s k).flt.lines = l0 := by
  unfold State.stallQueue
  repeat' with_reducible first | assumption | apply State.setQueueAt_quiet | refine quiet_mk rfl rfl ?_

theorem State.stallSender_quiet {l0 : List FaultReport} (s : State) (k level inst rank : Nat)
    (hq : s.flt.lines = l0) : (State.stallSender s k level inst rank).flt.lines = l0 := by
  unfold State.stallSender
  repeat' with_reducible first | assumption | apply State.countWait_quiet | apply State.stallQueue_quiet

/-! ## Boundary -/

theorem State.resetRecord_quiet {l0 : List FaultReport} (s : State) (i reason : Nat)
    (hq : s.flt.lines = l0) : (State.resetRecord s i reason).flt.lines = l0 := by
  unfold State.resetRecord
  repeat' with_reducible first | assumption | refine quiet_mk rfl rfl ?_

theorem State.syncAccount_quiet {l0 : List FaultReport} (s : State) (hq : s.flt.lines = l0) : (State.syncAccount s).flt.lines = l0 := by
  unfold State.syncAccount
  repeat' with_reducible first | assumption | apply State.setEnt_quiet | refine quiet_mk rfl rfl ?_

theorem State.applyMode_quiet {l0 : List FaultReport} (s : State) (mode : Nat)
    (hq : s.flt.lines = l0) : (State.applyMode s mode).flt.lines = l0 := by
  unfold State.applyMode
  try dsimp only
  repeat' with_reducible first
    | assumption | apply State.setEnt_quiet | apply State.condition_quiet | apply State.syncAccount_quiet | apply ite_quiet | split
    | refine quiet_mk rfl rfl ?_

theorem State.applyCrustMode_quiet {l0 : List FaultReport} (s : State) (v : Nat)
    (hq : s.flt.lines = l0) : (State.applyCrustMode s v).flt.lines = l0 := by
  unfold State.applyCrustMode
  try dsimp only
  repeat' with_reducible first | assumption | apply State.setEnt_quiet | apply ite_quiet | split | refine quiet_mk rfl rfl ?_

theorem State.startSnapshot_quiet {l0 : List FaultReport} (s : State)
    (hq : s.flt.lines = l0) : (State.startSnapshot s).flt.lines = l0 := by
  unfold State.startSnapshot
  try dsimp only
  repeat' with_reducible first
    | assumption | apply State.setEnt_quiet | apply State.condition_quiet | apply ite_quiet | split | refine quiet_mk rfl rfl ?_

theorem State.requestSnapshot_quiet {l0 : List FaultReport} (s : State)
    (hq : s.flt.lines = l0) : (State.requestSnapshot s).flt.lines = l0 := by
  unfold State.requestSnapshot
  repeat' with_reducible first | assumption | refine quiet_mk rfl rfl ?_

theorem State.rakeReset_quiet {l0 : List FaultReport} (s : State) (hq : s.flt.lines = l0) : (State.rakeReset s).flt.lines = l0 := by
  unfold State.rakeReset
  try dsimp only
  repeat' with_reducible first | assumption | refine quiet_mk rfl rfl ?_

theorem State.applyBoundary_quiet {l0 : List FaultReport} (s : State) (k v : Nat)
    (hq : s.flt.lines = l0) : (State.applyBoundary s k v).flt.lines = l0 := by
  unfold State.applyBoundary
  try dsimp only
  repeat' with_reducible first
    | assumption | apply State.setEnt_quiet | apply State.setRake_quiet | apply State.resetRecord_quiet | apply State.syncAccount_quiet
    | apply State.applyMode_quiet | apply State.applyCrustMode_quiet | apply State.requestSnapshot_quiet | apply State.rakeReset_quiet
    | refine foldl_quiet (fun _ _ _ => ?_) _ ?_ | refine foldl_quiet_fst (fun _ _ _ => ?_) _ ?_ | apply ite_quiet | split
    | refine quiet_mk rfl rfl ?_

theorem State.settlePending_quiet {l0 : List FaultReport} (s : State) (k v : Nat)
    (hq : s.flt.lines = l0) : (State.settlePending s k v).flt.lines = l0 := by
  unfold State.settlePending
  try dsimp only
  repeat' with_reducible first | assumption | apply State.violation_quiet | apply State.applyBoundary_quiet | apply ite_quiet | split

theorem State.springBoundary_quiet {l0 : List FaultReport} (s : State)
    (hq : s.flt.lines = l0) : (State.springBoundary s).flt.lines = l0 := by
  unfold State.springBoundary
  repeat' with_reducible first | assumption | apply State.applyMode_quiet | apply ite_quiet | split

theorem State.applyPending_quiet {l0 : List FaultReport} (s : State) (hq : s.flt.lines = l0) : (State.applyPending s).flt.lines = l0 := by
  unfold State.applyPending
  try dsimp only
  repeat' with_reducible first
    | assumption | apply State.settlePending_quiet | apply State.springBoundary_quiet | refine foldl_quiet (fun _ _ _ => ?_) _ ?_
    | refine foldl_quiet_fst (fun _ _ _ => ?_) _ ?_ | refine quiet_mk rfl rfl ?_

theorem State.enterAbandon_quiet {l0 : List FaultReport} (s : State) (fromNotice : Bool)
    (hq : s.flt.lines = l0) : (State.enterAbandon s fromNotice).flt.lines = l0 := by
  unfold State.enterAbandon
  try dsimp only
  repeat' with_reducible first
    | assumption | apply State.setEnt_quiet | apply State.bump_quiet | apply State.sendGroup_quiet | apply ite_quiet | split
    | refine quiet_mk rfl rfl ?_

theorem State.flagNonFinite_quiet {l0 : List FaultReport} (s : State)
    (hq : s.flt.lines = l0) : (State.flagNonFinite s).flt.lines = l0 := by
  unfold State.flagNonFinite
  repeat' with_reducible first | assumption | apply State.enterAbandon_quiet | apply ite_quiet | split | refine quiet_mk rfl rfl ?_

theorem State.flagFault_quiet {l0 : List FaultReport} (s : State) (hq : s.flt.lines = l0) : (State.flagFault s).flt.lines = l0 := by
  unfold State.flagFault
  repeat' with_reducible first | assumption | apply State.enterAbandon_quiet | apply ite_quiet | split | refine quiet_mk rfl rfl ?_

theorem State.setCore_quiet {l0 : List FaultReport} (s : State) (c : Nat) (x : CoreSt)
    (hq : s.flt.lines = l0) : (State.setCore s c x).flt.lines = l0 := by
  unfold State.setCore
  repeat' with_reducible first | assumption | refine quiet_mk rfl rfl ?_

theorem State.settleEnergy_quiet {l0 : List FaultReport} (s : State) (committed : Bool)
    (hq : s.flt.lines = l0) : (State.settleEnergy s committed).flt.lines = l0 := by
  unfold State.settleEnergy
  try dsimp only
  repeat' with_reducible first | assumption | apply ite_quiet | split | refine quiet_mk rfl rfl ?_

theorem State.clearStep_quiet {l0 : List FaultReport} (s : State) (hq : s.flt.lines = l0) : (State.clearStep s).flt.lines = l0 := by
  unfold State.clearStep
  try dsimp only
  repeat' with_reducible first | assumption | apply ite_quiet | split | refine quiet_mk rfl rfl ?_

theorem State.protect_quiet {l0 : List FaultReport} (s : State) (hq : s.flt.lines = l0) : (State.protect s).flt.lines = l0 := by
  unfold State.protect
  try dsimp only
  repeat' with_reducible first | assumption | apply ite_quiet | split | refine quiet_mk rfl rfl ?_

theorem State.setPhase_quiet {l0 : List FaultReport} (s : State) (n : Nat)
    (hq : s.flt.lines = l0) : (State.setPhase s n).flt.lines = l0 := by
  unfold State.setPhase
  repeat' with_reducible first | assumption | apply State.setEnt_quiet | apply State.protect_quiet

theorem State.phaseZero_quiet {l0 : List FaultReport} (s : State) (hq : s.flt.lines = l0) : (State.phaseZero s).flt.lines = l0 := by
  unfold State.phaseZero
  repeat' with_reducible first | assumption | apply State.raiseVector_quiet | apply State.applyPending_quiet | apply State.setPhase_quiet

theorem State.restoreMarks_quiet {l0 : List FaultReport} (s : State) (hq : s.flt.lines = l0) : (State.restoreMarks s).flt.lines = l0 := by
  unfold State.restoreMarks
  try dsimp only
  repeat' with_reducible first | assumption | refine quiet_mk rfl rfl ?_

theorem State.noOutcome_quiet {l0 : List FaultReport} (s : State) (hq : s.flt.lines = l0) : (State.noOutcome s).flt.lines = l0 := by
  unfold State.noOutcome
  repeat' with_reducible first
    | assumption | apply State.setEnt_quiet | apply State.settleEnergy_quiet | apply State.clearStep_quiet | apply State.phaseZero_quiet
    | apply State.restoreMarks_quiet | apply ite_quiet | split

theorem State.withdraw_quiet {l0 : List FaultReport} (s : State) (hq : s.flt.lines = l0) : (State.withdraw s).flt.lines = l0 := by
  unfold State.withdraw
  repeat' with_reducible first
    | assumption | apply State.setEnt_quiet | apply State.sendGroup_quiet | apply ite_quiet | split | refine quiet_mk rfl rfl ?_

theorem State.loseCompute_quiet {l0 : List FaultReport} (s : State) (hq : s.flt.lines = l0) : (State.loseCompute s).flt.lines = l0 := by
  unfold State.loseCompute
  repeat' with_reducible first | assumption | apply State.clearCompute_quiet | apply State.withdraw_quiet | refine quiet_mk rfl rfl ?_

theorem State.failTest_quiet {l0 : List FaultReport} (s : State) (hq : s.flt.lines = l0) : (State.failTest s).flt.lines = l0 := by
  unfold State.failTest
  repeat' with_reducible first | assumption | apply State.clearCompute_quiet | apply State.withdraw_quiet | refine quiet_mk rfl rfl ?_

/-! ## Repair -/

theorem State.setPan_quiet {l0 : List FaultReport} (s : State) (c p : Nat) (x : PanSt)
    (hq : s.flt.lines = l0) : (State.setPan s c p x).flt.lines = l0 := by
  unfold State.setPan
  repeat' with_reducible first | assumption | apply State.setCore_quiet | refine quiet_mk rfl rfl ?_

theorem State.rerunUnit_quiet {l0 : List FaultReport} (s : State) (pos number : Nat)
    (hq : s.flt.lines = l0) : (State.rerunUnit s pos number).flt.lines = l0 := by
  unfold State.rerunUnit
  try dsimp only
  repeat' with_reducible first | assumption | apply State.bump_quiet | apply ite_quiet | split | refine quiet_mk rfl rfl ?_

theorem State.emptyCoreQueues_quiet {l0 : List FaultReport} (s : State) (c : Nat)
    (hq : s.flt.lines = l0) : (State.emptyCoreQueues s c).flt.lines = l0 := by
  unfold State.emptyCoreQueues
  try dsimp only
  repeat' with_reducible first | assumption | refine quiet_mk rfl rfl ?_

theorem State.dropRequests_quiet {l0 : List FaultReport} (s : State) (own : Nat → Nat → Nat → Bool)
    (hq : s.flt.lines = l0) : (State.dropRequests s own).flt.lines = l0 := by
  unfold State.dropRequests
  try dsimp only
  repeat' with_reducible first | assumption | apply ite_quiet | split | refine quiet_mk rfl rfl ?_

theorem State.retireCoreWork_quiet {l0 : List FaultReport} (s : State) (c : Nat)
    (hq : s.flt.lines = l0) : (State.retireCoreWork s c).flt.lines = l0 := by
  unfold State.retireCoreWork
  try dsimp only
  repeat' with_reducible first
    | assumption | apply State.setCoreReady_quiet | apply State.dropSources_quiet | apply State.setCore_quiet | apply State.rerunUnit_quiet
    | apply State.emptyCoreQueues_quiet | apply State.dropRequests_quiet | refine foldl_quiet (fun _ _ _ => ?_) _ ?_
    | refine foldl_quiet_fst (fun _ _ _ => ?_) _ ?_ | refine quiet_mk rfl rfl ?_

theorem State.swapDmp_quiet {l0 : List FaultReport} (s : State) (d : Nat)
    (hq : s.flt.lines = l0) : (State.swapDmp s d).flt.lines = l0 := by
  unfold State.swapDmp
  repeat' with_reducible first | assumption | apply State.setReady_quiet | refine quiet_mk rfl rfl ?_

theorem State.setStack_quiet {l0 : List FaultReport} (s : State) (i : Nat) (x : StackSt)
    (hq : s.flt.lines = l0) : (State.setStack s i x).flt.lines = l0 := by
  unfold State.setStack
  repeat' with_reducible first | assumption | refine quiet_mk rfl rfl ?_

theorem State.setDev_quiet {l0 : List FaultReport} (s : State) (i : Nat) (x : CxlSt)
    (hq : s.flt.lines = l0) : (State.setDev s i x).flt.lines = l0 := by
  unfold State.setDev
  repeat' with_reducible first | assumption | refine quiet_mk rfl rfl ?_

theorem State.clearLines_quiet {l0 : List FaultReport} (s : State) (p : Nat)
    (hq : s.flt.lines = l0) : (State.clearLines s p).flt.lines = l0 := by
  unfold State.clearLines
  try dsimp only
  repeat' with_reducible first | assumption | apply ite_quiet | split | refine quiet_mk rfl rfl ?_

theorem State.unmapPage_quiet {l0 : List FaultReport} (s : State) (p : Nat)
    (hq : s.flt.lines = l0) : (State.unmapPage s p).flt.lines = l0 := by
  unfold State.unmapPage
  try dsimp only
  repeat' with_reducible first | assumption | apply State.setMapEntry_quiet | apply State.clearLines_quiet | refine quiet_mk rfl rfl ?_

theorem State.losePageAt_quiet {l0 : List FaultReport} (s : State) (p addr : Nat)
    (hq : s.flt.lines = l0) : (State.losePageAt s p addr).flt.lines = l0 := by
  unfold State.losePageAt
  repeat' with_reducible first
    | assumption | apply State.setEnt_quiet | apply State.bump_quiet | apply State.conditionAt_quiet | apply State.unmapPage_quiet

theorem State.losePage_quiet {l0 : List FaultReport} (s : State) (p : Nat)
    (hq : s.flt.lines = l0) : (State.losePage s p).flt.lines = l0 := by
  unfold State.losePage
  repeat' with_reducible first | assumption | apply State.losePageAt_quiet

theorem State.strikePages_quiet {l0 : List FaultReport} (s : State) (pages : List Nat)
    (hq : s.flt.lines = l0) : (State.strikePages s pages).flt.lines = l0 := by
  unfold State.strikePages
  try dsimp only
  repeat' with_reducible first
    | assumption | apply State.setMapEntry_quiet | apply State.losePage_quiet | refine foldl_quiet (fun _ _ _ => ?_) _ ?_
    | refine foldl_quiet_fst (fun _ _ _ => ?_) _ ?_ | apply ite_quiet | split | refine quiet_mk rfl rfl ?_

theorem State.dropMemSource_quiet {l0 : List FaultReport} (s : State) (source : Nat)
    (hq : s.flt.lines = l0) : (State.dropMemSource s source).flt.lines = l0 := by
  unfold State.dropMemSource
  try dsimp only
  repeat' with_reducible first | assumption | refine quiet_mk rfl rfl ?_

theorem State.copyPc_quiet {l0 : List FaultReport} (s : State) (st pc : Nat)
    (hq : s.flt.lines = l0) : (State.copyPc s st pc).flt.lines = l0 := by
  unfold State.copyPc
  try dsimp only
  repeat' with_reducible first
    | assumption | apply State.repairRecord_quiet | apply State.setStack_quiet | apply ite_quiet | split | refine quiet_mk rfl rfl ?_

theorem State.replaceDev_quiet {l0 : List FaultReport} (s : State) (d : Nat)
    (hq : s.flt.lines = l0) : (State.replaceDev s d).flt.lines = l0 := by
  unfold State.replaceDev
  repeat' with_reducible first
    | assumption | apply State.repairRecord_quiet | apply State.setDev_quiet | apply ite_quiet | split | refine quiet_mk rfl rfl ?_

theorem State.sendLaneState_quiet {l0 : List FaultReport} (s : State) (port : Nat)
    (hq : s.flt.lines = l0) : (State.sendLaneState s port).flt.lines = l0 := by
  unfold State.sendLaneState
  try dsimp only
  repeat' with_reducible first
    | assumption | apply State.sendOn_quiet | refine foldl_quiet (fun _ _ _ => ?_) _ ?_ | refine foldl_quiet_fst (fun _ _ _ => ?_) _ ?_

theorem State.rerouteLane_quiet {l0 : List FaultReport} (s : State) (i : Nat)
    (hq : s.flt.lines = l0) : (State.rerouteLane s i).flt.lines = l0 := by
  unfold State.rerouteLane
  try dsimp only
  repeat' with_reducible first
    | assumption | apply State.bump_quiet | apply State.setLane_quiet | apply State.sendFrame_quiet
    | refine foldl_quiet (fun _ _ _ => ?_) _ ?_ | refine foldl_quiet_fst (fun _ _ _ => ?_) _ ?_ | refine quiet_mk rfl rfl ?_

theorem State.reroutePath_quiet {l0 : List FaultReport} (s : State) (node i : Nat)
    (hq : s.flt.lines = l0) : (State.reroutePath s node i).flt.lines = l0 := by
  unfold State.reroutePath
  try dsimp only
  repeat' with_reducible first
    | assumption | apply State.bump_quiet | apply State.setLane_quiet | apply State.sendFrame_quiet
    | refine foldl_quiet (fun _ _ _ => ?_) _ ?_ | refine foldl_quiet_fst (fun _ _ _ => ?_) _ ?_ | apply ite_quiet | split
    | refine quiet_mk rfl rfl ?_

theorem State.retireLane_quiet {l0 : List FaultReport} (s : State) (i : Nat)
    (hq : s.flt.lines = l0) : (State.retireLane s i).flt.lines = l0 := by
  unfold State.retireLane
  try dsimp only
  repeat' with_reducible first
    | assumption | apply State.setReady_quiet | apply State.setLane_quiet | apply State.sendLaneState_quiet | apply State.rerouteLane_quiet
    | refine foldl_quiet (fun _ _ _ => ?_) _ ?_ | refine foldl_quiet_fst (fun _ _ _ => ?_) _ ?_ | apply ite_quiet | split
    | refine quiet_mk rfl rfl ?_

theorem State.hostDown_quiet {l0 : List FaultReport} (s : State) (hq : s.flt.lines = l0) : (State.hostDown s).flt.lines = l0 := by
  unfold State.hostDown
  repeat' with_reducible first | assumption | apply State.setReady_quiet | refine quiet_mk rfl rfl ?_

theorem State.lowerHost_quiet {l0 : List FaultReport} (s : State) (hq : s.flt.lines = l0) : (State.lowerHost s).flt.lines = l0 := by
  unfold State.lowerHost
  try dsimp only
  repeat' with_reducible first | assumption | apply State.hostDown_quiet | apply ite_quiet | split | refine quiet_mk rfl rfl ?_

/-! ## Latch -/

theorem State.setCollector_quiet {l0 : List FaultReport} (s : State) (k : Nat) (x : Collector)
    (hq : s.flt.lines = l0) : (State.setCollector s k x).flt.lines = l0 := by
  unfold State.setCollector
  repeat' with_reducible first | assumption | refine quiet_mk rfl rfl ?_

theorem State.place_quiet {l0 : List FaultReport} : ∀ (n : Nat) (s : State) (l u : Nat) (f : Latched), s.flt.lines = l0 →
    (State.place n s l u f).flt.lines = l0
  | 0, _, _, _, _, h => h
  | n + 1, s, l, u, f, h => by
    unfold State.place
    dsimp only
    split
    · exact State.setCollector_quiet _ _ _ h
    · exact State.setCollector_quiet _ _ _ h
    · split
      · exact State.place_quiet n _ _ _ _ (State.setCollector_quiet _ _ _ h)
      · exact State.setCollector_quiet _ _ _ h

/-! ### Latching leaves no line -/

/-- The classes that actions assert, whose own actions assert nothing. -/
def leafClass (c : Nat) : Prop := c = 0x0A ∨ c = 0x0D

/-- Only such lines are asserted. -/
def State.Leafy (s : State) : Prop := ∀ r ∈ s.flt.lines, leafClass r.cls

theorem State.Leafy.of_quiet {s t : State} (h : s.Leafy) (f : ∀ l0, s.flt.lines = l0 → t.flt.lines = l0) : t.Leafy := by
  intro r hr
  rw [f _ rfl] at hr
  exact h r hr

theorem State.Leafy.raise {s : State} {r : FaultReport} (h : s.Leafy) (hr : leafClass r.cls) : (s.raise r).Leafy := by
  intro x hx
  rcases List.mem_append.1 hx with hx | hx
  · exact h x hx
  · rw [List.mem_singleton.1 hx]
    exact hr

theorem State.swapCluster_leafy {s : State} (k : Nat) (h : s.Leafy) : (s.swapCluster k).Leafy := by
  unfold State.swapCluster
  dsimp only
  split
  · refine State.Leafy.raise (h.of_quiet fun l0 e => State.setReady_quiet _ _ _ ?_) (.inl rfl)
    exact foldl_quiet (fun _ _ e => State.setCoreReady_quiet _ _ _ e) _ e
  · refine h.of_quiet fun l0 e => State.setReady_quiet _ _ _ (State.dropSources_quiet _ _ _ ?_)
    refine quiet_mk rfl rfl (State.dropRequests_quiet _ _ (foldl_quiet (fun _ _ e => State.retireCoreWork_quiet _ _ e) _ e))

theorem State.swapCore_leafy {s : State} (c : Nat) (h : s.Leafy) : (s.swapCore c).Leafy := by
  unfold State.swapCore
  dsimp only
  split
  · exact State.swapCluster_leafy _ h
  · exact h.of_quiet fun l0 e => quiet_mk rfl rfl (State.retireCoreWork_quiet _ _ e)

theorem State.retirePan_leafy {s : State} (c p what col : Nat) (h : s.Leafy) : (s.retirePan c p what col).Leafy := by
  unfold State.retirePan
  split
  · exact h.of_quiet fun l0 e => quiet_mk rfl rfl (State.setPan_quiet _ _ _ _ e)
  · exact State.swapCore_leafy _ h

theorem State.remapPan_leafy {s : State} (r : FaultReport) (h : s.Leafy) : (s.remapPan r).Leafy := by
  unfold State.remapPan
  dsimp only
  split
  · exact h.of_quiet fun l0 e => State.setPan_quiet _ _ _ _ e
  · exact State.retirePan_leafy _ _ _ _ h

theorem State.retirePc_leafy {s : State} (st pc : Nat) (h : s.Leafy) : (s.retirePc st pc).Leafy := by
  have h0 : (s.dropMemSource (32 * st + pc)).Leafy := h.of_quiet fun l0 e => State.dropMemSource_quiet _ _ e
  unfold State.retirePc
  dsimp only
  generalize s.dropMemSource (32 * st + pc) = u at h0
  split
  · exact h0.of_quiet fun l0 e => State.repairRecord_quiet _ _ _ _ _ _ _ _ (State.setStack_quiet _ _ _ e)
  · split
    · refine State.Leafy.of_quiet ?_ fun l0 e => State.loseCompute_quiet _ e
      exact (h0.of_quiet fun l0 e => State.setStack_quiet _ _ _ e).raise (.inr rfl)
    · refine h0.of_quiet fun l0 e => ?_
      repeat' with_reducible first
        | assumption | apply State.repairRecord_quiet | apply State.strikePages_quiet | apply State.setStack_quiet
        | apply State.dropMemSource_quiet | apply ite_quiet

theorem State.failDev_leafy {s : State} (d : Nat) (h : s.Leafy) : (s.failDev d).Leafy := by
  have h9 : (s.dropMemSource (cxlSource + d)).Leafy := h.of_quiet fun l0 e => State.dropMemSource_quiet _ _ e
  unfold State.failDev
  dsimp only
  generalize s.dropMemSource (cxlSource + d) = u at h9
  split
  · exact h9.of_quiet fun l0 e => State.setReady_quiet _ _ _ (State.setDev_quiet _ _ _ e)
  · have h0 := fun l0 (e : u.flt.lines = l0) =>
      State.repairRecord_quiet _ (d / 6) 1 0x5300 d d (u.dev d).role 0 (State.setReady_quiet u (20 + d) false e)
    split
    · exact h9.of_quiet fun l0 e => State.setDev_quiet _ _ _ (State.strikePages_quiet _ _ (State.setDev_quiet _ _ _ (State.setDev_quiet _ _ _
        (State.dropMemSource_quiet _ _ (h0 l0 e)))))
    · split
      · refine h9.of_quiet fun l0 e => State.setDev_quiet _ _ _ (foldl_quiet (fun s p e => ?_) _ (State.strikePages_quiet _ _
          (State.setEnt_quiet _ _ _ (State.setDev_quiet _ _ _ (h0 l0 e)))))
        split
        · exact State.setMapEntry_quiet _ _ _ e
        · exact e
      · refine State.Leafy.of_quiet ?_ fun l0 e => State.loseCompute_quiet _ e
        exact (h9.of_quiet fun l0 e => State.strikePages_quiet _ _ (State.setEnt_quiet _ _ _ (State.setDev_quiet _ _ _ (h0 l0 e)))).raise (.inr rfl)

theorem State.severeAction_leafy {s : State} (r : FaultReport) (h : s.Leafy) : (s.severeAction r).Leafy := by
  unfold State.severeAction
  repeat' with_reducible first
    | assumption | apply State.remapPan_leafy | apply State.swapCore_leafy | apply State.swapCluster_leafy | apply State.retirePc_leafy
    | apply State.failDev_leafy
    | exact h.of_quiet fun l0 e => State.setReady_quiet _ _ _ e
    | exact h.of_quiet fun l0 e => State.swapDmp_quiet _ _ e
    | exact h.of_quiet fun l0 e => State.loseCompute_quiet _ e
    | exact h.of_quiet fun l0 e => State.failTest_quiet _ e
    | exact h.of_quiet fun l0 e => State.copyPc_quiet _ _ _ e
    | exact h.of_quiet fun l0 e => State.replaceDev_quiet _ _ e
    | exact h.of_quiet fun l0 e => State.lowerHost_quiet _ e
    | exact h.of_quiet fun l0 e => State.retireLane_quiet _ _ e
    | exact h.of_quiet fun l0 e => State.setEnt_quiet _ _ _ e
    | exact h.of_quiet fun l0 e => State.setReady_quiet _ _ _ (quiet_mk rfl rfl e)
    | exact h.of_quiet fun l0 e => State.setReady_quiet _ _ _ (quiet_mk rfl rfl (State.setEnt_quiet _ _ _ e))
    | exact h.of_quiet fun l0 e => quiet_mk rfl rfl (State.losePageAt_quiet _ _ _ e)
    | exact h.of_quiet fun l0 e => quiet_mk rfl rfl e
    | split

/-- Latching up to the class's own action asserts nothing. -/
theorem State.severeAction_quiet {s : State} {r : FaultReport} (hr : leafClass r.cls) (e : s.flt.lines = l0) :
    (s.severeAction r).flt.lines = l0 := by
  unfold State.severeAction
  rcases hr with hr | hr <;> simp only [hr] <;> exact State.loseCompute_quiet _ e

theorem State.stepEffect_quiet {l0 : List FaultReport} (s : State) (r : FaultReport)
    (hq : s.flt.lines = l0) : (State.stepEffect s r).flt.lines = l0 := by
  unfold State.stepEffect
  repeat' with_reducible first | assumption | apply State.flagFault_quiet | apply State.noOutcome_quiet | apply ite_quiet | split

theorem State.flushMirror_quiet {l0 : List FaultReport} (s : State) (hq : s.flt.lines = l0) : (State.flushMirror s).flt.lines = l0 := by
  unfold State.flushMirror
  repeat' with_reducible first | assumption | apply ite_quiet | split | refine quiet_mk rfl rfl ?_

theorem State.fatalStop_quiet {l0 : List FaultReport} (s : State) (cls : Nat)
    (hq : s.flt.lines = l0) : (State.fatalStop s cls).flt.lines = l0 := by
  unfold State.fatalStop
  try dsimp only
  repeat' with_reducible first
    | assumption | apply State.changed_quiet | apply State.loseCompute_quiet | apply State.flushMirror_quiet | refine quiet_mk rfl rfl ?_

theorem State.dropShifts_quiet {l0 : List FaultReport} (s : State) (c p : Nat)
    (hq : s.flt.lines = l0) : (State.dropShifts s c p).flt.lines = l0 := by
  unfold State.dropShifts
  repeat' with_reducible first | assumption | apply State.setQueueAt_quiet | refine quiet_mk rfl rfl ?_

theorem State.replaySluice_quiet {l0 : List FaultReport} (s : State) (c : Nat)
    (hq : s.flt.lines = l0) : (State.replaySluice s c).flt.lines = l0 := by
  unfold State.replaySluice
  try dsimp only
  repeat' with_reducible first
    | assumption | apply State.bump_quiet | apply State.setCore_quiet | apply ite_quiet | split | refine quiet_mk rfl rfl ?_

theorem State.replayVector_quiet {l0 : List FaultReport} (s : State) (c : Nat)
    (hq : s.flt.lines = l0) : (State.replayVector s c).flt.lines = l0 := by
  unfold State.replayVector
  repeat' with_reducible first | assumption | apply State.setCore_quiet | apply State.rerunUnit_quiet | split | refine quiet_mk rfl rfl ?_

theorem State.countFault_quiet {l0 : List FaultReport} (s : State) (r : FaultReport) (v : Verdict)
    (hq : s.flt.lines = l0) : (State.countFault s r v).flt.lines = l0 := by
  unfold State.countFault
  try dsimp only
  repeat' with_reducible first | assumption | apply State.bump_quiet | apply ite_quiet | split

theorem State.classHolds_quiet {l0 : List FaultReport} (s : State) (r : FaultReport) (v : Verdict)
    (hq : s.flt.lines = l0) : (State.classHolds s r v).flt.lines = l0 := by
  unfold State.classHolds
  repeat' with_reducible first | assumption | refine quiet_mk rfl rfl ?_

theorem State.latchIn_quiet {l0 : List FaultReport} (s : State) (r : FaultReport) (v : Verdict) (hr : faultCore r = none)
    (hq : s.flt.lines = l0) : (State.latchIn s r v).flt.lines = l0 := by
  have hw : ∀ u : State, u.flt.lines = l0 → (u.workFault r).flt.lines = l0 := fun u h => by
    unfold State.workFault
    rw [hr]
    exact h
  unfold State.latchIn
  dsimp only
  repeat' with_reducible first
    | assumption | apply hw | apply State.changed_quiet | apply State.recordAt_quiet | apply State.setSource_quiet
    | apply State.setCollector_quiet | apply State.place_quiet | apply State.countFault_quiet | apply State.classHolds_quiet

theorem State.latchAt_quiet {l0 : List FaultReport} (s : State) (sev : Nat) (r : FaultReport) (hr : faultCore r = none)
    (hq : s.flt.lines = l0) : (State.latchAt s sev r).flt.lines = l0 := State.latchIn_quiet _ _ _ hr hq

theorem State.latchHandled_quiet {l0 : List FaultReport} (s : State) (r : FaultReport) (hr : faultCore r = none)
    (hq : s.flt.lines = l0) : (State.latchHandled s r).flt.lines = l0 :=
  State.setCollector_quiet _ _ _ (State.latchAt_quiet _ _ _ hr hq)

theorem State.applyRemap_leafy {s : State} (c p : Nat) (h : s.Leafy) : (s.applyRemap c p).Leafy := by
  have key : ∀ (l : List (Nat × Nat)) {u : State}, u.Leafy → (l.foldl (fun s w => s.retirePan c p w.1 w.2) u).Leafy := by
    intro l
    induction l with
    | nil => exact fun h => h
    | cons x l ih => exact fun h => ih (State.retirePan_leafy _ _ _ _ h)
  exact key _ (h.of_quiet fun l0 e => State.setPan_quiet _ _ _ _ e)

theorem State.replayPan_leafy {s : State} (c p : Nat) (grain : Bool) (h : s.Leafy) : (s.replayPan c p grain).Leafy := by
  unfold State.replayPan
  dsimp only
  refine State.applyRemap_leafy c p (h.of_quiet fun l0 e => ?_)
  have h1 := State.setPan_quiet (s.dropShifts c p) c p (if grain then (s.pan c p).grainReplay else (s.pan c p).replay) (State.dropShifts_quiet _ c p e)
  exact ite_quiet (State.bump_quiet _ _ _ _ (State.setCore_quiet _ _ _ h1)) h1

theorem State.panFault_leafy {s : State} (r : FaultReport) (h : s.Leafy) : (s.panFault r).Leafy := by
  unfold State.panFault
  dsimp only
  repeat' with_reducible first
    | assumption | apply State.replayPan_leafy
    | exact (State.replayPan_leafy _ _ _ h).of_quiet fun l0 e => State.setPan_quiet _ _ _ _ e
    | exact h.of_quiet fun l0 e => State.replaySluice_quiet _ _ e
    | exact h.of_quiet fun l0 e => State.replayVector_quiet _ _ e
    | exact h.of_quiet fun l0 e => State.setPan_quiet _ _ _ _ e
    | exact h.of_quiet fun l0 e => State.setCore_quiet _ _ _ (State.setPan_quiet _ _ _ _ (State.dropShifts_quiet _ _ _ e))
    | split

theorem State.workFault_leafy {s : State} (r : FaultReport) (h : s.Leafy) : (s.workFault r).Leafy := by
  unfold State.workFault
  split
  · split
    · exact h.of_quiet fun l0 e => State.setCore_quiet _ _ _ e
    · exact State.panFault_leafy r h
  · exact h

theorem State.latchIn_leafy {s : State} (r : FaultReport) (v : Verdict) (h : s.Leafy) : (s.latchIn r v).Leafy := by
  unfold State.latchIn
  dsimp only
  generalize hw : State.workFault _ r = u
  have hu : u.Leafy := hw ▸ State.workFault_leafy r (h.of_quiet fun l0 e => State.setCollector_quiet _ _ _ (State.setSource_quiet _ _ _ _ _ _ e))
  refine hu.of_quiet fun l0 e => ?_
  repeat' with_reducible first
    | assumption | apply State.changed_quiet | apply State.recordAt_quiet | apply State.place_quiet | apply State.countFault_quiet
    | apply State.classHolds_quiet

theorem State.latch_leafy {s : State} (r : FaultReport) (h : s.Leafy) : (s.latch r).Leafy := by
  have key : ∀ (u : State) (q : FaultReport), u.Leafy → (u.latchOne q).Leafy := by
    intro u q hu
    have h1 : (u.latchIn q (u.judge q)).Leafy := State.latchIn_leafy q _ hu
    unfold State.latchOne State.severeEffects
    dsimp only
    split
    · refine State.severeAction_leafy q (h1.of_quiet fun l0 e => State.stepEffect_quiet _ _ (ite_quiet ?_ e))
      exact State.fatalStop_quiet _ _ e
    · exact h1
  unfold State.latch
  dsimp only
  refine key _ _ ?_
  split
  · exact h
  · exact h.of_quiet fun l0 e => State.setSource_quiet _ _ _ _ _ _ e

theorem State.latchedAs_leaf {s : State} {r : FaultReport} (hr : leafClass r.cls) : s.latchedAs r = r := by
  unfold State.latchedAs
  rcases hr with hr | hr <;> simp [hr]

theorem leafClass.noCore {r : FaultReport} (hr : leafClass r.cls) : faultCore r = none := by
  unfold faultCore
  rcases hr with hr | hr <;> rw [hr] <;> split <;> rfl

theorem State.latch_quiet {s : State} {r : FaultReport} (hr : leafClass r.cls) (e : s.flt.lines = l0) : (s.latch r).flt.lines = l0 := by
  have h1 := State.latchIn_quiet s r (s.judge r) hr.noCore e
  unfold State.latch
  rw [State.latchedAs_leaf hr]
  simp only [if_true]
  unfold State.latchOne State.severeEffects
  dsimp only
  split
  · exact State.severeAction_quiet hr (State.stepEffect_quiet _ _ (ite_quiet (State.fatalStop_quiet _ _ h1) h1))
  · exact h1

theorem foldl_latch_leafy : ∀ (l : List FaultReport) {s : State}, s.Leafy → (l.foldl State.latch s).Leafy
  | [], _, h => h
  | r :: l, _, h => foldl_latch_leafy l (State.latch_leafy r h)

theorem foldl_latch_quiet : ∀ (l : List FaultReport) {s : State}, (∀ r ∈ l, leafClass r.cls) → s.flt.lines = l0 →
    (l.foldl State.latch s).flt.lines = l0
  | [], _, _, e => e
  | r :: l, _, h, e => foldl_latch_quiet l (fun x hx => h x (List.mem_cons_of_mem _ hx)) (State.latch_quiet (h r List.mem_cons_self) e)

/-- Latching leaves no line asserted. -/
theorem State.latchAll_quiet (s : State) : s.latchAll.Quiet := by
  have h : State.Leafy (s.flt.lines.foldl State.latch { s with flt.lines := [] }) := foldl_latch_leafy _ (by simp [State.Leafy])
  exact foldl_latch_quiet _ h rfl

theorem State.markAcked_quiet {l0 : List FaultReport} (s : State) (seq : Nat)
    (hq : s.flt.lines = l0) : (State.markAcked s seq).flt.lines = l0 := by
  unfold State.markAcked
  try dsimp only
  repeat' with_reducible first | assumption | refine quiet_mk rfl rfl ?_

theorem State.ackSeq_quiet {l0 : List FaultReport} (s : State) (seq : Nat)
    (hq : s.flt.lines = l0) : (State.ackSeq s seq).flt.lines = l0 := by
  unfold State.ackSeq
  try dsimp only
  repeat' with_reducible first | assumption | apply State.changed_quiet | apply State.markAcked_quiet | refine quiet_mk rfl rfl ?_

theorem State.clearLinesOf_quiet {l0 : List FaultReport} (s : State) (keys : List Nat)
    (hq : s.flt.lines = l0) : (State.clearLinesOf s keys).flt.lines = l0 := by
  unfold State.clearLinesOf
  try dsimp only
  repeat' with_reducible first | assumption | apply ite_quiet | split | refine quiet_mk rfl rfl ?_

theorem State.handled_quiet {l0 : List FaultReport} (s : State) (k : Nat)
    (hq : s.flt.lines = l0) : (State.handled s k).flt.lines = l0 := by
  unfold State.handled
  try dsimp only
  repeat' with_reducible first
    | assumption | apply State.changed_quiet | apply State.setCollector_quiet | apply State.markAcked_quiet
    | apply State.clearLinesOf_quiet | apply ite_quiet | split

/-! ## Security -/

theorem State.advanceCounter_quiet (s : State) (v : Nat) (hq : s.Quiet) : (State.advanceCounter s v).Quiet := by
  unfold State.advanceCounter
  try dsimp only
  repeat' with_reducible first | assumption | apply State.condition_quiet | apply ite_quiet | split | refine quiet_mk rfl rfl ?_

theorem State.runImage_quiet (s : State) (img : List Byte) (hq : s.Quiet) : (State.runImage s img).Quiet := by
  unfold State.runImage
  repeat' with_reducible first | assumption | refine quiet_mk rfl rfl ?_

theorem State.bootBank_quiet (s : State) (b other : Bool) (hq : s.Quiet) : (State.bootBank s b other).Quiet := by
  unfold State.bootBank
  exact ite_quiet (State.latchAt_quiet _ _ _ rfl (quiet_mk rfl rfl (State.runImage_quiet _ _ hq))) (quiet_mk rfl rfl (State.runImage_quiet _ _ hq))

theorem State.enrol_quiet (s : State) (slot : Nat) (k : List Byte) (h : Nat) (hq : s.Quiet) : (State.enrol s slot k h).Quiet := by
  unfold State.enrol
  repeat' with_reducible first | assumption | refine quiet_mk rfl rfl ?_

theorem State.enrolGo_quiet (s : State) (hq : s.Quiet) : (State.enrolGo s).s.Quiet := by
  unfold State.enrolGo
  try dsimp only
  repeat' with_reducible first | assumption | apply State.enrol_quiet | apply ite_quiet_s | apply ite_quiet | split | refine quiet_mk rfl rfl ?_

theorem State.acceptToken_quiet (s : State) (t : Token) (hq : s.Quiet) : (State.acceptToken s t).Quiet := by
  unfold State.acceptToken
  repeat' with_reducible first | assumption | refine quiet_mk rfl rfl ?_

theorem State.tokenEffect_quiet (s : State) (t : Token) (hq : s.Quiet) : (State.tokenEffect s t).Quiet := by
  unfold State.tokenEffect
  repeat' with_reducible first | assumption | apply State.advanceCounter_quiet | apply State.enrol_quiet | split | refine quiet_mk rfl rfl ?_

theorem State.tokenGo_quiet (s : State) (hq : s.Quiet) : (State.tokenGo s).s.Quiet := by
  unfold State.tokenGo
  try dsimp only
  repeat' with_reducible first
    | assumption | apply State.bump_quiet | apply State.condition_quiet | apply State.acceptToken_quiet | apply State.tokenEffect_quiet
    | apply ite_quiet_s | apply ite_quiet | split | refine quiet_mk rfl rfl ?_

theorem State.clearGo_quiet (s : State) (hq : s.Quiet) : (State.clearGo s).s.Quiet := by
  unfold State.clearGo
  try dsimp only
  repeat' with_reducible first
    | assumption | apply State.bump_quiet | apply State.record_quiet | apply State.acceptToken_quiet
    | refine foldl_quiet (fun _ _ _ => ?_) _ ?_ | refine foldl_quiet_fst (fun _ _ _ => ?_) _ ?_ | apply ite_quiet_s | apply ite_quiet
    | split | refine quiet_mk rfl rfl ?_

theorem State.stageGo_quiet (s : State) (v : Nat) (hq : s.Quiet) : (State.stageGo s v).s.Quiet := by
  unfold State.stageGo
  try dsimp only
  repeat' with_reducible first | assumption | apply State.setEnt_quiet | apply ite_quiet_s | apply ite_quiet | split | refine quiet_mk rfl rfl ?_

theorem State.stageDone_quiet (s : State) (hq : s.Quiet) : (State.stageDone s).Quiet := by
  unfold State.stageDone
  try dsimp only
  repeat' with_reducible first | assumption | apply State.setEnt_quiet | apply ite_quiet | split | refine quiet_mk rfl rfl ?_

/-! ## Supply -/

theorem State.autoAdvance_quiet (s : State) (hq : s.Quiet) : (State.autoAdvance s).Quiet := by
  unfold State.autoAdvance
  repeat' with_reducible first | assumption | apply State.advanceCounter_quiet | apply ite_quiet | split

theorem State.setCompute_quiet (s : State) (hq : s.Quiet) : (State.setCompute s).Quiet := by
  unfold State.setCompute
  try dsimp only
  repeat' with_reducible first | assumption | apply State.setReady_quiet | refine quiet_mk rfl rfl ?_

theorem State.computeCheck_quiet (s : State) (hq : s.Quiet) : (State.computeCheck s).Quiet := by
  unfold State.computeCheck
  repeat' with_reducible first | assumption | apply State.autoAdvance_quiet | apply State.setCompute_quiet | apply ite_quiet | split

theorem State.bringUp_quiet (s : State) (b : Nat) (hq : s.Quiet) : (State.bringUp s b).Quiet := by
  unfold State.bringUp
  try dsimp only
  repeat' with_reducible first
    | assumption | apply State.setLane_quiet | apply State.sendLaneState_quiet | refine foldl_quiet (fun _ _ _ => ?_) _ ?_
    | refine foldl_quiet_fst (fun _ _ _ => ?_) _ ?_ | apply ite_quiet | split | refine quiet_mk rfl rfl ?_

theorem State.bitSet_quiet (s : State) (b : Nat) (hq : s.Quiet) : (State.bitSet s b).Quiet := by
  unfold State.bitSet
  repeat' with_reducible first | assumption | apply State.recordsOfDie1_quiet | apply ite_quiet | split

theorem State.lateRecord_quiet (s : State) (cls : Nat) (f : FnId) (hq : s.Quiet) : (State.lateRecord s cls f).Quiet := by
  unfold State.lateRecord
  split <;> exact State.latchAt_quiet _ _ _ rfl hq

/-! ## Power -/

theorem State.tickCluster_quiet (s0 s : State) (k : Nat) (hq : s.Quiet) : (State.tickCluster s0 s k).Quiet := by
  unfold State.tickCluster
  try dsimp only
  repeat' with_reducible first | assumption | apply ite_quiet | split | refine quiet_mk rfl rfl ?_

theorem State.accountTick_quiet (s : State) (p : Nat) (hq : s.Quiet) : (State.accountTick s p).Quiet := by
  unfold State.accountTick
  try dsimp only
  repeat' with_reducible first | assumption | apply State.syncAccount_quiet | apply ite_quiet | split | refine quiet_mk rfl rfl ?_

theorem State.voltTick_quiet (s : State) (mv : Nat) (hq : s.Quiet) : (State.voltTick s mv).Quiet := by
  unfold State.voltTick
  try dsimp only
  repeat' with_reducible first | assumption | apply ite_quiet | split | refine quiet_mk rfl rfl ?_

theorem State.meterEntries_quiet (s : State) (m : PowerMeas) (hq : s.Quiet) : (State.meterEntries s m).Quiet := by
  unfold State.meterEntries
  try dsimp only
  repeat' with_reducible first | assumption | apply State.setEnt_quiet

theorem State.heatHolds_quiet (s : State) (hq : s.Quiet) : (State.heatHolds s).Quiet := by
  unfold State.heatHolds
  try dsimp only
  repeat' with_reducible first | assumption | refine quiet_mk rfl rfl ?_

theorem State.springSample_quiet (s : State) (x : Sensor) (t : Int) (hq : s.Quiet) : (State.springSample s x t).Quiet := by
  unfold State.springSample
  repeat' with_reducible first | assumption | apply ite_quiet | split | refine quiet_mk rfl rfl ?_

theorem State.dieTrip_quiet (s : State) (d : Nat) (hq : s.Quiet) : (State.dieTrip s d).Quiet := by
  unfold State.dieTrip
  try dsimp only
  repeat' with_reducible first
    | assumption | apply State.setEnt_quiet | apply State.setReady_quiet | refine foldl_quiet (fun _ _ _ => ?_) _ ?_
    | refine foldl_quiet_fst (fun _ _ _ => ?_) _ ?_ | refine quiet_mk rfl rfl ?_

theorem State.clusterOff_quiet (s : State) (k : Nat) (hq : s.Quiet) : (State.clusterOff s k).Quiet := by
  unfold State.clusterOff
  try dsimp only
  repeat' with_reducible first
    | assumption | apply State.setReady_quiet | apply State.setCoreReady_quiet | refine foldl_quiet (fun _ _ _ => ?_) _ ?_
    | refine foldl_quiet_fst (fun _ _ _ => ?_) _ ?_ | refine quiet_mk rfl rfl ?_

theorem State.regulatorTrip_quiet (s : State) (r : Nat) (hq : s.Quiet) : (State.regulatorTrip s r).Quiet := by
  unfold State.regulatorTrip
  try dsimp only
  repeat' with_reducible first
    | assumption | apply State.clusterOff_quiet | refine foldl_quiet (fun _ _ _ => ?_) _ ?_ | refine foldl_quiet_fst (fun _ _ _ => ?_) _ ?_
    | apply ite_quiet | split | refine quiet_mk rfl rfl ?_

theorem State.stackTrip_quiet (s : State) (st : Nat) (hq : s.Quiet) : (State.stackTrip s st).Quiet := by
  unfold State.stackTrip
  repeat' with_reducible first
    | assumption | apply State.setReady_quiet | apply State.setStack_quiet | refine foldl_quiet (fun _ _ _ => ?_) _ ?_
    | refine foldl_quiet_fst (fun _ _ _ => ?_) _ ?_ | refine quiet_mk rfl rfl ?_

theorem State.bookShare_quiet (s : State) (x : EnergyShare) (uj : Nat) (hq : s.Quiet) : (State.bookShare s x uj).Quiet := by
  unfold State.bookShare
  try dsimp only
  repeat' with_reducible first | assumption | apply ite_quiet | split | refine quiet_mk rfl rfl ?_

theorem State.bookAll_quiet (s : State) (l : List EnergyShare) (sum total : Nat) (hq : s.Quiet) : (State.bookAll s l sum total).Quiet := by
  unfold State.bookAll
  try dsimp only
  repeat' with_reducible first
    | assumption | apply State.bookShare_quiet | refine foldl_quiet (fun _ _ _ => ?_) _ ?_ | refine foldl_quiet_fst (fun _ _ _ => ?_) _ ?_

theorem State.meterRailEnergy_quiet (s : State) (l : List (Rail × Nat)) (hq : s.Quiet) : (State.meterRailEnergy s l).Quiet := by
  unfold State.meterRailEnergy
  try dsimp only
  repeat' with_reducible first
    | assumption | refine foldl_quiet (fun _ _ _ => ?_) _ ?_ | refine foldl_quiet_fst (fun _ _ _ => ?_) _ ?_ | refine quiet_mk rfl rfl ?_

theorem State.compareMeters_quiet (s : State) (input rails : Nat) (hq : s.Quiet) : (State.compareMeters s input rails).Quiet := by
  unfold State.compareMeters
  try dsimp only
  repeat' with_reducible first | assumption | apply ite_quiet | split | refine quiet_mk rfl rfl ?_

end Sys2Proof.Machine
end

