-- ==== Sys2Proof/Laws/QuietCompute.lean ====
section
/-! SUPPORT. That no line stays asserted (R315), for the operations of pans, sluice paths, vector units, scaling, loading and links: one lemma for each. -/

namespace Sys2Proof.Machine

/-! ## Store -/

theorem State.memViolation_quiet (s : State) (code addr : Nat) (hq : s.Quiet) : (State.memViolation s code addr).Quiet := by
  unfold State.memViolation
  try dsimp only
  repeat' with_reducible first
    | assumption | apply State.setEnt_quiet | apply State.bump_quiet | apply State.violation_quiet
    | refine foldl_quiet (fun _ _ _ => ?_) _ ?_ | refine foldl_quiet_fst (fun _ _ _ => ?_) _ ?_ | apply ite_quiet | split

theorem State.stallSeals_quiet (s : State) (l : List (Nat × Nat)) (hq : s.Quiet) : (State.stallSeals s l).Quiet := by
  unfold State.stallSeals
  try dsimp only
  repeat' with_reducible first | assumption | apply State.bump_quiet | apply State.draw_quiet | apply ite_quiet | split

theorem State.dropUnits_quiet (s : State) (hq : s.Quiet) : (State.dropUnits s).Quiet := by
  unfold State.dropUnits
  repeat' with_reducible first | assumption | refine quiet_mk rfl rfl ?_

theorem State.goStale_quiet (s : State) (hq : s.Quiet) : (State.goStale s).Quiet :=
  State.setEnt_quiet _ _ _ (State.dropUnits_quiet s hq)

theorem State.copyBeforeWrite_quiet (s : State) (p : Nat) (hq : s.Quiet) : (State.copyBeforeWrite s p).Quiet := by
  unfold State.copyBeforeWrite
  try dsimp only
  repeat' with_reducible first | assumption | apply State.bump_quiet | apply State.draw_quiet | apply ite_quiet | split | refine quiet_mk rfl rfl ?_

theorem State.addDelta_quiet (s : State) (su : Option Nat) (d : Nat × Nat × Nat × List Byte)
    (hq : s.Quiet) : (State.addDelta s su d).1.Quiet := by
  unfold State.addDelta
  try dsimp only
  repeat' with_reducible first | assumption | apply State.goStale_quiet | apply ite_quiet_fst | apply ite_quiet | split | refine quiet_mk rfl rfl ?_

theorem State.storePiece_quiet (s : State) (su : Option Nat) (a : Nat) (l : List Byte)
    (hq : s.Quiet) : (State.storePiece s su a l).1.Quiet := by
  unfold State.storePiece
  try dsimp only
  repeat' with_reducible first
    | assumption | apply State.ramWrite_quiet | apply State.copyBeforeWrite_quiet | apply State.addDelta_quiet | apply ite_quiet_fst
    | apply ite_quiet | split

theorem State.storeIn_quiet (s : State) (su : Option Nat) (a : Nat) (l : List Byte) (hq : s.Quiet) : (State.storeIn s su a l).1.Quiet := by
  unfold State.storeIn
  try dsimp only
  repeat' with_reducible first
    | assumption | apply State.storePiece_quiet | refine foldl_quiet (fun _ _ _ => ?_) _ ?_ | refine foldl_quiet_fst (fun _ _ _ => ?_) _ ?_

theorem State.sendDeltas_quiet (s : State) (h : Nat) (x : SealUnit) (frames : List (List Byte))
    (hq : s.Quiet) : (State.sendDeltas s h x frames).Quiet := by
  unfold State.sendDeltas
  try dsimp only
  repeat' with_reducible first
    | assumption | apply State.sendFrame_quiet | refine foldl_quiet (fun _ _ _ => ?_) _ ?_ | refine foldl_quiet_fst (fun _ _ _ => ?_) _ ?_
    | apply ite_quiet | split | refine quiet_mk rfl rfl ?_

theorem State.closeSeal_quiet (s : State) (su : Option Nat) (chunk : Option (Nat × Nat))
    (hq : s.Quiet) : (State.closeSeal s su chunk).Quiet := by
  unfold State.closeSeal
  try dsimp only
  repeat' with_reducible first
    | assumption | apply State.bump_quiet | apply State.sendDeltas_quiet | refine foldl_quiet (fun _ _ _ => ?_) _ ?_
    | refine foldl_quiet_fst (fun _ _ _ => ?_) _ ?_ | apply ite_quiet | split | refine quiet_mk rfl rfl ?_

theorem State.storeUnit_quiet (s : State) (ws : List (Nat × List Byte)) (hq : s.Quiet) : (State.storeUnit s ws).Quiet := by
  unfold State.storeUnit
  try dsimp only
  repeat' with_reducible first
    | assumption | apply State.storeIn_quiet | apply State.closeSeal_quiet | refine foldl_quiet (fun _ _ _ => ?_) _ ?_
    | refine foldl_quiet_fst (fun _ _ _ => ?_) _ ?_

theorem State.ownWrite_quiet (s : State) (a : Nat) (l : List Byte) (hq : s.Quiet) : (State.ownWrite s a l).Quiet := by
  unfold State.ownWrite
  try dsimp only
  repeat' with_reducible first
    | assumption | apply State.memViolation_quiet | apply State.stallSeals_quiet | apply State.storeUnit_quiet | apply ite_quiet | split
    | refine quiet_mk rfl rfl ?_

theorem State.owe_quiet (s : State) (l : List (Nat × List Byte)) (hq : s.Quiet) : (State.owe s l).Quiet := by
  unfold State.owe
  repeat' with_reducible first | assumption | refine quiet_mk rfl rfl ?_

theorem State.drainOwn_quiet : ∀ (n : Nat) (s : State), s.Quiet → (State.drainOwn n s).Quiet
  | 0, _, h => h
  | n + 1, s, h => by
    unfold State.drainOwn
    split
    · exact h
    · split
      · exact State.stallSeals_quiet _ _ h
      · exact State.drainOwn_quiet n _ (State.owe_quiet _ _ (State.ownWrite_quiet _ _ _ (quiet_mk rfl rfl h)))

theorem State.drainOwed_quiet (s : State) (hq : s.Quiet) : (State.drainOwed s).Quiet := by
  unfold State.drainOwed
  repeat' with_reducible first | assumption | apply State.drainOwn_quiet

theorem State.sendMirror_quiet (s : State) (point : Nat) (l : List Byte) (hq : s.Quiet) : (State.sendMirror s point l).Quiet := by
  unfold State.sendMirror
  try dsimp only
  repeat' with_reducible first | assumption | apply State.sendBytes_quiet | apply ite_quiet | split | refine quiet_mk rfl rfl ?_

theorem State.refuseStep_quiet (s : State) (code a : Nat) (hq : s.Quiet) : (State.refuseStep s code a).Quiet := by
  unfold State.refuseStep
  try dsimp only
  repeat' with_reducible first | assumption | apply State.flagFault_quiet | apply State.memViolation_quiet | apply ite_quiet | split

theorem State.stepStore_quiet (s : State) (su : Option Nat) (a : Nat) (l : List Byte)
    (hq : s.Quiet) : (State.stepStore s su a l).1.Quiet := by
  unfold State.stepStore
  try dsimp only
  repeat' with_reducible first
    | assumption | apply State.storeIn_quiet | apply State.refuseStep_quiet | apply ite_quiet_fst | apply ite_quiet | split

/-! ## Operands -/

theorem State.rebuildFirst_quiet (s : State) (p : Nat) (hq : s.Quiet) : (State.rebuildFirst s p).Quiet := by
  unfold State.rebuildFirst
  repeat' with_reducible first | assumption | apply ite_quiet | split | refine quiet_mk rfl rfl ?_

/-- Waiting for a lost line asserts nothing. -/
theorem State.troubled_pending_quiet (s : State) (core q : Nat) (hq : s.Quiet) : (State.troubled s core (.pending q)).Quiet :=
  State.rebuildFirst_quiet s q hq

theorem State.rebuildLine_quiet (s : State) (p : Nat) (hq : s.Quiet) : (State.rebuildLine s p).Quiet := by
  unfold State.rebuildLine
  repeat' with_reducible first | assumption | apply State.setMapEntry_quiet | apply ite_quiet | split | refine quiet_mk rfl rfl ?_

theorem State.memEvent_quiet (s : State) (addr : Nat) (hq : s.Quiet) : (State.memEvent s addr).Quiet := by
  unfold State.memEvent
  repeat' with_reducible first | assumption | apply State.setEnt_quiet | apply State.bump_quiet

/-! ## Flags -/

theorem State.reportInvalid_quiet (s : State) (c layer n : Nat) (w : ExWindow)
    (hq : s.Quiet) : (State.reportInvalid s c layer n w).Quiet := by
  unfold State.reportInvalid
  try dsimp only
  repeat' with_reducible first | assumption | apply State.setCore_quiet | apply ite_quiet | split | refine quiet_mk rfl rfl ?_

theorem State.queueRecord_quiet (s : State) (c : Nat) (r : SalRec) (hq : s.Quiet) : (State.queueRecord s c r).Quiet := by
  unfold State.queueRecord
  repeat' with_reducible first | assumption | apply State.sendQueue_quiet

theorem State.joinRecord_quiet (s : State) (c : Nat) (r : SalRec) (hq : s.Quiet) : (State.joinRecord s c r).Quiet := by
  unfold State.joinRecord
  try dsimp only
  repeat' with_reducible first | assumption | apply State.setCore_quiet | refine quiet_mk rfl rfl ?_

theorem State.sendRecord_quiet (s : State) (c : Nat) (r : SalRec) (hq : s.Quiet) : (State.sendRecord s c r).Quiet := by
  unfold State.sendRecord
  repeat' with_reducible first | assumption | apply State.queueRecord_quiet | apply State.joinRecord_quiet

theorem State.holdRecord_quiet (s : State) (c key : Nat) (r : SalRec) (hq : s.Quiet) : (State.holdRecord s c key r).Quiet := by
  unfold State.holdRecord
  try dsimp only
  repeat' with_reducible first | assumption | apply State.setCore_quiet | apply State.queueRecord_quiet | refine quiet_mk rfl rfl ?_

theorem State.joinHeld_quiet (s : State) (c key : Nat) (hq : s.Quiet) : (State.joinHeld s c key).Quiet := by
  unfold State.joinHeld
  try dsimp only
  repeat' with_reducible first
    | assumption | apply State.setCore_quiet | apply State.joinRecord_quiet | refine foldl_quiet (fun _ _ _ => ?_) _ ?_
    | refine foldl_quiet_fst (fun _ _ _ => ?_) _ ?_ | refine quiet_mk rfl rfl ?_

theorem State.backwardSat_quiet (s : State) (hq : s.Quiet) : (State.backwardSat s).Quiet := by
  unfold State.backwardSat
  try dsimp only
  repeat' with_reducible first
    | assumption | apply State.bump_quiet | apply State.flagNonFinite_quiet | apply ite_quiet | split | refine quiet_mk rfl rfl ?_

theorem State.mapDesc_quiet (s : State) (pos : Nat) (f : DescRun → DescRun) (hq : s.Quiet) : (State.mapDesc s pos f).Quiet := by
  unfold State.mapDesc
  try dsimp only
  repeat' with_reducible first | assumption | apply ite_quiet | split | refine quiet_mk rfl rfl ?_

theorem State.unitFlags_quiet (s : State) (overflows : Nat) (k : Counts) (hq : s.Quiet) : (State.unitFlags s overflows k).Quiet := by
  unfold State.unitFlags
  try dsimp only
  repeat' with_reducible first | assumption | apply State.bump_quiet | apply State.flagNonFinite_quiet | apply ite_quiet | split

theorem State.unitSats_quiet (s : State) (pos : Nat) (backward : Bool) (k : Counts)
    (hq : s.Quiet) : (State.unitSats s pos backward k).Quiet := by
  unfold State.unitSats
  try dsimp only
  repeat' with_reducible first
    | assumption | apply State.backwardSat_quiet | apply State.mapDesc_quiet | apply ite_quiet | split | refine quiet_mk rfl rfl ?_

theorem State.markLayer_quiet (s : State) (l : Nat) (hq : s.Quiet) : (State.markLayer s l).Quiet := by
  unfold State.markLayer
  repeat' with_reducible first | assumption | apply State.setRake_quiet | refine quiet_mk rfl rfl ?_

/-! ## Plan -/

theorem State.finishUnit_quiet (s : State) (c engine pos number : Nat)
    (hq : s.Quiet) : (State.finishUnit s c engine pos number).Quiet := by
  unfold State.finishUnit
  try dsimp only
  repeat' with_reducible first
    | assumption | apply State.setCore_quiet | apply State.mapDesc_quiet | apply ite_quiet | split | refine quiet_mk rfl rfl ?_

theorem State.finishOutput_quiet (s : State) (c engine pos number : Nat)
    (hq : s.Quiet) : (State.finishOutput s c engine pos number).Quiet := by
  unfold State.finishOutput
  try dsimp only
  repeat' with_reducible first | assumption | apply State.joinHeld_quiet | apply State.finishUnit_quiet | apply ite_quiet | split

/-! ## Pans -/

theorem State.settlePreload_quiet (s : State) (c p : Nat) (hq : s.Quiet) : (State.settlePreload s c p).Quiet := by
  unfold State.settlePreload
  try dsimp only
  repeat' with_reducible first
    | assumption | apply State.setPan_quiet | refine foldl_quiet (fun _ _ _ => ?_) _ ?_ | refine foldl_quiet_fst (fun _ _ _ => ?_) _ ?_
    | apply ite_quiet | split | refine quiet_mk rfl rfl ?_

theorem State.settleBlock_quiet (s : State) (c pos block : Nat) (hq : s.Quiet) : (State.settleBlock s c pos block).Quiet := by
  unfold State.settleBlock
  try dsimp only
  repeat' with_reducible first
    | assumption | apply State.setCore_quiet | apply State.finishOutput_quiet | apply ite_quiet | split | refine quiet_mk rfl rfl ?_

theorem State.dropBlock_quiet (s : State) (c pos block : Nat) (hq : s.Quiet) : (State.dropBlock s c pos block).Quiet := by
  unfold State.dropBlock
  try dsimp only
  repeat' with_reducible first
    | assumption | apply State.setCore_quiet | apply State.joinHeld_quiet | apply State.settleBlock_quiet | apply ite_quiet | split
    | refine quiet_mk rfl rfl ?_

theorem State.tagFault_quiet (s : State) (c p : Nat) (x : TagSlip) (bit : Nat) (hq : s.Quiet) : (State.tagFault s c p x bit).Quiet := by
  unfold State.tagFault
  try dsimp only
  repeat' with_reducible first
    | assumption | apply State.bump_quiet | apply State.setPan_quiet | apply State.latchAll_quiet | apply ite_quiet | split
    | refine quiet_mk rfl rfl ?_

theorem State.runPass_quiet (s : State) (c p : Nat) (r : DescRun) (t : TileRun) (rows : TileBuf)
    (hq : s.Quiet) : (State.runPass s c p r t rows).Quiet := by
  unfold State.runPass
  try dsimp only
  repeat' with_reducible first
    | assumption | apply State.bump_quiet | apply State.draw_quiet | apply State.readQueue_quiet | apply State.setCore_quiet
    | apply State.setPan_quiet | apply ite_quiet | split | refine quiet_mk rfl rfl ?_

theorem State.waitRow_quiet (s : State) (c p : Nat) (hq : s.Quiet) : (State.waitRow s c p).Quiet := by
  unfold State.waitRow
  try dsimp only
  repeat' with_reducible first
    | assumption | apply State.bump_quiet | apply State.setPan_quiet | apply ite_quiet | split | refine quiet_mk rfl rfl ?_

theorem State.badRegister_quiet (s : State) (c p : Nat) (r : DescRun) (t : TileRun) (i : Nat)
    (hq : s.Quiet) : (State.badRegister s c p r t i).Quiet := by
  unfold State.badRegister
  try dsimp only
  repeat' with_reducible first
    | assumption | apply State.bump_quiet | apply State.setPan_quiet | apply State.latchAll_quiet | apply State.dropBlock_quiet | split
    | refine quiet_mk rfl rfl ?_

theorem State.takeShifts_quiet (s : State) (c p payload : Nat) (hq : s.Quiet) : (State.takeShifts s c p payload).Quiet := by
  unfold State.takeShifts
  try dsimp only
  repeat' with_reducible first | assumption | apply State.setPan_quiet | apply ite_quiet | split | refine quiet_mk rfl rfl ?_

theorem State.fillRow_quiet (s : State) (c p : Nat) (hq : s.Quiet) : (State.fillRow s c p).Quiet := by
  unfold State.fillRow
  try dsimp only
  repeat' with_reducible first
    | assumption | apply State.bump_quiet | apply State.setPan_quiet | apply ite_quiet | split | refine quiet_mk rfl rfl ?_

theorem State.reportTile_quiet (s : State) (c : Nat) (r : DescRun) (sr : SalRec) (w : ExWindow) (send : Bool)
    (hq : s.Quiet) : (State.reportTile s c r sr w send).Quiet := by
  unfold State.reportTile
  try dsimp only
  repeat' with_reducible first
    | assumption | apply State.reportInvalid_quiet | apply State.holdRecord_quiet | apply State.unitFlags_quiet | apply ite_quiet | split

theorem State.completeTile_quiet (s : State) (c p : Nat) (r : DescRun) (t : TileRun)
    (hq : s.Quiet) : (State.completeTile s c p r t).Quiet := by
  unfold State.completeTile
  try dsimp only
  repeat' with_reducible first
    | assumption | apply State.setCore_quiet | apply State.setPan_quiet | apply State.mapDesc_quiet | apply State.settleBlock_quiet
    | apply State.reportTile_quiet | refine foldl_quiet (fun _ _ _ => ?_) _ ?_ | refine foldl_quiet_fst (fun _ _ _ => ?_) _ ?_
    | apply ite_quiet | split | refine quiet_mk rfl rfl ?_

theorem State.storeRow_quiet (s : State) (su : Option Nat) (ws : List (Nat × List Byte))
    (hq : s.Quiet) : (State.storeRow s su ws).1.Quiet := by
  unfold State.storeRow
  try dsimp only
  repeat' with_reducible first
    | assumption | apply State.stepStore_quiet | refine foldl_quiet (fun _ _ _ => ?_) _ ?_ | refine foldl_quiet_fst (fun _ _ _ => ?_) _ ?_

theorem State.endRows_quiet (s : State) (c : Nat) (r : DescRun) (w : Writeback) (su : Option Nat)
    (hq : s.Quiet) : (State.endRows s c r w su).Quiet := by
  unfold State.endRows
  try dsimp only
  repeat' with_reducible first
    | assumption | apply State.closeSeal_quiet | apply State.holdRecord_quiet | apply State.mapDesc_quiet | refine quiet_mk rfl rfl ?_

theorem State.ackWriteback_quiet (s : State) (c p : Nat) (hq : s.Quiet) : (State.ackWriteback s c p).Quiet := by
  unfold State.ackWriteback
  try dsimp only
  repeat' with_reducible first
    | assumption | apply State.setPan_quiet | apply State.settleBlock_quiet | apply ite_quiet | split | refine quiet_mk rfl rfl ?_

theorem State.drainRow_quiet (s : State) (c p : Nat) (r : DescRun) (w : Writeback) (hq : s.Quiet) : (State.drainRow s c p r w).Quiet := by
  unfold State.drainRow
  try dsimp only
  repeat' with_reducible first
    | assumption | apply State.sendQueue_quiet | apply State.setPan_quiet | apply State.unitFlags_quiet | apply State.unitSats_quiet
    | apply State.storeRow_quiet | apply State.endRows_quiet | apply ite_quiet | split | refine quiet_mk rfl rfl ?_

/-! ## Sluice -/

theorem State.storeAll_quiet (s : State) (ws : List (Nat × List Byte)) (hq : s.Quiet) : (State.storeAll s ws).Quiet := by
  unfold State.storeAll
  try dsimp only
  repeat' with_reducible first | assumption | apply State.closeSeal_quiet | apply State.storeRow_quiet

theorem State.completePass_quiet (s : State) (c : Nat) (u : RunUnit) (r : DescRun)
    (hq : s.Quiet) : (State.completePass s c u r).Quiet := by
  unfold State.completePass
  try dsimp only
  repeat' with_reducible first
    | assumption | apply State.bump_quiet | apply State.draw_quiet | apply State.sendQueue_quiet | apply State.setCore_quiet
    | apply State.reportInvalid_quiet | apply State.holdRecord_quiet | apply State.mapDesc_quiet | apply State.unitFlags_quiet
    | apply State.unitSats_quiet | apply State.finishOutput_quiet | apply State.storeAll_quiet | refine foldl_quiet (fun _ _ _ => ?_) _ ?_
    | refine foldl_quiet_fst (fun _ _ _ => ?_) _ ?_ | apply ite_quiet | split | refine quiet_mk rfl rfl ?_

theorem State.dropPass_quiet (s : State) (c : Nat) (u : RunUnit) (r : DescRun) (hq : s.Quiet) : (State.dropPass s c u r).Quiet := by
  unfold State.dropPass
  repeat' with_reducible first | assumption | apply State.setCore_quiet | apply State.joinHeld_quiet | apply State.finishUnit_quiet

/-! ## Vector -/

theorem State.vectorTag_quiet (s : State) (c : Nat) (x : TagSlip) (hq : s.Quiet) : (State.vectorTag s c x).Quiet := by
  unfold State.vectorTag
  try dsimp only
  repeat' with_reducible first
    | assumption | apply State.bump_quiet | apply State.setCore_quiet | apply State.latchAll_quiet | apply ite_quiet | split
    | refine quiet_mk rfl rfl ?_

theorem State.updateSats_quiet (s : State) (r : DescRun) (counts : KV Counts) (hq : s.Quiet) : (State.updateSats s r counts).Quiet := by
  unfold State.updateSats
  try dsimp only
  repeat' with_reducible first
    | assumption | apply State.bump_quiet | apply State.condition_quiet | apply State.markLayer_quiet
    | refine foldl_quiet (fun _ _ _ => ?_) _ ?_ | refine foldl_quiet_fst (fun _ _ _ => ?_) _ ?_ | apply ite_quiet | split

theorem State.updateNonFinite_quiet (s : State) (r : DescRun) (counts : KV Counts)
    (hq : s.Quiet) : (State.updateNonFinite s r counts).Quiet := by
  unfold State.updateNonFinite
  try dsimp only
  repeat' with_reducible first | assumption | apply ite_quiet | split | refine quiet_mk rfl rfl ?_

theorem State.reduceEvent_quiet (s : State) (r : DescRun) (number : Nat) (x : Nat × Nat × Option Nat)
    (hq : s.Quiet) : (State.reduceEvent s r number x).Quiet := by
  unfold State.reduceEvent
  try dsimp only
  repeat' with_reducible first
    | assumption | apply State.reportInvalid_quiet | apply State.joinRecord_quiet | apply ite_quiet | split | refine quiet_mk rfl rfl ?_

theorem State.reportChunk_quiet (s : State) (c number : Nat) (r : DescRun) (x : ChunkRun) (counts : KV Counts)
    (hq : s.Quiet) : (State.reportChunk s c number r x counts).Quiet := by
  unfold State.reportChunk
  try dsimp only
  repeat' with_reducible first
    | assumption | apply State.reportInvalid_quiet | apply State.sendRecord_quiet | apply State.mapDesc_quiet | apply State.unitFlags_quiet
    | apply State.unitSats_quiet | apply State.updateSats_quiet | apply State.updateNonFinite_quiet | apply State.reduceEvent_quiet
    | refine foldl_quiet (fun _ _ _ => ?_) _ ?_ | refine foldl_quiet_fst (fun _ _ _ => ?_) _ ?_ | apply ite_quiet | split
    | refine quiet_mk rfl rfl ?_

theorem State.clearSlip_quiet (s : State) (c : Nat) (hq : s.Quiet) : (State.clearSlip s c).Quiet := by
  unfold State.clearSlip
  repeat' with_reducible first | assumption | apply State.setCore_quiet | refine quiet_mk rfl rfl ?_

theorem State.completeChunk_quiet (s : State) (c : Nat) (u : RunUnit) (r : DescRun) (chunk : Option (Nat × Nat))
    (hq : s.Quiet) : (State.completeChunk s c u r chunk).Quiet := by
  unfold State.completeChunk
  try dsimp only
  repeat' with_reducible first
    | assumption | apply State.closeSeal_quiet | apply State.mapDesc_quiet | apply State.finishUnit_quiet | apply State.storeRow_quiet
    | apply State.reportChunk_quiet | apply State.clearSlip_quiet | apply ite_quiet | split | refine quiet_mk rfl rfl ?_

theorem State.dropChunk_quiet (s : State) (c : Nat) (u : RunUnit) (r : DescRun) (y : Trouble)
    (hq : s.Quiet) : (State.dropChunk s c u r y).Quiet := by
  unfold State.dropChunk
  try dsimp only
  repeat' with_reducible first | assumption | apply State.latchAll_quiet | apply State.finishUnit_quiet | apply ite_quiet | split

/-! ## Scaling -/

theorem State.settleT_quiet (s : State) (i : Nat) (t : Int) (hq : s.Quiet) : (State.settleT s i t).Quiet := by
  unfold State.settleT
  try dsimp only
  repeat' with_reducible first | assumption | apply State.sendMirror_quiet | apply ite_quiet | split | refine quiet_mk rfl rfl ?_

theorem State.putNorm_quiet (s : State) (layer : Nat) (upd : Bool) (v : F32) (hq : s.Quiet) : (State.putNorm s layer upd v).Quiet := by
  unfold State.putNorm
  try dsimp only
  repeat' with_reducible first | assumption | apply ite_quiet | split | refine quiet_mk rfl rfl ?_

theorem State.endReduce_quiet (s : State) (r : DescRun) (k : KV Counts) (x : Bool × Nat × Nat)
    (hq : s.Quiet) : (State.endReduce s r k x).1.Quiet := by
  unfold State.endReduce
  try dsimp only
  repeat' with_reducible first
    | assumption | apply State.mapDesc_quiet | apply State.storeAll_quiet | apply State.putNorm_quiet | apply ite_quiet_fst
    | apply ite_quiet | split | refine quiet_mk rfl rfl ?_

theorem State.endVector_quiet (s : State) (r : DescRun) (hq : s.Quiet) : (State.endVector s r).Quiet := by
  unfold State.endVector
  try dsimp only
  repeat' with_reducible first
    | assumption | apply State.sendRecord_quiet | apply State.mapDesc_quiet | apply State.unitFlags_quiet | apply State.unitSats_quiet
    | apply State.updateSats_quiet | apply State.updateNonFinite_quiet | apply State.endReduce_quiet
    | refine foldl_quiet (fun _ _ _ => ?_) _ ?_ | refine foldl_quiet_fst (fun _ _ _ => ?_) _ ?_ | apply ite_quiet | split
    | refine quiet_mk rfl rfl ?_

theorem State.retireTotals_quiet (s : State) (pos attempt layer : Nat)
    (hq : s.Quiet) : (State.retireTotals s pos attempt layer).Quiet := by
  unfold State.retireTotals
  try dsimp only
  repeat' with_reducible first | assumption | refine quiet_mk rfl rfl ?_

theorem State.countRecompute_quiet (s : State) (layer : Nat) (hq : s.Quiet) : (State.countRecompute s layer).Quiet := by
  unfold State.countRecompute
  try dsimp only
  repeat' with_reducible first | assumption | apply State.bump_quiet | refine quiet_mk rfl rfl ?_

theorem State.retryProducer_quiet (s : State) (r : DescRun) (hq : s.Quiet) : (State.retryProducer s r).Quiet := by
  unfold State.retryProducer
  try dsimp only
  repeat' with_reducible first
    | assumption | apply State.mapDesc_quiet | apply State.retireTotals_quiet | apply State.countRecompute_quiet
    | refine foldl_quiet (fun _ _ _ => ?_) _ ?_ | refine foldl_quiet_fst (fun _ _ _ => ?_) _ ?_ | refine quiet_mk rfl rfl ?_

theorem State.stageTensor_quiet (s : State) (attempt : Nat) (e : Nat × F32) (hq : s.Quiet) : (State.stageTensor s attempt e).Quiet := by
  unfold State.stageTensor
  try dsimp only
  repeat' with_reducible first | assumption | apply ite_quiet | split | refine quiet_mk rfl rfl ?_

theorem State.freeDesc_quiet (s : State) (pos : Nat) (hq : s.Quiet) : (State.freeDesc s pos).Quiet := by
  unfold State.freeDesc
  try dsimp only
  repeat' with_reducible first | assumption | refine quiet_mk rfl rfl ?_

theorem State.keepPass_quiet (s : State) (pos : Nat) (hq : s.Quiet) : (State.keepPass s pos).Quiet := by
  unfold State.keepPass
  repeat' with_reducible first | assumption | refine quiet_mk rfl rfl ?_

theorem State.completeDesc_quiet (s : State) (r : DescRun) (hq : s.Quiet) : (State.completeDesc s r).Quiet := by
  unfold State.completeDesc
  try dsimp only
  repeat' with_reducible first
    | assumption | apply State.stageTensor_quiet | apply State.freeDesc_quiet | apply State.keepPass_quiet
    | refine foldl_quiet (fun _ _ _ => ?_) _ ?_ | refine foldl_quiet_fst (fun _ _ _ => ?_) _ ?_

theorem State.exhausted_quiet (s : State) (r : DescRun) (hq : s.Quiet) : (State.exhausted s r).Quiet := by
  unfold State.exhausted
  try dsimp only
  repeat' with_reducible first
    | assumption | apply State.bump_quiet | apply State.condition_quiet | apply State.markLayer_quiet | apply ite_quiet | split

theorem State.endProducers_quiet (s : State) (r : DescRun) (hq : s.Quiet) : (State.endProducers s r).Quiet := by
  unfold State.endProducers
  try dsimp only
  repeat' with_reducible first
    | assumption | apply State.endVector_quiet | refine foldl_quiet (fun _ _ _ => ?_) _ ?_ | refine foldl_quiet_fst (fun _ _ _ => ?_) _ ?_
    | split

theorem State.decideAttempt_quiet (s : State) (r : DescRun) (hq : s.Quiet) : (State.decideAttempt s r).Quiet := by
  unfold State.decideAttempt
  try dsimp only
  repeat' with_reducible first
    | assumption | apply State.retryProducer_quiet | apply State.completeDesc_quiet | apply State.exhausted_quiet
    | refine foldl_quiet (fun _ _ _ => ?_) _ ?_ | refine foldl_quiet_fst (fun _ _ _ => ?_) _ ?_ | apply ite_quiet | split

theorem State.presentT_quiet (s : State) (others : List (Nat × F32)) (e : Nat × F32)
    (hq : s.Quiet) : (State.presentT s others e).Quiet := by
  unfold State.presentT
  try dsimp only
  repeat' with_reducible first
    | assumption | apply State.settleT_quiet | refine foldl_quiet (fun _ _ _ => ?_) _ ?_ | refine foldl_quiet_fst (fun _ _ _ => ?_) _ ?_
    | apply ite_quiet | split

/-! ## Load -/

theorem State.freshRun_quiet (s : State) (g : Program) (hq : s.Quiet) : (State.freshRun s g).Quiet := by
  unfold State.freshRun
  try dsimp only
  repeat' with_reducible first | assumption | apply State.setEnt_quiet | refine quiet_mk rfl rfl ?_

theorem State.acceptProgram_quiet (s : State) (a : Nat) (hq : s.Quiet) : (State.acceptProgram s a).Quiet := by
  unfold State.acceptProgram
  try dsimp only
  repeat' with_reducible first
    | assumption | apply State.setEnt_quiet | apply State.protect_quiet | apply State.freshRun_quiet | refine quiet_mk rfl rfl ?_

theorem State.unload_quiet (s : State) (hq : s.Quiet) : (State.unload s).Quiet := by
  unfold State.unload
  repeat' with_reducible first | assumption | apply State.setEnt_quiet | apply State.protect_quiet | refine quiet_mk rfl rfl ?_

theorem State.startLoad_quiet (s : State) (hq : s.Quiet) : (State.startLoad s).Quiet := by
  unfold State.startLoad
  try dsimp only
  repeat' with_reducible first | assumption | apply State.setEnt_quiet | refine quiet_mk rfl rfl ?_

/-! ## Brine -/

theorem State.takeAck_quiet (s : State) (h : BrineHdr) (hq : s.Quiet) : (State.takeAck s h).Quiet := by
  unfold State.takeAck
  try dsimp only
  repeat' with_reducible first | assumption | apply State.setLane_quiet | refine quiet_mk rfl rfl ?_

theorem State.takeMask_quiet (s : State) (h : BrineHdr) (hq : s.Quiet) : (State.takeMask s h).Quiet := by
  unfold State.takeMask
  try dsimp only
  repeat' with_reducible first
    | assumption | apply State.reroutePath_quiet | refine foldl_quiet (fun _ _ _ => ?_) _ ?_
    | refine foldl_quiet_fst (fun _ _ _ => ?_) _ ?_ | refine quiet_mk rfl rfl ?_

theorem State.settleMirrors_quiet (s : State) (hq : s.Quiet) : (State.settleMirrors s).Quiet := by
  unfold State.settleMirrors
  repeat' with_reducible first | assumption | refine quiet_mk rfl rfl ?_

theorem State.takeHeader_quiet (s : State) (h : BrineHdr) (hq : s.Quiet) : (State.takeHeader s h).Quiet := by
  unfold State.takeHeader
  repeat' with_reducible first
    | assumption | apply State.bump_quiet | apply State.takeAck_quiet | apply State.takeMask_quiet | apply State.settleMirrors_quiet

theorem State.sendAck_quiet (s : State) (i dst : Nat) (hq : s.Quiet) : (State.sendAck s i dst).Quiet := by
  unfold State.sendAck
  repeat' with_reducible first | assumption | apply State.sendOn_quiet

theorem State.noteFrame_quiet (s : State) (h : BrineHdr) (hq : s.Quiet) : (State.noteFrame s h).Quiet := by
  unfold State.noteFrame
  try dsimp only
  repeat' with_reducible first
    | assumption | apply State.setLane_quiet | apply State.sendAck_quiet | apply ite_quiet | split | refine quiet_mk rfl rfl ?_

theorem State.receive_quiet (s : State) (b : BrineHdr) (f : State → State) (hz : s.Quiet) : (State.receive s b f).Quiet := by
  unfold State.receive
  have h1 := State.takeHeader_quiet s b hz
  dsimp only
  split
  · split
    · exact State.latchAll_quiet _
    · split
      · exact State.sendAck_quiet _ _ _ h1
      · exact State.sendOn_quiet _ _ _ h1
  · exact hz

theorem State.receiveFree_quiet (s : State) (b : BrineHdr) (f : State → State)
    (hz : s.Quiet) : (State.receiveFree s b f).Quiet := by
  unfold State.receiveFree
  split
  · exact State.latchAll_quiet _
  · exact hz

theorem State.resend_quiet (s : State) (i : Nat) (p : TxFrame → Bool) (hq : s.Quiet) : (State.resend s i p).Quiet := by
  unfold State.resend
  try dsimp only
  repeat' with_reducible first
    | assumption | apply State.bump_quiet | apply State.setLane_quiet | apply ite_quiet | split | refine quiet_mk rfl rfl ?_

/-! ## Collect -/

theorem State.mapColl_quiet (s : State) (pos : Nat) (f : Collective → Collective) (hq : s.Quiet) : (State.mapColl s pos f).Quiet := by
  unfold State.mapColl
  try dsimp only
  repeat' with_reducible first | assumption | apply ite_quiet | split | refine quiet_mk rfl rfl ?_

theorem State.rootAttempts_quiet : ∀ (n : Nat) (s : State) (r : DescRun) (b : CollBlock) (l : List F32), s.Quiet →
    (State.rootAttempts n s r b l).1.Quiet
  | 0, _, _, _, _, h => h
  | n + 1, s, r, b, l, h => by
    unfold State.rootAttempts
    split
    · exact State.rootAttempts_quiet n _ _ _ _ (State.countRecompute_quiet _ _ h)
    · exact h

theorem State.presentRoot_quiet (s : State) (r : DescRun) (vals : List F32) (hq : s.Quiet) : (State.presentRoot s r vals).Quiet := by
  unfold State.presentRoot
  try dsimp only
  repeat' with_reducible first | assumption | apply State.settleT_quiet | apply ite_quiet | split

theorem State.reportRoot_quiet (s : State) (r : DescRun) (k : Counts) (hq : s.Quiet) : (State.reportRoot s r k).Quiet := by
  unfold State.reportRoot
  try dsimp only
  repeat' with_reducible first
    | assumption | apply State.bump_quiet | apply State.condition_quiet | apply State.sendRecord_quiet | apply State.backwardSat_quiet
    | apply State.unitFlags_quiet | apply State.markLayer_quiet | apply State.completeDesc_quiet | apply ite_quiet | split
    | refine quiet_mk rfl rfl ?_

theorem State.dropColl_quiet (s : State) (pos : Nat) (hq : s.Quiet) : (State.dropColl s pos).Quiet := by
  unfold State.dropColl
  try dsimp only
  repeat' with_reducible first | assumption | refine quiet_mk rfl rfl ?_

theorem State.settleRoot_quiet (s : State) (r : DescRun) (b : CollBlock) (vals : List F32)
    (hq : s.Quiet) : (State.settleRoot s r b vals).Quiet := by
  unfold State.settleRoot
  try dsimp only
  repeat' with_reducible first
    | assumption | apply State.mapDesc_quiet | apply State.mapColl_quiet | apply State.rootAttempts_quiet | apply State.presentRoot_quiet
    | refine quiet_mk rfl rfl ?_

theorem State.storeOn_quiet : ∀ (l : List (Nat × List Byte)) (s : State) (n : Nat), s.Quiet → (State.storeOn l s n).1.Quiet
  | [], _, _, h => h
  | w :: t, s, n, h => by
    unfold State.storeOn
    split
    · exact State.stallSeals_quiet _ _ h
    · exact State.storeOn_quiet t _ _ (State.storeAll_quiet _ _ h)

theorem State.finishColl_quiet (s : State) (c : Collective) (r : DescRun) (b : CollBlock) (n : Nat) (parts : List (List Byte))
    (h : s.Quiet) : (State.finishColl s c r b n parts).Quiet := by
  unfold State.finishColl
  have h1 : (if c.settled then s else s.settleRoot r b (collVals b parts)).Quiet := ite_quiet h (State.settleRoot_quiet _ _ _ _ h)
  extract_lets s1 r1 w l x
  have h2 : x.1.Quiet := State.storeOn_quiet _ _ _ h1
  exact ite_quiet (State.mapColl_quiet _ _ _ h2)
    (ite_quiet (State.reportRoot_quiet _ _ _ (State.dropColl_quiet _ _ h2)) (State.completeDesc_quiet _ _ (State.dropColl_quiet _ _ h2)))

theorem State.reduceOwn_quiet (s : State) (c : Collective) (r : DescRun) (b : CollBlock) (n : Nat)
    (hq : s.Quiet) : (State.reduceOwn s c r b n).Quiet := by
  unfold State.reduceOwn
  try dsimp only
  repeat' with_reducible first
    | assumption | apply State.sendBytes_quiet | apply State.mapColl_quiet | refine foldl_quiet (fun _ _ _ => ?_) _ ?_
    | refine foldl_quiet_fst (fun _ _ _ => ?_) _ ?_ | apply ite_quiet | split | refine quiet_mk rfl rfl ?_

theorem State.advanceColl_quiet (s : State) (pos : Nat) (hq : s.Quiet) : (State.advanceColl s pos).Quiet := by
  unfold State.advanceColl
  try dsimp only
  repeat' with_reducible first
    | assumption | apply State.mapDesc_quiet | apply State.finishColl_quiet | apply State.reduceOwn_quiet | apply ite_quiet | split
    | refine quiet_mk rfl rfl ?_

theorem State.endWithout_quiet (s : State) (r : DescRun) (hq : s.Quiet) : (State.endWithout s r).Quiet := by
  unfold State.endWithout
  repeat' with_reducible first | assumption | apply State.completeDesc_quiet | apply State.dropColl_quiet | refine quiet_mk rfl rfl ?_

theorem State.contributeHollow_quiet (s : State) (r : DescRun) (hq : s.Quiet) : (State.contributeHollow s r).Quiet := by
  unfold State.contributeHollow
  try dsimp only
  repeat' with_reducible first
    | assumption | apply State.bump_quiet | apply State.sendFrame_quiet | apply State.endWithout_quiet
    | refine foldl_quiet (fun _ _ _ => ?_) _ ?_ | refine foldl_quiet_fst (fun _ _ _ => ?_) _ ?_ | refine quiet_mk rfl rfl ?_

theorem State.sendEmpty_quiet (s : State) (d : Desc) (pos : Nat) (hq : s.Quiet) : (State.sendEmpty s d pos).Quiet := by
  unfold State.sendEmpty
  try dsimp only
  repeat' with_reducible first
    | assumption | apply State.sendFrame_quiet | refine foldl_quiet (fun _ _ _ => ?_) _ ?_ | refine foldl_quiet_fst (fun _ _ _ => ?_) _ ?_
    | refine quiet_mk rfl rfl ?_

theorem State.deliver_quiet (s : State) (c : Collective) (h : BrineHdr) (hq : s.Quiet) : (State.deliver s c h).Quiet := by
  unfold State.deliver
  try dsimp only
  repeat' with_reducible first
    | assumption | apply State.bump_quiet | apply State.enterAbandon_quiet | apply State.mapColl_quiet | apply State.advanceColl_quiet
    | apply State.endWithout_quiet | apply ite_quiet | split

end Sys2Proof.Machine
end

