-- ==== Sys2Proof/Laws/QuietRest.lean ====
section
/-! SUPPORT. That no line stays asserted (R315), for the operations of the step, memory, the crust, the dictionary and the host link: one lemma for each. -/

namespace Sys2Proof.Machine

/-! ## StepStart -/

theorem State.rejectDescs_quiet (s : State) (g : Program) (l : List Nat) (hq : s.Quiet) : (State.rejectDescs s g l).Quiet := by
  unfold State.rejectDescs
  try dsimp only
  repeat' with_reducible first
    | assumption | apply State.bump_quiet | apply State.conditionAt_quiet | refine foldl_quiet (fun _ _ _ => ?_) _ ?_
    | refine foldl_quiet_fst (fun _ _ _ => ?_) _ ?_

theorem State.syncFormats_quiet (s : State) (g : Program) (rung : Nat → Nat) (hq : s.Quiet) : (State.syncFormats s g rung).Quiet := by
  unfold State.syncFormats
  try dsimp only
  repeat' with_reducible first | assumption | split | refine quiet_mk rfl rfl ?_

theorem State.presentNotice_quiet (s : State) (n reason : Nat) (hq : s.Quiet) : (State.presentNotice s n reason).Quiet := by
  unfold State.presentNotice
  repeat' with_reducible first | assumption | apply State.condition_quiet | apply ite_quiet | split

theorem State.chooseScales_quiet (s : State) (hq : s.Quiet) : (State.chooseScales s).Quiet := by
  unfold State.chooseScales
  try dsimp only
  repeat' with_reducible first
    | assumption | apply State.setEnt_quiet | apply State.condition_quiet | apply State.presentNotice_quiet
    | refine foldl_quiet (fun _ _ _ => ?_) _ ?_ | refine foldl_quiet_fst (fun _ _ _ => ?_) _ ?_ | apply ite_quiet | split
    | refine quiet_mk rfl rfl ?_

theorem State.layStream_quiet (s : State) (g : Program) (items : List Item) (hq : s.Quiet) : (State.layStream s g items).Quiet := by
  unfold State.layStream
  try dsimp only
  repeat' with_reducible first | assumption | refine quiet_mk rfl rfl ?_

theorem State.putReplay_quiet (s : State) (r : ReplayRec) (hq : s.Quiet) : (State.putReplay s r).Quiet := by
  unfold State.putReplay
  try dsimp only
  repeat' with_reducible first | assumption | apply State.sendMirror_quiet | apply ite_quiet | split | refine quiet_mk rfl rfl ?_

theorem State.sendStream_quiet (s : State) (stream page seg rank : Nat) (l : List Byte)
    (hq : s.Quiet) : (State.sendStream s stream page seg rank l).Quiet := by
  unfold State.sendStream
  try dsimp only
  repeat' with_reducible first | assumption | apply State.sendFrame_quiet | refine quiet_mk rfl rfl ?_

theorem State.startStream_quiet (s : State) (stream page : Nat) (l : List Byte)
    (hq : s.Quiet) : (State.startStream s stream page l).Quiet := by
  unfold State.startStream
  try dsimp only
  repeat' with_reducible first
    | assumption | apply State.sendStream_quiet | refine foldl_quiet (fun _ _ _ => ?_) _ ?_ | refine foldl_quiet_fst (fun _ _ _ => ?_) _ ?_

theorem State.startParity_quiet (s : State) (holder : Nat) (hq : s.Quiet) : (State.startParity s holder).Quiet := by
  unfold State.startParity
  try dsimp only
  repeat' with_reducible first
    | assumption | apply State.startStream_quiet | refine foldl_quiet (fun _ _ _ => ?_) _ ?_
    | refine foldl_quiet_fst (fun _ _ _ => ?_) _ ?_ | apply ite_quiet | split

theorem State.startResync_quiet (s : State) (hq : s.Quiet) : (State.startResync s).Quiet := by
  unfold State.startResync
  try dsimp only
  repeat' with_reducible first
    | assumption | apply State.setEnt_quiet | apply State.startParity_quiet | refine foldl_quiet (fun _ _ _ => ?_) _ ?_
    | refine foldl_quiet_fst (fun _ _ _ => ?_) _ ?_ | apply ite_quiet | split | refine quiet_mk rfl rfl ?_

theorem State.freshStep_quiet (s : State) (hq : s.Quiet) : (State.freshStep s).Quiet := by
  unfold State.freshStep
  try dsimp only
  repeat' with_reducible first | assumption | refine quiet_mk rfl rfl ?_

theorem State.refuseStart_quiet (s : State) (g : Program) (code : Nat) (l : List Nat)
    (hq : s.Quiet) : (State.refuseStart s g code l).s.Quiet := by
  unfold State.refuseStart
  try dsimp only
  repeat' with_reducible first | assumption | apply State.rejectDescs_quiet

theorem State.beginReplay_quiet (s : State) (g : Program) (r : ReplayRec) (hq : s.Quiet) : (State.beginReplay s g r).Quiet := by
  unfold State.beginReplay
  try dsimp only
  repeat' with_reducible first
    | assumption | apply State.setEnt_quiet | apply State.setPhase_quiet | apply State.layStream_quiet | apply State.freshStep_quiet
    | refine quiet_mk rfl rfl ?_

theorem State.replayRequest_quiet (s : State) (v : Nat) (hq : s.Quiet) : (State.replayRequest s v).s.Quiet := by
  unfold State.replayRequest
  try dsimp only
  repeat' with_reducible first
    | assumption | apply State.beginReplay_quiet | apply ite_quiet_s | apply ite_quiet | split | refine quiet_mk rfl rfl ?_

/-! ## Programs -/

theorem State.setStream_quiet (s : State) (d : Nat) (l : List Item) (hq : s.Quiet) : (State.setStream s d l).Quiet := by
  unfold State.setStream
  repeat' with_reducible first | assumption | apply ite_quiet | split | refine quiet_mk rfl rfl ?_

theorem State.admitItem_quiet (s : State) (d : Nat) (it : Item) (rest : List Item)
    (hq : s.Quiet) : (State.admitItem s d it rest).Quiet := by
  unfold State.admitItem
  try dsimp only
  repeat' with_reducible first
    | assumption | apply State.setEnt_quiet | apply State.setStream_quiet | apply ite_quiet | split | refine quiet_mk rfl rfl ?_

theorem State.noopUpdate_quiet (s : State) (r : DescRun) (hq : s.Quiet) : (State.noopUpdate s r).Quiet := by
  unfold State.noopUpdate
  try dsimp only
  repeat' with_reducible first
    | assumption | apply State.bump_quiet | apply State.condition_quiet | apply State.freeDesc_quiet | apply ite_quiet | split
    | refine quiet_mk rfl rfl ?_

theorem State.completeEmpty_quiet (s : State) (r : DescRun) (hq : s.Quiet) : (State.completeEmpty s r).Quiet := by
  unfold State.completeEmpty
  try dsimp only
  repeat' with_reducible first
    | assumption | apply State.bump_quiet | apply State.endWithout_quiet | apply State.sendEmpty_quiet | apply ite_quiet | split

theorem State.startBlock_quiet (s : State) (c : Nat) (r : DescRun) (number : Nat)
    (hq : s.Quiet) : (State.startBlock s c r number).Quiet := by
  unfold State.startBlock
  try dsimp only
  repeat' with_reducible first
    | assumption | apply State.setCore_quiet | apply State.setPan_quiet | apply State.dropShifts_quiet
    | refine foldl_quiet (fun _ _ _ => ?_) _ ?_ | refine foldl_quiet_fst (fun _ _ _ => ?_) _ ?_ | apply ite_quiet | split
    | refine quiet_mk rfl rfl ?_

theorem State.startUnit_quiet (s : State) (c engine : Nat) (r : DescRun) (number : Nat)
    (hq : s.Quiet) : (State.startUnit s c engine r number).Quiet := by
  unfold State.startUnit
  try dsimp only
  repeat' with_reducible first
    | assumption | apply State.setCore_quiet | apply State.mapDesc_quiet | apply State.startBlock_quiet | apply ite_quiet | split
    | refine quiet_mk rfl rfl ?_

theorem State.countPreemption_quiet (s : State) (hq : s.Quiet) : (State.countPreemption s).Quiet := by
  unfold State.countPreemption
  repeat' with_reducible first | assumption | apply State.setEnt_quiet | apply State.bump_quiet | apply State.draw_quiet

theorem State.copyTxn_quiet (s : State) (w : Nat × List Byte) (hq : s.Quiet) : (State.copyTxn s w).Quiet := by
  unfold State.copyTxn
  try dsimp only
  repeat' with_reducible first
    | assumption | apply State.flagFault_quiet | apply State.memViolation_quiet | apply State.storeUnit_quiet | apply ite_quiet | split

theorem State.copyOn_quiet : ∀ (l : List (Nat × List Byte)) (s : State) (n : Nat), s.Quiet → (State.copyOn l s n).1.Quiet
  | [], _, _, h => h
  | w :: t, s, n, h => by
    unfold State.copyOn
    split
    · exact State.stallSeals_quiet _ _ h
    · exact State.copyOn_quiet t _ _ (State.copyTxn_quiet _ _ h)

theorem State.setCluster_quiet (s : State) (k : Nat) (x : ClusterSt) (hq : s.Quiet) : (State.setCluster s k x).Quiet := by
  unfold State.setCluster
  repeat' with_reducible first | assumption | refine quiet_mk rfl rfl ?_

theorem State.takeSet_quiet (s : State) (rows : Bool) (buf : TileBuf) (c : Nat) (hq : s.Quiet) : (State.takeSet s rows buf c).Quiet := by
  unfold State.takeSet
  try dsimp only
  repeat' with_reducible first
    | assumption | apply State.setCore_quiet | apply State.settlePreload_quiet | refine foldl_quiet (fun _ _ _ => ?_) _ ?_
    | refine foldl_quiet_fst (fun _ _ _ => ?_) _ ?_

theorem State.deliverSet_quiet (s : State) (k set : Nat) (r : DescRun) (buf : TileBuf) (l : List (Nat × Nat))
    (hq : s.Quiet) : (State.deliverSet s k set r buf l).Quiet := by
  unfold State.deliverSet
  try dsimp only
  repeat' with_reducible first
    | assumption | apply State.bump_quiet | apply State.setCluster_quiet | apply State.takeSet_quiet
    | refine foldl_quiet (fun _ _ _ => ?_) _ ?_ | refine foldl_quiet_fst (fun _ _ _ => ?_) _ ?_ | apply ite_quiet | split
    | refine quiet_mk rfl rfl ?_

theorem State.fetchTrouble_quiet (s : State) (r : DescRun) (l : List (Nat × Nat)) (c : Nat) (y : Trouble)
    (hq : s.Quiet) : (State.fetchTrouble s r l c y).Quiet := by
  unfold State.fetchTrouble
  try dsimp only
  repeat' with_reducible first
    | assumption | apply State.latchAll_quiet | apply State.dropBlock_quiet | refine foldl_quiet (fun _ _ _ => ?_) _ ?_
    | refine foldl_quiet_fst (fun _ _ _ => ?_) _ ?_ | apply ite_quiet | split

/-! ## RakeDecide -/

theorem State.rollUp_quiet (s : State) (hq : s.Quiet) : (State.rollUp s).Quiet := by
  unfold State.rollUp
  try dsimp only
  repeat' with_reducible first
    | assumption | refine foldl_quiet (fun _ _ _ => ?_) _ ?_ | refine foldl_quiet_fst (fun _ _ _ => ?_) _ ?_ | refine quiet_mk rfl rfl ?_

theorem State.silentEvents_quiet (s : State) (l : Nat) (x : Silent) (v : DecVec) (hq : s.Quiet) : (State.silentEvents s l x v).Quiet := by
  unfold State.silentEvents
  try dsimp only
  repeat' with_reducible first | assumption | apply State.condition_quiet | apply ite_quiet | split

theorem State.changeWindows_quiet (s : State) (hq : s.Quiet) : (State.changeWindows s).Quiet := by
  unfold State.changeWindows
  try dsimp only
  repeat' with_reducible first
    | assumption | refine foldl_quiet (fun _ _ _ => ?_) _ ?_ | refine foldl_quiet_fst (fun _ _ _ => ?_) _ ?_ | refine quiet_mk rfl rfl ?_

theorem State.writeRing_quiet (s : State) (hq : s.Quiet) : (State.writeRing s).Quiet := by
  unfold State.writeRing
  try dsimp only
  repeat' with_reducible first
    | assumption | apply State.setEnt_quiet | apply State.memViolation_quiet | apply State.ownWrite_quiet | apply ite_quiet | split

theorem State.rakeOne_quiet (s : State) (g : Program) (committed : Bool) (l : Nat) (own v : DecVec)
    (hq : s.Quiet) : (State.rakeOne s g committed l own v).1.Quiet := by
  unfold State.rakeOne
  try dsimp only
  repeat' with_reducible first
    | assumption | apply State.bump_quiet | apply State.setRake_quiet | apply State.silentEvents_quiet | apply ite_quiet_fst
    | apply ite_quiet | split | refine quiet_mk rfl rfl ?_

theorem State.silentRaise_quiet (s : State) (due : Bool) (hq : s.Quiet) : (State.silentRaise s due).Quiet := by
  unfold State.silentRaise
  try dsimp only
  repeat' with_reducible first | assumption | apply State.setEnt_quiet | apply ite_quiet | split | refine quiet_mk rfl rfl ?_

theorem State.rakeAll_quiet (s : State) (g : Program) (committed : Bool) (vs : List (DecVec × DecVec))
    (hq : s.Quiet) : (State.rakeAll s g committed vs).1.Quiet := by
  unfold State.rakeAll
  try dsimp only
  repeat' with_reducible first
    | assumption | apply State.rakeOne_quiet | refine foldl_quiet (fun _ _ _ => ?_) _ ?_ | refine foldl_quiet_fst (fun _ _ _ => ?_) _ ?_

theorem State.runRake_quiet (s : State) (g : Program) (others : List RakeContribution)
    (hq : s.Quiet) : (State.runRake s g others).Quiet := by
  unfold State.runRake
  try dsimp only
  repeat' with_reducible first
    | assumption | apply State.syncFormats_quiet | apply State.silentRaise_quiet | apply State.rakeAll_quiet | refine quiet_mk rfl rfl ?_

theorem State.installFloors_quiet (s : State) (hq : s.Quiet) : (State.installFloors s).Quiet := by
  unfold State.installFloors
  try dsimp only
  repeat' with_reducible first
    | assumption | apply State.settlePending_quiet | refine foldl_quiet (fun _ _ _ => ?_) _ ?_
    | refine foldl_quiet_fst (fun _ _ _ => ?_) _ ?_ | refine quiet_mk rfl rfl ?_

/-! ## Train -/

theorem State.settleRecord_quiet (s : State) (i : Nat) (hq : s.Quiet) : (State.settleRecord s i).Quiet := by
  unfold State.settleRecord
  try dsimp only
  repeat' with_reducible first | assumption | apply ite_quiet | split | refine quiet_mk rfl rfl ?_

theorem State.moveCounters_quiet (s : State) (c : CommitRec) (grew : Bool) (hq : s.Quiet) : (State.moveCounters s c grew).Quiet := by
  unfold State.moveCounters
  try dsimp only
  repeat' with_reducible first | assumption | apply State.setEnt_quiet | refine quiet_mk rfl rfl ?_

theorem State.countOutcome_quiet (s : State) (outcome tokens : Nat) (hq : s.Quiet) : (State.countOutcome s outcome tokens).Quiet := by
  unfold State.countOutcome
  try dsimp only
  repeat' with_reducible first | assumption | apply State.setEnt_quiet | apply State.bump_quiet | apply ite_quiet | split

theorem State.dropResync_quiet (s : State) (hq : s.Quiet) : (State.dropResync s).Quiet := by
  unfold State.dropResync
  repeat' with_reducible first | assumption | apply State.goStale_quiet | apply ite_quiet | split | refine quiet_mk rfl rfl ?_

theorem State.askReset_quiet (s : State) (others : List RakeContribution) (hq : s.Quiet) : (State.askReset s others).Quiet := by
  unfold State.askReset
  try dsimp only
  repeat' with_reducible first | assumption | apply State.rakeReset_quiet | refine quiet_mk rfl rfl ?_

theorem State.startApply_quiet (s : State) (r : DescRun) (hq : s.Quiet) : (State.startApply s r).Quiet := by
  unfold State.startApply
  try dsimp only
  repeat' with_reducible first
    | assumption | apply State.bump_quiet | apply State.mapDesc_quiet | apply State.endVector_quiet | apply ite_quiet | split
    | refine quiet_mk rfl rfl ?_

theorem State.clearNorms_quiet (s : State) (hq : s.Quiet) : (State.clearNorms s).Quiet := by
  unfold State.clearNorms
  repeat' with_reducible first | assumption | apply ite_quiet | split | refine quiet_mk rfl rfl ?_

theorem State.adoptRake_quiet (s : State) (images : List RakeImage) (hq : s.Quiet) : (State.adoptRake s images).Quiet := by
  unfold State.adoptRake
  try dsimp only
  repeat' with_reducible first
    | assumption | apply State.condition_quiet | apply State.setRake_quiet | refine foldl_quiet (fun _ _ _ => ?_) _ ?_
    | refine foldl_quiet_fst (fun _ _ _ => ?_) _ ?_ | apply ite_quiet | split | refine quiet_mk rfl rfl ?_

theorem State.snapshotDue_quiet (s : State) (hq : s.Quiet) : (State.snapshotDue s).Quiet := by
  unfold State.snapshotDue
  try dsimp only
  repeat' with_reducible first
    | assumption | apply State.bump_quiet | apply State.condition_quiet | apply State.startSnapshot_quiet | apply ite_quiet | split

theorem State.lastEnergy_quiet (s : State) (hq : s.Quiet) : (State.lastEnergy s).Quiet := by
  unfold State.lastEnergy
  try dsimp only
  repeat' with_reducible first | assumption | apply State.setEnt_quiet | apply ite_quiet | split

theorem State.applyMask_quiet (s : State) (hq : s.Quiet) : (State.applyMask s).Quiet := by
  unfold State.applyMask
  repeat' with_reducible first | assumption | apply State.setEnt_quiet | apply ite_quiet | split

theorem State.tablesAtEnd_quiet (s : State) (images : List RakeImage) (hq : s.Quiet) : (State.tablesAtEnd s images).Quiet := by
  unfold State.tablesAtEnd
  try dsimp only
  repeat' with_reducible first
    | assumption | apply State.rakeReset_quiet | apply State.adoptRake_quiet | apply State.applyMask_quiet | apply ite_quiet | split

/-! ## HostMem -/

theorem State.setTc_quiet (s : State) (die : Nat) (l : List Nat) (hq : s.Quiet) : (State.setTc s die l).Quiet := by
  unfold State.setTc
  repeat' with_reducible first | assumption | apply ite_quiet | split | refine quiet_mk rfl rfl ?_

theorem State.fillTc_quiet (s : State) (die p : Nat) (hq : s.Quiet) : (State.fillTc s die p).Quiet := by
  unfold State.fillTc
  try dsimp only
  repeat' with_reducible first | assumption | apply State.draw_quiet | apply State.setTc_quiet | apply ite_quiet | split

theorem State.walk_quiet (s : State) (p : Nat) (hq : s.Quiet) : (State.walk s p).Quiet := by
  unfold State.walk
  try dsimp only
  repeat' with_reducible first | assumption | apply State.latchAll_quiet | apply ite_quiet | split | refine quiet_mk rfl rfl ?_

theorem State.translate_quiet (s : State) (die p : Nat) (hq : s.Quiet) : (State.translate s die p).Quiet := by
  unfold State.translate
  try dsimp only
  repeat' with_reducible first | assumption | apply State.bump_quiet | apply State.fillTc_quiet | apply State.walk_quiet | apply ite_quiet | split

theorem State.hostPart_quiet (s0 : State) (w : Nat × List Byte) (hq : s0.Quiet) : (State.hostPart s0 w).Quiet := by
  unfold State.hostPart
  try dsimp only
  repeat' with_reducible first
    | assumption | apply State.bump_quiet | apply State.memViolation_quiet | apply State.storeUnit_quiet | apply State.translate_quiet
    | apply ite_quiet | split | refine quiet_mk rfl rfl ?_

theorem State.drainParts_quiet : ∀ (n : Nat) (s : State), s.Quiet → (State.drainParts n s).Quiet
  | 0, _, h => h
  | n + 1, s, h => by
    unfold State.drainParts
    split
    · exact h
    · split
      · exact State.stallSeals_quiet _ _ h
      · exact State.drainParts_quiet n _ (State.hostPart_quiet _ _ (quiet_mk rfl rfl h))

theorem State.maskVector_quiet (s : State) (v : Nat) (on : Bool) (hq : s.Quiet) : (State.maskVector s v on).Quiet := by
  unfold State.maskVector
  try dsimp only
  repeat' with_reducible first | assumption | apply State.raiseVector_quiet | apply ite_quiet | split | refine quiet_mk rfl rfl ?_

theorem State.setSlot_quiet (s : State) (n : Nat) (x : MbxSlot) (hq : s.Quiet) : (State.setSlot s n x).Quiet := by
  unfold State.setSlot
  repeat' with_reducible first | assumption | refine quiet_mk rfl rfl ?_

theorem State.freeSlot_quiet (s : State) (n : Nat) (value : Byte) (hq : s.Quiet) : (State.freeSlot s n value).Quiet := by
  unfold State.freeSlot
  repeat' with_reducible first | assumption | apply State.setSlot_quiet | apply ite_quiet | split | refine quiet_mk rfl rfl ?_

theorem State.writeBar2_quiet (s : State) (off : Nat) (b : Byte) (hq : s.Quiet) : (State.writeBar2 s off b).Quiet := by
  unfold State.writeBar2
  try dsimp only
  repeat' with_reducible first
    | assumption | apply State.maskVector_quiet | apply State.setSlot_quiet | apply State.freeSlot_quiet | apply ite_quiet | split
    | refine quiet_mk rfl rfl ?_

theorem State.doorbell_quiet (s : State) (n : Nat) (message : List Byte) (hq : s.Quiet) : (State.doorbell s n message).Quiet := by
  unfold State.doorbell
  repeat' with_reducible first
    | assumption | apply State.bump_quiet | apply State.setSlot_quiet | apply ite_quiet | split | refine quiet_mk rfl rfl ?_

theorem State.configWrite_quiet (s : State) (w : ConfigWrite) (hq : s.Quiet) : (State.configWrite s w).Quiet := by
  unfold State.configWrite
  repeat' with_reducible first | assumption | split | refine quiet_mk rfl rfl ?_

theorem State.takeBar2_quiet (s : State) (w : Bar2Writes) (hq : s.Quiet) : (State.takeBar2 s w).Quiet := by
  unfold State.takeBar2
  try dsimp only
  repeat' with_reducible first
    | assumption | apply State.maskVector_quiet | apply State.writeBar2_quiet | refine foldl_quiet (fun _ _ _ => ?_) _ ?_
    | refine foldl_quiet_fst (fun _ _ _ => ?_) _ ?_ | split | refine quiet_mk rfl rfl ?_

theorem State.ring_quiet (s : State) (value : BitVec 32) (w : Bar2Writes) (hq : s.Quiet) : (State.ring s value w).Quiet := by
  unfold State.ring
  repeat' with_reducible first | assumption | apply State.doorbell_quiet | apply State.takeBar2_quiet | apply ite_quiet | split

/-! ## Arb -/

theorem State.endRun_quiet (s : State) (level inst resource rank : Nat)
    (hq : s.Quiet) : (State.endRun s level inst resource rank).Quiet := by
  unfold State.endRun
  try dsimp only
  repeat' with_reducible first | assumption | apply State.setArbCnt_quiet | apply ite_quiet | split | refine quiet_mk rfl rfl ?_

theorem State.countGrant_quiet (s : State) (level inst resource rank : Nat)
    (hq : s.Quiet) : (State.countGrant s level inst resource rank).Quiet := by
  unfold State.countGrant
  try dsimp only
  repeat' with_reducible first | assumption | apply State.setArbCnt_quiet | refine quiet_mk rfl rfl ?_

theorem State.setHold_quiet (s : State) (level inst resource : Nat) (h : Option Hold)
    (hq : s.Quiet) : (State.setHold s level inst resource h).Quiet := by
  unfold State.setHold
  repeat' with_reducible first | assumption | split | refine quiet_mk rfl rfl ?_

theorem State.cutHold_quiet (s : State) (level inst resource : Nat) (h : Hold)
    (hq : s.Quiet) : (State.cutHold s level inst resource h).Quiet := by
  unfold State.cutHold
  try dsimp only
  repeat' with_reducible first
    | assumption | apply State.bump_quiet | apply State.setArbCnt_quiet | apply State.setCollector_quiet | apply State.latchAll_quiet
    | apply State.setHold_quiet | refine quiet_mk rfl rfl ?_

theorem State.cutIfDue_quiet (s : State) (level inst resource : Nat) (hq : s.Quiet) : (State.cutIfDue s level inst resource).Quiet := by
  unfold State.cutIfDue
  repeat' with_reducible first | assumption | apply State.cutHold_quiet | apply ite_quiet | split

theorem State.setArbCycle_quiet (s : State) (level inst : Nat) (x : ArbCycle)
    (hq : s.Quiet) : (State.setArbCycle s level inst x).Quiet := by
  unfold State.setArbCycle
  repeat' with_reducible first | assumption | refine quiet_mk rfl rfl ?_

theorem State.turn_quiet (s : State) (level inst resource : Nat) (hq : s.Quiet) : (State.turn s level inst resource).Quiet := by
  unfold State.turn
  try dsimp only
  repeat' with_reducible first | assumption | apply State.setArbCycle_quiet | apply ite_quiet | split | refine quiet_mk rfl rfl ?_

theorem State.waitCycle_quiet (s : State) (level inst resource rank : Nat)
    (hq : s.Quiet) : (State.waitCycle s level inst resource rank).Quiet := by
  unfold State.waitCycle
  try dsimp only
  repeat' with_reducible first
    | assumption | apply State.setArbCnt_quiet | apply State.countWait_quiet | apply State.setArbCycle_quiet | apply ite_quiet | split
    | refine quiet_mk rfl rfl ?_

theorem State.countCycle_quiet (s : State) (level inst resource : Nat) (present : List Nat) (winner : Nat) (fresh : Bool)
    (hq : s.Quiet) : (State.countCycle s level inst resource present winner fresh).Quiet := by
  unfold State.countCycle
  try dsimp only
  repeat' with_reducible first
    | assumption | apply State.endRun_quiet | apply State.countGrant_quiet | apply State.turn_quiet | apply State.waitCycle_quiet
    | refine foldl_quiet (fun _ _ _ => ?_) _ ?_ | refine foldl_quiet_fst (fun _ _ _ => ?_) _ ?_ | apply ite_quiet | split

theorem State.selRank_quiet (s : State) (v : Nat) (hq : s.Quiet) : (State.selRank s v).s.Quiet := by
  unfold State.selRank
  try dsimp only
  repeat' with_reducible first | assumption | apply State.setEnt_quiet | apply ite_quiet_s | apply ite_quiet | split

theorem State.clearMax_quiet (s : State) (v : Nat) (hq : s.Quiet) : (State.clearMax s v).s.Quiet := by
  unfold State.clearMax
  try dsimp only
  repeat' with_reducible first | assumption | apply ite_quiet_s | apply ite_quiet | split | refine quiet_mk rfl rfl ?_

/-! ## Memory -/

theorem State.reqGo_quiet (s : State) (v : Nat) (hq : s.Quiet) : (State.reqGo s v).s.Quiet := by
  unfold State.reqGo
  try dsimp only
  repeat' with_reducible first | assumption | apply State.setEnt_quiet | apply ite_quiet_s | apply ite_quiet | split | refine quiet_mk rfl rfl ?_

theorem State.sendMapMirror_quiet (s : State) (hq : s.Quiet) : (State.sendMapMirror s).Quiet := by
  unfold State.sendMapMirror
  repeat' with_reducible first | assumption | apply State.sendMirror_quiet | apply ite_quiet | split | refine quiet_mk rfl rfl ?_

theorem State.failReq_quiet (s : State) (code : Nat) (hq : s.Quiet) : (State.failReq s code).Quiet := by
  unfold State.failReq
  try dsimp only
  repeat' with_reducible first
    | assumption | apply State.setEnt_quiet | apply State.raiseVector_quiet | apply State.violation_quiet | apply State.sendMapMirror_quiet
    | refine quiet_mk rfl rfl ?_

theorem State.passReq_quiet (s : State) (pages : List Nat) (hq : s.Quiet) : (State.passReq s pages).Quiet := by
  unfold State.passReq
  try dsimp only
  repeat' with_reducible first
    | assumption | apply State.setEnt_quiet | refine foldl_quiet (fun _ _ _ => ?_) _ ?_ | refine foldl_quiet_fst (fun _ _ _ => ?_) _ ?_
    | refine quiet_mk rfl rfl ?_

theorem State.processReq_quiet (s : State) (op : Nat) (code : State → MapReq → Nat) (act : State → MapReq → State)
    (hz : s.Quiet) : (State.processReq s op code act).Quiet := by
  unfold State.processReq
  dsimp only
  refine ite_quiet (ite_quiet ?_ ?_) hz
  · exact State.latchAll_quiet _
  · exact State.latchAll_quiet _

theorem State.placeAll_quiet (s : State) (tier dev : Nat) (skip : State → Nat → Bool)
    (put : State → Nat → Nat × Nat × Nat → State) (pages : List Nat)
    (hf : ∀ (s : State) (p : Nat) (y : Nat × Nat × Nat), s.Quiet → (put s p y).Quiet) (hz : s.Quiet) :
    (State.placeAll s tier dev skip put pages).1.Quiet := by
  unfold State.placeAll
  refine foldl_quiet_fst (fun a p ha => ?_) _ hz
  split
  · exact ha
  · split
    · exact ha
    · split
      · exact ha
      · exact hf _ _ _ ha

theorem State.foldPage_quiet (s : State) (p : Nat) (hq : s.Quiet) : (State.foldPage s p).Quiet := by
  unfold State.foldPage
  try dsimp only
  repeat' with_reducible first | assumption | apply State.addDelta_quiet | apply State.closeSeal_quiet | apply ite_quiet | split

theorem State.foldPages_quiet (cover : Bool) (act : State → Nat → State) (hf : ∀ (s : State) (p : Nat), s.Quiet → (act s p).Quiet) :
    ∀ (l : List Nat) (s : State) (n : Nat), s.Quiet → (State.foldPages cover act l s n).1.Quiet
  | [], _, _, h => h
  | p :: t, s, n, h => by
    unfold State.foldPages
    split
    · exact State.draw_quiet _ (State.bump_quiet _ _ _ _ h)
    · exact State.foldPages_quiet cover act hf t _ _ (hf _ _ h)

theorem State.processFold_quiet (s : State) (op : Nat) (cover : Bool) (code : State → MapReq → Nat) (act : State → Nat → State)
    (hf : ∀ (s : State) (p : Nat), s.Quiet → (act s p).Quiet) (h : s.Quiet) : (State.processFold s op cover code act).Quiet := by
  unfold State.processFold
  extract_lets r c x
  have hx : x.1.Quiet := State.foldPages_quiet cover act hf _ _ _ h
  refine ite_quiet (ite_quiet ?_ (ite_quiet ?_ ?_)) h
  · exact State.latchAll_quiet _
  · exact State.latchAll_quiet _
  · exact State.latchAll_quiet _

theorem State.mapPage_quiet (ro cc : Bool) (s : State) (p : Nat) (y : Nat × Nat × Nat)
    (hq : s.Quiet) : (State.mapPage ro cc s p y).Quiet := by
  unfold State.mapPage
  try dsimp only
  repeat' with_reducible first | assumption | apply State.setMapEntry_quiet | apply State.zeroPage_quiet | apply State.clearLines_quiet

theorem State.mapRun_quiet (s : State) (r : MapReq) (hq : s.Quiet) : (State.mapRun s r).1.Quiet := by
  unfold State.mapRun
  try dsimp only
  repeat' with_reducible first | assumption | apply State.placeAll_quiet | apply State.mapPage_quiet

theorem State.dropPage_quiet (s : State) (p : Nat) (hq : s.Quiet) : (State.dropPage s p).Quiet := by
  unfold State.dropPage
  repeat' with_reducible first | assumption | apply State.unmapPage_quiet | apply State.copyBeforeWrite_quiet | apply State.foldPage_quiet

theorem State.startCopy_quiet (s : State) (p : Nat) (y : Nat × Nat × Nat) (hq : s.Quiet) : (State.startCopy s p y).Quiet := by
  unfold State.startCopy
  try dsimp only
  repeat' with_reducible first | assumption | apply State.setMapEntry_quiet | apply ite_quiet | split | refine quiet_mk rfl rfl ?_

theorem State.nextCopies_quiet (s : State) (hq : s.Quiet) : (State.nextCopies s).Quiet := by
  unfold State.nextCopies
  try dsimp only
  repeat' with_reducible first
    | assumption | apply State.startCopy_quiet | refine foldl_quiet (fun _ _ _ => ?_) _ ?_ | refine foldl_quiet_fst (fun _ _ _ => ?_) _ ?_
    | apply ite_quiet | split

theorem State.migrateRun_quiet (s : State) (r : MapReq) (hq : s.Quiet) : (State.migrateRun s r).1.Quiet := by
  unfold State.migrateRun
  try dsimp only
  repeat' with_reducible first | assumption | apply State.placeAll_quiet | apply State.startCopy_quiet

theorem State.flagPages_quiet (s : State) (r : MapReq) (f : MapEntry → MapEntry) (hq : s.Quiet) : (State.flagPages s r f).Quiet := by
  unfold State.flagPages
  try dsimp only
  repeat' with_reducible first
    | assumption | apply State.setMapEntry_quiet | refine foldl_quiet (fun _ _ _ => ?_) _ ?_
    | refine foldl_quiet_fst (fun _ _ _ => ?_) _ ?_

theorem State.coverPage_quiet (s : State) (p : Nat) (hq : s.Quiet) : (State.coverPage s p).Quiet := by
  unfold State.coverPage
  repeat' with_reducible first
    | assumption | apply State.setMapEntry_quiet | apply State.foldPage_quiet | apply ite_quiet | split | refine quiet_mk rfl rfl ?_

theorem State.uncoverPage_quiet (s : State) (p : Nat) (hq : s.Quiet) : (State.uncoverPage s p).Quiet := by
  unfold State.uncoverPage
  try dsimp only
  repeat' with_reducible first
    | assumption | apply State.setMapEntry_quiet | apply State.copyBeforeWrite_quiet | apply State.foldPage_quiet | apply ite_quiet | split
    | refine quiet_mk rfl rfl ?_

theorem State.discardReads_quiet (s : State) (c : Nat) (hq : s.Quiet) : (State.discardReads s c).Quiet := by
  unfold State.discardReads
  try dsimp only
  repeat' with_reducible first
    | assumption | apply State.finishUnit_quiet | apply State.dropBlock_quiet | apply State.dropPass_quiet
    | refine foldl_quiet (fun _ _ _ => ?_) _ ?_ | refine foldl_quiet_fst (fun _ _ _ => ?_) _ ?_ | apply ite_quiet | split

theorem State.refuseTxn_quiet (s : State) (r : MemReq) (code : Nat) (hq : s.Quiet) : (State.refuseTxn s r code).Quiet := by
  unfold State.refuseTxn
  try dsimp only
  repeat' with_reducible first | assumption | apply State.flagFault_quiet | apply State.memViolation_quiet | apply ite_quiet | split

theorem State.notePeak_quiet (s : State) (die : Nat) (hq : s.Quiet) : (State.notePeak s die).Quiet := by
  unfold State.notePeak
  repeat' with_reducible first | assumption | apply State.setEnt_quiet

theorem State.delayTxn_quiet (s : State) (r : MemReq) (full : Bool) (hq : s.Quiet) : (State.delayTxn s r full).Quiet := by
  unfold State.delayTxn
  try dsimp only
  repeat' with_reducible first
    | assumption | apply State.bump_quiet | apply State.draw_quiet | apply State.countWait_quiet | apply State.rebuildFirst_quiet
    | apply ite_quiet | split | refine quiet_mk rfl rfl ?_

theorem State.stallTxn_quiet (s : State) (r : MemReq) (hq : s.Quiet) : (State.stallTxn s r).Quiet := by
  unfold State.stallTxn
  repeat' with_reducible first | assumption | apply State.stallSeals_quiet | apply ite_quiet | split

theorem State.completeTxns_quiet (s : State) (die n : Nat) (hq : s.Quiet) : (State.completeTxns s die n).Quiet := by
  unfold State.completeTxns
  try dsimp only
  repeat' with_reducible first
    | assumption | refine foldl_quiet (fun _ _ _ => ?_) _ ?_ | refine foldl_quiet_fst (fun _ _ _ => ?_) _ ?_ | refine quiet_mk rfl rfl ?_

theorem State.completeTxn_quiet (s : State) (t : Txn) (hq : s.Quiet) : (State.completeTxn s t).Quiet := by
  unfold State.completeTxn
  try dsimp only
  repeat' with_reducible first | assumption | apply ite_quiet | split | refine quiet_mk rfl rfl ?_

theorem State.bearPoison_quiet (s : State) (by_ : Reader) (addr : Nat) (hq : s.Quiet) : (State.bearPoison s by_ addr).Quiet := by
  unfold State.bearPoison
  repeat' with_reducible first | assumption | apply State.flagFault_quiet | apply State.discardReads_quiet | split | refine quiet_mk rfl rfl ?_

theorem State.poisonLine_quiet (s : State) (addr : Nat) (hq : s.Quiet) : (State.poisonLine s addr).Quiet := by
  unfold State.poisonLine
  repeat' with_reducible first | assumption | refine quiet_mk rfl rfl ?_

theorem State.cxlCorrected_quiet : ∀ (n : Nat) (s : State) (d : Nat), s.Quiet → (State.cxlCorrected n s d).Quiet
  | 0, _, _, h => h
  | n + 1, _, d, _ => State.cxlCorrected_quiet n _ d (State.latchAll_quiet _)

theorem State.stackRebuilt_quiet (s : State) (st : Nat) (hq : s.Quiet) : (State.stackRebuilt s st).Quiet := by
  unfold State.stackRebuilt
  repeat' with_reducible first | assumption | apply State.setStack_quiet | apply ite_quiet | split | refine quiet_mk rfl rfl ?_

/-! ## Queues -/

theorem State.setQueue_quiet (s : State) (q : QueueId) (x : QueueSt) (hq : s.Quiet) : (State.setQueue s q x).Quiet := by
  unfold State.setQueue
  repeat' with_reducible first | assumption | apply State.setQueueAt_quiet

theorem State.failOldest_quiet (s : State) (q : QueueId) (hq : s.Quiet) : (State.failOldest s q).Quiet := by
  unfold State.failOldest
  repeat' with_reducible first | assumption | apply State.violation_quiet | apply State.completeTxn_quiet | split

theorem State.stallAt_quiet (s : State) (q : QueueId) (hq : s.Quiet) : (State.stallAt s q).Quiet := by
  unfold State.stallAt
  repeat' with_reducible first | assumption | apply State.countWait_quiet | apply State.stallQueue_quiet | apply State.stallSender_quiet | split

theorem State.seeEntry_quiet (s : State) (q : QueueId) (payload : Nat) (hq : s.Quiet) : (State.seeEntry s q payload).Quiet := by
  unfold State.seeEntry
  try dsimp only
  repeat' with_reducible first
    | assumption | apply State.readQueue_quiet | apply State.setPan_quiet | apply State.setQueue_quiet | apply ite_quiet | split
    | refine quiet_mk rfl rfl ?_

theorem State.shiftsArrive_quiet (s : State) (c p : Nat) (q : QueueId) (parityOk : Bool)
    (hq : s.Quiet) : (State.shiftsArrive s c p q parityOk).Quiet := by
  unfold State.shiftsArrive
  repeat' with_reducible first
    | assumption | apply State.latchAll_quiet | apply State.dropBlock_quiet | apply State.seeEntry_quiet | apply ite_quiet | split

theorem State.entryRead_quiet (s : State) (q : QueueId) (fresh : Bool) (payload : Nat)
    (hq : s.Quiet) : (State.entryRead s q fresh payload).Quiet := by
  unfold State.entryRead
  repeat' with_reducible first | assumption | apply State.takeShifts_quiet | apply State.ackWriteback_quiet | apply ite_quiet | split

theorem State.syncEffect_quiet (s : State) (b : SyncBit) (level : Bool) (hq : s.Quiet) : (State.syncEffect s b level).Quiet := by
  unfold State.syncEffect
  repeat' with_reducible first | assumption | apply ite_quiet | split | refine quiet_mk rfl rfl ?_

/-! ## Swaps -/

theorem State.countSwap_quiet (s : State) (key entry : Nat) (hq : s.Quiet) : (State.countSwap s key entry).Quiet := by
  unfold State.countSwap
  try dsimp only
  repeat' with_reducible first | assumption | apply State.setEnt_quiet | apply State.bump_quiet | refine quiet_mk rfl rfl ?_

/-! ## Image -/

theorem State.loadScales_quiet (s : State) (l : List Byte) (hq : s.Quiet) : (State.loadScales s l).Quiet := by
  unfold State.loadScales
  try dsimp only
  repeat' with_reducible first | assumption | refine quiet_mk rfl rfl ?_

theorem State.loadRake_quiet (s : State) (l : List Byte) (hq : s.Quiet) : (State.loadRake s l).Quiet := by
  unfold State.loadRake
  try dsimp only
  repeat' with_reducible first | assumption | refine quiet_mk rfl rfl ?_

theorem State.loadGroups_quiet (s : State) (l : List Byte) (hq : s.Quiet) : (State.loadGroups s l).Quiet := by
  unfold State.loadGroups
  try dsimp only
  repeat' with_reducible first | assumption | refine quiet_mk rfl rfl ?_

theorem State.loadReplay_quiet (s : State) (r : ReplayRec) (hq : s.Quiet) : (State.loadReplay s r).Quiet := by
  unfold State.loadReplay
  repeat' with_reducible first | assumption | apply State.ring_quiet | apply ite_quiet | split | refine quiet_mk rfl rfl ?_

theorem State.checkResume_quiet (s : State) (hq : s.Quiet) : (State.checkResume s).Quiet := by
  unfold State.checkResume
  try dsimp only
  repeat' with_reducible first | assumption | apply State.setEnt_quiet | apply ite_quiet | split

theorem State.realign_quiet (s : State) (hq : s.Quiet) : (State.realign s).Quiet := by
  unfold State.realign
  try dsimp only
  repeat' with_reducible first | assumption | apply State.setEnt_quiet | apply State.condition_quiet | apply State.checkResume_quiet

theorem State.mapListed_quiet (s : State) (w : Nat) (hq : s.Quiet) : (State.mapListed s w).Quiet := by
  unfold State.mapListed
  try dsimp only
  repeat' with_reducible first
    | assumption | apply State.setMapEntry_quiet | apply State.mapPage_quiet | apply ite_quiet | split | refine quiet_mk rfl rfl ?_

theorem State.loadValues_quiet (s : State) (l : List Byte) (hq : s.Quiet) : (State.loadValues s l).Quiet := by
  unfold State.loadValues
  try dsimp only
  repeat' with_reducible first
    | assumption | apply State.setEnt_quiet | refine foldl_quiet (fun _ _ _ => ?_) _ ?_ | refine foldl_quiet_fst (fun _ _ _ => ?_) _ ?_
    | apply ite_quiet | split

theorem State.resumeLambda_quiet (s : State) (r : ReplayRec) (hq : s.Quiet) : (State.resumeLambda s r).Quiet := by
  unfold State.resumeLambda
  repeat' with_reducible first | assumption | apply State.setEnt_quiet | apply ite_quiet | split

theorem State.applyImage_quiet (s : State) (x : Image) (hq : s.Quiet) : (State.applyImage s x).Quiet := by
  unfold State.applyImage
  try dsimp only
  repeat' with_reducible first
    | assumption | apply State.protect_quiet | apply State.loadScales_quiet | apply State.loadRake_quiet | apply State.loadGroups_quiet
    | apply State.loadReplay_quiet | apply State.checkResume_quiet | apply State.mapListed_quiet | apply State.loadValues_quiet
    | apply State.resumeLambda_quiet | refine foldl_quiet (fun _ _ _ => ?_) _ ?_ | refine foldl_quiet_fst (fun _ _ _ => ?_) _ ?_ | split
    | refine quiet_mk rfl rfl ?_

theorem State.exportTo_quiet (s : State) (a : Nat) (l : List Byte) (hq : s.Quiet) : (State.exportTo s a l).s.Quiet := by
  unfold State.exportTo
  try dsimp only
  repeat' with_reducible first | assumption | apply State.ownWrite_quiet | apply ite_quiet_s | apply ite_quiet | split

theorem State.exportImage_quiet (s : State) (hq : s.Quiet) : (State.exportImage s).s.Quiet := by
  unfold State.exportImage
  try dsimp only
  repeat' with_reducible first | assumption | apply State.exportTo_quiet

theorem State.importImage_quiet (s : State) (hq : s.Quiet) : (State.importImage s).s.Quiet := by
  unfold State.importImage
  try dsimp only
  repeat' with_reducible first | assumption | apply State.applyImage_quiet | apply ite_quiet_s | apply ite_quiet | split | refine quiet_mk rfl rfl ?_

theorem State.exportReplay_quiet (s : State) (hq : s.Quiet) : (State.exportReplay s).s.Quiet := by
  unfold State.exportReplay
  try dsimp only
  repeat' with_reducible first
    | assumption | apply State.ring_quiet | apply State.exportTo_quiet | apply ite_quiet_s | apply ite_quiet | split
    | refine quiet_mk rfl rfl ?_

theorem State.restoreStep_quiet (s : State) (v : Nat) (hq : s.Quiet) : (State.restoreStep s v).s.Quiet := by
  unfold State.restoreStep
  try dsimp only
  repeat' with_reducible first
    | assumption | apply State.setEnt_quiet | apply State.applyImage_quiet | apply ite_quiet_s | apply ite_quiet | split
    | refine quiet_mk rfl rfl ?_

theorem State.restorePage_quiet (s : State) (x : Nat × List Host.Cell) (hq : s.Quiet) : (State.restorePage s x).Quiet := by
  unfold State.restorePage
  try dsimp only
  repeat' with_reducible first
    | assumption | apply State.zeroPage_quiet | apply State.clearLines_quiet | refine foldl_quiet (fun _ _ _ => ?_) _ ?_
    | refine foldl_quiet_fst (fun _ _ _ => ?_) _ ?_ | refine quiet_mk rfl rfl ?_

/-! ## Crust -/

theorem State.becomeFresh_quiet (s : State) (hq : s.Quiet) : (State.becomeFresh s).Quiet := by
  unfold State.becomeFresh
  repeat' with_reducible first | assumption | apply State.setEnt_quiet

theorem State.ackUnit_quiet (s : State) (rank unit seg : Nat) (hq : s.Quiet) : (State.ackUnit s rank unit seg).Quiet := by
  unfold State.ackUnit
  repeat' with_reducible first | assumption | apply State.sendFrame_quiet | refine quiet_mk rfl rfl ?_

theorem State.holdDelta_quiet (s : State) (rank : Nat) (h : BrineHdr) (hq : s.Quiet) : (State.holdDelta s rank h).Quiet := by
  unfold State.holdDelta
  try dsimp only
  repeat' with_reducible first | assumption | apply State.ackUnit_quiet | apply ite_quiet | split | refine quiet_mk rfl rfl ?_

theorem State.sendSeals_quiet (s : State) (x : SealUnit) (hq : s.Quiet) : (State.sendSeals s x).Quiet := by
  unfold State.sendSeals
  try dsimp only
  repeat' with_reducible first
    | assumption | apply State.sendFrame_quiet | refine foldl_quiet (fun _ _ _ => ?_) _ ?_ | refine foldl_quiet_fst (fun _ _ _ => ?_) _ ?_
    | refine quiet_mk rfl rfl ?_

theorem State.unitAcked_quiet (s : State) (x : SealUnit) (rank : Nat) (hq : s.Quiet) : (State.unitAcked s x rank).Quiet := by
  unfold State.unitAcked
  try dsimp only
  repeat' with_reducible first | assumption | apply State.sendSeals_quiet | apply ite_quiet | split | refine quiet_mk rfl rfl ?_

theorem State.applyUnit_quiet (s : State) (rank unit : Nat) (hq : s.Quiet) : (State.applyUnit s rank unit).Quiet := by
  unfold State.applyUnit
  try dsimp only
  repeat' with_reducible first
    | assumption | apply State.ramWrite_quiet | refine foldl_quiet (fun _ _ _ => ?_) _ ?_ | refine foldl_quiet_fst (fun _ _ _ => ?_) _ ?_
    | refine quiet_mk rfl rfl ?_

theorem State.dropParts_quiet (s : State) (k : Nat) (hq : s.Quiet) : (State.dropParts s k).Quiet := by
  unfold State.dropParts
  try dsimp only
  repeat' with_reducible first | assumption | refine quiet_mk rfl rfl ?_

theorem State.takeMapped_quiet (s : State) (w : Nat) (hq : s.Quiet) : (State.takeMapped s w).Quiet := by
  unfold State.takeMapped
  try dsimp only
  repeat' with_reducible first | assumption | apply State.unmapPage_quiet | apply State.mapListed_quiet | apply ite_quiet | split

theorem State.takeSegment_quiet (s : State) (stream page seg : Nat) (l : List Byte)
    (hq : s.Quiet) : (State.takeSegment s stream page seg l).Quiet := by
  unfold State.takeSegment
  try dsimp only
  repeat' with_reducible first
    | assumption | apply State.bump_quiet | apply State.ramWrite_quiet | apply ite_quiet | split | refine quiet_mk rfl rfl ?_

theorem State.settleHeld_quiet (s : State) (rank : Nat) (sealedUnits : List Nat)
    (hq : s.Quiet) : (State.settleHeld s rank sealedUnits).Quiet := by
  unfold State.settleHeld
  try dsimp only
  repeat' with_reducible first
    | assumption | apply State.applyUnit_quiet | refine foldl_quiet (fun _ _ _ => ?_) _ ?_ | refine foldl_quiet_fst (fun _ _ _ => ?_) _ ?_
    | apply ite_quiet | split | refine quiet_mk rfl rfl ?_

theorem State.setGroup_quiet (s : State) (g : Nat) (e : Group) (hq : s.Quiet) : (State.setGroup s g e).Quiet := by
  unfold State.setGroup
  try dsimp only
  repeat' with_reducible first | assumption | refine quiet_mk rfl rfl ?_

theorem State.sendMap_quiet (s : State) (rank spare : Nat) (hq : s.Quiet) : (State.sendMap s rank spare).Quiet := by
  unfold State.sendMap
  repeat' with_reducible first | assumption | apply State.sendBytes_quiet | apply ite_quiet | split | refine quiet_mk rfl rfl ?_

theorem State.serveSpare_quiet (s : State) (rank lost spare : Nat) (hq : s.Quiet) : (State.serveSpare s rank lost spare).Quiet := by
  unfold State.serveSpare
  try dsimp only
  repeat' with_reducible first
    | assumption | apply State.sendFrame_quiet | apply State.sendBytes_quiet | refine foldl_quiet (fun _ _ _ => ?_) _ ?_
    | refine foldl_quiet_fst (fun _ _ _ => ?_) _ ?_ | apply ite_quiet | split | refine quiet_mk rfl rfl ?_

theorem State.startRebuild_quiet (s : State) (hq : s.Quiet) : (State.startRebuild s).Quiet := by
  unfold State.startRebuild
  try dsimp only
  repeat' with_reducible first
    | assumption | apply State.startStream_quiet | apply State.startParity_quiet | refine foldl_quiet (fun _ _ _ => ?_) _ ?_
    | refine foldl_quiet_fst (fun _ _ _ => ?_) _ ?_ | apply ite_quiet | split

theorem State.beginRebuild_quiet (s : State) (rank slot : Nat) (hq : s.Quiet) : (State.beginRebuild s rank slot).Quiet := by
  unfold State.beginRebuild
  repeat' with_reducible first | assumption | apply State.setEnt_quiet | refine quiet_mk rfl rfl ?_

theorem State.installEpoch_quiet (s : State) (g rank lost spare : Nat)
    (hq : s.Quiet) : (State.installEpoch s g rank lost spare).Quiet := by
  unfold State.installEpoch
  try dsimp only
  repeat' with_reducible first
    | assumption | apply State.setGroup_quiet | apply State.sendMap_quiet | apply State.serveSpare_quiet | apply State.beginRebuild_quiet
    | apply ite_quiet | split

theorem State.changeEpochs_quiet (s : State) (lost spare : Nat) (hq : s.Quiet) : (State.changeEpochs s lost spare).Quiet := by
  unfold State.changeEpochs
  try dsimp only
  repeat' with_reducible first
    | assumption | apply State.sendFrame_quiet | apply State.installEpoch_quiet | refine foldl_quiet (fun _ _ _ => ?_) _ ?_
    | refine foldl_quiet_fst (fun _ _ _ => ?_) _ ?_ | refine quiet_mk rfl rfl ?_

theorem State.lossEndsStep_quiet (s : State) (mirrored : Bool) (hq : s.Quiet) : (State.lossEndsStep s mirrored).Quiet := by
  unfold State.lossEndsStep
  repeat' with_reducible first | assumption | apply State.noOutcome_quiet | apply ite_quiet | split

theorem State.takeChange_quiet (s : State) (h : BrineHdr) (hq : s.Quiet) : (State.takeChange s h).Quiet := by
  unfold State.takeChange
  try dsimp only
  repeat' with_reducible first
    | assumption | apply State.setEnt_quiet | apply State.sendFrame_quiet | apply State.installEpoch_quiet | apply ite_quiet | split
    | refine quiet_mk rfl rfl ?_

theorem State.takeMirror_quiet (s : State) (rank point : Nat) (l : List Byte)
    (hq : s.Quiet) : (State.takeMirror s rank point l).Quiet := by
  unfold State.takeMirror
  try dsimp only
  repeat' with_reducible first
    | assumption | apply State.takeMapped_quiet | apply State.takeChange_quiet | refine foldl_quiet (fun _ _ _ => ?_) _ ?_
    | refine foldl_quiet_fst (fun _ _ _ => ?_) _ ?_ | apply ite_quiet | split | refine quiet_mk rfl rfl ?_

theorem State.takePart_quiet (s : State) (rank : Nat) (h : BrineHdr) (hq : s.Quiet) : (State.takePart s rank h).Quiet := by
  unfold State.takePart
  try dsimp only
  repeat' with_reducible first
    | assumption | apply State.dropParts_quiet | apply State.takeMirror_quiet | apply ite_quiet | split | refine quiet_mk rfl rfl ?_

theorem State.loadGroupsM3_quiet (s : State) (l : List Byte) (hq : s.Quiet) : (State.loadGroupsM3 s l).Quiet := by
  unfold State.loadGroupsM3
  try dsimp only
  repeat' with_reducible first
    | assumption | refine foldl_quiet (fun _ _ _ => ?_) _ ?_ | refine foldl_quiet_fst (fun _ _ _ => ?_) _ ?_ | apply ite_quiet | split
    | refine quiet_mk rfl rfl ?_

theorem State.loadM3_quiet (s : State) (x : M3Parts) (hq : s.Quiet) : (State.loadM3 s x).Quiet := by
  unfold State.loadM3
  try dsimp only
  repeat' with_reducible first
    | assumption | apply State.setEnt_quiet | apply State.loadScales_quiet | apply State.loadRake_quiet | apply State.loadGroupsM3_quiet
    | refine quiet_mk rfl rfl ?_

theorem State.loadM1_quiet (s : State) (r : ReplayRec) (hq : s.Quiet) : (State.loadM1 s r).Quiet := by
  unfold State.loadM1
  try dsimp only
  repeat' with_reducible first | assumption | apply State.setEnt_quiet | apply State.loadReplay_quiet

theorem State.loadRun_quiet (s : State) (r : ReplayRec) (hq : s.Quiet) : (State.loadRun s r).Quiet := by
  unfold State.loadRun
  repeat' with_reducible first | assumption | apply State.setEnt_quiet | apply State.loadReplay_quiet

theorem State.resumeStep_quiet (s : State) (g : Program) (r : ReplayRec) (m2 : List Byte) (ledger : List (Nat × Nat))
    (hq : s.Quiet) : (State.resumeStep s g r m2 ledger).Quiet := by
  unfold State.resumeStep
  try dsimp only
  repeat' with_reducible first
    | assumption | apply State.setPhase_quiet | apply State.syncFormats_quiet | apply State.layStream_quiet | apply State.freshStep_quiet
    | apply ite_quiet | split | refine quiet_mk rfl rfl ?_

theorem State.standAtRank_quiet (s : State) (hq : s.Quiet) : (State.standAtRank s).Quiet := by
  unfold State.standAtRank
  repeat' with_reducible first
    | assumption | apply State.setEnt_quiet | apply State.handled_quiet | apply State.becomeFresh_quiet | refine quiet_mk rfl rfl ?_

/-! ## FaultCmds -/

theorem State.reloadValue_quiet (s : State) (k : Nat) (hq : s.Quiet) : (State.reloadValue s k).Quiet := by
  unfold State.reloadValue
  repeat' with_reducible first | assumption | apply State.bump_quiet | refine quiet_mk rfl rfl ?_

theorem State.mirrorOne_quiet (s : State) (seq : Nat) (hq : s.Quiet) : (State.mirrorOne s seq).Quiet := by
  unfold State.mirrorOne
  try dsimp only
  repeat' with_reducible first | assumption | split | refine quiet_mk rfl rfl ?_

/-! ## EntryAccess -/

theorem State.respond_quiet (s : State) (code space addr k : Nat) (hq : s.Quiet) : (State.respond s code space addr k).Quiet := by
  unfold State.respond
  try dsimp only
  repeat' with_reducible first | assumption | apply State.violation_quiet | apply State.latchAll_quiet | apply ite_quiet | split

theorem State.checkStored_quiet (s : State) (k : Nat) (hq : s.Quiet) : (State.checkStored s k).Quiet := by
  unfold State.checkStored
  try dsimp only
  repeat' with_reducible first | assumption | apply State.latchAll_quiet | apply State.walk_quiet | apply ite_quiet | split

theorem State.holdPending_quiet (s : State) (k v : Nat) (hq : s.Quiet) : (State.holdPending s k v).Quiet := by
  unfold State.holdPending
  try dsimp only
  repeat' with_reducible first | assumption | refine quiet_mk rfl rfl ?_

theorem State.progLoad_quiet (s : State) (v : Nat) (hq : s.Quiet) : (State.progLoad s v).s.Quiet := by
  unfold State.progLoad
  try dsimp only
  repeat' with_reducible first
    | assumption | apply State.unload_quiet | apply State.startLoad_quiet | apply ite_quiet_s | apply ite_quiet | split
    | refine quiet_mk rfl rfl ?_

theorem State.exportRecords_quiet (s : State) (hq : s.Quiet) : (State.exportRecords s).s.Quiet := by
  unfold State.exportRecords
  try dsimp only
  repeat' with_reducible first | assumption | apply State.exportTo_quiet | apply ite_quiet_s | apply ite_quiet | split

theorem State.ackFault_quiet (s : State) (v : Nat) (hq : s.Quiet) : (State.ackFault s v).s.Quiet := by
  unfold State.ackFault
  try dsimp only
  repeat' with_reducible first | assumption | apply State.ackSeq_quiet | apply ite_quiet_s | apply ite_quiet | split | refine quiet_mk rfl rfl ?_

theorem State.selClear_quiet (s : State) (hq : s.Quiet) : (State.selClear s).s.Quiet := by
  unfold State.selClear
  try dsimp only
  repeat' with_reducible first
    | assumption | apply State.setCollector_quiet | apply ite_quiet_s | apply ite_quiet | split | refine quiet_mk rfl rfl ?_

theorem State.resetWindow_quiet (s : State) (hq : s.Quiet) : (State.resetWindow s).Quiet := by
  unfold State.resetWindow
  repeat' with_reducible first | assumption | apply State.setEnt_quiet | refine quiet_mk rfl rfl ?_

theorem State.setNotify_quiet (s : State) (v : Nat) (hq : s.Quiet) : (State.setNotify s v).Quiet := by
  unfold State.setNotify
  repeat' with_reducible first | assumption | apply State.setEnt_quiet | apply ite_quiet | split | refine quiet_mk rfl rfl ?_

theorem State.freezeWindows_quiet (s : State) (v : Nat) (hq : s.Quiet) : (State.freezeWindows s v).Quiet := by
  unfold State.freezeWindows
  try dsimp only
  repeat' with_reducible first | assumption | apply State.setEnt_quiet | apply ite_quiet | split | refine quiet_mk rfl rfl ?_

theorem State.journalWrite_quiet (s : State) (r : EntryRow) (k v : Nat) (hq : s.Quiet) : (State.journalWrite s r k v).Quiet := by
  unfold State.journalWrite
  repeat' with_reducible first | assumption | apply ite_quiet | split | refine quiet_mk rfl rfl ?_

theorem State.failItem_quiet (s : State) (code space addr k : Nat) (hq : s.Quiet) : (State.failItem s code space addr k).1.Quiet := by
  unfold State.failItem
  try dsimp only
  repeat' with_reducible first | assumption | apply State.respond_quiet | split | refine quiet_mk rfl rfl ?_

theorem State.readItem_quiet (s : State) (k : Nat) (pend : Bool) (hq : s.Quiet) : (State.readItem s k pend).1.Quiet := by
  unfold State.readItem
  try dsimp only
  repeat' with_reducible first
    | assumption | apply State.draw_quiet | apply State.checkStored_quiet | apply State.failItem_quiet | apply ite_quiet_fst
    | apply ite_quiet | split | refine quiet_mk rfl rfl ?_

theorem State.writeItem_quiet (s : State) (k ty v compl : Nat) (hq : s.Quiet) : (State.writeItem s k ty v compl).1.Quiet := by
  unfold State.writeItem
  try dsimp only
  repeat' with_reducible first
    | assumption | apply State.latchAll_quiet | apply State.journalWrite_quiet | apply State.failItem_quiet | apply ite_quiet_fst
    | apply ite_quiet | split | refine quiet_mk rfl rfl ?_

theorem State.describeItem_quiet (s : State) (k : Nat) (hq : s.Quiet) : (State.describeItem s k).1.Quiet := by
  unfold State.describeItem
  try dsimp only
  repeat' with_reducible first | assumption | apply State.failItem_quiet | apply ite_quiet_fst | apply ite_quiet | split | refine quiet_mk rfl rfl ?_

theorem State.failSeg_quiet (s : State) (code k : Nat) (x : Seg) (hq : s.Quiet) : (State.failSeg s code k x).1.Quiet := by
  unfold State.failSeg
  try dsimp only
  repeat' with_reducible first | assumption | apply State.respond_quiet

theorem State.readSeg_quiet (s : State) (x : Seg) (hq : s.Quiet) : (State.readSeg s x).1.Quiet := by
  unfold State.readSeg
  try dsimp only
  repeat' with_reducible first
    | assumption | apply State.checkStored_quiet | apply State.failSeg_quiet | apply ite_quiet_fst | apply ite_quiet | split
    | refine quiet_mk rfl rfl ?_

theorem State.dropTransfer_quiet (s : State) (src : Nat) (hq : s.Quiet) : (State.dropTransfer s src).Quiet := by
  unfold State.dropTransfer
  try dsimp only
  repeat' with_reducible first | assumption | refine quiet_mk rfl rfl ?_

theorem State.writeBlob_quiet (s : State) (k : Nat) (l : List Byte) (hq : s.Quiet) : (State.writeBlob s k l).s.Quiet := by
  unfold State.writeBlob
  try dsimp only
  repeat' with_reducible first | assumption | apply State.setGroup_quiet | apply ite_quiet_s | apply ite_quiet | split | refine quiet_mk rfl rfl ?_

theorem State.writeSeg_quiet (s : State) (src : Nat) (x : Seg) (hq : s.Quiet) : (State.writeSeg s src x).1.Quiet := by
  unfold State.writeSeg
  try dsimp only
  repeat' with_reducible first
    | assumption | apply State.latchAll_quiet | apply State.journalWrite_quiet | apply State.failSeg_quiet | apply State.dropTransfer_quiet
    | apply State.writeBlob_quiet | apply ite_quiet_fst | apply ite_quiet | split | refine quiet_mk rfl rfl ?_

/-! ## Messages -/

theorem State.doItem_quiet (s : State) (op : Nat) (it : List Byte) (hq : s.Quiet) : (State.doItem s op it).1.Quiet := by
  unfold State.doItem
  try dsimp only
  repeat' with_reducible first
    | assumption | apply State.readItem_quiet | apply State.writeItem_quiet | apply State.describeItem_quiet | apply ite_quiet_fst
    | apply ite_quiet | split

theorem State.doItems_quiet : ∀ (s : State) (op n : Nat) (b : List Byte), s.Quiet → (State.doItems s op n b).1.Quiet
  | _, _, 0, _, h => h
  | s, op, n + 1, b, h => State.doItems_quiet _ op n _ (State.doItem_quiet s op _ h)

theorem State.perform_quiet (s : State) (src : Nat) (h : MsgHdr) (hq : s.Quiet) : (State.perform s src h).1.Quiet := by
  unfold State.perform
  try dsimp only
  repeat' with_reducible first
    | assumption | apply State.readSeg_quiet | apply State.writeSeg_quiet | apply State.doItems_quiet | apply ite_quiet_fst
    | apply ite_quiet | split

theorem State.answer_quiet (s : State) (src : Nat) (sent : Bool) (h : MsgHdr) (hq : s.Quiet) : (State.answer s src sent h).1.Quiet := by
  unfold State.answer
  try dsimp only
  repeat' with_reducible first | assumption | apply State.perform_quiet | apply ite_quiet_fst | apply ite_quiet | split | refine quiet_mk rfl rfl ?_

theorem State.slotDone_quiet (s : State) (n : Nat) (x : MbxSlot) (hq : s.Quiet) : (State.slotDone s n x).Quiet := by
  unfold State.slotDone
  try dsimp only
  repeat' with_reducible first | assumption | apply State.raiseVector_quiet | apply State.setSlot_quiet | apply ite_quiet | split

theorem State.mailboxNext_quiet (s : State) (hq : s.Quiet) : (State.mailboxNext s).Quiet := by
  unfold State.mailboxNext
  try dsimp only
  repeat' with_reducible first
    | assumption | apply State.bump_quiet | apply State.answer_quiet | apply State.slotDone_quiet | apply ite_quiet | split
    | refine quiet_mk rfl rfl ?_

theorem State.mailboxRequest_quiet (s : State) (op : Nat) (hq : s.Quiet) : (State.mailboxRequest s op).Quiet := by
  unfold State.mailboxRequest
  try dsimp only
  repeat' with_reducible first | assumption | apply State.mailboxNext_quiet | apply ite_quiet | split

theorem State.drainMailbox_quiet : ∀ (n : Nat) (s : State), s.Quiet → (State.drainMailbox n s).Quiet
  | 0, _, h => h
  | n + 1, _, h => State.drainMailbox_quiet n _ (State.mailboxNext_quiet _ h)

theorem State.dropFrame_quiet (s : State) (hq : s.Quiet) : (State.dropFrame s).Quiet := by
  unfold State.dropFrame
  repeat' with_reducible first | assumption | apply State.bump_quiet

theorem State.checkClaim_quiet (s : State) (src mac : Nat) (hq : s.Quiet) : (State.checkClaim s src mac).Quiet := by
  unfold State.checkClaim
  repeat' with_reducible first | assumption | apply State.conditionAt_quiet | apply ite_quiet | split

theorem State.queueResponse_quiet (s : State) (dst : FieldAddr) (b : List Byte) (hq : s.Quiet) : (State.queueResponse s dst b).Quiet := by
  unfold State.queueResponse
  repeat' with_reducible first | assumption | apply ite_quiet | split | refine quiet_mk rfl rfl ?_

theorem State.fieldRequest_quiet (s : State) (op : Nat) (p : FieldPacket) (hq : s.Quiet) : (State.fieldRequest s op p).Quiet := by
  unfold State.fieldRequest
  try dsimp only
  repeat' with_reducible first
    | assumption | apply State.bump_quiet | apply State.answer_quiet | apply State.drainMailbox_quiet | apply State.dropFrame_quiet
    | apply State.checkClaim_quiet | apply State.queueResponse_quiet | apply ite_quiet | split

theorem State.request_quiet (s : State) (op : Nat) (src : IxSource) (hq : s.Quiet) : (State.request s op src).Quiet := by
  unfold State.request
  repeat' with_reducible first | assumption | apply State.mailboxRequest_quiet | apply State.fieldRequest_quiet | apply ite_quiet | split

theorem State.bar2_quiet (s : State) (f : State → State) (hf : ∀ s : State, s.Quiet → (f s).Quiet) (hq : s.Quiet) : (s.bar2 f).Quiet := by
  unfold State.bar2
  exact ite_quiet (quiet_mk rfl rfl hq) (ite_quiet (hf s hq) hq)

theorem State.takeId_quiet (s : State) (id : Nat) (hq : s.Quiet) : (State.takeId s id).Quiet := by
  unfold State.takeId
  repeat' with_reducible first | assumption | apply State.setEnt_quiet | refine quiet_mk rfl rfl ?_

theorem State.vectorOne_quiet (s : State) (hq : s.Quiet) : (State.vectorOne s).Quiet := by
  unfold State.vectorOne
  repeat' with_reducible first | assumption | apply State.raiseVector_quiet | apply ite_quiet | split | refine quiet_mk rfl rfl ?_

theorem State.fieldNotify_quiet (s : State) (hq : s.Quiet) : (State.fieldNotify s).Quiet := by
  unfold State.fieldNotify
  repeat' with_reducible first | assumption | apply ite_quiet | split | refine quiet_mk rfl rfl ?_

/-! ## HostLink -/

theorem State.resetMailbox_quiet (s : State) (hq : s.Quiet) : (State.resetMailbox s).Quiet := by
  unfold State.resetMailbox
  try dsimp only
  repeat' with_reducible first | assumption | refine quiet_mk rfl rfl ?_

theorem State.resetFunction_quiet (s : State) (hq : s.Quiet) : (State.resetFunction s).Quiet := by
  unfold State.resetFunction
  repeat' with_reducible first | assumption | apply State.setEnt_quiet | apply State.resetMailbox_quiet | refine quiet_mk rfl rfl ?_

theorem State.resetPort_quiet (s : State) (hq : s.Quiet) : (State.resetPort s).Quiet := by
  unfold State.resetPort
  repeat' with_reducible first | assumption | apply State.hostDown_quiet | apply State.resetFunction_quiet

theorem State.cxlRuns_quiet (s : State) (d rate width : Nat) (hq : s.Quiet) : (State.cxlRuns s d rate width).Quiet := by
  unfold State.cxlRuns
  try dsimp only
  repeat' with_reducible first
    | assumption | apply State.condition_quiet | apply State.latchAll_quiet | apply ite_quiet | split | refine quiet_mk rfl rfl ?_

theorem State.hostUp_quiet (s : State) (rate width : Nat) (hq : s.Quiet) : (State.hostUp s rate width).Quiet := by
  unfold State.hostUp
  try dsimp only
  repeat' with_reducible first
    | assumption | apply State.bump_quiet | apply State.setReady_quiet | apply ite_quiet | split | refine quiet_mk rfl rfl ?_

end Sys2Proof.Machine
end

