-- ==== Sys2Proof/Laws/Ram.lean ====
section
/-! SUPPORT. Memory's bytes (R262): operations that store none, so that every byte reads as before. -/

namespace Sys2Proof.Machine

variable {m0 : List Host.Cell}

/-- A record update of parts other than the bytes. -/
theorem ram_mk {u : State} {p k w} {c : KV CoreSt} {ct : KV ClusterSt} {r sc rk pg tr m a f d co l cr st n se}
    (_ : p = u.pending) (e : m.ram = u.mem.ram) (h : u.mem.ram = m0) :
    (State.mk p k w c ct r sc rk pg tr m a f d co l cr st n se).mem.ram = m0 := e.trans h

theorem foldl_ram {α : Type} {f : State → α → State} (hf : ∀ (s : State) (x : α), s.mem.ram = m0 → (f s x).mem.ram = m0) :
    ∀ (l : List α) {s : State}, s.mem.ram = m0 → (l.foldl f s).mem.ram = m0
  | [], _, h => h
  | x :: l, s, h => foldl_ram hf l (hf s x h)

theorem foldl_ram_fst {α β : Type} {f : State × β → α → State × β}
    (hf : ∀ (a : State × β) (x : α), a.1.mem.ram = m0 → (f a x).1.mem.ram = m0) :
    ∀ (l : List α) {a : State × β}, a.1.mem.ram = m0 → (l.foldl f a).1.mem.ram = m0
  | [], _, h => h
  | x :: l, a, h => foldl_ram_fst hf l (hf a x h)

theorem ite_ram {c : Prop} [Decidable c] {a b : State} (ha : a.mem.ram = m0) (hb : b.mem.ram = m0) :
    (if c then a else b).mem.ram = m0 := by
  split <;> assumption

theorem ite_ram_s {c : Prop} [Decidable c] {a b : Reply} (ha : a.s.mem.ram = m0) (hb : b.s.mem.ram = m0) :
    (if c then a else b).s.mem.ram = m0 := by
  split <;> assumption

theorem ite_ram_fst {β : Type} {c : Prop} [Decidable c] {a b : State × β} (ha : a.1.mem.ram = m0) (hb : b.1.mem.ram = m0) :
    (if c then a else b).1.mem.ram = m0 := by
  split <;> assumption

end Sys2Proof.Machine
end

