-- ==== Sys2Proof/Laws/RamBase.lean ====
section
/-! SUPPORT. Operations that store no byte of memory (R262): writes, records, repairs, latched faults, security, supply and power. One lemma for each. -/

namespace Sys2Proof.Machine

/-! ## Ops -/

theorem State.setEnt_ram {m0 : List Host.Cell} (s : State) (k v : Nat) (hm : s.mem.ram = m0) : (State.setEnt s k v).mem.ram = m0 := by
  unfold State.setEnt
  repeat' with_reducible first | assumption | refine ram_mk rfl rfl ?_

theorem State.bump_ram {m0 : List Host.Cell} (s : State) (w k n : Nat) (hm : s.mem.ram = m0) : (State.bump s w k n).mem.ram = m0 := by
  unfold State.bump
  repeat' with_reducible first | assumption | apply State.setEnt_ram

theorem State.draw_ram {m0 : List Host.Cell} (s : State) (hm : s.mem.ram = m0) : (State.draw s).mem.ram = m0 := by
  unfold State.draw
  repeat' with_reducible first | assumption | refine ram_mk rfl rfl ?_

theorem State.raiseVector_ram {m0 : List Host.Cell} (s : State) (v : Nat)
    (hm : s.mem.ram = m0) : (State.raiseVector s v).mem.ram = m0 := by
  unfold State.raiseVector
  repeat' with_reducible first | assumption | apply ite_ram | split | refine ram_mk rfl rfl ?_

theorem State.changed_ram {m0 : List Host.Cell} (s : State) (p : Bool) (hm : s.mem.ram = m0) : (State.changed s p).mem.ram = m0 := by
  unfold State.changed
  repeat' with_reducible first | assumption | apply ite_ram | split | refine ram_mk rfl rfl ?_

theorem State.setReady_ram {m0 : List Host.Cell} (s : State) (b : Nat) (on : Bool)
    (hm : s.mem.ram = m0) : (State.setReady s b on).mem.ram = m0 := by
  unfold State.setReady
  try dsimp only
  repeat' with_reducible first | assumption | apply State.setEnt_ram | apply State.changed_ram | apply ite_ram | split | refine ram_mk rfl rfl ?_

theorem State.setCoreReady_ram {m0 : List Host.Cell} (s : State) (c : Nat) (on : Bool)
    (hm : s.mem.ram = m0) : (State.setCoreReady s c on).mem.ram = m0 := by
  unfold State.setCoreReady
  repeat' with_reducible first | assumption | apply State.setEnt_ram

theorem State.clearCompute_ram {m0 : List Host.Cell} (s : State) (hm : s.mem.ram = m0) : (State.clearCompute s).mem.ram = m0 := by
  unfold State.clearCompute
  repeat' with_reducible first | assumption | apply State.setReady_ram

theorem State.setMapEntry_ram {m0 : List Host.Cell} (s : State) (p : Nat) (e : MapEntry)
    (hm : s.mem.ram = m0) : (State.setMapEntry s p e).mem.ram = m0 := by
  unfold State.setMapEntry
  repeat' with_reducible first | assumption | refine ram_mk rfl rfl ?_

theorem State.storeRecord_ram {m0 : List Host.Cell} (s : State) (r : EvRecord)
    (hm : s.mem.ram = m0) : (State.storeRecord s r).mem.ram = m0 := by
  unfold State.storeRecord
  try dsimp only
  repeat' with_reducible first | assumption | apply State.bump_ram | apply State.raiseVector_ram | apply ite_ram | split | refine ram_mk rfl rfl ?_

theorem State.takeSeq_ram {m0 : List Host.Cell} (s : State) (hm : s.mem.ram = m0) : (State.takeSeq s).mem.ram = m0 := by
  unfold State.takeSeq
  repeat' with_reducible first | assumption | apply ite_ram | split | refine ram_mk rfl rfl ?_

theorem State.fileRecord_ram {m0 : List Host.Cell} (s : State) (r : EvRecord)
    (hm : s.mem.ram = m0) : (State.fileRecord s r).mem.ram = m0 := by
  unfold State.fileRecord
  repeat' with_reducible first | assumption | apply State.storeRecord_ram | apply ite_ram | split | refine ram_mk rfl rfl ?_

theorem State.record_ram {m0 : List Host.Cell} (s : State) (r : EvRecord) (hm : s.mem.ram = m0) : (State.record s r).mem.ram = m0 := by
  unfold State.record
  repeat' with_reducible first | assumption | apply State.takeSeq_ram | apply State.fileRecord_ram

theorem State.recordAt_ram {m0 : List Host.Cell} (s : State) (die : Nat) (r : EvRecord)
    (hm : s.mem.ram = m0) : (State.recordAt s die r).mem.ram = m0 := by
  unfold State.recordAt
  repeat' with_reducible first | assumption | apply State.takeSeq_ram | apply State.record_ram | apply ite_ram | split | refine ram_mk rfl rfl ?_

theorem State.recordsOfDie1_ram {m0 : List Host.Cell} (s : State) (hm : s.mem.ram = m0) : (State.recordsOfDie1 s).mem.ram = m0 := by
  unfold State.recordsOfDie1
  repeat' with_reducible first
    | assumption | apply State.fileRecord_ram | refine foldl_ram (fun _ _ _ => ?_) _ ?_ | refine foldl_ram_fst (fun _ _ _ => ?_) _ ?_
    | refine ram_mk rfl rfl ?_

theorem State.condition_ram {m0 : List Host.Cell} (s : State) (sev code p0 p1 p2 : Nat)
    (hm : s.mem.ram = m0) : (State.condition s sev code p0 p1 p2).mem.ram = m0 := by
  unfold State.condition
  repeat' with_reducible first | assumption | apply State.record_ram

theorem State.conditionAt_ram {m0 : List Host.Cell} (s : State) (sev code space addr p0 p1 p2 : Nat)
    (hm : s.mem.ram = m0) : (State.conditionAt s sev code space addr p0 p1 p2).mem.ram = m0 := by
  unfold State.conditionAt
  repeat' with_reducible first | assumption | apply State.record_ram

theorem State.repairRecord_ram {m0 : List Host.Cell} (s : State) (die sev code phys p0 p1 p2 : Nat)
    (hm : s.mem.ram = m0) : (State.repairRecord s die sev code phys p0 p1 p2).mem.ram = m0 := by
  unfold State.repairRecord
  repeat' with_reducible first | assumption | apply State.recordAt_ram

theorem State.setSource_ram {m0 : List Host.Cell} (s : State) (c : Nat) (l : Level) (unit source : Nat) (times : List Nat)
    (hm : s.mem.ram = m0) : (State.setSource s c l unit source times).mem.ram = m0 := by
  unfold State.setSource
  try dsimp only
  repeat' with_reducible first | assumption | apply ite_ram | split | refine ram_mk rfl rfl ?_

theorem State.dropSources_ram {m0 : List Host.Cell} (s : State) (l : Level) (unit : Nat)
    (hm : s.mem.ram = m0) : (State.dropSources s l unit).mem.ram = m0 := by
  unfold State.dropSources
  try dsimp only
  repeat' with_reducible first | assumption | refine ram_mk rfl rfl ?_

theorem State.violation_ram {m0 : List Host.Cell} (s : State) (code space addr p0 : Nat)
    (hm : s.mem.ram = m0) : (State.violation s code space addr p0).mem.ram = m0 := by
  unfold State.violation
  try dsimp only
  repeat' with_reducible first | assumption | apply State.bump_ram | apply State.record_ram | apply State.setSource_ram | apply ite_ram | split

theorem State.setLane_ram {m0 : List Host.Cell} (s : State) (i : Nat) (l : LaneSt)
    (hm : s.mem.ram = m0) : (State.setLane s i l).mem.ram = m0 := by
  unfold State.setLane
  repeat' with_reducible first | assumption | refine ram_mk rfl rfl ?_

theorem State.classWait_ram {m0 : List Host.Cell} (s : State) (i cls : Nat)
    (hm : s.mem.ram = m0) : (State.classWait s i cls).mem.ram = m0 := by
  unfold State.classWait
  try dsimp only
  repeat' with_reducible first | assumption | apply State.bump_ram | apply State.draw_ram | apply ite_ram | split

theorem State.sendOn_ram {m0 : List Host.Cell} (s0 : State) (i : Nat) (f : TxFrame)
    (hm : s0.mem.ram = m0) : (State.sendOn s0 i f).mem.ram = m0 := by
  unfold State.sendOn
  try dsimp only
  repeat' with_reducible first
    | assumption | apply State.bump_ram | apply State.setLane_ram | apply State.classWait_ram | apply ite_ram | split
    | refine ram_mk rfl rfl ?_

theorem State.sendFrame_ram {m0 : List Host.Cell} (s : State) (f : TxFrame)
    (hm : s.mem.ram = m0) : (State.sendFrame s f).mem.ram = m0 := by
  unfold State.sendFrame
  repeat' with_reducible first | assumption | apply State.sendOn_ram | split

theorem State.sendSegments_ram {m0 : List Host.Cell} : ∀ (n : Nat) (s : State) (f : TxFrame) (l : List Byte), s.mem.ram = m0 →
    (State.sendSegments n s f l).mem.ram = m0
  | 0, _, _, _, h => State.sendFrame_ram _ _ h
  | n + 1, s, f, l, h => by
    unfold State.sendSegments
    split
    · exact State.sendFrame_ram _ _ h
    · exact State.sendSegments_ram n _ _ _ (State.sendFrame_ram _ _ h)

theorem State.sendBytes_ram {m0 : List Host.Cell} (s : State) (f : TxFrame) (l : List Byte)
    (hm : s.mem.ram = m0) : (State.sendBytes s f l).mem.ram = m0 := by
  unfold State.sendBytes
  repeat' with_reducible first | assumption | apply State.sendSegments_ram

theorem State.sendAllLanes_ram {m0 : List Host.Cell} (s : State) (f : TxFrame)
    (hm : s.mem.ram = m0) : (State.sendAllLanes s f).mem.ram = m0 := by
  unfold State.sendAllLanes
  try dsimp only
  repeat' with_reducible first
    | assumption | apply State.sendOn_ram | refine foldl_ram (fun _ _ _ => ?_) _ ?_ | refine foldl_ram_fst (fun _ _ _ => ?_) _ ?_

theorem State.sendGroup_ram {m0 : List Host.Cell} (s : State) (kind g : Nat) (payload : List Byte)
    (hm : s.mem.ram = m0) : (State.sendGroup s kind g payload).mem.ram = m0 := by
  unfold State.sendGroup
  try dsimp only
  repeat' with_reducible first
    | assumption | apply State.sendFrame_ram | refine foldl_ram (fun _ _ _ => ?_) _ ?_ | refine foldl_ram_fst (fun _ _ _ => ?_) _ ?_
    | refine ram_mk rfl rfl ?_

/-! ## Views -/

theorem State.setRake_ram {m0 : List Host.Cell} (s : State) (l : Nat) (r : RakeSt)
    (hm : s.mem.ram = m0) : (State.setRake s l r).mem.ram = m0 := by
  unfold State.setRake
  repeat' with_reducible first | assumption | refine ram_mk rfl rfl ?_

/-! ## Crossings -/

theorem State.setQueueAt_ram {m0 : List Host.Cell} (s : State) (k : Nat) (x : QueueSt)
    (hm : s.mem.ram = m0) : (State.setQueueAt s k x).mem.ram = m0 := by
  unfold State.setQueueAt
  repeat' with_reducible first | assumption | refine ram_mk rfl rfl ?_

theorem State.sendQueue_ram {m0 : List Host.Cell} (s : State) (k : Nat) (l : List Nat)
    (hm : s.mem.ram = m0) : (State.sendQueue s k l).mem.ram = m0 := by
  unfold State.sendQueue
  repeat' with_reducible first | assumption | apply State.setQueueAt_ram | refine ram_mk rfl rfl ?_

theorem State.readQueue_ram {m0 : List Host.Cell} (s : State) (k n : Nat)
    (hm : s.mem.ram = m0) : (State.readQueue s k n).mem.ram = m0 := by
  unfold State.readQueue
  try dsimp only
  repeat' with_reducible first | assumption | apply State.setQueueAt_ram | refine ram_mk rfl rfl ?_

theorem State.pendEvent_ram {m0 : List Host.Cell} (s : State) (k : Nat) (hm : s.mem.ram = m0) : (State.pendEvent s k).mem.ram = m0 := by
  unfold State.pendEvent
  try dsimp only
  repeat' with_reducible first | assumption | refine ram_mk rfl rfl ?_

theorem State.setArbCnt_ram {m0 : List Host.Cell} (s : State) (level inst rank : Nat) (x : ArbCnt)
    (hm : s.mem.ram = m0) : (State.setArbCnt s level inst rank x).mem.ram = m0 := by
  unfold State.setArbCnt
  repeat' with_reducible first | assumption | refine ram_mk rfl rfl ?_

theorem State.countWait_ram {m0 : List Host.Cell} (s : State) (level inst resource rank n : Nat)
    (hm : s.mem.ram = m0) : (State.countWait s level inst resource rank n).mem.ram = m0 := by
  unfold State.countWait
  repeat' with_reducible first | assumption | apply State.setArbCnt_ram

theorem State.stallQueue_ram {m0 : List Host.Cell} (s : State) (k : Nat) (hm : s.mem.ram = m0) : (State.stallQueue s k).mem.ram = m0 := by
  unfold State.stallQueue
  repeat' with_reducible first | assumption | apply State.setQueueAt_ram | refine ram_mk rfl rfl ?_

theorem State.stallSender_ram {m0 : List Host.Cell} (s : State) (k level inst rank : Nat)
    (hm : s.mem.ram = m0) : (State.stallSender s k level inst rank).mem.ram = m0 := by
  unfold State.stallSender
  repeat' with_reducible first | assumption | apply State.countWait_ram | apply State.stallQueue_ram

/-! ## Boundary -/

theorem State.raise_ram {m0 : List Host.Cell} (s : State) (r : FaultReport) (hm : s.mem.ram = m0) : (State.raise s r).mem.ram = m0 := by
  unfold State.raise
  repeat' with_reducible first | assumption | refine ram_mk rfl rfl ?_

theorem State.resetRecord_ram {m0 : List Host.Cell} (s : State) (i reason : Nat)
    (hm : s.mem.ram = m0) : (State.resetRecord s i reason).mem.ram = m0 := by
  unfold State.resetRecord
  repeat' with_reducible first | assumption | refine ram_mk rfl rfl ?_

theorem State.syncAccount_ram {m0 : List Host.Cell} (s : State) (hm : s.mem.ram = m0) : (State.syncAccount s).mem.ram = m0 := by
  unfold State.syncAccount
  repeat' with_reducible first | assumption | apply State.setEnt_ram | refine ram_mk rfl rfl ?_

theorem State.applyMode_ram {m0 : List Host.Cell} (s : State) (mode : Nat)
    (hm : s.mem.ram = m0) : (State.applyMode s mode).mem.ram = m0 := by
  unfold State.applyMode
  try dsimp only
  repeat' with_reducible first
    | assumption | apply State.setEnt_ram | apply State.condition_ram | apply State.syncAccount_ram | apply ite_ram | split
    | refine ram_mk rfl rfl ?_

theorem State.applyCrustMode_ram {m0 : List Host.Cell} (s : State) (v : Nat)
    (hm : s.mem.ram = m0) : (State.applyCrustMode s v).mem.ram = m0 := by
  unfold State.applyCrustMode
  try dsimp only
  repeat' with_reducible first | assumption | apply State.setEnt_ram | apply ite_ram | split | refine ram_mk rfl rfl ?_

theorem State.startSnapshot_ram {m0 : List Host.Cell} (s : State) (hm : s.mem.ram = m0) : (State.startSnapshot s).mem.ram = m0 := by
  unfold State.startSnapshot
  try dsimp only
  repeat' with_reducible first | assumption | apply State.setEnt_ram | apply State.condition_ram | apply ite_ram | split | refine ram_mk rfl rfl ?_

theorem State.requestSnapshot_ram {m0 : List Host.Cell} (s : State) (hm : s.mem.ram = m0) : (State.requestSnapshot s).mem.ram = m0 := by
  unfold State.requestSnapshot
  repeat' with_reducible first | assumption | refine ram_mk rfl rfl ?_

theorem State.rakeReset_ram {m0 : List Host.Cell} (s : State) (hm : s.mem.ram = m0) : (State.rakeReset s).mem.ram = m0 := by
  unfold State.rakeReset
  try dsimp only
  repeat' with_reducible first | assumption | refine ram_mk rfl rfl ?_

theorem State.applyBoundary_ram {m0 : List Host.Cell} (s : State) (k v : Nat)
    (hm : s.mem.ram = m0) : (State.applyBoundary s k v).mem.ram = m0 := by
  unfold State.applyBoundary
  try dsimp only
  repeat' with_reducible first
    | assumption | apply State.setEnt_ram | apply State.setRake_ram | apply State.resetRecord_ram | apply State.syncAccount_ram
    | apply State.applyMode_ram | apply State.applyCrustMode_ram | apply State.requestSnapshot_ram | apply State.rakeReset_ram
    | refine foldl_ram (fun _ _ _ => ?_) _ ?_ | refine foldl_ram_fst (fun _ _ _ => ?_) _ ?_ | apply ite_ram | split
    | refine ram_mk rfl rfl ?_

theorem State.settlePending_ram {m0 : List Host.Cell} (s : State) (k v : Nat)
    (hm : s.mem.ram = m0) : (State.settlePending s k v).mem.ram = m0 := by
  unfold State.settlePending
  try dsimp only
  repeat' with_reducible first | assumption | apply State.violation_ram | apply State.applyBoundary_ram | apply ite_ram | split

theorem State.springBoundary_ram {m0 : List Host.Cell} (s : State) (hm : s.mem.ram = m0) : (State.springBoundary s).mem.ram = m0 := by
  unfold State.springBoundary
  repeat' with_reducible first | assumption | apply State.applyMode_ram | apply ite_ram | split

theorem State.applyPending_ram {m0 : List Host.Cell} (s : State) (hm : s.mem.ram = m0) : (State.applyPending s).mem.ram = m0 := by
  unfold State.applyPending
  try dsimp only
  repeat' with_reducible first
    | assumption | apply State.settlePending_ram | apply State.springBoundary_ram | refine foldl_ram (fun _ _ _ => ?_) _ ?_
    | refine foldl_ram_fst (fun _ _ _ => ?_) _ ?_ | refine ram_mk rfl rfl ?_

theorem State.enterAbandon_ram {m0 : List Host.Cell} (s : State) (fromNotice : Bool)
    (hm : s.mem.ram = m0) : (State.enterAbandon s fromNotice).mem.ram = m0 := by
  unfold State.enterAbandon
  try dsimp only
  repeat' with_reducible first
    | assumption | apply State.setEnt_ram | apply State.bump_ram | apply State.sendGroup_ram | apply ite_ram | split
    | refine ram_mk rfl rfl ?_

theorem State.flagNonFinite_ram {m0 : List Host.Cell} (s : State) (hm : s.mem.ram = m0) : (State.flagNonFinite s).mem.ram = m0 := by
  unfold State.flagNonFinite
  repeat' with_reducible first | assumption | apply State.enterAbandon_ram | apply ite_ram | split | refine ram_mk rfl rfl ?_

theorem State.flagFault_ram {m0 : List Host.Cell} (s : State) (hm : s.mem.ram = m0) : (State.flagFault s).mem.ram = m0 := by
  unfold State.flagFault
  repeat' with_reducible first | assumption | apply State.enterAbandon_ram | apply ite_ram | split | refine ram_mk rfl rfl ?_

theorem State.setCore_ram {m0 : List Host.Cell} (s : State) (c : Nat) (x : CoreSt)
    (hm : s.mem.ram = m0) : (State.setCore s c x).mem.ram = m0 := by
  unfold State.setCore
  repeat' with_reducible first | assumption | refine ram_mk rfl rfl ?_

theorem State.invalidNotice_ram {m0 : List Host.Cell} (s : State) (l n : Nat)
    (hm : s.mem.ram = m0) : (State.invalidNotice s l n).mem.ram = m0 := by
  unfold State.invalidNotice
  try dsimp only
  repeat' with_reducible first
    | assumption | apply State.bump_ram | apply State.record_ram | apply State.raise_ram | apply ite_ram | split | refine ram_mk rfl rfl ?_

theorem State.invalidNotices_ram {m0 : List Host.Cell} (s : State) (hm : s.mem.ram = m0) : (State.invalidNotices s).mem.ram = m0 := by
  unfold State.invalidNotices
  try dsimp only
  repeat' with_reducible first
    | assumption | apply State.bump_ram | apply State.invalidNotice_ram | refine foldl_ram (fun _ _ _ => ?_) _ ?_
    | refine foldl_ram_fst (fun _ _ _ => ?_) _ ?_ | apply ite_ram | split | refine ram_mk rfl rfl ?_

theorem State.settleEnergy_ram {m0 : List Host.Cell} (s : State) (committed : Bool)
    (hm : s.mem.ram = m0) : (State.settleEnergy s committed).mem.ram = m0 := by
  unfold State.settleEnergy
  try dsimp only
  repeat' with_reducible first | assumption | apply ite_ram | split | refine ram_mk rfl rfl ?_

theorem State.clearStep_ram {m0 : List Host.Cell} (s : State) (hm : s.mem.ram = m0) : (State.clearStep s).mem.ram = m0 := by
  unfold State.clearStep
  try dsimp only
  repeat' with_reducible first | assumption | apply ite_ram | split | refine ram_mk rfl rfl ?_

theorem State.protect_ram {m0 : List Host.Cell} (s : State) (hm : s.mem.ram = m0) : (State.protect s).mem.ram = m0 := by
  unfold State.protect
  try dsimp only
  repeat' with_reducible first | assumption | apply ite_ram | split | refine ram_mk rfl rfl ?_

theorem State.setPhase_ram {m0 : List Host.Cell} (s : State) (n : Nat) (hm : s.mem.ram = m0) : (State.setPhase s n).mem.ram = m0 := by
  unfold State.setPhase
  repeat' with_reducible first | assumption | apply State.setEnt_ram | apply State.protect_ram

theorem State.phaseZero_ram {m0 : List Host.Cell} (s : State) (hm : s.mem.ram = m0) : (State.phaseZero s).mem.ram = m0 := by
  unfold State.phaseZero
  repeat' with_reducible first | assumption | apply State.raiseVector_ram | apply State.applyPending_ram | apply State.setPhase_ram

theorem State.restoreMarks_ram {m0 : List Host.Cell} (s : State) (hm : s.mem.ram = m0) : (State.restoreMarks s).mem.ram = m0 := by
  unfold State.restoreMarks
  try dsimp only
  repeat' with_reducible first | assumption | refine ram_mk rfl rfl ?_

theorem State.noOutcome_ram {m0 : List Host.Cell} (s : State) (hm : s.mem.ram = m0) : (State.noOutcome s).mem.ram = m0 := by
  unfold State.noOutcome
  repeat' with_reducible first
    | assumption | apply State.setEnt_ram | apply State.settleEnergy_ram | apply State.clearStep_ram | apply State.phaseZero_ram
    | apply State.restoreMarks_ram | apply ite_ram | split

theorem State.withdraw_ram {m0 : List Host.Cell} (s : State) (hm : s.mem.ram = m0) : (State.withdraw s).mem.ram = m0 := by
  unfold State.withdraw
  repeat' with_reducible first | assumption | apply State.setEnt_ram | apply State.sendGroup_ram | apply ite_ram | split | refine ram_mk rfl rfl ?_

theorem State.loseCompute_ram {m0 : List Host.Cell} (s : State) (hm : s.mem.ram = m0) : (State.loseCompute s).mem.ram = m0 := by
  unfold State.loseCompute
  repeat' with_reducible first | assumption | apply State.clearCompute_ram | apply State.withdraw_ram | refine ram_mk rfl rfl ?_

theorem State.failTest_ram {m0 : List Host.Cell} (s : State) (hm : s.mem.ram = m0) : (State.failTest s).mem.ram = m0 := by
  unfold State.failTest
  repeat' with_reducible first | assumption | apply State.clearCompute_ram | apply State.withdraw_ram | refine ram_mk rfl rfl ?_

/-! ## Repair -/

theorem State.setPan_ram {m0 : List Host.Cell} (s : State) (c p : Nat) (x : PanSt)
    (hm : s.mem.ram = m0) : (State.setPan s c p x).mem.ram = m0 := by
  unfold State.setPan
  repeat' with_reducible first | assumption | apply State.setCore_ram | refine ram_mk rfl rfl ?_

theorem State.rerunUnit_ram {m0 : List Host.Cell} (s : State) (pos number : Nat)
    (hm : s.mem.ram = m0) : (State.rerunUnit s pos number).mem.ram = m0 := by
  unfold State.rerunUnit
  try dsimp only
  repeat' with_reducible first | assumption | apply State.bump_ram | apply ite_ram | split | refine ram_mk rfl rfl ?_

theorem State.emptyCoreQueues_ram {m0 : List Host.Cell} (s : State) (c : Nat)
    (hm : s.mem.ram = m0) : (State.emptyCoreQueues s c).mem.ram = m0 := by
  unfold State.emptyCoreQueues
  try dsimp only
  repeat' with_reducible first | assumption | refine ram_mk rfl rfl ?_

theorem State.dropRequests_ram {m0 : List Host.Cell} (s : State) (own : Nat → Nat → Nat → Bool)
    (hm : s.mem.ram = m0) : (State.dropRequests s own).mem.ram = m0 := by
  unfold State.dropRequests
  try dsimp only
  repeat' with_reducible first | assumption | apply ite_ram | split | refine ram_mk rfl rfl ?_

theorem State.retireCoreWork_ram {m0 : List Host.Cell} (s : State) (c : Nat)
    (hm : s.mem.ram = m0) : (State.retireCoreWork s c).mem.ram = m0 := by
  unfold State.retireCoreWork
  try dsimp only
  repeat' with_reducible first
    | assumption | apply State.setCoreReady_ram | apply State.dropSources_ram | apply State.setCore_ram | apply State.rerunUnit_ram
    | apply State.emptyCoreQueues_ram | apply State.dropRequests_ram | refine foldl_ram (fun _ _ _ => ?_) _ ?_
    | refine foldl_ram_fst (fun _ _ _ => ?_) _ ?_ | refine ram_mk rfl rfl ?_

theorem State.swapCluster_ram {m0 : List Host.Cell} (s : State) (k : Nat)
    (hm : s.mem.ram = m0) : (State.swapCluster s k).mem.ram = m0 := by
  unfold State.swapCluster
  try dsimp only
  repeat' with_reducible first
    | assumption | apply State.setReady_ram | apply State.setCoreReady_ram | apply State.dropSources_ram | apply State.raise_ram
    | apply State.dropRequests_ram | apply State.retireCoreWork_ram | refine foldl_ram (fun _ _ _ => ?_) _ ?_
    | refine foldl_ram_fst (fun _ _ _ => ?_) _ ?_ | apply ite_ram | split | refine ram_mk rfl rfl ?_

theorem State.swapCore_ram {m0 : List Host.Cell} (s : State) (c : Nat) (hm : s.mem.ram = m0) : (State.swapCore s c).mem.ram = m0 := by
  unfold State.swapCore
  try dsimp only
  repeat' with_reducible first
    | assumption | apply State.retireCoreWork_ram | apply State.swapCluster_ram | apply ite_ram | split | refine ram_mk rfl rfl ?_

theorem State.swapDmp_ram {m0 : List Host.Cell} (s : State) (d : Nat) (hm : s.mem.ram = m0) : (State.swapDmp s d).mem.ram = m0 := by
  unfold State.swapDmp
  repeat' with_reducible first | assumption | apply State.setReady_ram | refine ram_mk rfl rfl ?_

theorem State.retirePan_ram {m0 : List Host.Cell} (s : State) (c p what col : Nat)
    (hm : s.mem.ram = m0) : (State.retirePan s c p what col).mem.ram = m0 := by
  unfold State.retirePan
  try dsimp only
  repeat' with_reducible first | assumption | apply State.setPan_ram | apply State.swapCore_ram | apply ite_ram | split | refine ram_mk rfl rfl ?_

theorem State.applyRemap_ram {m0 : List Host.Cell} (s : State) (c p : Nat)
    (hm : s.mem.ram = m0) : (State.applyRemap s c p).mem.ram = m0 := by
  unfold State.applyRemap
  try dsimp only
  repeat' with_reducible first
    | assumption | apply State.setPan_ram | apply State.retirePan_ram | refine foldl_ram (fun _ _ _ => ?_) _ ?_
    | refine foldl_ram_fst (fun _ _ _ => ?_) _ ?_ | refine ram_mk rfl rfl ?_

theorem State.setStack_ram {m0 : List Host.Cell} (s : State) (i : Nat) (x : StackSt)
    (hm : s.mem.ram = m0) : (State.setStack s i x).mem.ram = m0 := by
  unfold State.setStack
  repeat' with_reducible first | assumption | refine ram_mk rfl rfl ?_

theorem State.setDev_ram {m0 : List Host.Cell} (s : State) (i : Nat) (x : CxlSt)
    (hm : s.mem.ram = m0) : (State.setDev s i x).mem.ram = m0 := by
  unfold State.setDev
  repeat' with_reducible first | assumption | refine ram_mk rfl rfl ?_

theorem State.clearLines_ram {m0 : List Host.Cell} (s : State) (p : Nat) (hm : s.mem.ram = m0) : (State.clearLines s p).mem.ram = m0 := by
  unfold State.clearLines
  try dsimp only
  repeat' with_reducible first | assumption | apply ite_ram | split | refine ram_mk rfl rfl ?_

theorem State.unmapPage_ram {m0 : List Host.Cell} (s : State) (p : Nat) (hm : s.mem.ram = m0) : (State.unmapPage s p).mem.ram = m0 := by
  unfold State.unmapPage
  try dsimp only
  repeat' with_reducible first | assumption | apply State.setMapEntry_ram | apply State.clearLines_ram | refine ram_mk rfl rfl ?_

theorem State.losePageAt_ram {m0 : List Host.Cell} (s : State) (p addr : Nat)
    (hm : s.mem.ram = m0) : (State.losePageAt s p addr).mem.ram = m0 := by
  unfold State.losePageAt
  repeat' with_reducible first | assumption | apply State.setEnt_ram | apply State.bump_ram | apply State.conditionAt_ram | apply State.unmapPage_ram

theorem State.losePage_ram {m0 : List Host.Cell} (s : State) (p : Nat) (hm : s.mem.ram = m0) : (State.losePage s p).mem.ram = m0 := by
  unfold State.losePage
  repeat' with_reducible first | assumption | apply State.losePageAt_ram

theorem State.strikePages_ram {m0 : List Host.Cell} (s : State) (pages : List Nat)
    (hm : s.mem.ram = m0) : (State.strikePages s pages).mem.ram = m0 := by
  unfold State.strikePages
  try dsimp only
  repeat' with_reducible first
    | assumption | apply State.setMapEntry_ram | apply State.losePage_ram | refine foldl_ram (fun _ _ _ => ?_) _ ?_
    | refine foldl_ram_fst (fun _ _ _ => ?_) _ ?_ | apply ite_ram | split | refine ram_mk rfl rfl ?_

theorem State.dropMemSource_ram {m0 : List Host.Cell} (s : State) (source : Nat)
    (hm : s.mem.ram = m0) : (State.dropMemSource s source).mem.ram = m0 := by
  unfold State.dropMemSource
  try dsimp only
  repeat' with_reducible first | assumption | refine ram_mk rfl rfl ?_

theorem State.retirePc_ram {m0 : List Host.Cell} (s0 : State) (st pc : Nat)
    (hm : s0.mem.ram = m0) : (State.retirePc s0 st pc).mem.ram = m0 := by
  unfold State.retirePc
  try dsimp only
  repeat' with_reducible first
    | assumption | apply State.repairRecord_ram | apply State.raise_ram | apply State.loseCompute_ram | apply State.setStack_ram
    | apply State.strikePages_ram | apply State.dropMemSource_ram | apply ite_ram | split | refine ram_mk rfl rfl ?_

theorem State.copyPc_ram {m0 : List Host.Cell} (s : State) (st pc : Nat) (hm : s.mem.ram = m0) : (State.copyPc s st pc).mem.ram = m0 := by
  unfold State.copyPc
  try dsimp only
  repeat' with_reducible first
    | assumption | apply State.repairRecord_ram | apply State.setStack_ram | apply ite_ram | split | refine ram_mk rfl rfl ?_

theorem State.replaceDev_ram {m0 : List Host.Cell} (s : State) (d : Nat) (hm : s.mem.ram = m0) : (State.replaceDev s d).mem.ram = m0 := by
  unfold State.replaceDev
  repeat' with_reducible first
    | assumption | apply State.repairRecord_ram | apply State.setDev_ram | apply ite_ram | split | refine ram_mk rfl rfl ?_

theorem State.failDev_ram {m0 : List Host.Cell} (s9 : State) (d : Nat) (hm : s9.mem.ram = m0) : (State.failDev s9 d).mem.ram = m0 := by
  unfold State.failDev
  try dsimp only
  repeat' with_reducible first
    | assumption | apply State.setEnt_ram | apply State.setReady_ram | apply State.setMapEntry_ram | apply State.repairRecord_ram
    | apply State.raise_ram | apply State.loseCompute_ram | apply State.setDev_ram | apply State.strikePages_ram
    | apply State.dropMemSource_ram | refine foldl_ram (fun _ _ _ => ?_) _ ?_ | refine foldl_ram_fst (fun _ _ _ => ?_) _ ?_ | apply ite_ram
    | split | refine ram_mk rfl rfl ?_

theorem State.sendLaneState_ram {m0 : List Host.Cell} (s : State) (port : Nat)
    (hm : s.mem.ram = m0) : (State.sendLaneState s port).mem.ram = m0 := by
  unfold State.sendLaneState
  try dsimp only
  repeat' with_reducible first
    | assumption | apply State.sendOn_ram | refine foldl_ram (fun _ _ _ => ?_) _ ?_ | refine foldl_ram_fst (fun _ _ _ => ?_) _ ?_

theorem State.rerouteLane_ram {m0 : List Host.Cell} (s : State) (i : Nat)
    (hm : s.mem.ram = m0) : (State.rerouteLane s i).mem.ram = m0 := by
  unfold State.rerouteLane
  try dsimp only
  repeat' with_reducible first
    | assumption | apply State.bump_ram | apply State.setLane_ram | apply State.sendFrame_ram | refine foldl_ram (fun _ _ _ => ?_) _ ?_
    | refine foldl_ram_fst (fun _ _ _ => ?_) _ ?_ | refine ram_mk rfl rfl ?_

theorem State.reroutePath_ram {m0 : List Host.Cell} (s : State) (node i : Nat)
    (hm : s.mem.ram = m0) : (State.reroutePath s node i).mem.ram = m0 := by
  unfold State.reroutePath
  try dsimp only
  repeat' with_reducible first
    | assumption | apply State.bump_ram | apply State.setLane_ram | apply State.sendFrame_ram | refine foldl_ram (fun _ _ _ => ?_) _ ?_
    | refine foldl_ram_fst (fun _ _ _ => ?_) _ ?_ | apply ite_ram | split | refine ram_mk rfl rfl ?_

theorem State.retireLane_ram {m0 : List Host.Cell} (s : State) (i : Nat) (hm : s.mem.ram = m0) : (State.retireLane s i).mem.ram = m0 := by
  unfold State.retireLane
  try dsimp only
  repeat' with_reducible first
    | assumption | apply State.setReady_ram | apply State.setLane_ram | apply State.sendLaneState_ram | apply State.rerouteLane_ram
    | refine foldl_ram (fun _ _ _ => ?_) _ ?_ | refine foldl_ram_fst (fun _ _ _ => ?_) _ ?_ | apply ite_ram | split
    | refine ram_mk rfl rfl ?_

theorem State.hostDown_ram {m0 : List Host.Cell} (s : State) (hm : s.mem.ram = m0) : (State.hostDown s).mem.ram = m0 := by
  unfold State.hostDown
  repeat' with_reducible first | assumption | apply State.setReady_ram | refine ram_mk rfl rfl ?_

theorem State.lowerHost_ram {m0 : List Host.Cell} (s : State) (hm : s.mem.ram = m0) : (State.lowerHost s).mem.ram = m0 := by
  unfold State.lowerHost
  try dsimp only
  repeat' with_reducible first | assumption | apply State.hostDown_ram | apply ite_ram | split | refine ram_mk rfl rfl ?_

/-! ## Latch -/

theorem State.setCollector_ram {m0 : List Host.Cell} (s : State) (k : Nat) (x : Collector)
    (hm : s.mem.ram = m0) : (State.setCollector s k x).mem.ram = m0 := by
  unfold State.setCollector
  repeat' with_reducible first | assumption | refine ram_mk rfl rfl ?_

theorem State.place_ram {m0 : List Host.Cell} : ∀ (n : Nat) (s : State) (l u : Nat) (f : Latched), s.mem.ram = m0 →
    (State.place n s l u f).mem.ram = m0
  | 0, _, _, _, _, h => h
  | n + 1, s, l, u, f, h => by
    unfold State.place
    dsimp only
    split
    · exact State.setCollector_ram _ _ _ h
    · exact State.setCollector_ram _ _ _ h
    · split
      · exact State.place_ram n _ _ _ _ (State.setCollector_ram _ _ _ h)
      · exact State.setCollector_ram _ _ _ h

theorem State.remapPan_ram {m0 : List Host.Cell} (s : State) (r : FaultReport)
    (hm : s.mem.ram = m0) : (State.remapPan s r).mem.ram = m0 := by
  unfold State.remapPan
  try dsimp only
  repeat' with_reducible first | assumption | apply State.setPan_ram | apply State.retirePan_ram | apply ite_ram | split | refine ram_mk rfl rfl ?_

theorem State.severeAction_ram {m0 : List Host.Cell} (s : State) (r : FaultReport)
    (hm : s.mem.ram = m0) : (State.severeAction s r).mem.ram = m0 := by
  unfold State.severeAction
  try dsimp only
  repeat' with_reducible first
    | assumption | apply State.setEnt_ram | apply State.setReady_ram | apply State.loseCompute_ram | apply State.failTest_ram
    | apply State.swapCluster_ram | apply State.swapCore_ram | apply State.swapDmp_ram | apply State.losePageAt_ram
    | apply State.retirePc_ram | apply State.copyPc_ram | apply State.replaceDev_ram | apply State.failDev_ram | apply State.retireLane_ram
    | apply State.lowerHost_ram | apply State.remapPan_ram | apply ite_ram | split | refine ram_mk rfl rfl ?_

theorem State.stepEffect_ram {m0 : List Host.Cell} (s : State) (r : FaultReport)
    (hm : s.mem.ram = m0) : (State.stepEffect s r).mem.ram = m0 := by
  unfold State.stepEffect
  repeat' with_reducible first | assumption | apply State.flagFault_ram | apply State.noOutcome_ram | apply ite_ram | split

theorem State.flushMirror_ram {m0 : List Host.Cell} (s : State) (hm : s.mem.ram = m0) : (State.flushMirror s).mem.ram = m0 := by
  unfold State.flushMirror
  repeat' with_reducible first | assumption | apply ite_ram | split | refine ram_mk rfl rfl ?_

theorem State.fatalStop_ram {m0 : List Host.Cell} (s : State) (cls : Nat)
    (hm : s.mem.ram = m0) : (State.fatalStop s cls).mem.ram = m0 := by
  unfold State.fatalStop
  try dsimp only
  repeat' with_reducible first
    | assumption | apply State.changed_ram | apply State.loseCompute_ram | apply State.flushMirror_ram | refine ram_mk rfl rfl ?_

theorem State.dropShifts_ram {m0 : List Host.Cell} (s : State) (c p : Nat)
    (hm : s.mem.ram = m0) : (State.dropShifts s c p).mem.ram = m0 := by
  unfold State.dropShifts
  repeat' with_reducible first | assumption | apply State.setQueueAt_ram | refine ram_mk rfl rfl ?_

theorem State.replayPan_ram {m0 : List Host.Cell} (s : State) (c p : Nat) (grain : Bool)
    (hm : s.mem.ram = m0) : (State.replayPan s c p grain).mem.ram = m0 := by
  unfold State.replayPan
  try dsimp only
  repeat' with_reducible first
    | assumption | apply State.bump_ram | apply State.setCore_ram | apply State.setPan_ram | apply State.applyRemap_ram
    | apply State.dropShifts_ram | apply ite_ram | split

theorem State.replaySluice_ram {m0 : List Host.Cell} (s : State) (c : Nat)
    (hm : s.mem.ram = m0) : (State.replaySluice s c).mem.ram = m0 := by
  unfold State.replaySluice
  try dsimp only
  repeat' with_reducible first | assumption | apply State.bump_ram | apply State.setCore_ram | apply ite_ram | split | refine ram_mk rfl rfl ?_

theorem State.replayVector_ram {m0 : List Host.Cell} (s : State) (c : Nat)
    (hm : s.mem.ram = m0) : (State.replayVector s c).mem.ram = m0 := by
  unfold State.replayVector
  repeat' with_reducible first | assumption | apply State.setCore_ram | apply State.rerunUnit_ram | split | refine ram_mk rfl rfl ?_

theorem State.panFault_ram {m0 : List Host.Cell} (s : State) (r : FaultReport)
    (hm : s.mem.ram = m0) : (State.panFault s r).mem.ram = m0 := by
  unfold State.panFault
  try dsimp only
  repeat' with_reducible first
    | assumption | apply State.setCore_ram | apply State.setPan_ram | apply State.dropShifts_ram | apply State.replayPan_ram
    | apply State.replaySluice_ram | apply State.replayVector_ram | apply ite_ram | split | refine ram_mk rfl rfl ?_

theorem State.workFault_ram {m0 : List Host.Cell} (s : State) (r : FaultReport)
    (hm : s.mem.ram = m0) : (State.workFault s r).mem.ram = m0 := by
  unfold State.workFault
  repeat' with_reducible first | assumption | apply State.setCore_ram | apply State.panFault_ram | apply ite_ram | split | refine ram_mk rfl rfl ?_

theorem State.thaw_ram {m0 : List Host.Cell} (s : State) (c : Nat) (hm : s.mem.ram = m0) : (State.thaw s c).mem.ram = m0 := by
  unfold State.thaw
  repeat' with_reducible first
    | assumption | apply State.setCore_ram | apply State.panFault_ram | refine foldl_ram (fun _ _ _ => ?_) _ ?_
    | refine foldl_ram_fst (fun _ _ _ => ?_) _ ?_ | apply ite_ram | split | refine ram_mk rfl rfl ?_

theorem State.countFault_ram {m0 : List Host.Cell} (s : State) (r : FaultReport) (v : Verdict)
    (hm : s.mem.ram = m0) : (State.countFault s r v).mem.ram = m0 := by
  unfold State.countFault
  try dsimp only
  repeat' with_reducible first | assumption | apply State.bump_ram | apply ite_ram | split

theorem State.classHolds_ram {m0 : List Host.Cell} (s : State) (r : FaultReport) (v : Verdict)
    (hm : s.mem.ram = m0) : (State.classHolds s r v).mem.ram = m0 := by
  unfold State.classHolds
  repeat' with_reducible first | assumption | refine ram_mk rfl rfl ?_

theorem State.latchIn_ram {m0 : List Host.Cell} (s : State) (r : FaultReport) (v : Verdict)
    (hm : s.mem.ram = m0) : (State.latchIn s r v).mem.ram = m0 := by
  unfold State.latchIn
  try dsimp only
  repeat' with_reducible first
    | assumption | apply State.changed_ram | apply State.recordAt_ram | apply State.setSource_ram | apply State.setCollector_ram
    | apply State.place_ram | apply State.workFault_ram | apply State.countFault_ram | apply State.classHolds_ram | apply ite_ram | split
    | refine ram_mk rfl rfl ?_

theorem State.severeEffects_ram {m0 : List Host.Cell} (s : State) (r : FaultReport) (v : Verdict)
    (hm : s.mem.ram = m0) : (State.severeEffects s r v).mem.ram = m0 := by
  unfold State.severeEffects
  repeat' with_reducible first
    | assumption | apply State.severeAction_ram | apply State.stepEffect_ram | apply State.fatalStop_ram | apply ite_ram | split

theorem State.latchOne_ram {m0 : List Host.Cell} (s : State) (r : FaultReport)
    (hm : s.mem.ram = m0) : (State.latchOne s r).mem.ram = m0 := by
  unfold State.latchOne
  try dsimp only
  repeat' with_reducible first | assumption | apply State.latchIn_ram | apply State.severeEffects_ram | apply ite_ram | split

theorem State.latchAt_ram {m0 : List Host.Cell} (s : State) (sev : Nat) (r : FaultReport)
    (hm : s.mem.ram = m0) : (State.latchAt s sev r).mem.ram = m0 := by
  unfold State.latchAt
  repeat' with_reducible first | assumption | apply State.latchIn_ram | refine ram_mk rfl rfl ?_

theorem State.latchHandled_ram {m0 : List Host.Cell} (s : State) (r : FaultReport)
    (hm : s.mem.ram = m0) : (State.latchHandled s r).mem.ram = m0 := by
  unfold State.latchHandled
  try dsimp only
  repeat' with_reducible first | assumption | apply State.setCollector_ram | apply State.latchAt_ram | refine ram_mk rfl rfl ?_

theorem State.latch_ram {m0 : List Host.Cell} (s : State) (r : FaultReport) (hm : s.mem.ram = m0) : (State.latch s r).mem.ram = m0 := by
  unfold State.latch
  try dsimp only
  repeat' with_reducible first | assumption | apply State.setSource_ram | apply State.latchOne_ram | apply ite_ram | split

theorem State.settle_ram {m0 : List Host.Cell} : ∀ (n : Nat) (s : State), s.mem.ram = m0 → (State.settle n s).mem.ram = m0
  | 0, _, h => h
  | n + 1, _, h => State.settle_ram n _ (foldl_ram (fun _ _ h => State.latch_ram _ _ h) _ (ram_mk rfl rfl h))

theorem State.latchAll_ram {m0 : List Host.Cell} (s : State) (hm : s.mem.ram = m0) : (State.latchAll s).mem.ram = m0 := by
  unfold State.latchAll
  repeat' with_reducible first | assumption | apply State.settle_ram

theorem State.markAcked_ram {m0 : List Host.Cell} (s : State) (seq : Nat)
    (hm : s.mem.ram = m0) : (State.markAcked s seq).mem.ram = m0 := by
  unfold State.markAcked
  try dsimp only
  repeat' with_reducible first | assumption | refine ram_mk rfl rfl ?_

theorem State.ackSeq_ram {m0 : List Host.Cell} (s : State) (seq : Nat) (hm : s.mem.ram = m0) : (State.ackSeq s seq).mem.ram = m0 := by
  unfold State.ackSeq
  try dsimp only
  repeat' with_reducible first | assumption | apply State.changed_ram | apply State.markAcked_ram | refine ram_mk rfl rfl ?_

theorem State.clearLinesOf_ram {m0 : List Host.Cell} (s : State) (keys : List Nat)
    (hm : s.mem.ram = m0) : (State.clearLinesOf s keys).mem.ram = m0 := by
  unfold State.clearLinesOf
  try dsimp only
  repeat' with_reducible first | assumption | apply ite_ram | split | refine ram_mk rfl rfl ?_

theorem State.handled_ram {m0 : List Host.Cell} (s : State) (k : Nat) (hm : s.mem.ram = m0) : (State.handled s k).mem.ram = m0 := by
  unfold State.handled
  try dsimp only
  repeat' with_reducible first
    | assumption | apply State.changed_ram | apply State.setCollector_ram | apply State.markAcked_ram | apply State.clearLinesOf_ram
    | apply ite_ram | split

/-! ## Security -/

theorem State.advanceCounter_ram {m0 : List Host.Cell} (s : State) (v : Nat)
    (hm : s.mem.ram = m0) : (State.advanceCounter s v).mem.ram = m0 := by
  unfold State.advanceCounter
  try dsimp only
  repeat' with_reducible first | assumption | apply State.condition_ram | apply ite_ram | split | refine ram_mk rfl rfl ?_

theorem State.runImage_ram {m0 : List Host.Cell} (s : State) (img : List Byte)
    (hm : s.mem.ram = m0) : (State.runImage s img).mem.ram = m0 := by
  unfold State.runImage
  repeat' with_reducible first | assumption | refine ram_mk rfl rfl ?_

theorem State.recoveryMode_ram {m0 : List Host.Cell} (s : State) (hm : s.mem.ram = m0) : (State.recoveryMode s).mem.ram = m0 := by
  unfold State.recoveryMode
  repeat' with_reducible first | assumption | apply State.raise_ram | refine ram_mk rfl rfl ?_

theorem State.bootBank_ram {m0 : List Host.Cell} (s : State) (b other : Bool)
    (hm : s.mem.ram = m0) : (State.bootBank s b other).mem.ram = m0 := by
  unfold State.bootBank
  try dsimp only
  repeat' with_reducible first | assumption | apply State.latchAt_ram | apply State.runImage_ram | apply ite_ram | split | refine ram_mk rfl rfl ?_

theorem State.bootRom_ram {m0 : List Host.Cell} (s : State) (hm : s.mem.ram = m0) : (State.bootRom s).mem.ram = m0 := by
  unfold State.bootRom
  try dsimp only
  repeat' with_reducible first
    | assumption | apply State.recoveryMode_ram | apply State.bootBank_ram | apply ite_ram | split | refine ram_mk rfl rfl ?_

theorem State.ringFaults_ram {m0 : List Host.Cell} (s : State) (l : List RingRec) (base : Nat)
    (hm : s.mem.ram = m0) : (State.ringFaults s l base).mem.ram = m0 := by
  unfold State.ringFaults
  try dsimp only
  repeat' with_reducible first
    | assumption | apply State.latchHandled_ram | refine foldl_ram (fun _ _ _ => ?_) _ ?_ | refine foldl_ram_fst (fun _ _ _ => ?_) _ ?_
    | apply ite_ram | split

theorem State.createAttestKey_ram {m0 : List Host.Cell} (s : State) (hm : s.mem.ram = m0) : (State.createAttestKey s).mem.ram = m0 := by
  unfold State.createAttestKey
  try dsimp only
  repeat' with_reducible first
    | assumption | apply State.setReady_ram | apply State.raise_ram | apply State.ringFaults_ram | apply ite_ram | split
    | refine ram_mk rfl rfl ?_

theorem State.destroyAttestKey_ram {m0 : List Host.Cell} (s : State) (hm : s.mem.ram = m0) : (State.destroyAttestKey s).mem.ram = m0 := by
  unfold State.destroyAttestKey
  repeat' with_reducible first | assumption | apply State.setReady_ram | apply State.raise_ram | apply ite_ram | split | refine ram_mk rfl rfl ?_

theorem State.attestGo_ram {m0 : List Host.Cell} (s : State) (v : Nat) (hm : s.mem.ram = m0) : (State.attestGo s v).s.mem.ram = m0 := by
  unfold State.attestGo
  try dsimp only
  repeat' with_reducible first | assumption | apply State.destroyAttestKey_ram | apply ite_ram_s | apply ite_ram | split | refine ram_mk rfl rfl ?_

theorem State.enrol_ram {m0 : List Host.Cell} (s : State) (slot : Nat) (k : List Byte) (h : Nat)
    (hm : s.mem.ram = m0) : (State.enrol s slot k h).mem.ram = m0 := by
  unfold State.enrol
  repeat' with_reducible first | assumption | refine ram_mk rfl rfl ?_

theorem State.enrolGo_ram {m0 : List Host.Cell} (s : State) (hm : s.mem.ram = m0) : (State.enrolGo s).s.mem.ram = m0 := by
  unfold State.enrolGo
  try dsimp only
  repeat' with_reducible first | assumption | apply State.enrol_ram | apply ite_ram_s | apply ite_ram | split | refine ram_mk rfl rfl ?_

theorem State.acceptToken_ram {m0 : List Host.Cell} (s : State) (t : Token)
    (hm : s.mem.ram = m0) : (State.acceptToken s t).mem.ram = m0 := by
  unfold State.acceptToken
  repeat' with_reducible first | assumption | refine ram_mk rfl rfl ?_

theorem State.tokenEffect_ram {m0 : List Host.Cell} (s : State) (t : Token)
    (hm : s.mem.ram = m0) : (State.tokenEffect s t).mem.ram = m0 := by
  unfold State.tokenEffect
  repeat' with_reducible first | assumption | apply State.advanceCounter_ram | apply State.enrol_ram | split | refine ram_mk rfl rfl ?_

theorem State.tokenGo_ram {m0 : List Host.Cell} (s : State) (hm : s.mem.ram = m0) : (State.tokenGo s).s.mem.ram = m0 := by
  unfold State.tokenGo
  try dsimp only
  repeat' with_reducible first
    | assumption | apply State.bump_ram | apply State.condition_ram | apply State.acceptToken_ram | apply State.tokenEffect_ram
    | apply ite_ram_s | apply ite_ram | split | refine ram_mk rfl rfl ?_

theorem State.clearGo_ram {m0 : List Host.Cell} (s : State) (hm : s.mem.ram = m0) : (State.clearGo s).s.mem.ram = m0 := by
  unfold State.clearGo
  try dsimp only
  repeat' with_reducible first
    | assumption | apply State.bump_ram | apply State.record_ram | apply State.acceptToken_ram | refine foldl_ram (fun _ _ _ => ?_) _ ?_
    | refine foldl_ram_fst (fun _ _ _ => ?_) _ ?_ | apply ite_ram_s | apply ite_ram | split | refine ram_mk rfl rfl ?_

theorem State.stageGo_ram {m0 : List Host.Cell} (s : State) (v : Nat) (hm : s.mem.ram = m0) : (State.stageGo s v).s.mem.ram = m0 := by
  unfold State.stageGo
  try dsimp only
  repeat' with_reducible first | assumption | apply State.setEnt_ram | apply ite_ram_s | apply ite_ram | split | refine ram_mk rfl rfl ?_

theorem State.stageDone_ram {m0 : List Host.Cell} (s : State) (hm : s.mem.ram = m0) : (State.stageDone s).mem.ram = m0 := by
  unfold State.stageDone
  try dsimp only
  repeat' with_reducible first | assumption | apply State.setEnt_ram | apply ite_ram | split | refine ram_mk rfl rfl ?_

/-! ## Supply -/

theorem State.autoAdvance_ram {m0 : List Host.Cell} (s : State) (hm : s.mem.ram = m0) : (State.autoAdvance s).mem.ram = m0 := by
  unfold State.autoAdvance
  repeat' with_reducible first | assumption | apply State.advanceCounter_ram | apply ite_ram | split

theorem State.setCompute_ram {m0 : List Host.Cell} (s : State) (hm : s.mem.ram = m0) : (State.setCompute s).mem.ram = m0 := by
  unfold State.setCompute
  try dsimp only
  repeat' with_reducible first | assumption | apply State.setReady_ram | refine ram_mk rfl rfl ?_

theorem State.computeCheck_ram {m0 : List Host.Cell} (s : State) (hm : s.mem.ram = m0) : (State.computeCheck s).mem.ram = m0 := by
  unfold State.computeCheck
  repeat' with_reducible first | assumption | apply State.autoAdvance_ram | apply State.setCompute_ram | apply ite_ram | split

theorem State.bringUp_ram {m0 : List Host.Cell} (s : State) (b : Nat) (hm : s.mem.ram = m0) : (State.bringUp s b).mem.ram = m0 := by
  unfold State.bringUp
  try dsimp only
  repeat' with_reducible first
    | assumption | apply State.setLane_ram | apply State.sendLaneState_ram | refine foldl_ram (fun _ _ _ => ?_) _ ?_
    | refine foldl_ram_fst (fun _ _ _ => ?_) _ ?_ | apply ite_ram | split | refine ram_mk rfl rfl ?_

theorem State.bitSet_ram {m0 : List Host.Cell} (s : State) (b : Nat) (hm : s.mem.ram = m0) : (State.bitSet s b).mem.ram = m0 := by
  unfold State.bitSet
  repeat' with_reducible first | assumption | apply State.recordsOfDie1_ram | apply ite_ram | split

theorem State.lateRecord_ram {m0 : List Host.Cell} (s : State) (cls : Nat) (f : FnId)
    (hm : s.mem.ram = m0) : (State.lateRecord s cls f).mem.ram = m0 := by
  unfold State.lateRecord
  repeat' with_reducible first | assumption | apply State.latchAt_ram | apply ite_ram | split | refine ram_mk rfl rfl ?_

theorem State.lateStack_ram {m0 : List Host.Cell} (s : State) (st : Nat) (hm : s.mem.ram = m0) : (State.lateStack s st).mem.ram = m0 := by
  unfold State.lateStack
  repeat' with_reducible first
    | assumption | apply State.raise_ram | apply State.loseCompute_ram | apply State.setStack_ram | refine ram_mk rfl rfl ?_

/-! ## Power -/

theorem State.raisePower_ram {m0 : List Host.Cell} (s : State) (source atLeast : Nat)
    (hm : s.mem.ram = m0) : (State.raisePower s source atLeast).mem.ram = m0 := by
  unfold State.raisePower
  repeat' with_reducible first | assumption | apply State.raise_ram | refine ram_mk rfl rfl ?_

theorem State.tickCluster_ram {m0 : List Host.Cell} (s0 s : State) (k : Nat)
    (hm : s.mem.ram = m0) : (State.tickCluster s0 s k).mem.ram = m0 := by
  unfold State.tickCluster
  try dsimp only
  repeat' with_reducible first | assumption | apply ite_ram | split | refine ram_mk rfl rfl ?_

theorem State.accountTick_ram {m0 : List Host.Cell} (s : State) (p : Nat)
    (hm : s.mem.ram = m0) : (State.accountTick s p).mem.ram = m0 := by
  unfold State.accountTick
  try dsimp only
  repeat' with_reducible first | assumption | apply State.syncAccount_ram | apply ite_ram | split | refine ram_mk rfl rfl ?_

theorem State.voltTick_ram {m0 : List Host.Cell} (s : State) (mv : Nat) (hm : s.mem.ram = m0) : (State.voltTick s mv).mem.ram = m0 := by
  unfold State.voltTick
  try dsimp only
  repeat' with_reducible first | assumption | apply ite_ram | split | refine ram_mk rfl rfl ?_

theorem State.meterEntries_ram {m0 : List Host.Cell} (s : State) (m : PowerMeas)
    (hm : s.mem.ram = m0) : (State.meterEntries s m).mem.ram = m0 := by
  unfold State.meterEntries
  try dsimp only
  repeat' with_reducible first | assumption | apply State.setEnt_ram

theorem State.thawAll_ram {m0 : List Host.Cell} (s : State) (hm : s.mem.ram = m0) : (State.thawAll s).mem.ram = m0 := by
  unfold State.thawAll
  try dsimp only
  repeat' with_reducible first
    | assumption | apply State.thaw_ram | refine foldl_ram (fun _ _ _ => ?_) _ ?_ | refine foldl_ram_fst (fun _ _ _ => ?_) _ ?_

theorem State.heatHolds_ram {m0 : List Host.Cell} (s : State) (hm : s.mem.ram = m0) : (State.heatHolds s).mem.ram = m0 := by
  unfold State.heatHolds
  try dsimp only
  repeat' with_reducible first | assumption | refine ram_mk rfl rfl ?_

theorem State.springSample_ram {m0 : List Host.Cell} (s : State) (x : Sensor) (t : Int)
    (hm : s.mem.ram = m0) : (State.springSample s x t).mem.ram = m0 := by
  unfold State.springSample
  repeat' with_reducible first | assumption | apply ite_ram | split | refine ram_mk rfl rfl ?_

theorem State.dieTrip_ram {m0 : List Host.Cell} (s : State) (d : Nat) (hm : s.mem.ram = m0) : (State.dieTrip s d).mem.ram = m0 := by
  unfold State.dieTrip
  try dsimp only
  repeat' with_reducible first
    | assumption | apply State.setEnt_ram | apply State.setReady_ram | refine foldl_ram (fun _ _ _ => ?_) _ ?_
    | refine foldl_ram_fst (fun _ _ _ => ?_) _ ?_ | refine ram_mk rfl rfl ?_

theorem State.clusterOff_ram {m0 : List Host.Cell} (s : State) (k : Nat) (hm : s.mem.ram = m0) : (State.clusterOff s k).mem.ram = m0 := by
  unfold State.clusterOff
  try dsimp only
  repeat' with_reducible first
    | assumption | apply State.setReady_ram | apply State.setCoreReady_ram | refine foldl_ram (fun _ _ _ => ?_) _ ?_
    | refine foldl_ram_fst (fun _ _ _ => ?_) _ ?_ | refine ram_mk rfl rfl ?_

theorem State.regulatorTrip_ram {m0 : List Host.Cell} (s : State) (r : Nat)
    (hm : s.mem.ram = m0) : (State.regulatorTrip s r).mem.ram = m0 := by
  unfold State.regulatorTrip
  try dsimp only
  repeat' with_reducible first
    | assumption | apply State.clusterOff_ram | refine foldl_ram (fun _ _ _ => ?_) _ ?_ | refine foldl_ram_fst (fun _ _ _ => ?_) _ ?_
    | apply ite_ram | split | refine ram_mk rfl rfl ?_

theorem State.stackTrip_ram {m0 : List Host.Cell} (s : State) (st : Nat) (hm : s.mem.ram = m0) : (State.stackTrip s st).mem.ram = m0 := by
  unfold State.stackTrip
  repeat' with_reducible first
    | assumption | apply State.setReady_ram | apply State.setStack_ram | refine foldl_ram (fun _ _ _ => ?_) _ ?_
    | refine foldl_ram_fst (fun _ _ _ => ?_) _ ?_ | refine ram_mk rfl rfl ?_

theorem State.bookShare_ram {m0 : List Host.Cell} (s : State) (x : EnergyShare) (uj : Nat)
    (hm : s.mem.ram = m0) : (State.bookShare s x uj).mem.ram = m0 := by
  unfold State.bookShare
  try dsimp only
  repeat' with_reducible first | assumption | apply ite_ram | split | refine ram_mk rfl rfl ?_

theorem State.bookAll_ram {m0 : List Host.Cell} (s : State) (l : List EnergyShare) (sum total : Nat)
    (hm : s.mem.ram = m0) : (State.bookAll s l sum total).mem.ram = m0 := by
  unfold State.bookAll
  try dsimp only
  repeat' with_reducible first
    | assumption | apply State.bookShare_ram | refine foldl_ram (fun _ _ _ => ?_) _ ?_ | refine foldl_ram_fst (fun _ _ _ => ?_) _ ?_

theorem State.meterRailEnergy_ram {m0 : List Host.Cell} (s : State) (l : List (Rail × Nat))
    (hm : s.mem.ram = m0) : (State.meterRailEnergy s l).mem.ram = m0 := by
  unfold State.meterRailEnergy
  try dsimp only
  repeat' with_reducible first
    | assumption | refine foldl_ram (fun _ _ _ => ?_) _ ?_ | refine foldl_ram_fst (fun _ _ _ => ?_) _ ?_ | refine ram_mk rfl rfl ?_

theorem State.compareMeters_ram {m0 : List Host.Cell} (s : State) (input rails : Nat)
    (hm : s.mem.ram = m0) : (State.compareMeters s input rails).mem.ram = m0 := by
  unfold State.compareMeters
  try dsimp only
  repeat' with_reducible first | assumption | apply ite_ram | split | refine ram_mk rfl rfl ?_

end Sys2Proof.Machine
end

