-- ==== Sys2Proof/Laws/RamCompute.lean ====
section
/-! SUPPORT. Operations that store no byte of memory (R262): pans, sluice paths, vector units, scaling, loading and links. One lemma for each. -/

namespace Sys2Proof.Machine

/-! ## Store -/

theorem State.memViolation_ram {m0 : List Host.Cell} (s : State) (code addr : Nat)
    (hm : s.mem.ram = m0) : (State.memViolation s code addr).mem.ram = m0 := by
  unfold State.memViolation
  try dsimp only
  repeat' with_reducible first
    | assumption | apply State.setEnt_ram | apply State.bump_ram | apply State.violation_ram | refine foldl_ram (fun _ _ _ => ?_) _ ?_
    | refine foldl_ram_fst (fun _ _ _ => ?_) _ ?_ | apply ite_ram | split

theorem State.stallSeals_ram {m0 : List Host.Cell} (s : State) (l : List (Nat × Nat))
    (hm : s.mem.ram = m0) : (State.stallSeals s l).mem.ram = m0 := by
  unfold State.stallSeals
  try dsimp only
  repeat' with_reducible first | assumption | apply State.bump_ram | apply State.draw_ram | apply ite_ram | split

theorem State.dropUnits_ram {m0 : List Host.Cell} (s : State) (hm : s.mem.ram = m0) : (State.dropUnits s).mem.ram = m0 := by
  unfold State.dropUnits
  repeat' with_reducible first | assumption | refine ram_mk rfl rfl ?_

theorem State.goStale_ram {m0 : List Host.Cell} (s : State) (hm : s.mem.ram = m0) : (State.goStale s).mem.ram = m0 :=
  State.setEnt_ram _ _ _ (State.dropUnits_ram s hm)

theorem State.copyBeforeWrite_ram {m0 : List Host.Cell} (s : State) (p : Nat)
    (hm : s.mem.ram = m0) : (State.copyBeforeWrite s p).mem.ram = m0 := by
  unfold State.copyBeforeWrite
  try dsimp only
  repeat' with_reducible first | assumption | apply State.bump_ram | apply State.draw_ram | apply ite_ram | split | refine ram_mk rfl rfl ?_

theorem State.addDelta_ram {m0 : List Host.Cell} (s : State) (su : Option Nat) (d : Nat × Nat × Nat × List Byte)
    (hm : s.mem.ram = m0) : (State.addDelta s su d).1.mem.ram = m0 := by
  unfold State.addDelta
  try dsimp only
  repeat' with_reducible first | assumption | apply State.goStale_ram | apply ite_ram_fst | apply ite_ram | split | refine ram_mk rfl rfl ?_

theorem State.sendDeltas_ram {m0 : List Host.Cell} (s : State) (h : Nat) (x : SealUnit) (frames : List (List Byte))
    (hm : s.mem.ram = m0) : (State.sendDeltas s h x frames).mem.ram = m0 := by
  unfold State.sendDeltas
  try dsimp only
  repeat' with_reducible first
    | assumption | apply State.sendFrame_ram | refine foldl_ram (fun _ _ _ => ?_) _ ?_ | refine foldl_ram_fst (fun _ _ _ => ?_) _ ?_
    | apply ite_ram | split | refine ram_mk rfl rfl ?_

theorem State.closeSeal_ram {m0 : List Host.Cell} (s : State) (su : Option Nat) (chunk : Option (Nat × Nat))
    (hm : s.mem.ram = m0) : (State.closeSeal s su chunk).mem.ram = m0 := by
  unfold State.closeSeal
  try dsimp only
  repeat' with_reducible first
    | assumption | apply State.bump_ram | apply State.sendDeltas_ram | refine foldl_ram (fun _ _ _ => ?_) _ ?_
    | refine foldl_ram_fst (fun _ _ _ => ?_) _ ?_ | apply ite_ram | split | refine ram_mk rfl rfl ?_

theorem State.owe_ram {m0 : List Host.Cell} (s : State) (l : List (Nat × List Byte))
    (hm : s.mem.ram = m0) : (State.owe s l).mem.ram = m0 := by
  unfold State.owe
  repeat' with_reducible first | assumption | refine ram_mk rfl rfl ?_

theorem State.sendMirror_ram {m0 : List Host.Cell} (s : State) (point : Nat) (l : List Byte)
    (hm : s.mem.ram = m0) : (State.sendMirror s point l).mem.ram = m0 := by
  unfold State.sendMirror
  try dsimp only
  repeat' with_reducible first | assumption | apply State.sendBytes_ram | apply ite_ram | split | refine ram_mk rfl rfl ?_

theorem State.refuseStep_ram {m0 : List Host.Cell} (s : State) (code a : Nat)
    (hm : s.mem.ram = m0) : (State.refuseStep s code a).mem.ram = m0 := by
  unfold State.refuseStep
  try dsimp only
  repeat' with_reducible first | assumption | apply State.flagFault_ram | apply State.memViolation_ram | apply ite_ram | split

/-! ## Operands -/

theorem State.rebuildFirst_ram {m0 : List Host.Cell} (s : State) (p : Nat)
    (hm : s.mem.ram = m0) : (State.rebuildFirst s p).mem.ram = m0 := by
  unfold State.rebuildFirst
  repeat' with_reducible first | assumption | apply ite_ram | split | refine ram_mk rfl rfl ?_

theorem State.rebuildLine_ram {m0 : List Host.Cell} (s : State) (p : Nat)
    (hm : s.mem.ram = m0) : (State.rebuildLine s p).mem.ram = m0 := by
  unfold State.rebuildLine
  repeat' with_reducible first | assumption | apply State.setMapEntry_ram | apply ite_ram | split | refine ram_mk rfl rfl ?_

theorem State.memEvent_ram {m0 : List Host.Cell} (s : State) (addr : Nat)
    (hm : s.mem.ram = m0) : (State.memEvent s addr).mem.ram = m0 := by
  unfold State.memEvent
  repeat' with_reducible first | assumption | apply State.setEnt_ram | apply State.bump_ram

theorem State.uncorrectable_ram {m0 : List Host.Cell} (s : State) (addr : Nat)
    (hm : s.mem.ram = m0) : (State.uncorrectable s addr).mem.ram = m0 := by
  unfold State.uncorrectable
  try dsimp only
  repeat' with_reducible first
    | assumption | apply State.bump_ram | apply State.raise_ram | apply State.rebuildLine_ram | apply State.memEvent_ram | apply ite_ram
    | split | refine ram_mk rfl rfl ?_

theorem State.troubled_ram {m0 : List Host.Cell} (s : State) (core : Nat) (x : Trouble)
    (hm : s.mem.ram = m0) : (State.troubled s core x).mem.ram = m0 := by
  unfold State.troubled
  try dsimp only
  repeat' with_reducible first
    | assumption | apply State.bump_ram | apply State.raise_ram | apply State.flagFault_ram | apply State.memViolation_ram
    | apply State.rebuildFirst_ram | apply State.uncorrectable_ram | split

/-! ## Flags -/

theorem State.reportInvalid_ram {m0 : List Host.Cell} (s : State) (c layer n : Nat) (w : ExWindow)
    (hm : s.mem.ram = m0) : (State.reportInvalid s c layer n w).mem.ram = m0 := by
  unfold State.reportInvalid
  try dsimp only
  repeat' with_reducible first | assumption | apply State.setCore_ram | apply ite_ram | split | refine ram_mk rfl rfl ?_

theorem State.queueRecord_ram {m0 : List Host.Cell} (s : State) (c : Nat) (r : SalRec)
    (hm : s.mem.ram = m0) : (State.queueRecord s c r).mem.ram = m0 := by
  unfold State.queueRecord
  repeat' with_reducible first | assumption | apply State.sendQueue_ram

theorem State.joinRecord_ram {m0 : List Host.Cell} (s : State) (c : Nat) (r : SalRec)
    (hm : s.mem.ram = m0) : (State.joinRecord s c r).mem.ram = m0 := by
  unfold State.joinRecord
  try dsimp only
  repeat' with_reducible first | assumption | apply State.setCore_ram | refine ram_mk rfl rfl ?_

theorem State.sendRecord_ram {m0 : List Host.Cell} (s : State) (c : Nat) (r : SalRec)
    (hm : s.mem.ram = m0) : (State.sendRecord s c r).mem.ram = m0 := by
  unfold State.sendRecord
  repeat' with_reducible first | assumption | apply State.queueRecord_ram | apply State.joinRecord_ram

theorem State.holdRecord_ram {m0 : List Host.Cell} (s : State) (c key : Nat) (r : SalRec)
    (hm : s.mem.ram = m0) : (State.holdRecord s c key r).mem.ram = m0 := by
  unfold State.holdRecord
  try dsimp only
  repeat' with_reducible first | assumption | apply State.setCore_ram | apply State.queueRecord_ram | refine ram_mk rfl rfl ?_

theorem State.joinHeld_ram {m0 : List Host.Cell} (s : State) (c key : Nat)
    (hm : s.mem.ram = m0) : (State.joinHeld s c key).mem.ram = m0 := by
  unfold State.joinHeld
  try dsimp only
  repeat' with_reducible first
    | assumption | apply State.setCore_ram | apply State.joinRecord_ram | refine foldl_ram (fun _ _ _ => ?_) _ ?_
    | refine foldl_ram_fst (fun _ _ _ => ?_) _ ?_ | refine ram_mk rfl rfl ?_

theorem State.backwardSat_ram {m0 : List Host.Cell} (s : State) (hm : s.mem.ram = m0) : (State.backwardSat s).mem.ram = m0 := by
  unfold State.backwardSat
  try dsimp only
  repeat' with_reducible first | assumption | apply State.bump_ram | apply State.flagNonFinite_ram | apply ite_ram | split | refine ram_mk rfl rfl ?_

theorem State.mapDesc_ram {m0 : List Host.Cell} (s : State) (pos : Nat) (f : DescRun → DescRun)
    (hm : s.mem.ram = m0) : (State.mapDesc s pos f).mem.ram = m0 := by
  unfold State.mapDesc
  try dsimp only
  repeat' with_reducible first | assumption | apply ite_ram | split | refine ram_mk rfl rfl ?_

theorem State.unitFlags_ram {m0 : List Host.Cell} (s : State) (overflows : Nat) (k : Counts)
    (hm : s.mem.ram = m0) : (State.unitFlags s overflows k).mem.ram = m0 := by
  unfold State.unitFlags
  try dsimp only
  repeat' with_reducible first | assumption | apply State.bump_ram | apply State.flagNonFinite_ram | apply ite_ram | split

theorem State.unitSats_ram {m0 : List Host.Cell} (s : State) (pos : Nat) (backward : Bool) (k : Counts)
    (hm : s.mem.ram = m0) : (State.unitSats s pos backward k).mem.ram = m0 := by
  unfold State.unitSats
  try dsimp only
  repeat' with_reducible first
    | assumption | apply State.backwardSat_ram | apply State.mapDesc_ram | apply ite_ram | split | refine ram_mk rfl rfl ?_

theorem State.markLayer_ram {m0 : List Host.Cell} (s : State) (l : Nat) (hm : s.mem.ram = m0) : (State.markLayer s l).mem.ram = m0 := by
  unfold State.markLayer
  repeat' with_reducible first | assumption | apply State.setRake_ram | refine ram_mk rfl rfl ?_

/-! ## Plan -/

theorem State.finishUnit_ram {m0 : List Host.Cell} (s : State) (c engine pos number : Nat)
    (hm : s.mem.ram = m0) : (State.finishUnit s c engine pos number).mem.ram = m0 := by
  unfold State.finishUnit
  try dsimp only
  repeat' with_reducible first | assumption | apply State.setCore_ram | apply State.mapDesc_ram | apply ite_ram | split | refine ram_mk rfl rfl ?_

theorem State.finishOutput_ram {m0 : List Host.Cell} (s : State) (c engine pos number : Nat)
    (hm : s.mem.ram = m0) : (State.finishOutput s c engine pos number).mem.ram = m0 := by
  unfold State.finishOutput
  try dsimp only
  repeat' with_reducible first | assumption | apply State.joinHeld_ram | apply State.finishUnit_ram | apply ite_ram | split

/-! ## Pans -/

theorem State.settlePreload_ram {m0 : List Host.Cell} (s : State) (c p : Nat)
    (hm : s.mem.ram = m0) : (State.settlePreload s c p).mem.ram = m0 := by
  unfold State.settlePreload
  try dsimp only
  repeat' with_reducible first
    | assumption | apply State.setPan_ram | refine foldl_ram (fun _ _ _ => ?_) _ ?_ | refine foldl_ram_fst (fun _ _ _ => ?_) _ ?_
    | apply ite_ram | split | refine ram_mk rfl rfl ?_

theorem State.settleBlock_ram {m0 : List Host.Cell} (s : State) (c pos block : Nat)
    (hm : s.mem.ram = m0) : (State.settleBlock s c pos block).mem.ram = m0 := by
  unfold State.settleBlock
  try dsimp only
  repeat' with_reducible first
    | assumption | apply State.setCore_ram | apply State.finishOutput_ram | apply ite_ram | split | refine ram_mk rfl rfl ?_

theorem State.dropBlock_ram {m0 : List Host.Cell} (s : State) (c pos block : Nat)
    (hm : s.mem.ram = m0) : (State.dropBlock s c pos block).mem.ram = m0 := by
  unfold State.dropBlock
  try dsimp only
  repeat' with_reducible first
    | assumption | apply State.setCore_ram | apply State.joinHeld_ram | apply State.settleBlock_ram | apply ite_ram | split
    | refine ram_mk rfl rfl ?_

theorem State.tagFault_ram {m0 : List Host.Cell} (s : State) (c p : Nat) (x : TagSlip) (bit : Nat)
    (hm : s.mem.ram = m0) : (State.tagFault s c p x bit).mem.ram = m0 := by
  unfold State.tagFault
  try dsimp only
  repeat' with_reducible first
    | assumption | apply State.bump_ram | apply State.raise_ram | apply State.setPan_ram | apply State.latchAll_ram | apply ite_ram | split
    | refine ram_mk rfl rfl ?_

theorem State.runPass_ram {m0 : List Host.Cell} (s : State) (c p : Nat) (r : DescRun) (t : TileRun) (rows : TileBuf)
    (hm : s.mem.ram = m0) : (State.runPass s c p r t rows).mem.ram = m0 := by
  unfold State.runPass
  try dsimp only
  repeat' with_reducible first
    | assumption | apply State.bump_ram | apply State.draw_ram | apply State.readQueue_ram | apply State.setCore_ram
    | apply State.setPan_ram | apply ite_ram | split | refine ram_mk rfl rfl ?_

theorem State.waitRow_ram {m0 : List Host.Cell} (s : State) (c p : Nat) (hm : s.mem.ram = m0) : (State.waitRow s c p).mem.ram = m0 := by
  unfold State.waitRow
  try dsimp only
  repeat' with_reducible first | assumption | apply State.bump_ram | apply State.setPan_ram | apply ite_ram | split | refine ram_mk rfl rfl ?_

theorem State.badRegister_ram {m0 : List Host.Cell} (s : State) (c p : Nat) (r : DescRun) (t : TileRun) (i : Nat)
    (hm : s.mem.ram = m0) : (State.badRegister s c p r t i).mem.ram = m0 := by
  unfold State.badRegister
  try dsimp only
  repeat' with_reducible first
    | assumption | apply State.bump_ram | apply State.raise_ram | apply State.setPan_ram | apply State.latchAll_ram
    | apply State.troubled_ram | apply State.dropBlock_ram | split | refine ram_mk rfl rfl ?_

theorem State.takeShifts_ram {m0 : List Host.Cell} (s : State) (c p payload : Nat)
    (hm : s.mem.ram = m0) : (State.takeShifts s c p payload).mem.ram = m0 := by
  unfold State.takeShifts
  try dsimp only
  repeat' with_reducible first | assumption | apply State.setPan_ram | apply ite_ram | split | refine ram_mk rfl rfl ?_

theorem State.fillRow_ram {m0 : List Host.Cell} (s : State) (c p : Nat) (hm : s.mem.ram = m0) : (State.fillRow s c p).mem.ram = m0 := by
  unfold State.fillRow
  try dsimp only
  repeat' with_reducible first | assumption | apply State.bump_ram | apply State.setPan_ram | apply ite_ram | split | refine ram_mk rfl rfl ?_

theorem State.reportTile_ram {m0 : List Host.Cell} (s : State) (c : Nat) (r : DescRun) (sr : SalRec) (w : ExWindow) (send : Bool)
    (hm : s.mem.ram = m0) : (State.reportTile s c r sr w send).mem.ram = m0 := by
  unfold State.reportTile
  try dsimp only
  repeat' with_reducible first
    | assumption | apply State.reportInvalid_ram | apply State.holdRecord_ram | apply State.unitFlags_ram | apply ite_ram | split

theorem State.completeTile_ram {m0 : List Host.Cell} (s : State) (c p : Nat) (r : DescRun) (t : TileRun)
    (hm : s.mem.ram = m0) : (State.completeTile s c p r t).mem.ram = m0 := by
  unfold State.completeTile
  try dsimp only
  repeat' with_reducible first
    | assumption | apply State.setCore_ram | apply State.setPan_ram | apply State.mapDesc_ram | apply State.settleBlock_ram
    | apply State.reportTile_ram | refine foldl_ram (fun _ _ _ => ?_) _ ?_ | refine foldl_ram_fst (fun _ _ _ => ?_) _ ?_ | apply ite_ram
    | split | refine ram_mk rfl rfl ?_

theorem State.endRows_ram {m0 : List Host.Cell} (s : State) (c : Nat) (r : DescRun) (w : Writeback) (su : Option Nat)
    (hm : s.mem.ram = m0) : (State.endRows s c r w su).mem.ram = m0 := by
  unfold State.endRows
  try dsimp only
  repeat' with_reducible first
    | assumption | apply State.closeSeal_ram | apply State.holdRecord_ram | apply State.mapDesc_ram | refine ram_mk rfl rfl ?_

theorem State.ackWriteback_ram {m0 : List Host.Cell} (s : State) (c p : Nat)
    (hm : s.mem.ram = m0) : (State.ackWriteback s c p).mem.ram = m0 := by
  unfold State.ackWriteback
  try dsimp only
  repeat' with_reducible first | assumption | apply State.setPan_ram | apply State.settleBlock_ram | apply ite_ram | split | refine ram_mk rfl rfl ?_

/-! ## Sluice -/

theorem State.dropPass_ram {m0 : List Host.Cell} (s : State) (c : Nat) (u : RunUnit) (r : DescRun)
    (hm : s.mem.ram = m0) : (State.dropPass s c u r).mem.ram = m0 := by
  unfold State.dropPass
  repeat' with_reducible first | assumption | apply State.setCore_ram | apply State.joinHeld_ram | apply State.finishUnit_ram

/-! ## Vector -/

theorem State.vectorTag_ram {m0 : List Host.Cell} (s : State) (c : Nat) (x : TagSlip)
    (hm : s.mem.ram = m0) : (State.vectorTag s c x).mem.ram = m0 := by
  unfold State.vectorTag
  try dsimp only
  repeat' with_reducible first
    | assumption | apply State.bump_ram | apply State.raise_ram | apply State.setCore_ram | apply State.latchAll_ram | apply ite_ram
    | split | refine ram_mk rfl rfl ?_

theorem State.updateSats_ram {m0 : List Host.Cell} (s : State) (r : DescRun) (counts : KV Counts)
    (hm : s.mem.ram = m0) : (State.updateSats s r counts).mem.ram = m0 := by
  unfold State.updateSats
  try dsimp only
  repeat' with_reducible first
    | assumption | apply State.bump_ram | apply State.condition_ram | apply State.markLayer_ram | refine foldl_ram (fun _ _ _ => ?_) _ ?_
    | refine foldl_ram_fst (fun _ _ _ => ?_) _ ?_ | apply ite_ram | split

theorem State.updateNonFinite_ram {m0 : List Host.Cell} (s : State) (r : DescRun) (counts : KV Counts)
    (hm : s.mem.ram = m0) : (State.updateNonFinite s r counts).mem.ram = m0 := by
  unfold State.updateNonFinite
  try dsimp only
  repeat' with_reducible first | assumption | apply ite_ram | split | refine ram_mk rfl rfl ?_

theorem State.reduceEvent_ram {m0 : List Host.Cell} (s : State) (r : DescRun) (number : Nat) (x : Nat × Nat × Option Nat)
    (hm : s.mem.ram = m0) : (State.reduceEvent s r number x).mem.ram = m0 := by
  unfold State.reduceEvent
  try dsimp only
  repeat' with_reducible first
    | assumption | apply State.reportInvalid_ram | apply State.joinRecord_ram | apply ite_ram | split | refine ram_mk rfl rfl ?_

theorem State.reportChunk_ram {m0 : List Host.Cell} (s : State) (c number : Nat) (r : DescRun) (x : ChunkRun) (counts : KV Counts)
    (hm : s.mem.ram = m0) : (State.reportChunk s c number r x counts).mem.ram = m0 := by
  unfold State.reportChunk
  try dsimp only
  repeat' with_reducible first
    | assumption | apply State.reportInvalid_ram | apply State.sendRecord_ram | apply State.mapDesc_ram | apply State.unitFlags_ram
    | apply State.unitSats_ram | apply State.updateSats_ram | apply State.updateNonFinite_ram | apply State.reduceEvent_ram
    | refine foldl_ram (fun _ _ _ => ?_) _ ?_ | refine foldl_ram_fst (fun _ _ _ => ?_) _ ?_ | apply ite_ram | split
    | refine ram_mk rfl rfl ?_

theorem State.clearSlip_ram {m0 : List Host.Cell} (s : State) (c : Nat) (hm : s.mem.ram = m0) : (State.clearSlip s c).mem.ram = m0 := by
  unfold State.clearSlip
  repeat' with_reducible first | assumption | apply State.setCore_ram | refine ram_mk rfl rfl ?_

theorem State.dropChunk_ram {m0 : List Host.Cell} (s : State) (c : Nat) (u : RunUnit) (r : DescRun) (y : Trouble)
    (hm : s.mem.ram = m0) : (State.dropChunk s c u r y).mem.ram = m0 := by
  unfold State.dropChunk
  try dsimp only
  repeat' with_reducible first
    | assumption | apply State.latchAll_ram | apply State.troubled_ram | apply State.finishUnit_ram | apply ite_ram | split

/-! ## Scaling -/

theorem State.settleT_ram {m0 : List Host.Cell} (s : State) (i : Nat) (t : Int)
    (hm : s.mem.ram = m0) : (State.settleT s i t).mem.ram = m0 := by
  unfold State.settleT
  try dsimp only
  repeat' with_reducible first | assumption | apply State.sendMirror_ram | apply ite_ram | split | refine ram_mk rfl rfl ?_

theorem State.putNorm_ram {m0 : List Host.Cell} (s : State) (layer : Nat) (upd : Bool) (v : F32)
    (hm : s.mem.ram = m0) : (State.putNorm s layer upd v).mem.ram = m0 := by
  unfold State.putNorm
  try dsimp only
  repeat' with_reducible first | assumption | apply ite_ram | split | refine ram_mk rfl rfl ?_

theorem State.retireTotals_ram {m0 : List Host.Cell} (s : State) (pos attempt layer : Nat)
    (hm : s.mem.ram = m0) : (State.retireTotals s pos attempt layer).mem.ram = m0 := by
  unfold State.retireTotals
  try dsimp only
  repeat' with_reducible first | assumption | refine ram_mk rfl rfl ?_

theorem State.countRecompute_ram {m0 : List Host.Cell} (s : State) (layer : Nat)
    (hm : s.mem.ram = m0) : (State.countRecompute s layer).mem.ram = m0 := by
  unfold State.countRecompute
  try dsimp only
  repeat' with_reducible first | assumption | apply State.bump_ram | refine ram_mk rfl rfl ?_

theorem State.retryProducer_ram {m0 : List Host.Cell} (s : State) (r : DescRun)
    (hm : s.mem.ram = m0) : (State.retryProducer s r).mem.ram = m0 := by
  unfold State.retryProducer
  try dsimp only
  repeat' with_reducible first
    | assumption | apply State.mapDesc_ram | apply State.retireTotals_ram | apply State.countRecompute_ram
    | refine foldl_ram (fun _ _ _ => ?_) _ ?_ | refine foldl_ram_fst (fun _ _ _ => ?_) _ ?_ | refine ram_mk rfl rfl ?_

theorem State.stageTensor_ram {m0 : List Host.Cell} (s : State) (attempt : Nat) (e : Nat × F32)
    (hm : s.mem.ram = m0) : (State.stageTensor s attempt e).mem.ram = m0 := by
  unfold State.stageTensor
  try dsimp only
  repeat' with_reducible first | assumption | apply ite_ram | split | refine ram_mk rfl rfl ?_

theorem State.freeDesc_ram {m0 : List Host.Cell} (s : State) (pos : Nat) (hm : s.mem.ram = m0) : (State.freeDesc s pos).mem.ram = m0 := by
  unfold State.freeDesc
  try dsimp only
  repeat' with_reducible first | assumption | refine ram_mk rfl rfl ?_

theorem State.keepPass_ram {m0 : List Host.Cell} (s : State) (pos : Nat) (hm : s.mem.ram = m0) : (State.keepPass s pos).mem.ram = m0 := by
  unfold State.keepPass
  repeat' with_reducible first | assumption | refine ram_mk rfl rfl ?_

theorem State.completeDesc_ram {m0 : List Host.Cell} (s : State) (r : DescRun)
    (hm : s.mem.ram = m0) : (State.completeDesc s r).mem.ram = m0 := by
  unfold State.completeDesc
  try dsimp only
  repeat' with_reducible first
    | assumption | apply State.stageTensor_ram | apply State.freeDesc_ram | apply State.keepPass_ram
    | refine foldl_ram (fun _ _ _ => ?_) _ ?_ | refine foldl_ram_fst (fun _ _ _ => ?_) _ ?_

theorem State.exhausted_ram {m0 : List Host.Cell} (s : State) (r : DescRun)
    (hm : s.mem.ram = m0) : (State.exhausted s r).mem.ram = m0 := by
  unfold State.exhausted
  try dsimp only
  repeat' with_reducible first | assumption | apply State.bump_ram | apply State.condition_ram | apply State.markLayer_ram | apply ite_ram | split

theorem State.decideAttempt_ram {m0 : List Host.Cell} (s : State) (r : DescRun)
    (hm : s.mem.ram = m0) : (State.decideAttempt s r).mem.ram = m0 := by
  unfold State.decideAttempt
  try dsimp only
  repeat' with_reducible first
    | assumption | apply State.retryProducer_ram | apply State.completeDesc_ram | apply State.exhausted_ram
    | refine foldl_ram (fun _ _ _ => ?_) _ ?_ | refine foldl_ram_fst (fun _ _ _ => ?_) _ ?_ | apply ite_ram | split

theorem State.presentT_ram {m0 : List Host.Cell} (s : State) (others : List (Nat × F32)) (e : Nat × F32)
    (hm : s.mem.ram = m0) : (State.presentT s others e).mem.ram = m0 := by
  unfold State.presentT
  try dsimp only
  repeat' with_reducible first
    | assumption | apply State.settleT_ram | refine foldl_ram (fun _ _ _ => ?_) _ ?_ | refine foldl_ram_fst (fun _ _ _ => ?_) _ ?_
    | apply ite_ram | split

/-! ## Load -/

theorem State.freshRun_ram {m0 : List Host.Cell} (s : State) (g : Program) (hm : s.mem.ram = m0) : (State.freshRun s g).mem.ram = m0 := by
  unfold State.freshRun
  try dsimp only
  repeat' with_reducible first | assumption | apply State.setEnt_ram | refine ram_mk rfl rfl ?_

theorem State.acceptProgram_ram {m0 : List Host.Cell} (s : State) (a : Nat)
    (hm : s.mem.ram = m0) : (State.acceptProgram s a).mem.ram = m0 := by
  unfold State.acceptProgram
  try dsimp only
  repeat' with_reducible first | assumption | apply State.setEnt_ram | apply State.protect_ram | apply State.freshRun_ram | refine ram_mk rfl rfl ?_

theorem State.unload_ram {m0 : List Host.Cell} (s : State) (hm : s.mem.ram = m0) : (State.unload s).mem.ram = m0 := by
  unfold State.unload
  repeat' with_reducible first | assumption | apply State.setEnt_ram | apply State.protect_ram | refine ram_mk rfl rfl ?_

theorem State.startLoad_ram {m0 : List Host.Cell} (s : State) (hm : s.mem.ram = m0) : (State.startLoad s).mem.ram = m0 := by
  unfold State.startLoad
  try dsimp only
  repeat' with_reducible first | assumption | apply State.setEnt_ram | refine ram_mk rfl rfl ?_

/-! ## Brine -/

theorem State.takeAck_ram {m0 : List Host.Cell} (s : State) (h : BrineHdr) (hm : s.mem.ram = m0) : (State.takeAck s h).mem.ram = m0 := by
  unfold State.takeAck
  try dsimp only
  repeat' with_reducible first | assumption | apply State.setLane_ram | refine ram_mk rfl rfl ?_

theorem State.takeMask_ram {m0 : List Host.Cell} (s : State) (h : BrineHdr) (hm : s.mem.ram = m0) : (State.takeMask s h).mem.ram = m0 := by
  unfold State.takeMask
  try dsimp only
  repeat' with_reducible first
    | assumption | apply State.reroutePath_ram | refine foldl_ram (fun _ _ _ => ?_) _ ?_ | refine foldl_ram_fst (fun _ _ _ => ?_) _ ?_
    | refine ram_mk rfl rfl ?_

theorem State.settleMirrors_ram {m0 : List Host.Cell} (s : State) (hm : s.mem.ram = m0) : (State.settleMirrors s).mem.ram = m0 := by
  unfold State.settleMirrors
  repeat' with_reducible first | assumption | refine ram_mk rfl rfl ?_

theorem State.takeHeader_ram {m0 : List Host.Cell} (s : State) (h : BrineHdr)
    (hm : s.mem.ram = m0) : (State.takeHeader s h).mem.ram = m0 := by
  unfold State.takeHeader
  repeat' with_reducible first
    | assumption | apply State.bump_ram | apply State.takeAck_ram | apply State.takeMask_ram | apply State.settleMirrors_ram

theorem State.sendAck_ram {m0 : List Host.Cell} (s : State) (i dst : Nat)
    (hm : s.mem.ram = m0) : (State.sendAck s i dst).mem.ram = m0 := by
  unfold State.sendAck
  repeat' with_reducible first | assumption | apply State.sendOn_ram

theorem State.noteFrame_ram {m0 : List Host.Cell} (s : State) (h : BrineHdr)
    (hm : s.mem.ram = m0) : (State.noteFrame s h).mem.ram = m0 := by
  unfold State.noteFrame
  try dsimp only
  repeat' with_reducible first | assumption | apply State.setLane_ram | apply State.sendAck_ram | apply ite_ram | split | refine ram_mk rfl rfl ?_

theorem State.receive_ram {m0 : List Host.Cell} (s : State) (b : BrineHdr) (f : State → State)
    (hf : ∀ s : State, s.mem.ram = m0 → (f s).mem.ram = m0) (hz : s.mem.ram = m0) : (State.receive s b f).mem.ram = m0 := by
  unfold State.receive
  have h1 := State.takeHeader_ram s b hz
  dsimp only
  split
  · split
    · exact State.latchAll_ram _ (hf _ (State.noteFrame_ram _ _ h1))
    · split
      · exact State.sendAck_ram _ _ _ h1
      · exact State.sendOn_ram _ _ _ h1
  · exact hz

theorem State.receiveFree_ram {m0 : List Host.Cell} (s : State) (b : BrineHdr) (f : State → State)
    (hf : ∀ s : State, s.mem.ram = m0 → (f s).mem.ram = m0) (hz : s.mem.ram = m0) : (State.receiveFree s b f).mem.ram = m0 := by
  unfold State.receiveFree
  split
  · exact State.latchAll_ram _ (hf _ (State.takeHeader_ram s b hz))
  · exact hz

theorem State.resend_ram {m0 : List Host.Cell} (s : State) (i : Nat) (p : TxFrame → Bool)
    (hm : s.mem.ram = m0) : (State.resend s i p).mem.ram = m0 := by
  unfold State.resend
  try dsimp only
  repeat' with_reducible first | assumption | apply State.bump_ram | apply State.setLane_ram | apply ite_ram | split | refine ram_mk rfl rfl ?_

/-! ## Collect -/

theorem State.mapColl_ram {m0 : List Host.Cell} (s : State) (pos : Nat) (f : Collective → Collective)
    (hm : s.mem.ram = m0) : (State.mapColl s pos f).mem.ram = m0 := by
  unfold State.mapColl
  try dsimp only
  repeat' with_reducible first | assumption | apply ite_ram | split | refine ram_mk rfl rfl ?_

theorem State.rootAttempts_ram {m0 : List Host.Cell} : ∀ (n : Nat) (s : State) (r : DescRun) (b : CollBlock) (l : List F32), s.mem.ram = m0 →
    (State.rootAttempts n s r b l).1.mem.ram = m0
  | 0, _, _, _, _, h => h
  | n + 1, s, r, b, l, h => by
    unfold State.rootAttempts
    split
    · exact State.rootAttempts_ram n _ _ _ _ (State.countRecompute_ram _ _ h)
    · exact h

theorem State.presentRoot_ram {m0 : List Host.Cell} (s : State) (r : DescRun) (vals : List F32)
    (hm : s.mem.ram = m0) : (State.presentRoot s r vals).mem.ram = m0 := by
  unfold State.presentRoot
  try dsimp only
  repeat' with_reducible first | assumption | apply State.settleT_ram | apply ite_ram | split

theorem State.reportRoot_ram {m0 : List Host.Cell} (s : State) (r : DescRun) (k : Counts)
    (hm : s.mem.ram = m0) : (State.reportRoot s r k).mem.ram = m0 := by
  unfold State.reportRoot
  try dsimp only
  repeat' with_reducible first
    | assumption | apply State.bump_ram | apply State.condition_ram | apply State.sendRecord_ram | apply State.backwardSat_ram
    | apply State.unitFlags_ram | apply State.markLayer_ram | apply State.completeDesc_ram | apply ite_ram | split
    | refine ram_mk rfl rfl ?_

theorem State.dropColl_ram {m0 : List Host.Cell} (s : State) (pos : Nat) (hm : s.mem.ram = m0) : (State.dropColl s pos).mem.ram = m0 := by
  unfold State.dropColl
  try dsimp only
  repeat' with_reducible first | assumption | refine ram_mk rfl rfl ?_

theorem State.settleRoot_ram {m0 : List Host.Cell} (s : State) (r : DescRun) (b : CollBlock) (vals : List F32)
    (hm : s.mem.ram = m0) : (State.settleRoot s r b vals).mem.ram = m0 := by
  unfold State.settleRoot
  try dsimp only
  repeat' with_reducible first
    | assumption | apply State.mapDesc_ram | apply State.mapColl_ram | apply State.rootAttempts_ram | apply State.presentRoot_ram
    | refine ram_mk rfl rfl ?_

theorem State.reduceOwn_ram {m0 : List Host.Cell} (s : State) (c : Collective) (r : DescRun) (b : CollBlock) (n : Nat)
    (hm : s.mem.ram = m0) : (State.reduceOwn s c r b n).mem.ram = m0 := by
  unfold State.reduceOwn
  try dsimp only
  repeat' with_reducible first
    | assumption | apply State.sendBytes_ram | apply State.mapColl_ram | refine foldl_ram (fun _ _ _ => ?_) _ ?_
    | refine foldl_ram_fst (fun _ _ _ => ?_) _ ?_ | apply ite_ram | split | refine ram_mk rfl rfl ?_

theorem State.endWithout_ram {m0 : List Host.Cell} (s : State) (r : DescRun)
    (hm : s.mem.ram = m0) : (State.endWithout s r).mem.ram = m0 := by
  unfold State.endWithout
  repeat' with_reducible first | assumption | apply State.completeDesc_ram | apply State.dropColl_ram | refine ram_mk rfl rfl ?_

theorem State.contributeHollow_ram {m0 : List Host.Cell} (s : State) (r : DescRun)
    (hm : s.mem.ram = m0) : (State.contributeHollow s r).mem.ram = m0 := by
  unfold State.contributeHollow
  try dsimp only
  repeat' with_reducible first
    | assumption | apply State.bump_ram | apply State.sendFrame_ram | apply State.endWithout_ram | refine foldl_ram (fun _ _ _ => ?_) _ ?_
    | refine foldl_ram_fst (fun _ _ _ => ?_) _ ?_ | refine ram_mk rfl rfl ?_

theorem State.sendEmpty_ram {m0 : List Host.Cell} (s : State) (d : Desc) (pos : Nat)
    (hm : s.mem.ram = m0) : (State.sendEmpty s d pos).mem.ram = m0 := by
  unfold State.sendEmpty
  try dsimp only
  repeat' with_reducible first
    | assumption | apply State.sendFrame_ram | refine foldl_ram (fun _ _ _ => ?_) _ ?_ | refine foldl_ram_fst (fun _ _ _ => ?_) _ ?_
    | refine ram_mk rfl rfl ?_

theorem State.wrongEpoch_ram {m0 : List Host.Cell} (s : State) (h : BrineHdr)
    (hm : s.mem.ram = m0) : (State.wrongEpoch s h).mem.ram = m0 := by
  unfold State.wrongEpoch
  repeat' with_reducible first | assumption | apply State.raise_ram | refine ram_mk rfl rfl ?_

end Sys2Proof.Machine
end

