-- ==== Sys2Proof/Laws/RamRest.lean ====
section
/-! SUPPORT. Operations that store no byte of memory (R262): the step, memory, the crust, the dictionary and the host link. One lemma for each. -/

namespace Sys2Proof.Machine

/-! ## StepStart -/

theorem State.rejectDescs_ram {m0 : List Host.Cell} (s : State) (g : Program) (l : List Nat)
    (hm : s.mem.ram = m0) : (State.rejectDescs s g l).mem.ram = m0 := by
  unfold State.rejectDescs
  try dsimp only
  repeat' with_reducible first
    | assumption | apply State.bump_ram | apply State.conditionAt_ram | refine foldl_ram (fun _ _ _ => ?_) _ ?_
    | refine foldl_ram_fst (fun _ _ _ => ?_) _ ?_

theorem State.syncFormats_ram {m0 : List Host.Cell} (s : State) (g : Program) (rung : Nat → Nat)
    (hm : s.mem.ram = m0) : (State.syncFormats s g rung).mem.ram = m0 := by
  unfold State.syncFormats
  try dsimp only
  repeat' with_reducible first | assumption | split | refine ram_mk rfl rfl ?_

theorem State.lostRecord_ram {m0 : List Host.Cell} (s : State) (i addr : Nat)
    (hm : s.mem.ram = m0) : (State.lostRecord s i addr).mem.ram = m0 := by
  unfold State.lostRecord
  repeat' with_reducible first | assumption | apply State.bump_ram | apply State.raise_ram | apply State.resetRecord_ram

theorem State.checkRecords_ram {m0 : List Host.Cell} (s : State) (hm : s.mem.ram = m0) : (State.checkRecords s).mem.ram = m0 := by
  unfold State.checkRecords
  try dsimp only
  repeat' with_reducible first
    | assumption | apply State.lostRecord_ram | refine foldl_ram (fun _ _ _ => ?_) _ ?_ | refine foldl_ram_fst (fun _ _ _ => ?_) _ ?_

theorem State.presentNotice_ram {m0 : List Host.Cell} (s : State) (n reason : Nat)
    (hm : s.mem.ram = m0) : (State.presentNotice s n reason).mem.ram = m0 := by
  unfold State.presentNotice
  repeat' with_reducible first | assumption | apply State.condition_ram | apply ite_ram | split

theorem State.chooseScales_ram {m0 : List Host.Cell} (s : State) (hm : s.mem.ram = m0) : (State.chooseScales s).mem.ram = m0 := by
  unfold State.chooseScales
  try dsimp only
  repeat' with_reducible first
    | assumption | apply State.setEnt_ram | apply State.condition_ram | apply State.presentNotice_ram
    | refine foldl_ram (fun _ _ _ => ?_) _ ?_ | refine foldl_ram_fst (fun _ _ _ => ?_) _ ?_ | apply ite_ram | split
    | refine ram_mk rfl rfl ?_

theorem State.layStream_ram {m0 : List Host.Cell} (s : State) (g : Program) (items : List Item)
    (hm : s.mem.ram = m0) : (State.layStream s g items).mem.ram = m0 := by
  unfold State.layStream
  try dsimp only
  repeat' with_reducible first | assumption | refine ram_mk rfl rfl ?_

theorem State.putReplay_ram {m0 : List Host.Cell} (s : State) (r : ReplayRec)
    (hm : s.mem.ram = m0) : (State.putReplay s r).mem.ram = m0 := by
  unfold State.putReplay
  try dsimp only
  repeat' with_reducible first | assumption | apply State.sendMirror_ram | apply ite_ram | split | refine ram_mk rfl rfl ?_

theorem State.sendStream_ram {m0 : List Host.Cell} (s : State) (stream page seg rank : Nat) (l : List Byte)
    (hm : s.mem.ram = m0) : (State.sendStream s stream page seg rank l).mem.ram = m0 := by
  unfold State.sendStream
  try dsimp only
  repeat' with_reducible first | assumption | apply State.sendFrame_ram | refine ram_mk rfl rfl ?_

theorem State.startStream_ram {m0 : List Host.Cell} (s : State) (stream page : Nat) (l : List Byte)
    (hm : s.mem.ram = m0) : (State.startStream s stream page l).mem.ram = m0 := by
  unfold State.startStream
  try dsimp only
  repeat' with_reducible first
    | assumption | apply State.sendStream_ram | refine foldl_ram (fun _ _ _ => ?_) _ ?_ | refine foldl_ram_fst (fun _ _ _ => ?_) _ ?_

theorem State.startParity_ram {m0 : List Host.Cell} (s : State) (holder : Nat)
    (hm : s.mem.ram = m0) : (State.startParity s holder).mem.ram = m0 := by
  unfold State.startParity
  try dsimp only
  repeat' with_reducible first
    | assumption | apply State.startStream_ram | refine foldl_ram (fun _ _ _ => ?_) _ ?_ | refine foldl_ram_fst (fun _ _ _ => ?_) _ ?_
    | apply ite_ram | split

theorem State.startResync_ram {m0 : List Host.Cell} (s : State) (hm : s.mem.ram = m0) : (State.startResync s).mem.ram = m0 := by
  unfold State.startResync
  try dsimp only
  repeat' with_reducible first
    | assumption | apply State.setEnt_ram | apply State.startParity_ram | refine foldl_ram (fun _ _ _ => ?_) _ ?_
    | refine foldl_ram_fst (fun _ _ _ => ?_) _ ?_ | apply ite_ram | split | refine ram_mk rfl rfl ?_

theorem State.freshStep_ram {m0 : List Host.Cell} (s : State) (hm : s.mem.ram = m0) : (State.freshStep s).mem.ram = m0 := by
  unfold State.freshStep
  try dsimp only
  repeat' with_reducible first | assumption | refine ram_mk rfl rfl ?_

theorem State.beginStep_ram {m0 : List Host.Cell} (s : State) (g : Program) (shapes : List Nat)
    (hm : s.mem.ram = m0) : (State.beginStep s g shapes).mem.ram = m0 := by
  unfold State.beginStep
  try dsimp only
  repeat' with_reducible first
    | assumption | apply State.setPhase_ram | apply State.syncFormats_ram | apply State.checkRecords_ram | apply State.chooseScales_ram
    | apply State.layStream_ram | apply State.putReplay_ram | apply State.startResync_ram | apply State.freshStep_ram
    | refine ram_mk rfl rfl ?_

theorem State.badRake_ram {m0 : List Host.Cell} (s : State) (l : Nat) (hm : s.mem.ram = m0) : (State.badRake s l).mem.ram = m0 := by
  unfold State.badRake
  repeat' with_reducible first | assumption | apply State.raise_ram | refine ram_mk rfl rfl ?_

theorem State.refuseStart_ram {m0 : List Host.Cell} (s : State) (g : Program) (code : Nat) (l : List Nat)
    (hm : s.mem.ram = m0) : (State.refuseStart s g code l).s.mem.ram = m0 := by
  unfold State.refuseStart
  try dsimp only
  repeat' with_reducible first | assumption | apply State.rejectDescs_ram

theorem State.stepStart_ram {m0 : List Host.Cell} (s : State) (v : Nat) (hm : s.mem.ram = m0) : (State.stepStart s v).s.mem.ram = m0 := by
  unfold State.stepStart
  try dsimp only
  repeat' with_reducible first
    | assumption | apply State.beginStep_ram | apply State.badRake_ram | apply State.refuseStart_ram | apply ite_ram_s | apply ite_ram
    | split | refine ram_mk rfl rfl ?_

theorem State.beginReplay_ram {m0 : List Host.Cell} (s : State) (g : Program) (r : ReplayRec)
    (hm : s.mem.ram = m0) : (State.beginReplay s g r).mem.ram = m0 := by
  unfold State.beginReplay
  try dsimp only
  repeat' with_reducible first
    | assumption | apply State.setEnt_ram | apply State.setPhase_ram | apply State.layStream_ram | apply State.freshStep_ram
    | refine ram_mk rfl rfl ?_

theorem State.replayRequest_ram {m0 : List Host.Cell} (s : State) (v : Nat)
    (hm : s.mem.ram = m0) : (State.replayRequest s v).s.mem.ram = m0 := by
  unfold State.replayRequest
  try dsimp only
  repeat' with_reducible first | assumption | apply State.beginReplay_ram | apply ite_ram_s | apply ite_ram | split | refine ram_mk rfl rfl ?_

/-! ## Programs -/

theorem State.setStream_ram {m0 : List Host.Cell} (s : State) (d : Nat) (l : List Item)
    (hm : s.mem.ram = m0) : (State.setStream s d l).mem.ram = m0 := by
  unfold State.setStream
  repeat' with_reducible first | assumption | apply ite_ram | split | refine ram_mk rfl rfl ?_

theorem State.admitItem_ram {m0 : List Host.Cell} (s : State) (d : Nat) (it : Item) (rest : List Item)
    (hm : s.mem.ram = m0) : (State.admitItem s d it rest).mem.ram = m0 := by
  unfold State.admitItem
  try dsimp only
  repeat' with_reducible first | assumption | apply State.setEnt_ram | apply State.setStream_ram | apply ite_ram | split | refine ram_mk rfl rfl ?_

theorem State.noopUpdate_ram {m0 : List Host.Cell} (s : State) (r : DescRun)
    (hm : s.mem.ram = m0) : (State.noopUpdate s r).mem.ram = m0 := by
  unfold State.noopUpdate
  try dsimp only
  repeat' with_reducible first
    | assumption | apply State.bump_ram | apply State.condition_ram | apply State.freeDesc_ram | apply ite_ram | split
    | refine ram_mk rfl rfl ?_

theorem State.completeEmpty_ram {m0 : List Host.Cell} (s : State) (r : DescRun)
    (hm : s.mem.ram = m0) : (State.completeEmpty s r).mem.ram = m0 := by
  unfold State.completeEmpty
  try dsimp only
  repeat' with_reducible first | assumption | apply State.bump_ram | apply State.endWithout_ram | apply State.sendEmpty_ram | apply ite_ram | split

theorem State.startBlock_ram {m0 : List Host.Cell} (s : State) (c : Nat) (r : DescRun) (number : Nat)
    (hm : s.mem.ram = m0) : (State.startBlock s c r number).mem.ram = m0 := by
  unfold State.startBlock
  try dsimp only
  repeat' with_reducible first
    | assumption | apply State.setCore_ram | apply State.setPan_ram | apply State.dropShifts_ram | refine foldl_ram (fun _ _ _ => ?_) _ ?_
    | refine foldl_ram_fst (fun _ _ _ => ?_) _ ?_ | apply ite_ram | split | refine ram_mk rfl rfl ?_

theorem State.startUnit_ram {m0 : List Host.Cell} (s : State) (c engine : Nat) (r : DescRun) (number : Nat)
    (hm : s.mem.ram = m0) : (State.startUnit s c engine r number).mem.ram = m0 := by
  unfold State.startUnit
  try dsimp only
  repeat' with_reducible first
    | assumption | apply State.setCore_ram | apply State.mapDesc_ram | apply State.startBlock_ram | apply ite_ram | split
    | refine ram_mk rfl rfl ?_

theorem State.countPreemption_ram {m0 : List Host.Cell} (s : State) (hm : s.mem.ram = m0) : (State.countPreemption s).mem.ram = m0 := by
  unfold State.countPreemption
  repeat' with_reducible first | assumption | apply State.setEnt_ram | apply State.bump_ram | apply State.draw_ram

theorem State.badDesc_ram {m0 : List Host.Cell} (s : State) (c : Nat) (r : DescRun) (addr : Nat)
    (hm : s.mem.ram = m0) : (State.badDesc s c r addr).mem.ram = m0 := by
  unfold State.badDesc
  try dsimp only
  repeat' with_reducible first
    | assumption | apply State.raise_ram | apply State.endWithout_ram | apply State.contributeHollow_ram | apply ite_ram | split

theorem State.remapIdle_ram {m0 : List Host.Cell} (s : State) (c : Nat) (hm : s.mem.ram = m0) : (State.remapIdle s c).mem.ram = m0 := by
  unfold State.remapIdle
  try dsimp only
  repeat' with_reducible first
    | assumption | apply State.applyRemap_ram | refine foldl_ram (fun _ _ _ => ?_) _ ?_ | refine foldl_ram_fst (fun _ _ _ => ?_) _ ?_
    | apply ite_ram | split

theorem State.scheduleEngine_ram {m0 : List Host.Cell} (s : State) (c engine : Nat)
    (hm : s.mem.ram = m0) : (State.scheduleEngine s c engine).mem.ram = m0 := by
  unfold State.scheduleEngine
  try dsimp only
  repeat' with_reducible first
    | assumption | apply State.startUnit_ram | apply State.countPreemption_ram | apply State.badDesc_ram | apply ite_ram | split

theorem State.setCluster_ram {m0 : List Host.Cell} (s : State) (k : Nat) (x : ClusterSt)
    (hm : s.mem.ram = m0) : (State.setCluster s k x).mem.ram = m0 := by
  unfold State.setCluster
  repeat' with_reducible first | assumption | refine ram_mk rfl rfl ?_

theorem State.takeSet_ram {m0 : List Host.Cell} (s : State) (rows : Bool) (buf : TileBuf) (c : Nat)
    (hm : s.mem.ram = m0) : (State.takeSet s rows buf c).mem.ram = m0 := by
  unfold State.takeSet
  try dsimp only
  repeat' with_reducible first
    | assumption | apply State.setCore_ram | apply State.settlePreload_ram | refine foldl_ram (fun _ _ _ => ?_) _ ?_
    | refine foldl_ram_fst (fun _ _ _ => ?_) _ ?_

theorem State.deliverSet_ram {m0 : List Host.Cell} (s : State) (k set : Nat) (r : DescRun) (buf : TileBuf) (l : List (Nat × Nat))
    (hm : s.mem.ram = m0) : (State.deliverSet s k set r buf l).mem.ram = m0 := by
  unfold State.deliverSet
  try dsimp only
  repeat' with_reducible first
    | assumption | apply State.bump_ram | apply State.setCluster_ram | apply State.takeSet_ram | refine foldl_ram (fun _ _ _ => ?_) _ ?_
    | refine foldl_ram_fst (fun _ _ _ => ?_) _ ?_ | apply ite_ram | split | refine ram_mk rfl rfl ?_

theorem State.fetchTrouble_ram {m0 : List Host.Cell} (s : State) (r : DescRun) (l : List (Nat × Nat)) (c : Nat) (y : Trouble)
    (hm : s.mem.ram = m0) : (State.fetchTrouble s r l c y).mem.ram = m0 := by
  unfold State.fetchTrouble
  try dsimp only
  repeat' with_reducible first
    | assumption | apply State.latchAll_ram | apply State.troubled_ram | apply State.dropBlock_ram
    | refine foldl_ram (fun _ _ _ => ?_) _ ?_ | refine foldl_ram_fst (fun _ _ _ => ?_) _ ?_ | apply ite_ram | split

/-! ## RakeDecide -/

theorem State.rollUp_ram {m0 : List Host.Cell} (s : State) (hm : s.mem.ram = m0) : (State.rollUp s).mem.ram = m0 := by
  unfold State.rollUp
  try dsimp only
  repeat' with_reducible first
    | assumption | refine foldl_ram (fun _ _ _ => ?_) _ ?_ | refine foldl_ram_fst (fun _ _ _ => ?_) _ ?_ | refine ram_mk rfl rfl ?_

theorem State.silentEvents_ram {m0 : List Host.Cell} (s : State) (l : Nat) (x : Silent) (v : DecVec)
    (hm : s.mem.ram = m0) : (State.silentEvents s l x v).mem.ram = m0 := by
  unfold State.silentEvents
  try dsimp only
  repeat' with_reducible first | assumption | apply State.condition_ram | apply ite_ram | split

theorem State.changeWindows_ram {m0 : List Host.Cell} (s : State) (hm : s.mem.ram = m0) : (State.changeWindows s).mem.ram = m0 := by
  unfold State.changeWindows
  try dsimp only
  repeat' with_reducible first
    | assumption | refine foldl_ram (fun _ _ _ => ?_) _ ?_ | refine foldl_ram_fst (fun _ _ _ => ?_) _ ?_ | refine ram_mk rfl rfl ?_

theorem State.rakeOne_ram {m0 : List Host.Cell} (s : State) (g : Program) (committed : Bool) (l : Nat) (own v : DecVec)
    (hm : s.mem.ram = m0) : (State.rakeOne s g committed l own v).1.mem.ram = m0 := by
  unfold State.rakeOne
  try dsimp only
  repeat' with_reducible first
    | assumption | apply State.bump_ram | apply State.setRake_ram | apply State.silentEvents_ram | apply ite_ram_fst | apply ite_ram
    | split | refine ram_mk rfl rfl ?_

theorem State.silentRaise_ram {m0 : List Host.Cell} (s : State) (due : Bool)
    (hm : s.mem.ram = m0) : (State.silentRaise s due).mem.ram = m0 := by
  unfold State.silentRaise
  try dsimp only
  repeat' with_reducible first | assumption | apply State.setEnt_ram | apply ite_ram | split | refine ram_mk rfl rfl ?_

theorem State.rakeAll_ram {m0 : List Host.Cell} (s : State) (g : Program) (committed : Bool) (vs : List (DecVec × DecVec))
    (hm : s.mem.ram = m0) : (State.rakeAll s g committed vs).1.mem.ram = m0 := by
  unfold State.rakeAll
  try dsimp only
  repeat' with_reducible first
    | assumption | apply State.rakeOne_ram | refine foldl_ram (fun _ _ _ => ?_) _ ?_ | refine foldl_ram_fst (fun _ _ _ => ?_) _ ?_

theorem State.runRake_ram {m0 : List Host.Cell} (s : State) (g : Program) (others : List RakeContribution)
    (hm : s.mem.ram = m0) : (State.runRake s g others).mem.ram = m0 := by
  unfold State.runRake
  try dsimp only
  repeat' with_reducible first
    | assumption | apply State.syncFormats_ram | apply State.silentRaise_ram | apply State.rakeAll_ram | refine ram_mk rfl rfl ?_

theorem State.installFloors_ram {m0 : List Host.Cell} (s : State) (hm : s.mem.ram = m0) : (State.installFloors s).mem.ram = m0 := by
  unfold State.installFloors
  try dsimp only
  repeat' with_reducible first
    | assumption | apply State.settlePending_ram | refine foldl_ram (fun _ _ _ => ?_) _ ?_ | refine foldl_ram_fst (fun _ _ _ => ?_) _ ?_
    | refine ram_mk rfl rfl ?_

/-! ## Train -/

theorem State.groupFault_ram {m0 : List Host.Cell} (s : State) (hm : s.mem.ram = m0) : (State.groupFault s).mem.ram = m0 := by
  unfold State.groupFault
  repeat' with_reducible first | assumption | apply State.raise_ram | refine ram_mk rfl rfl ?_

theorem State.pushStaged_ram {m0 : List Host.Cell} (s : State) (others : List FcContribution) (i : Nat) (x : Staged)
    (hm : s.mem.ram = m0) : (State.pushStaged s others i x).mem.ram = m0 := by
  unfold State.pushStaged
  try dsimp only
  repeat' with_reducible first
    | assumption | apply State.resetRecord_ram | apply State.lostRecord_ram | apply ite_ram | split | refine ram_mk rfl rfl ?_

theorem State.settleRecord_ram {m0 : List Host.Cell} (s : State) (i : Nat)
    (hm : s.mem.ram = m0) : (State.settleRecord s i).mem.ram = m0 := by
  unfold State.settleRecord
  try dsimp only
  repeat' with_reducible first | assumption | apply ite_ram | split | refine ram_mk rfl rfl ?_

theorem State.commitScales_ram {m0 : List Host.Cell} (s : State) (others : List FcContribution)
    (hm : s.mem.ram = m0) : (State.commitScales s others).mem.ram = m0 := by
  unfold State.commitScales
  try dsimp only
  repeat' with_reducible first
    | assumption | apply State.resetRecord_ram | apply State.checkRecords_ram | apply State.pushStaged_ram | apply State.settleRecord_ram
    | refine foldl_ram (fun _ _ _ => ?_) _ ?_ | refine foldl_ram_fst (fun _ _ _ => ?_) _ ?_

theorem State.moveCounters_ram {m0 : List Host.Cell} (s : State) (c : CommitRec) (grew : Bool)
    (hm : s.mem.ram = m0) : (State.moveCounters s c grew).mem.ram = m0 := by
  unfold State.moveCounters
  try dsimp only
  repeat' with_reducible first | assumption | apply State.setEnt_ram | refine ram_mk rfl rfl ?_

theorem State.countOutcome_ram {m0 : List Host.Cell} (s : State) (outcome tokens : Nat)
    (hm : s.mem.ram = m0) : (State.countOutcome s outcome tokens).mem.ram = m0 := by
  unfold State.countOutcome
  try dsimp only
  repeat' with_reducible first | assumption | apply State.setEnt_ram | apply State.bump_ram | apply ite_ram | split

theorem State.dropResync_ram {m0 : List Host.Cell} (s : State) (hm : s.mem.ram = m0) : (State.dropResync s).mem.ram = m0 := by
  unfold State.dropResync
  repeat' with_reducible first | assumption | apply State.goStale_ram | apply ite_ram | split | refine ram_mk rfl rfl ?_

theorem State.stopUncovered_ram {m0 : List Host.Cell} (s : State) (hm : s.mem.ram = m0) : (State.stopUncovered s).mem.ram = m0 := by
  unfold State.stopUncovered
  repeat' with_reducible first | assumption | apply State.setEnt_ram | apply State.raise_ram | apply ite_ram | split | refine ram_mk rfl rfl ?_

theorem State.commitStep_ram {m0 : List Host.Cell} (s : State) (others : List FcContribution) (outcome : Nat)
    (hm : s.mem.ram = m0) : (State.commitStep s others outcome).mem.ram = m0 := by
  unfold State.commitStep
  try dsimp only
  repeat' with_reducible first
    | assumption | apply State.condition_ram | apply State.setPhase_ram | apply State.commitScales_ram | apply State.moveCounters_ram
    | apply State.countOutcome_ram | apply State.dropResync_ram | apply State.stopUncovered_ram | apply ite_ram | split
    | refine ram_mk rfl rfl ?_

theorem State.endReplay_ram {m0 : List Host.Cell} (s : State) (outcome : Nat)
    (hm : s.mem.ram = m0) : (State.endReplay s outcome).mem.ram = m0 := by
  unfold State.endReplay
  repeat' with_reducible first
    | assumption | apply State.setEnt_ram | apply State.invalidNotices_ram | apply State.settleEnergy_ram | apply State.clearStep_ram
    | apply State.phaseZero_ram | apply State.restoreMarks_ram

theorem State.askReset_ram {m0 : List Host.Cell} (s : State) (others : List RakeContribution)
    (hm : s.mem.ram = m0) : (State.askReset s others).mem.ram = m0 := by
  unfold State.askReset
  try dsimp only
  repeat' with_reducible first | assumption | apply State.rakeReset_ram | refine ram_mk rfl rfl ?_

theorem State.pushLayer_ram {m0 : List Host.Cell} (s : State) (l : Nat) (hm : s.mem.ram = m0) : (State.pushLayer s l).mem.ram = m0 := by
  unfold State.pushLayer
  try dsimp only
  repeat' with_reducible first
    | assumption | apply State.pushStaged_ram | refine foldl_ram (fun _ _ _ => ?_) _ ?_ | refine foldl_ram_fst (fun _ _ _ => ?_) _ ?_

theorem State.clearNorms_ram {m0 : List Host.Cell} (s : State) (hm : s.mem.ram = m0) : (State.clearNorms s).mem.ram = m0 := by
  unfold State.clearNorms
  repeat' with_reducible first | assumption | apply ite_ram | split | refine ram_mk rfl rfl ?_

theorem State.adoptRake_ram {m0 : List Host.Cell} (s : State) (images : List RakeImage)
    (hm : s.mem.ram = m0) : (State.adoptRake s images).mem.ram = m0 := by
  unfold State.adoptRake
  try dsimp only
  repeat' with_reducible first
    | assumption | apply State.condition_ram | apply State.setRake_ram | refine foldl_ram (fun _ _ _ => ?_) _ ?_
    | refine foldl_ram_fst (fun _ _ _ => ?_) _ ?_ | apply ite_ram | split | refine ram_mk rfl rfl ?_

theorem State.snapshotDue_ram {m0 : List Host.Cell} (s : State) (hm : s.mem.ram = m0) : (State.snapshotDue s).mem.ram = m0 := by
  unfold State.snapshotDue
  try dsimp only
  repeat' with_reducible first
    | assumption | apply State.bump_ram | apply State.condition_ram | apply State.startSnapshot_ram | apply ite_ram | split

theorem State.lastEnergy_ram {m0 : List Host.Cell} (s : State) (hm : s.mem.ram = m0) : (State.lastEnergy s).mem.ram = m0 := by
  unfold State.lastEnergy
  try dsimp only
  repeat' with_reducible first | assumption | apply State.setEnt_ram | apply ite_ram | split

theorem State.applyMask_ram {m0 : List Host.Cell} (s : State) (hm : s.mem.ram = m0) : (State.applyMask s).mem.ram = m0 := by
  unfold State.applyMask
  repeat' with_reducible first | assumption | apply State.setEnt_ram | apply ite_ram | split

theorem State.tablesAtEnd_ram {m0 : List Host.Cell} (s : State) (images : List RakeImage)
    (hm : s.mem.ram = m0) : (State.tablesAtEnd s images).mem.ram = m0 := by
  unfold State.tablesAtEnd
  try dsimp only
  repeat' with_reducible first
    | assumption | apply State.rakeReset_ram | apply State.adoptRake_ram | apply State.applyMask_ram | apply ite_ram | split

/-! ## HostMem -/

theorem State.setTc_ram {m0 : List Host.Cell} (s : State) (die : Nat) (l : List Nat)
    (hm : s.mem.ram = m0) : (State.setTc s die l).mem.ram = m0 := by
  unfold State.setTc
  repeat' with_reducible first | assumption | apply ite_ram | split | refine ram_mk rfl rfl ?_

theorem State.fillTc_ram {m0 : List Host.Cell} (s : State) (die p : Nat) (hm : s.mem.ram = m0) : (State.fillTc s die p).mem.ram = m0 := by
  unfold State.fillTc
  try dsimp only
  repeat' with_reducible first | assumption | apply State.draw_ram | apply State.setTc_ram | apply ite_ram | split

theorem State.walk_ram {m0 : List Host.Cell} (s : State) (p : Nat) (hm : s.mem.ram = m0) : (State.walk s p).mem.ram = m0 := by
  unfold State.walk
  try dsimp only
  repeat' with_reducible first | assumption | apply State.raise_ram | apply State.latchAll_ram | apply ite_ram | split | refine ram_mk rfl rfl ?_

theorem State.translate_ram {m0 : List Host.Cell} (s : State) (die p : Nat)
    (hm : s.mem.ram = m0) : (State.translate s die p).mem.ram = m0 := by
  unfold State.translate
  try dsimp only
  repeat' with_reducible first | assumption | apply State.bump_ram | apply State.fillTc_ram | apply State.walk_ram | apply ite_ram | split

theorem State.maskVector_ram {m0 : List Host.Cell} (s : State) (v : Nat) (on : Bool)
    (hm : s.mem.ram = m0) : (State.maskVector s v on).mem.ram = m0 := by
  unfold State.maskVector
  try dsimp only
  repeat' with_reducible first | assumption | apply State.raiseVector_ram | apply ite_ram | split | refine ram_mk rfl rfl ?_

theorem State.setSlot_ram {m0 : List Host.Cell} (s : State) (n : Nat) (x : MbxSlot)
    (hm : s.mem.ram = m0) : (State.setSlot s n x).mem.ram = m0 := by
  unfold State.setSlot
  repeat' with_reducible first | assumption | refine ram_mk rfl rfl ?_

theorem State.freeSlot_ram {m0 : List Host.Cell} (s : State) (n : Nat) (value : Byte)
    (hm : s.mem.ram = m0) : (State.freeSlot s n value).mem.ram = m0 := by
  unfold State.freeSlot
  repeat' with_reducible first | assumption | apply State.setSlot_ram | apply ite_ram | split | refine ram_mk rfl rfl ?_

theorem State.writeBar2_ram {m0 : List Host.Cell} (s : State) (off : Nat) (b : Byte)
    (hm : s.mem.ram = m0) : (State.writeBar2 s off b).mem.ram = m0 := by
  unfold State.writeBar2
  try dsimp only
  repeat' with_reducible first
    | assumption | apply State.maskVector_ram | apply State.setSlot_ram | apply State.freeSlot_ram | apply ite_ram | split
    | refine ram_mk rfl rfl ?_

theorem State.doorbell_ram {m0 : List Host.Cell} (s : State) (n : Nat) (message : List Byte)
    (hm : s.mem.ram = m0) : (State.doorbell s n message).mem.ram = m0 := by
  unfold State.doorbell
  repeat' with_reducible first | assumption | apply State.bump_ram | apply State.setSlot_ram | apply ite_ram | split | refine ram_mk rfl rfl ?_

theorem State.configWrite_ram {m0 : List Host.Cell} (s : State) (w : ConfigWrite)
    (hm : s.mem.ram = m0) : (State.configWrite s w).mem.ram = m0 := by
  unfold State.configWrite
  repeat' with_reducible first | assumption | split | refine ram_mk rfl rfl ?_

theorem State.takeBar2_ram {m0 : List Host.Cell} (s : State) (w : Bar2Writes)
    (hm : s.mem.ram = m0) : (State.takeBar2 s w).mem.ram = m0 := by
  unfold State.takeBar2
  try dsimp only
  repeat' with_reducible first
    | assumption | apply State.maskVector_ram | apply State.writeBar2_ram | refine foldl_ram (fun _ _ _ => ?_) _ ?_
    | refine foldl_ram_fst (fun _ _ _ => ?_) _ ?_ | split | refine ram_mk rfl rfl ?_

theorem State.ring_ram {m0 : List Host.Cell} (s : State) (value : BitVec 32) (w : Bar2Writes)
    (hm : s.mem.ram = m0) : (State.ring s value w).mem.ram = m0 := by
  unfold State.ring
  repeat' with_reducible first | assumption | apply State.doorbell_ram | apply State.takeBar2_ram | apply ite_ram | split

theorem State.completeRead_ram {m0 : List Host.Cell} (s0 : State) (a len : Nat) (parts : List (Nat × Nat))
    (hm : s0.mem.ram = m0) : (State.completeRead s0 a len parts).mem.ram = m0 := by
  unfold State.completeRead
  try dsimp only
  repeat' with_reducible first
    | assumption | apply State.memViolation_ram | apply State.uncorrectable_ram | apply State.translate_ram
    | refine foldl_ram (fun _ _ _ => ?_) _ ?_ | refine foldl_ram_fst (fun _ _ _ => ?_) _ ?_ | apply ite_ram | split
    | refine ram_mk rfl rfl ?_

theorem State.hostReadNow_ram {m0 : List Host.Cell} (s : State) (offset len : Nat)
    (hm : s.mem.ram = m0) : (State.hostReadNow s offset len).mem.ram = m0 := by
  unfold State.hostReadNow
  try dsimp only
  repeat' with_reducible first
    | assumption | apply State.rebuildFirst_ram | apply State.completeRead_ram | apply ite_ram | split | refine ram_mk rfl rfl ?_

theorem State.afterWrites_ram {m0 : List Host.Cell} (s : State) (hm : s.mem.ram = m0) : (State.afterWrites s).mem.ram = m0 := by
  unfold State.afterWrites
  try dsimp only
  repeat' with_reducible first
    | assumption | apply State.ring_ram | apply State.hostReadNow_ram | refine foldl_ram (fun _ _ _ => ?_) _ ?_
    | refine foldl_ram_fst (fun _ _ _ => ?_) _ ?_ | apply ite_ram | split | refine ram_mk rfl rfl ?_

theorem State.hostRead_ram {m0 : List Host.Cell} (s : State) (offset len : Nat)
    (hm : s.mem.ram = m0) : (State.hostRead s offset len).mem.ram = m0 := by
  unfold State.hostRead
  repeat' with_reducible first | assumption | apply State.hostReadNow_ram | apply ite_ram | split | refine ram_mk rfl rfl ?_

theorem State.retryRead_ram {m0 : List Host.Cell} (s : State) (hm : s.mem.ram = m0) : (State.retryRead s).mem.ram = m0 := by
  unfold State.retryRead
  repeat' with_reducible first | assumption | apply State.afterWrites_ram

/-! ## Arb -/

theorem State.endRun_ram {m0 : List Host.Cell} (s : State) (level inst resource rank : Nat)
    (hm : s.mem.ram = m0) : (State.endRun s level inst resource rank).mem.ram = m0 := by
  unfold State.endRun
  try dsimp only
  repeat' with_reducible first | assumption | apply State.setArbCnt_ram | apply ite_ram | split | refine ram_mk rfl rfl ?_

theorem State.countGrant_ram {m0 : List Host.Cell} (s : State) (level inst resource rank : Nat)
    (hm : s.mem.ram = m0) : (State.countGrant s level inst resource rank).mem.ram = m0 := by
  unfold State.countGrant
  try dsimp only
  repeat' with_reducible first | assumption | apply State.setArbCnt_ram | refine ram_mk rfl rfl ?_

theorem State.setHold_ram {m0 : List Host.Cell} (s : State) (level inst resource : Nat) (h : Option Hold)
    (hm : s.mem.ram = m0) : (State.setHold s level inst resource h).mem.ram = m0 := by
  unfold State.setHold
  repeat' with_reducible first | assumption | split | refine ram_mk rfl rfl ?_

theorem State.cutHold_ram {m0 : List Host.Cell} (s : State) (level inst resource : Nat) (h : Hold)
    (hm : s.mem.ram = m0) : (State.cutHold s level inst resource h).mem.ram = m0 := by
  unfold State.cutHold
  try dsimp only
  repeat' with_reducible first
    | assumption | apply State.bump_ram | apply State.setArbCnt_ram | apply State.raise_ram | apply State.setCollector_ram
    | apply State.latchAll_ram | apply State.setHold_ram | refine ram_mk rfl rfl ?_

theorem State.cutIfDue_ram {m0 : List Host.Cell} (s : State) (level inst resource : Nat)
    (hm : s.mem.ram = m0) : (State.cutIfDue s level inst resource).mem.ram = m0 := by
  unfold State.cutIfDue
  repeat' with_reducible first | assumption | apply State.cutHold_ram | apply ite_ram | split

theorem State.setArbCycle_ram {m0 : List Host.Cell} (s : State) (level inst : Nat) (x : ArbCycle)
    (hm : s.mem.ram = m0) : (State.setArbCycle s level inst x).mem.ram = m0 := by
  unfold State.setArbCycle
  repeat' with_reducible first | assumption | refine ram_mk rfl rfl ?_

theorem State.turn_ram {m0 : List Host.Cell} (s : State) (level inst resource : Nat)
    (hm : s.mem.ram = m0) : (State.turn s level inst resource).mem.ram = m0 := by
  unfold State.turn
  try dsimp only
  repeat' with_reducible first | assumption | apply State.setArbCycle_ram | apply ite_ram | split | refine ram_mk rfl rfl ?_

theorem State.waitCycle_ram {m0 : List Host.Cell} (s : State) (level inst resource rank : Nat)
    (hm : s.mem.ram = m0) : (State.waitCycle s level inst resource rank).mem.ram = m0 := by
  unfold State.waitCycle
  try dsimp only
  repeat' with_reducible first
    | assumption | apply State.setArbCnt_ram | apply State.countWait_ram | apply State.setArbCycle_ram | apply ite_ram | split
    | refine ram_mk rfl rfl ?_

theorem State.countCycle_ram {m0 : List Host.Cell} (s : State) (level inst resource : Nat) (present : List Nat) (winner : Nat) (fresh : Bool)
    (hm : s.mem.ram = m0) : (State.countCycle s level inst resource present winner fresh).mem.ram = m0 := by
  unfold State.countCycle
  try dsimp only
  repeat' with_reducible first
    | assumption | apply State.endRun_ram | apply State.countGrant_ram | apply State.turn_ram | apply State.waitCycle_ram
    | refine foldl_ram (fun _ _ _ => ?_) _ ?_ | refine foldl_ram_fst (fun _ _ _ => ?_) _ ?_ | apply ite_ram | split

theorem State.selRank_ram {m0 : List Host.Cell} (s : State) (v : Nat) (hm : s.mem.ram = m0) : (State.selRank s v).s.mem.ram = m0 := by
  unfold State.selRank
  try dsimp only
  repeat' with_reducible first | assumption | apply State.setEnt_ram | apply ite_ram_s | apply ite_ram | split

theorem State.clearMax_ram {m0 : List Host.Cell} (s : State) (v : Nat) (hm : s.mem.ram = m0) : (State.clearMax s v).s.mem.ram = m0 := by
  unfold State.clearMax
  try dsimp only
  repeat' with_reducible first | assumption | apply ite_ram_s | apply ite_ram | split | refine ram_mk rfl rfl ?_

/-! ## Memory -/

theorem State.reqGo_ram {m0 : List Host.Cell} (s : State) (v : Nat) (hm : s.mem.ram = m0) : (State.reqGo s v).s.mem.ram = m0 := by
  unfold State.reqGo
  try dsimp only
  repeat' with_reducible first | assumption | apply State.setEnt_ram | apply ite_ram_s | apply ite_ram | split | refine ram_mk rfl rfl ?_

theorem State.sendMapMirror_ram {m0 : List Host.Cell} (s : State) (hm : s.mem.ram = m0) : (State.sendMapMirror s).mem.ram = m0 := by
  unfold State.sendMapMirror
  repeat' with_reducible first | assumption | apply State.sendMirror_ram | apply ite_ram | split | refine ram_mk rfl rfl ?_

theorem State.failReq_ram {m0 : List Host.Cell} (s : State) (code : Nat) (hm : s.mem.ram = m0) : (State.failReq s code).mem.ram = m0 := by
  unfold State.failReq
  try dsimp only
  repeat' with_reducible first
    | assumption | apply State.setEnt_ram | apply State.raiseVector_ram | apply State.violation_ram | apply State.sendMapMirror_ram
    | refine ram_mk rfl rfl ?_

theorem State.passReq_ram {m0 : List Host.Cell} (s : State) (pages : List Nat)
    (hm : s.mem.ram = m0) : (State.passReq s pages).mem.ram = m0 := by
  unfold State.passReq
  try dsimp only
  repeat' with_reducible first
    | assumption | apply State.setEnt_ram | refine foldl_ram (fun _ _ _ => ?_) _ ?_ | refine foldl_ram_fst (fun _ _ _ => ?_) _ ?_
    | refine ram_mk rfl rfl ?_

theorem State.processReq_ram {m0 : List Host.Cell} (s : State) (op : Nat) (code : State → MapReq → Nat) (act : State → MapReq → State)
    (hf : ∀ (s : State) (r : MapReq), s.mem.ram = m0 → (act s r).mem.ram = m0) (hz : s.mem.ram = m0) :
    (State.processReq s op code act).mem.ram = m0 := by
  unfold State.processReq
  dsimp only
  refine ite_ram (ite_ram ?_ ?_) hz
  · exact State.latchAll_ram _ (State.failReq_ram _ _ hz)
  · exact State.latchAll_ram _ (State.passReq_ram _ _ (hf _ _ hz))

theorem State.placeAll_ram {m0 : List Host.Cell} (s : State) (tier dev : Nat) (skip : State → Nat → Bool)
    (put : State → Nat → Nat × Nat × Nat → State) (pages : List Nat)
    (hf : ∀ (s : State) (p : Nat) (y : Nat × Nat × Nat), s.mem.ram = m0 → (put s p y).mem.ram = m0) (hz : s.mem.ram = m0) :
    (State.placeAll s tier dev skip put pages).1.mem.ram = m0 := by
  unfold State.placeAll
  refine foldl_ram_fst (fun a p ha => ?_) _ hz
  split
  · exact ha
  · split
    · exact ha
    · split
      · exact ha
      · exact hf _ _ _ ha

theorem State.foldPage_ram {m0 : List Host.Cell} (s : State) (p : Nat) (hm : s.mem.ram = m0) : (State.foldPage s p).mem.ram = m0 := by
  unfold State.foldPage
  try dsimp only
  repeat' with_reducible first | assumption | apply State.addDelta_ram | apply State.closeSeal_ram | apply ite_ram | split

theorem State.foldPages_ram {m0 : List Host.Cell} (cover : Bool) (act : State → Nat → State) (hf : ∀ (s : State) (p : Nat), s.mem.ram = m0 → (act s p).mem.ram = m0) :
    ∀ (l : List Nat) (s : State) (n : Nat), s.mem.ram = m0 → (State.foldPages cover act l s n).1.mem.ram = m0
  | [], _, _, h => h
  | p :: t, s, n, h => by
    unfold State.foldPages
    split
    · exact State.draw_ram _ (State.bump_ram _ _ _ _ h)
    · exact State.foldPages_ram cover act hf t _ _ (hf _ _ h)

theorem State.processFold_ram {m0 : List Host.Cell} (s : State) (op : Nat) (cover : Bool) (code : State → MapReq → Nat) (act : State → Nat → State)
    (hf : ∀ (s : State) (p : Nat), s.mem.ram = m0 → (act s p).mem.ram = m0) (h : s.mem.ram = m0) : (State.processFold s op cover code act).mem.ram = m0 := by
  unfold State.processFold
  extract_lets r c x
  have hx : x.1.mem.ram = m0 := State.foldPages_ram cover act hf _ _ _ h
  refine ite_ram (ite_ram ?_ (ite_ram ?_ ?_)) h
  · exact State.latchAll_ram _ (State.failReq_ram _ _ h)
  · exact State.latchAll_ram _ (ram_mk rfl rfl hx)
  · exact State.latchAll_ram _ (State.passReq_ram _ _ (ram_mk rfl rfl hx))

theorem State.dropPage_ram {m0 : List Host.Cell} (s : State) (p : Nat) (hm : s.mem.ram = m0) : (State.dropPage s p).mem.ram = m0 := by
  unfold State.dropPage
  repeat' with_reducible first | assumption | apply State.unmapPage_ram | apply State.copyBeforeWrite_ram | apply State.foldPage_ram

theorem State.startCopy_ram {m0 : List Host.Cell} (s : State) (p : Nat) (y : Nat × Nat × Nat)
    (hm : s.mem.ram = m0) : (State.startCopy s p y).mem.ram = m0 := by
  unfold State.startCopy
  try dsimp only
  repeat' with_reducible first | assumption | apply State.setMapEntry_ram | apply ite_ram | split | refine ram_mk rfl rfl ?_

theorem State.nextCopies_ram {m0 : List Host.Cell} (s : State) (hm : s.mem.ram = m0) : (State.nextCopies s).mem.ram = m0 := by
  unfold State.nextCopies
  try dsimp only
  repeat' with_reducible first
    | assumption | apply State.startCopy_ram | refine foldl_ram (fun _ _ _ => ?_) _ ?_ | refine foldl_ram_fst (fun _ _ _ => ?_) _ ?_
    | apply ite_ram | split

theorem State.migrateRun_ram {m0 : List Host.Cell} (s : State) (r : MapReq)
    (hm : s.mem.ram = m0) : (State.migrateRun s r).1.mem.ram = m0 := by
  unfold State.migrateRun
  try dsimp only
  repeat' with_reducible first | assumption | apply State.placeAll_ram | apply State.startCopy_ram

theorem State.flagPages_ram {m0 : List Host.Cell} (s : State) (r : MapReq) (f : MapEntry → MapEntry)
    (hm : s.mem.ram = m0) : (State.flagPages s r f).mem.ram = m0 := by
  unfold State.flagPages
  try dsimp only
  repeat' with_reducible first
    | assumption | apply State.setMapEntry_ram | refine foldl_ram (fun _ _ _ => ?_) _ ?_ | refine foldl_ram_fst (fun _ _ _ => ?_) _ ?_

theorem State.coverPage_ram {m0 : List Host.Cell} (s : State) (p : Nat) (hm : s.mem.ram = m0) : (State.coverPage s p).mem.ram = m0 := by
  unfold State.coverPage
  repeat' with_reducible first
    | assumption | apply State.setMapEntry_ram | apply State.foldPage_ram | apply ite_ram | split | refine ram_mk rfl rfl ?_

theorem State.uncoverPage_ram {m0 : List Host.Cell} (s : State) (p : Nat)
    (hm : s.mem.ram = m0) : (State.uncoverPage s p).mem.ram = m0 := by
  unfold State.uncoverPage
  try dsimp only
  repeat' with_reducible first
    | assumption | apply State.setMapEntry_ram | apply State.copyBeforeWrite_ram | apply State.foldPage_ram | apply ite_ram | split
    | refine ram_mk rfl rfl ?_

theorem State.discardReads_ram {m0 : List Host.Cell} (s : State) (c : Nat)
    (hm : s.mem.ram = m0) : (State.discardReads s c).mem.ram = m0 := by
  unfold State.discardReads
  try dsimp only
  repeat' with_reducible first
    | assumption | apply State.finishUnit_ram | apply State.dropBlock_ram | apply State.dropPass_ram
    | refine foldl_ram (fun _ _ _ => ?_) _ ?_ | refine foldl_ram_fst (fun _ _ _ => ?_) _ ?_ | apply ite_ram | split

theorem State.readPoison_ram {m0 : List Host.Cell} (s : State) (r : MemReq)
    (hm : s.mem.ram = m0) : (State.readPoison s r).mem.ram = m0 := by
  unfold State.readPoison
  repeat' with_reducible first | assumption | apply State.flagFault_ram | apply State.uncorrectable_ram | apply State.discardReads_ram | split

theorem State.refuseTxn_ram {m0 : List Host.Cell} (s : State) (r : MemReq) (code : Nat)
    (hm : s.mem.ram = m0) : (State.refuseTxn s r code).mem.ram = m0 := by
  unfold State.refuseTxn
  try dsimp only
  repeat' with_reducible first | assumption | apply State.flagFault_ram | apply State.memViolation_ram | apply ite_ram | split

theorem State.notePeak_ram {m0 : List Host.Cell} (s : State) (die : Nat) (hm : s.mem.ram = m0) : (State.notePeak s die).mem.ram = m0 := by
  unfold State.notePeak
  repeat' with_reducible first | assumption | apply State.setEnt_ram

theorem State.delayTxn_ram {m0 : List Host.Cell} (s : State) (r : MemReq) (full : Bool)
    (hm : s.mem.ram = m0) : (State.delayTxn s r full).mem.ram = m0 := by
  unfold State.delayTxn
  try dsimp only
  repeat' with_reducible first
    | assumption | apply State.bump_ram | apply State.draw_ram | apply State.countWait_ram | apply State.rebuildFirst_ram | apply ite_ram
    | split | refine ram_mk rfl rfl ?_

theorem State.stallTxn_ram {m0 : List Host.Cell} (s : State) (r : MemReq) (hm : s.mem.ram = m0) : (State.stallTxn s r).mem.ram = m0 := by
  unfold State.stallTxn
  repeat' with_reducible first | assumption | apply State.stallSeals_ram | apply ite_ram | split

theorem State.completeTxns_ram {m0 : List Host.Cell} (s : State) (die n : Nat)
    (hm : s.mem.ram = m0) : (State.completeTxns s die n).mem.ram = m0 := by
  unfold State.completeTxns
  try dsimp only
  repeat' with_reducible first
    | assumption | refine foldl_ram (fun _ _ _ => ?_) _ ?_ | refine foldl_ram_fst (fun _ _ _ => ?_) _ ?_ | refine ram_mk rfl rfl ?_

theorem State.completeTxn_ram {m0 : List Host.Cell} (s : State) (t : Txn)
    (hm : s.mem.ram = m0) : (State.completeTxn s t).mem.ram = m0 := by
  unfold State.completeTxn
  try dsimp only
  repeat' with_reducible first | assumption | apply ite_ram | split | refine ram_mk rfl rfl ?_

theorem State.bearPoison_ram {m0 : List Host.Cell} (s : State) (by_ : Reader) (addr : Nat)
    (hm : s.mem.ram = m0) : (State.bearPoison s by_ addr).mem.ram = m0 := by
  unfold State.bearPoison
  repeat' with_reducible first | assumption | apply State.flagFault_ram | apply State.discardReads_ram | split | refine ram_mk rfl rfl ?_

theorem State.poisonLine_ram {m0 : List Host.Cell} (s : State) (addr : Nat)
    (hm : s.mem.ram = m0) : (State.poisonLine s addr).mem.ram = m0 := by
  unfold State.poisonLine
  repeat' with_reducible first | assumption | refine ram_mk rfl rfl ?_

theorem State.reservedError_ram {m0 : List Host.Cell} (s : State) (st addr : Nat)
    (hm : s.mem.ram = m0) : (State.reservedError s st addr).mem.ram = m0 := by
  unfold State.reservedError
  try dsimp only
  repeat' with_reducible first | assumption | apply State.raise_ram | apply ite_ram | split | refine ram_mk rfl rfl ?_

theorem State.cxlCorrected_ram {m0 : List Host.Cell} : ∀ (n : Nat) (s : State) (d : Nat), s.mem.ram = m0 →
    (State.cxlCorrected n s d).mem.ram = m0
  | 0, _, _, h => h
  | n + 1, _, d, h => State.cxlCorrected_ram n _ d (State.latchAll_ram _ (State.raise_ram _ _ h))

theorem State.stackRebuilt_ram {m0 : List Host.Cell} (s : State) (st : Nat)
    (hm : s.mem.ram = m0) : (State.stackRebuilt s st).mem.ram = m0 := by
  unfold State.stackRebuilt
  repeat' with_reducible first | assumption | apply State.setStack_ram | apply ite_ram | split | refine ram_mk rfl rfl ?_

/-! ## Queues -/

theorem State.setQueue_ram {m0 : List Host.Cell} (s : State) (q : QueueId) (x : QueueSt)
    (hm : s.mem.ram = m0) : (State.setQueue s q x).mem.ram = m0 := by
  unfold State.setQueue
  repeat' with_reducible first | assumption | apply State.setQueueAt_ram

theorem State.failOldest_ram {m0 : List Host.Cell} (s : State) (q : QueueId)
    (hm : s.mem.ram = m0) : (State.failOldest s q).mem.ram = m0 := by
  unfold State.failOldest
  repeat' with_reducible first | assumption | apply State.violation_ram | apply State.completeTxn_ram | split

theorem State.queueParity_ram {m0 : List Host.Cell} (s : State) (q : QueueId)
    (hm : s.mem.ram = m0) : (State.queueParity s q).mem.ram = m0 := by
  unfold State.queueParity
  try dsimp only
  repeat' with_reducible first | assumption | apply State.raise_ram | apply State.failOldest_ram | refine ram_mk rfl rfl ?_

theorem State.stallAt_ram {m0 : List Host.Cell} (s : State) (q : QueueId) (hm : s.mem.ram = m0) : (State.stallAt s q).mem.ram = m0 := by
  unfold State.stallAt
  repeat' with_reducible first | assumption | apply State.countWait_ram | apply State.stallQueue_ram | apply State.stallSender_ram | split

theorem State.seeEntry_ram {m0 : List Host.Cell} (s : State) (q : QueueId) (payload : Nat)
    (hm : s.mem.ram = m0) : (State.seeEntry s q payload).mem.ram = m0 := by
  unfold State.seeEntry
  try dsimp only
  repeat' with_reducible first
    | assumption | apply State.readQueue_ram | apply State.setPan_ram | apply State.setQueue_ram | apply ite_ram | split
    | refine ram_mk rfl rfl ?_

theorem State.shiftsArrive_ram {m0 : List Host.Cell} (s : State) (c p : Nat) (q : QueueId) (parityOk : Bool)
    (hm : s.mem.ram = m0) : (State.shiftsArrive s c p q parityOk).mem.ram = m0 := by
  unfold State.shiftsArrive
  repeat' with_reducible first
    | assumption | apply State.latchAll_ram | apply State.troubled_ram | apply State.dropBlock_ram | apply State.queueParity_ram
    | apply State.seeEntry_ram | apply ite_ram | split

theorem State.entryRead_ram {m0 : List Host.Cell} (s : State) (q : QueueId) (fresh : Bool) (payload : Nat)
    (hm : s.mem.ram = m0) : (State.entryRead s q fresh payload).mem.ram = m0 := by
  unfold State.entryRead
  repeat' with_reducible first | assumption | apply State.takeShifts_ram | apply State.ackWriteback_ram | apply ite_ram | split

theorem State.syncEffect_ram {m0 : List Host.Cell} (s : State) (b : SyncBit) (level : Bool)
    (hm : s.mem.ram = m0) : (State.syncEffect s b level).mem.ram = m0 := by
  unfold State.syncEffect
  repeat' with_reducible first | assumption | apply ite_ram | split | refine ram_mk rfl rfl ?_

/-! ## Swaps -/

theorem State.countSwap_ram {m0 : List Host.Cell} (s : State) (key entry : Nat)
    (hm : s.mem.ram = m0) : (State.countSwap s key entry).mem.ram = m0 := by
  unfold State.countSwap
  try dsimp only
  repeat' with_reducible first | assumption | apply State.setEnt_ram | apply State.bump_ram | refine ram_mk rfl rfl ?_

/-! ## Image -/

theorem State.loadScales_ram {m0 : List Host.Cell} (s : State) (l : List Byte)
    (hm : s.mem.ram = m0) : (State.loadScales s l).mem.ram = m0 := by
  unfold State.loadScales
  try dsimp only
  repeat' with_reducible first | assumption | refine ram_mk rfl rfl ?_

theorem State.loadRake_ram {m0 : List Host.Cell} (s : State) (l : List Byte)
    (hm : s.mem.ram = m0) : (State.loadRake s l).mem.ram = m0 := by
  unfold State.loadRake
  try dsimp only
  repeat' with_reducible first | assumption | refine ram_mk rfl rfl ?_

theorem State.loadGroups_ram {m0 : List Host.Cell} (s : State) (l : List Byte)
    (hm : s.mem.ram = m0) : (State.loadGroups s l).mem.ram = m0 := by
  unfold State.loadGroups
  try dsimp only
  repeat' with_reducible first | assumption | refine ram_mk rfl rfl ?_

theorem State.loadReplay_ram {m0 : List Host.Cell} (s : State) (r : ReplayRec)
    (hm : s.mem.ram = m0) : (State.loadReplay s r).mem.ram = m0 := by
  unfold State.loadReplay
  repeat' with_reducible first | assumption | apply State.ring_ram | apply ite_ram | split | refine ram_mk rfl rfl ?_

theorem State.checkResume_ram {m0 : List Host.Cell} (s : State) (hm : s.mem.ram = m0) : (State.checkResume s).mem.ram = m0 := by
  unfold State.checkResume
  try dsimp only
  repeat' with_reducible first | assumption | apply State.setEnt_ram | apply ite_ram | split

theorem State.realign_ram {m0 : List Host.Cell} (s : State) (hm : s.mem.ram = m0) : (State.realign s).mem.ram = m0 := by
  unfold State.realign
  try dsimp only
  repeat' with_reducible first | assumption | apply State.setEnt_ram | apply State.condition_ram | apply State.checkResume_ram

theorem State.loadValues_ram {m0 : List Host.Cell} (s : State) (l : List Byte)
    (hm : s.mem.ram = m0) : (State.loadValues s l).mem.ram = m0 := by
  unfold State.loadValues
  try dsimp only
  repeat' with_reducible first
    | assumption | apply State.setEnt_ram | refine foldl_ram (fun _ _ _ => ?_) _ ?_ | refine foldl_ram_fst (fun _ _ _ => ?_) _ ?_
    | apply ite_ram | split

theorem State.resumeLambda_ram {m0 : List Host.Cell} (s : State) (r : ReplayRec)
    (hm : s.mem.ram = m0) : (State.resumeLambda s r).mem.ram = m0 := by
  unfold State.resumeLambda
  repeat' with_reducible first | assumption | apply State.setEnt_ram | apply ite_ram | split

theorem State.wear_ram {m0 : List Host.Cell} (s : State) (n : Nat) (hm : s.mem.ram = m0) : (State.wear s n).mem.ram = m0 := by
  unfold State.wear
  try dsimp only
  repeat' with_reducible first | assumption | apply State.raise_ram | apply ite_ram | split | refine ram_mk rfl rfl ?_

/-! ## Crust -/

theorem State.becomeFresh_ram {m0 : List Host.Cell} (s : State) (hm : s.mem.ram = m0) : (State.becomeFresh s).mem.ram = m0 := by
  unfold State.becomeFresh
  repeat' with_reducible first | assumption | apply State.setEnt_ram

theorem State.ackUnit_ram {m0 : List Host.Cell} (s : State) (rank unit seg : Nat)
    (hm : s.mem.ram = m0) : (State.ackUnit s rank unit seg).mem.ram = m0 := by
  unfold State.ackUnit
  repeat' with_reducible first | assumption | apply State.sendFrame_ram | refine ram_mk rfl rfl ?_

theorem State.holdDelta_ram {m0 : List Host.Cell} (s : State) (rank : Nat) (h : BrineHdr)
    (hm : s.mem.ram = m0) : (State.holdDelta s rank h).mem.ram = m0 := by
  unfold State.holdDelta
  try dsimp only
  repeat' with_reducible first | assumption | apply State.ackUnit_ram | apply ite_ram | split | refine ram_mk rfl rfl ?_

theorem State.sendSeals_ram {m0 : List Host.Cell} (s : State) (x : SealUnit)
    (hm : s.mem.ram = m0) : (State.sendSeals s x).mem.ram = m0 := by
  unfold State.sendSeals
  try dsimp only
  repeat' with_reducible first
    | assumption | apply State.sendFrame_ram | refine foldl_ram (fun _ _ _ => ?_) _ ?_ | refine foldl_ram_fst (fun _ _ _ => ?_) _ ?_
    | refine ram_mk rfl rfl ?_

theorem State.unitAcked_ram {m0 : List Host.Cell} (s : State) (x : SealUnit) (rank : Nat)
    (hm : s.mem.ram = m0) : (State.unitAcked s x rank).mem.ram = m0 := by
  unfold State.unitAcked
  try dsimp only
  repeat' with_reducible first | assumption | apply State.sendSeals_ram | apply ite_ram | split | refine ram_mk rfl rfl ?_

theorem State.dropParts_ram {m0 : List Host.Cell} (s : State) (k : Nat) (hm : s.mem.ram = m0) : (State.dropParts s k).mem.ram = m0 := by
  unfold State.dropParts
  try dsimp only
  repeat' with_reducible first | assumption | refine ram_mk rfl rfl ?_

theorem State.countLost_ram {m0 : List Host.Cell} (s : State) (rank : Nat)
    (hm : s.mem.ram = m0) : (State.countLost s rank).mem.ram = m0 := by
  unfold State.countLost
  repeat' with_reducible first | assumption | apply State.raise_ram | apply ite_ram | split | refine ram_mk rfl rfl ?_

theorem State.takeWithdrawal_ram {m0 : List Host.Cell} (s : State) (rank : Nat)
    (hm : s.mem.ram = m0) : (State.takeWithdrawal s rank).mem.ram = m0 := by
  unfold State.takeWithdrawal
  repeat' with_reducible first | assumption | apply State.countLost_ram | apply ite_ram | split | refine ram_mk rfl rfl ?_

theorem State.setGroup_ram {m0 : List Host.Cell} (s : State) (g : Nat) (e : Group)
    (hm : s.mem.ram = m0) : (State.setGroup s g e).mem.ram = m0 := by
  unfold State.setGroup
  try dsimp only
  repeat' with_reducible first | assumption | refine ram_mk rfl rfl ?_

theorem State.sendMap_ram {m0 : List Host.Cell} (s : State) (rank spare : Nat)
    (hm : s.mem.ram = m0) : (State.sendMap s rank spare).mem.ram = m0 := by
  unfold State.sendMap
  repeat' with_reducible first | assumption | apply State.sendBytes_ram | apply ite_ram | split | refine ram_mk rfl rfl ?_

theorem State.serveSpare_ram {m0 : List Host.Cell} (s : State) (rank lost spare : Nat)
    (hm : s.mem.ram = m0) : (State.serveSpare s rank lost spare).mem.ram = m0 := by
  unfold State.serveSpare
  try dsimp only
  repeat' with_reducible first
    | assumption | apply State.sendFrame_ram | apply State.sendBytes_ram | refine foldl_ram (fun _ _ _ => ?_) _ ?_
    | refine foldl_ram_fst (fun _ _ _ => ?_) _ ?_ | apply ite_ram | split | refine ram_mk rfl rfl ?_

theorem State.startRebuild_ram {m0 : List Host.Cell} (s : State) (hm : s.mem.ram = m0) : (State.startRebuild s).mem.ram = m0 := by
  unfold State.startRebuild
  try dsimp only
  repeat' with_reducible first
    | assumption | apply State.startStream_ram | apply State.startParity_ram | refine foldl_ram (fun _ _ _ => ?_) _ ?_
    | refine foldl_ram_fst (fun _ _ _ => ?_) _ ?_ | apply ite_ram | split

theorem State.beginRebuild_ram {m0 : List Host.Cell} (s : State) (rank slot : Nat)
    (hm : s.mem.ram = m0) : (State.beginRebuild s rank slot).mem.ram = m0 := by
  unfold State.beginRebuild
  repeat' with_reducible first | assumption | apply State.setEnt_ram | refine ram_mk rfl rfl ?_

theorem State.installEpoch_ram {m0 : List Host.Cell} (s : State) (g rank lost spare : Nat)
    (hm : s.mem.ram = m0) : (State.installEpoch s g rank lost spare).mem.ram = m0 := by
  unfold State.installEpoch
  try dsimp only
  repeat' with_reducible first
    | assumption | apply State.setGroup_ram | apply State.sendMap_ram | apply State.serveSpare_ram | apply State.beginRebuild_ram
    | apply ite_ram | split

theorem State.changeEpochs_ram {m0 : List Host.Cell} (s : State) (lost spare : Nat)
    (hm : s.mem.ram = m0) : (State.changeEpochs s lost spare).mem.ram = m0 := by
  unfold State.changeEpochs
  try dsimp only
  repeat' with_reducible first
    | assumption | apply State.sendFrame_ram | apply State.installEpoch_ram | refine foldl_ram (fun _ _ _ => ?_) _ ?_
    | refine foldl_ram_fst (fun _ _ _ => ?_) _ ?_ | refine ram_mk rfl rfl ?_

theorem State.lossEndsStep_ram {m0 : List Host.Cell} (s : State) (mirrored : Bool)
    (hm : s.mem.ram = m0) : (State.lossEndsStep s mirrored).mem.ram = m0 := by
  unfold State.lossEndsStep
  repeat' with_reducible first | assumption | apply State.noOutcome_ram | apply ite_ram | split

theorem State.takeChange_ram {m0 : List Host.Cell} (s : State) (h : BrineHdr)
    (hm : s.mem.ram = m0) : (State.takeChange s h).mem.ram = m0 := by
  unfold State.takeChange
  try dsimp only
  repeat' with_reducible first
    | assumption | apply State.setEnt_ram | apply State.sendFrame_ram | apply State.installEpoch_ram | apply ite_ram | split
    | refine ram_mk rfl rfl ?_

theorem State.loadGroupsM3_ram {m0 : List Host.Cell} (s : State) (l : List Byte)
    (hm : s.mem.ram = m0) : (State.loadGroupsM3 s l).mem.ram = m0 := by
  unfold State.loadGroupsM3
  try dsimp only
  repeat' with_reducible first
    | assumption | refine foldl_ram (fun _ _ _ => ?_) _ ?_ | refine foldl_ram_fst (fun _ _ _ => ?_) _ ?_ | apply ite_ram | split
    | refine ram_mk rfl rfl ?_

theorem State.loadM3_ram {m0 : List Host.Cell} (s : State) (x : M3Parts) (hm : s.mem.ram = m0) : (State.loadM3 s x).mem.ram = m0 := by
  unfold State.loadM3
  try dsimp only
  repeat' with_reducible first
    | assumption | apply State.setEnt_ram | apply State.loadScales_ram | apply State.loadRake_ram | apply State.loadGroupsM3_ram
    | refine ram_mk rfl rfl ?_

theorem State.loadM1_ram {m0 : List Host.Cell} (s : State) (r : ReplayRec) (hm : s.mem.ram = m0) : (State.loadM1 s r).mem.ram = m0 := by
  unfold State.loadM1
  try dsimp only
  repeat' with_reducible first | assumption | apply State.setEnt_ram | apply State.loadReplay_ram

theorem State.loadRun_ram {m0 : List Host.Cell} (s : State) (r : ReplayRec) (hm : s.mem.ram = m0) : (State.loadRun s r).mem.ram = m0 := by
  unfold State.loadRun
  repeat' with_reducible first | assumption | apply State.setEnt_ram | apply State.loadReplay_ram

theorem State.resumeStep_ram {m0 : List Host.Cell} (s : State) (g : Program) (r : ReplayRec) (m2 : List Byte) (ledger : List (Nat × Nat))
    (hm : s.mem.ram = m0) : (State.resumeStep s g r m2 ledger).mem.ram = m0 := by
  unfold State.resumeStep
  try dsimp only
  repeat' with_reducible first
    | assumption | apply State.setPhase_ram | apply State.syncFormats_ram | apply State.layStream_ram | apply State.freshStep_ram
    | apply ite_ram | split | refine ram_mk rfl rfl ?_

theorem State.standAtRank_ram {m0 : List Host.Cell} (s : State) (hm : s.mem.ram = m0) : (State.standAtRank s).mem.ram = m0 := by
  unfold State.standAtRank
  repeat' with_reducible first
    | assumption | apply State.setEnt_ram | apply State.handled_ram | apply State.becomeFresh_ram | refine ram_mk rfl rfl ?_

theorem State.finishSpare_ram {m0 : List Host.Cell} (s : State) (ledger : List (Nat × Nat))
    (hm : s.mem.ram = m0) : (State.finishSpare s ledger).mem.ram = m0 := by
  unfold State.finishSpare
  try dsimp only
  repeat' with_reducible first
    | assumption | apply State.setEnt_ram | apply State.raise_ram | apply State.loadM3_ram | apply State.loadM1_ram
    | apply State.loadRun_ram | apply State.resumeStep_ram | apply State.standAtRank_ram | apply ite_ram | split | refine ram_mk rfl rfl ?_

/-! ## FaultCmds -/

theorem State.reloadValue_ram {m0 : List Host.Cell} (s : State) (k : Nat)
    (hm : s.mem.ram = m0) : (State.reloadValue s k).mem.ram = m0 := by
  unfold State.reloadValue
  repeat' with_reducible first | assumption | apply State.bump_ram | refine ram_mk rfl rfl ?_

theorem State.mismatch_ram {m0 : List Host.Cell} (s : State) (r : FaultReport)
    (hm : s.mem.ram = m0) : (State.mismatch s r).mem.ram = m0 := by
  unfold State.mismatch
  try dsimp only
  repeat' with_reducible first
    | assumption | apply State.bump_ram | apply State.resetRecord_ram | apply State.setCore_ram | apply State.destroyAttestKey_ram
    | apply State.reloadValue_ram | apply ite_ram | split | refine ram_mk rfl rfl ?_

theorem State.mirrorOne_ram {m0 : List Host.Cell} (s : State) (seq : Nat)
    (hm : s.mem.ram = m0) : (State.mirrorOne s seq).mem.ram = m0 := by
  unfold State.mirrorOne
  try dsimp only
  repeat' with_reducible first | assumption | split | refine ram_mk rfl rfl ?_

/-! ## EntryAccess -/

theorem State.respond_ram {m0 : List Host.Cell} (s : State) (code space addr k : Nat)
    (hm : s.mem.ram = m0) : (State.respond s code space addr k).mem.ram = m0 := by
  unfold State.respond
  try dsimp only
  repeat' with_reducible first | assumption | apply State.violation_ram | apply State.raise_ram | apply State.latchAll_ram | apply ite_ram | split

theorem State.reloadEntry_ram {m0 : List Host.Cell} (s : State) (k : Nat)
    (hm : s.mem.ram = m0) : (State.reloadEntry s k).mem.ram = m0 := by
  unfold State.reloadEntry
  repeat' with_reducible first | assumption | apply State.raise_ram | apply State.reloadValue_ram

theorem State.mendGroup_ram {m0 : List Host.Cell} (s : State) (g : Nat) (hm : s.mem.ram = m0) : (State.mendGroup s g).mem.ram = m0 := by
  unfold State.mendGroup
  repeat' with_reducible first | assumption | apply State.raise_ram | apply ite_ram | split | refine ram_mk rfl rfl ?_

theorem State.checkStored_ram {m0 : List Host.Cell} (s : State) (k : Nat)
    (hm : s.mem.ram = m0) : (State.checkStored s k).mem.ram = m0 := by
  unfold State.checkStored
  try dsimp only
  repeat' with_reducible first
    | assumption | apply State.raise_ram | apply State.latchAll_ram | apply State.lostRecord_ram | apply State.badRake_ram
    | apply State.walk_ram | apply State.reloadEntry_ram | apply State.mendGroup_ram | apply ite_ram | split

theorem State.holdPending_ram {m0 : List Host.Cell} (s : State) (k v : Nat)
    (hm : s.mem.ram = m0) : (State.holdPending s k v).mem.ram = m0 := by
  unfold State.holdPending
  try dsimp only
  repeat' with_reducible first | assumption | refine ram_mk rfl rfl ?_

theorem State.progLoad_ram {m0 : List Host.Cell} (s : State) (v : Nat) (hm : s.mem.ram = m0) : (State.progLoad s v).s.mem.ram = m0 := by
  unfold State.progLoad
  try dsimp only
  repeat' with_reducible first
    | assumption | apply State.unload_ram | apply State.startLoad_ram | apply ite_ram_s | apply ite_ram | split | refine ram_mk rfl rfl ?_

theorem State.ackFault_ram {m0 : List Host.Cell} (s : State) (v : Nat) (hm : s.mem.ram = m0) : (State.ackFault s v).s.mem.ram = m0 := by
  unfold State.ackFault
  try dsimp only
  repeat' with_reducible first | assumption | apply State.ackSeq_ram | apply ite_ram_s | apply ite_ram | split | refine ram_mk rfl rfl ?_

theorem State.selClear_ram {m0 : List Host.Cell} (s : State) (hm : s.mem.ram = m0) : (State.selClear s).s.mem.ram = m0 := by
  unfold State.selClear
  try dsimp only
  repeat' with_reducible first | assumption | apply State.setCollector_ram | apply ite_ram_s | apply ite_ram | split | refine ram_mk rfl rfl ?_

theorem State.resetWindow_ram {m0 : List Host.Cell} (s : State) (hm : s.mem.ram = m0) : (State.resetWindow s).mem.ram = m0 := by
  unfold State.resetWindow
  repeat' with_reducible first | assumption | apply State.setEnt_ram | refine ram_mk rfl rfl ?_

theorem State.setNotify_ram {m0 : List Host.Cell} (s : State) (v : Nat) (hm : s.mem.ram = m0) : (State.setNotify s v).mem.ram = m0 := by
  unfold State.setNotify
  repeat' with_reducible first | assumption | apply State.setEnt_ram | apply ite_ram | split | refine ram_mk rfl rfl ?_

theorem State.freezeWindows_ram {m0 : List Host.Cell} (s : State) (v : Nat)
    (hm : s.mem.ram = m0) : (State.freezeWindows s v).mem.ram = m0 := by
  unfold State.freezeWindows
  try dsimp only
  repeat' with_reducible first | assumption | apply State.setEnt_ram | apply ite_ram | split | refine ram_mk rfl rfl ?_

theorem State.journalWrite_ram {m0 : List Host.Cell} (s : State) (r : EntryRow) (k v : Nat)
    (hm : s.mem.ram = m0) : (State.journalWrite s r k v).mem.ram = m0 := by
  unfold State.journalWrite
  repeat' with_reducible first | assumption | apply ite_ram | split | refine ram_mk rfl rfl ?_

theorem State.failItem_ram {m0 : List Host.Cell} (s : State) (code space addr k : Nat)
    (hm : s.mem.ram = m0) : (State.failItem s code space addr k).1.mem.ram = m0 := by
  unfold State.failItem
  try dsimp only
  repeat' with_reducible first | assumption | apply State.respond_ram | split | refine ram_mk rfl rfl ?_

theorem State.readItem_ram {m0 : List Host.Cell} (s : State) (k : Nat) (pend : Bool)
    (hm : s.mem.ram = m0) : (State.readItem s k pend).1.mem.ram = m0 := by
  unfold State.readItem
  try dsimp only
  repeat' with_reducible first
    | assumption | apply State.draw_ram | apply State.checkStored_ram | apply State.failItem_ram | apply ite_ram_fst | apply ite_ram
    | split | refine ram_mk rfl rfl ?_

theorem State.describeItem_ram {m0 : List Host.Cell} (s : State) (k : Nat)
    (hm : s.mem.ram = m0) : (State.describeItem s k).1.mem.ram = m0 := by
  unfold State.describeItem
  try dsimp only
  repeat' with_reducible first | assumption | apply State.failItem_ram | apply ite_ram_fst | apply ite_ram | split | refine ram_mk rfl rfl ?_

theorem State.failSeg_ram {m0 : List Host.Cell} (s : State) (code k : Nat) (x : Seg)
    (hm : s.mem.ram = m0) : (State.failSeg s code k x).1.mem.ram = m0 := by
  unfold State.failSeg
  try dsimp only
  repeat' with_reducible first | assumption | apply State.respond_ram

theorem State.readSeg_ram {m0 : List Host.Cell} (s : State) (x : Seg) (hm : s.mem.ram = m0) : (State.readSeg s x).1.mem.ram = m0 := by
  unfold State.readSeg
  try dsimp only
  repeat' with_reducible first
    | assumption | apply State.checkStored_ram | apply State.failSeg_ram | apply ite_ram_fst | apply ite_ram | split
    | refine ram_mk rfl rfl ?_

theorem State.dropTransfer_ram {m0 : List Host.Cell} (s : State) (src : Nat)
    (hm : s.mem.ram = m0) : (State.dropTransfer s src).mem.ram = m0 := by
  unfold State.dropTransfer
  try dsimp only
  repeat' with_reducible first | assumption | refine ram_mk rfl rfl ?_

theorem State.writeBlob_ram {m0 : List Host.Cell} (s : State) (k : Nat) (l : List Byte)
    (hm : s.mem.ram = m0) : (State.writeBlob s k l).s.mem.ram = m0 := by
  unfold State.writeBlob
  try dsimp only
  repeat' with_reducible first | assumption | apply State.setGroup_ram | apply ite_ram_s | apply ite_ram | split | refine ram_mk rfl rfl ?_

theorem State.writeSeg_ram {m0 : List Host.Cell} (s : State) (src : Nat) (x : Seg)
    (hm : s.mem.ram = m0) : (State.writeSeg s src x).1.mem.ram = m0 := by
  unfold State.writeSeg
  try dsimp only
  repeat' with_reducible first
    | assumption | apply State.latchAll_ram | apply State.journalWrite_ram | apply State.failSeg_ram | apply State.dropTransfer_ram
    | apply State.writeBlob_ram | apply ite_ram_fst | apply ite_ram | split | refine ram_mk rfl rfl ?_

/-! ## Messages -/

theorem State.slotDone_ram {m0 : List Host.Cell} (s : State) (n : Nat) (x : MbxSlot)
    (hm : s.mem.ram = m0) : (State.slotDone s n x).mem.ram = m0 := by
  unfold State.slotDone
  try dsimp only
  repeat' with_reducible first | assumption | apply State.raiseVector_ram | apply State.setSlot_ram | apply ite_ram | split

theorem State.dropFrame_ram {m0 : List Host.Cell} (s : State) (hm : s.mem.ram = m0) : (State.dropFrame s).mem.ram = m0 := by
  unfold State.dropFrame
  repeat' with_reducible first | assumption | apply State.bump_ram

theorem State.checkClaim_ram {m0 : List Host.Cell} (s : State) (src mac : Nat)
    (hm : s.mem.ram = m0) : (State.checkClaim s src mac).mem.ram = m0 := by
  unfold State.checkClaim
  repeat' with_reducible first | assumption | apply State.conditionAt_ram | apply ite_ram | split

theorem State.queueResponse_ram {m0 : List Host.Cell} (s : State) (dst : FieldAddr) (b : List Byte)
    (hm : s.mem.ram = m0) : (State.queueResponse s dst b).mem.ram = m0 := by
  unfold State.queueResponse
  repeat' with_reducible first | assumption | apply ite_ram | split | refine ram_mk rfl rfl ?_

theorem State.bar2_ram {m0 : List Host.Cell} (s : State) (f : State → State) (hf : ∀ s : State, s.mem.ram = m0 → (f s).mem.ram = m0)
    (hm : s.mem.ram = m0) : (s.bar2 f).mem.ram = m0 := by
  unfold State.bar2
  exact ite_ram (ram_mk rfl rfl hm) (ite_ram (hf s hm) hm)

theorem State.takeId_ram {m0 : List Host.Cell} (s : State) (id : Nat) (hm : s.mem.ram = m0) : (State.takeId s id).mem.ram = m0 := by
  unfold State.takeId
  repeat' with_reducible first | assumption | apply State.setEnt_ram | refine ram_mk rfl rfl ?_

theorem State.vectorOne_ram {m0 : List Host.Cell} (s : State) (hm : s.mem.ram = m0) : (State.vectorOne s).mem.ram = m0 := by
  unfold State.vectorOne
  repeat' with_reducible first | assumption | apply State.raiseVector_ram | apply ite_ram | split | refine ram_mk rfl rfl ?_

theorem State.fieldNotify_ram {m0 : List Host.Cell} (s : State) (hm : s.mem.ram = m0) : (State.fieldNotify s).mem.ram = m0 := by
  unfold State.fieldNotify
  repeat' with_reducible first | assumption | apply ite_ram | split | refine ram_mk rfl rfl ?_

/-! ## HostLink -/

theorem State.resetMailbox_ram {m0 : List Host.Cell} (s : State) (hm : s.mem.ram = m0) : (State.resetMailbox s).mem.ram = m0 := by
  unfold State.resetMailbox
  try dsimp only
  repeat' with_reducible first | assumption | refine ram_mk rfl rfl ?_

theorem State.resetFunction_ram {m0 : List Host.Cell} (s : State) (hm : s.mem.ram = m0) : (State.resetFunction s).mem.ram = m0 := by
  unfold State.resetFunction
  repeat' with_reducible first | assumption | apply State.setEnt_ram | apply State.resetMailbox_ram | refine ram_mk rfl rfl ?_

theorem State.resetPort_ram {m0 : List Host.Cell} (s : State) (hm : s.mem.ram = m0) : (State.resetPort s).mem.ram = m0 := by
  unfold State.resetPort
  repeat' with_reducible first | assumption | apply State.hostDown_ram | apply State.resetFunction_ram

theorem State.cxlRuns_ram {m0 : List Host.Cell} (s : State) (d rate width : Nat)
    (hm : s.mem.ram = m0) : (State.cxlRuns s d rate width).mem.ram = m0 := by
  unfold State.cxlRuns
  try dsimp only
  repeat' with_reducible first
    | assumption | apply State.condition_ram | apply State.raise_ram | apply State.latchAll_ram | apply State.retryRead_ram | apply ite_ram
    | split | refine ram_mk rfl rfl ?_

theorem State.downForGood_ram {m0 : List Host.Cell} (s : State) (d : Nat)
    (hm : s.mem.ram = m0) : (State.downForGood s d).mem.ram = m0 := by
  unfold State.downForGood
  repeat' with_reducible first | assumption | apply State.failDev_ram | apply ite_ram | split

theorem State.hostUp_ram {m0 : List Host.Cell} (s : State) (rate width : Nat)
    (hm : s.mem.ram = m0) : (State.hostUp s rate width).mem.ram = m0 := by
  unfold State.hostUp
  try dsimp only
  repeat' with_reducible first | assumption | apply State.bump_ram | apply State.setReady_ram | apply ite_ram | split | refine ram_mk rfl rfl ?_

end Sys2Proof.Machine
end

