-- ==== Sys2Proof/Laws/State.lean ====
section
/-! SUPPORT. What each primitive update of the state leaves alone, and what a read after it gives. -/

namespace Sys2Proof.Machine

variable (s : State)

@[simp] theorem State.setEnt_pending (k v : Nat) : (s.setEnt k v).pending = s.pending := rfl
@[simp] theorem State.setEnt_clk (k v : Nat) : (s.setEnt k v).clk = s.clk := rfl
@[simp] theorem State.setEnt_pwr (k v : Nat) : (s.setEnt k v).pwr = s.pwr := rfl
@[simp] theorem State.setEnt_cores (k v : Nat) : (s.setEnt k v).cores = s.cores := rfl
@[simp] theorem State.setEnt_clusters (k v : Nat) : (s.setEnt k v).clusters = s.clusters := rfl
@[simp] theorem State.setEnt_rep (k v : Nat) : (s.setEnt k v).rep = s.rep := rfl
@[simp] theorem State.setEnt_scale (k v : Nat) : (s.setEnt k v).scale = s.scale := rfl
@[simp] theorem State.setEnt_rake (k v : Nat) : (s.setEnt k v).rake = s.rake := rfl
@[simp] theorem State.setEnt_prog (k v : Nat) : (s.setEnt k v).prog = s.prog := rfl
@[simp] theorem State.setEnt_train (k v : Nat) : (s.setEnt k v).train = s.train := rfl
@[simp] theorem State.setEnt_mem (k v : Nat) : (s.setEnt k v).mem = s.mem := rfl
@[simp] theorem State.setEnt_arb (k v : Nat) : (s.setEnt k v).arb = s.arb := rfl
@[simp] theorem State.setEnt_flt (k v : Nat) : (s.setEnt k v).flt = s.flt := rfl
@[simp] theorem State.setEnt_comm (k v : Nat) : (s.setEnt k v).comm = s.comm := rfl
@[simp] theorem State.setEnt_links (k v : Nat) : (s.setEnt k v).links = s.links := rfl
@[simp] theorem State.setEnt_crust (k v : Nat) : (s.setEnt k v).crust = s.crust := rfl
@[simp] theorem State.setEnt_stock (k v : Nat) : (s.setEnt k v).stock = s.stock := rfl
@[simp] theorem State.setEnt_nv (k v : Nat) : (s.setEnt k v).nv = s.nv := rfl
@[simp] theorem State.setEnt_sec (k v : Nat) : (s.setEnt k v).sec = s.sec := rfl

@[simp] theorem State.bump_pending (w k n : Nat) : (s.bump w k n).pending = s.pending := rfl
@[simp] theorem State.bump_clk (w k n : Nat) : (s.bump w k n).clk = s.clk := rfl
@[simp] theorem State.bump_pwr (w k n : Nat) : (s.bump w k n).pwr = s.pwr := rfl
@[simp] theorem State.bump_cores (w k n : Nat) : (s.bump w k n).cores = s.cores := rfl
@[simp] theorem State.bump_clusters (w k n : Nat) : (s.bump w k n).clusters = s.clusters := rfl
@[simp] theorem State.bump_rep (w k n : Nat) : (s.bump w k n).rep = s.rep := rfl
@[simp] theorem State.bump_scale (w k n : Nat) : (s.bump w k n).scale = s.scale := rfl
@[simp] theorem State.bump_rake (w k n : Nat) : (s.bump w k n).rake = s.rake := rfl
@[simp] theorem State.bump_prog (w k n : Nat) : (s.bump w k n).prog = s.prog := rfl
@[simp] theorem State.bump_train (w k n : Nat) : (s.bump w k n).train = s.train := rfl
@[simp] theorem State.bump_mem (w k n : Nat) : (s.bump w k n).mem = s.mem := rfl
@[simp] theorem State.bump_arb (w k n : Nat) : (s.bump w k n).arb = s.arb := rfl
@[simp] theorem State.bump_flt (w k n : Nat) : (s.bump w k n).flt = s.flt := rfl
@[simp] theorem State.bump_comm (w k n : Nat) : (s.bump w k n).comm = s.comm := rfl
@[simp] theorem State.bump_links (w k n : Nat) : (s.bump w k n).links = s.links := rfl
@[simp] theorem State.bump_crust (w k n : Nat) : (s.bump w k n).crust = s.crust := rfl
@[simp] theorem State.bump_stock (w k n : Nat) : (s.bump w k n).stock = s.stock := rfl
@[simp] theorem State.bump_nv (w k n : Nat) : (s.bump w k n).nv = s.nv := rfl
@[simp] theorem State.bump_sec (w k n : Nat) : (s.bump w k n).sec = s.sec := rfl

@[simp] theorem State.draw_pending : (s.draw).pending = s.pending := rfl
@[simp] theorem State.draw_pwr : (s.draw).pwr = s.pwr := rfl
@[simp] theorem State.draw_cores : (s.draw).cores = s.cores := rfl
@[simp] theorem State.draw_clusters : (s.draw).clusters = s.clusters := rfl
@[simp] theorem State.draw_rep : (s.draw).rep = s.rep := rfl
@[simp] theorem State.draw_scale : (s.draw).scale = s.scale := rfl
@[simp] theorem State.draw_rake : (s.draw).rake = s.rake := rfl
@[simp] theorem State.draw_prog : (s.draw).prog = s.prog := rfl
@[simp] theorem State.draw_train : (s.draw).train = s.train := rfl
@[simp] theorem State.draw_mem : (s.draw).mem = s.mem := rfl
@[simp] theorem State.draw_arb : (s.draw).arb = s.arb := rfl
@[simp] theorem State.draw_flt : (s.draw).flt = s.flt := rfl
@[simp] theorem State.draw_dict : (s.draw).dict = s.dict := rfl
@[simp] theorem State.draw_comm : (s.draw).comm = s.comm := rfl
@[simp] theorem State.draw_links : (s.draw).links = s.links := rfl
@[simp] theorem State.draw_crust : (s.draw).crust = s.crust := rfl
@[simp] theorem State.draw_stock : (s.draw).stock = s.stock := rfl
@[simp] theorem State.draw_nv : (s.draw).nv = s.nv := rfl
@[simp] theorem State.draw_sec : (s.draw).sec = s.sec := rfl

@[simp] theorem State.setCore_pending (c : Nat) (x : CoreSt) : (s.setCore c x).pending = s.pending := rfl
@[simp] theorem State.setCore_clk (c : Nat) (x : CoreSt) : (s.setCore c x).clk = s.clk := rfl
@[simp] theorem State.setCore_pwr (c : Nat) (x : CoreSt) : (s.setCore c x).pwr = s.pwr := rfl
@[simp] theorem State.setCore_clusters (c : Nat) (x : CoreSt) : (s.setCore c x).clusters = s.clusters := rfl
@[simp] theorem State.setCore_rep (c : Nat) (x : CoreSt) : (s.setCore c x).rep = s.rep := rfl
@[simp] theorem State.setCore_scale (c : Nat) (x : CoreSt) : (s.setCore c x).scale = s.scale := rfl
@[simp] theorem State.setCore_rake (c : Nat) (x : CoreSt) : (s.setCore c x).rake = s.rake := rfl
@[simp] theorem State.setCore_prog (c : Nat) (x : CoreSt) : (s.setCore c x).prog = s.prog := rfl
@[simp] theorem State.setCore_train (c : Nat) (x : CoreSt) : (s.setCore c x).train = s.train := rfl
@[simp] theorem State.setCore_mem (c : Nat) (x : CoreSt) : (s.setCore c x).mem = s.mem := rfl
@[simp] theorem State.setCore_arb (c : Nat) (x : CoreSt) : (s.setCore c x).arb = s.arb := rfl
@[simp] theorem State.setCore_flt (c : Nat) (x : CoreSt) : (s.setCore c x).flt = s.flt := rfl
@[simp] theorem State.setCore_dict (c : Nat) (x : CoreSt) : (s.setCore c x).dict = s.dict := rfl
@[simp] theorem State.setCore_comm (c : Nat) (x : CoreSt) : (s.setCore c x).comm = s.comm := rfl
@[simp] theorem State.setCore_links (c : Nat) (x : CoreSt) : (s.setCore c x).links = s.links := rfl
@[simp] theorem State.setCore_crust (c : Nat) (x : CoreSt) : (s.setCore c x).crust = s.crust := rfl
@[simp] theorem State.setCore_stock (c : Nat) (x : CoreSt) : (s.setCore c x).stock = s.stock := rfl
@[simp] theorem State.setCore_nv (c : Nat) (x : CoreSt) : (s.setCore c x).nv = s.nv := rfl
@[simp] theorem State.setCore_sec (c : Nat) (x : CoreSt) : (s.setCore c x).sec = s.sec := rfl

@[simp] theorem State.setPan_pending (c p : Nat) (x : PanSt) : (s.setPan c p x).pending = s.pending := rfl
@[simp] theorem State.setPan_clk (c p : Nat) (x : PanSt) : (s.setPan c p x).clk = s.clk := rfl
@[simp] theorem State.setPan_pwr (c p : Nat) (x : PanSt) : (s.setPan c p x).pwr = s.pwr := rfl
@[simp] theorem State.setPan_clusters (c p : Nat) (x : PanSt) : (s.setPan c p x).clusters = s.clusters := rfl
@[simp] theorem State.setPan_rep (c p : Nat) (x : PanSt) : (s.setPan c p x).rep = s.rep := rfl
@[simp] theorem State.setPan_scale (c p : Nat) (x : PanSt) : (s.setPan c p x).scale = s.scale := rfl
@[simp] theorem State.setPan_rake (c p : Nat) (x : PanSt) : (s.setPan c p x).rake = s.rake := rfl
@[simp] theorem State.setPan_prog (c p : Nat) (x : PanSt) : (s.setPan c p x).prog = s.prog := rfl
@[simp] theorem State.setPan_train (c p : Nat) (x : PanSt) : (s.setPan c p x).train = s.train := rfl
@[simp] theorem State.setPan_mem (c p : Nat) (x : PanSt) : (s.setPan c p x).mem = s.mem := rfl
@[simp] theorem State.setPan_arb (c p : Nat) (x : PanSt) : (s.setPan c p x).arb = s.arb := rfl
@[simp] theorem State.setPan_flt (c p : Nat) (x : PanSt) : (s.setPan c p x).flt = s.flt := rfl
@[simp] theorem State.setPan_dict (c p : Nat) (x : PanSt) : (s.setPan c p x).dict = s.dict := rfl
@[simp] theorem State.setPan_comm (c p : Nat) (x : PanSt) : (s.setPan c p x).comm = s.comm := rfl
@[simp] theorem State.setPan_links (c p : Nat) (x : PanSt) : (s.setPan c p x).links = s.links := rfl
@[simp] theorem State.setPan_crust (c p : Nat) (x : PanSt) : (s.setPan c p x).crust = s.crust := rfl
@[simp] theorem State.setPan_stock (c p : Nat) (x : PanSt) : (s.setPan c p x).stock = s.stock := rfl
@[simp] theorem State.setPan_nv (c p : Nat) (x : PanSt) : (s.setPan c p x).nv = s.nv := rfl
@[simp] theorem State.setPan_sec (c p : Nat) (x : PanSt) : (s.setPan c p x).sec = s.sec := rfl

@[simp] theorem State.setMapEntry_pending (p : Nat) (e : MapEntry) : (s.setMapEntry p e).pending = s.pending := rfl
@[simp] theorem State.setMapEntry_clk (p : Nat) (e : MapEntry) : (s.setMapEntry p e).clk = s.clk := rfl
@[simp] theorem State.setMapEntry_pwr (p : Nat) (e : MapEntry) : (s.setMapEntry p e).pwr = s.pwr := rfl
@[simp] theorem State.setMapEntry_cores (p : Nat) (e : MapEntry) : (s.setMapEntry p e).cores = s.cores := rfl
@[simp] theorem State.setMapEntry_clusters (p : Nat) (e : MapEntry) : (s.setMapEntry p e).clusters = s.clusters := rfl
@[simp] theorem State.setMapEntry_rep (p : Nat) (e : MapEntry) : (s.setMapEntry p e).rep = s.rep := rfl
@[simp] theorem State.setMapEntry_scale (p : Nat) (e : MapEntry) : (s.setMapEntry p e).scale = s.scale := rfl
@[simp] theorem State.setMapEntry_rake (p : Nat) (e : MapEntry) : (s.setMapEntry p e).rake = s.rake := rfl
@[simp] theorem State.setMapEntry_prog (p : Nat) (e : MapEntry) : (s.setMapEntry p e).prog = s.prog := rfl
@[simp] theorem State.setMapEntry_train (p : Nat) (e : MapEntry) : (s.setMapEntry p e).train = s.train := rfl
@[simp] theorem State.setMapEntry_arb (p : Nat) (e : MapEntry) : (s.setMapEntry p e).arb = s.arb := rfl
@[simp] theorem State.setMapEntry_flt (p : Nat) (e : MapEntry) : (s.setMapEntry p e).flt = s.flt := rfl
@[simp] theorem State.setMapEntry_dict (p : Nat) (e : MapEntry) : (s.setMapEntry p e).dict = s.dict := rfl
@[simp] theorem State.setMapEntry_comm (p : Nat) (e : MapEntry) : (s.setMapEntry p e).comm = s.comm := rfl
@[simp] theorem State.setMapEntry_links (p : Nat) (e : MapEntry) : (s.setMapEntry p e).links = s.links := rfl
@[simp] theorem State.setMapEntry_crust (p : Nat) (e : MapEntry) : (s.setMapEntry p e).crust = s.crust := rfl
@[simp] theorem State.setMapEntry_stock (p : Nat) (e : MapEntry) : (s.setMapEntry p e).stock = s.stock := rfl
@[simp] theorem State.setMapEntry_nv (p : Nat) (e : MapEntry) : (s.setMapEntry p e).nv = s.nv := rfl
@[simp] theorem State.setMapEntry_sec (p : Nat) (e : MapEntry) : (s.setMapEntry p e).sec = s.sec := rfl

@[simp] theorem State.ramWrite_pending (a : Nat) (l : List Byte) : (s.ramWrite a l).pending = s.pending := rfl
@[simp] theorem State.ramWrite_clk (a : Nat) (l : List Byte) : (s.ramWrite a l).clk = s.clk := rfl
@[simp] theorem State.ramWrite_pwr (a : Nat) (l : List Byte) : (s.ramWrite a l).pwr = s.pwr := rfl
@[simp] theorem State.ramWrite_cores (a : Nat) (l : List Byte) : (s.ramWrite a l).cores = s.cores := rfl
@[simp] theorem State.ramWrite_clusters (a : Nat) (l : List Byte) : (s.ramWrite a l).clusters = s.clusters := rfl
@[simp] theorem State.ramWrite_rep (a : Nat) (l : List Byte) : (s.ramWrite a l).rep = s.rep := rfl
@[simp] theorem State.ramWrite_scale (a : Nat) (l : List Byte) : (s.ramWrite a l).scale = s.scale := rfl
@[simp] theorem State.ramWrite_rake (a : Nat) (l : List Byte) : (s.ramWrite a l).rake = s.rake := rfl
@[simp] theorem State.ramWrite_prog (a : Nat) (l : List Byte) : (s.ramWrite a l).prog = s.prog := rfl
@[simp] theorem State.ramWrite_train (a : Nat) (l : List Byte) : (s.ramWrite a l).train = s.train := rfl
@[simp] theorem State.ramWrite_arb (a : Nat) (l : List Byte) : (s.ramWrite a l).arb = s.arb := rfl
@[simp] theorem State.ramWrite_flt (a : Nat) (l : List Byte) : (s.ramWrite a l).flt = s.flt := rfl
@[simp] theorem State.ramWrite_dict (a : Nat) (l : List Byte) : (s.ramWrite a l).dict = s.dict := rfl
@[simp] theorem State.ramWrite_comm (a : Nat) (l : List Byte) : (s.ramWrite a l).comm = s.comm := rfl
@[simp] theorem State.ramWrite_links (a : Nat) (l : List Byte) : (s.ramWrite a l).links = s.links := rfl
@[simp] theorem State.ramWrite_crust (a : Nat) (l : List Byte) : (s.ramWrite a l).crust = s.crust := rfl
@[simp] theorem State.ramWrite_stock (a : Nat) (l : List Byte) : (s.ramWrite a l).stock = s.stock := rfl
@[simp] theorem State.ramWrite_nv (a : Nat) (l : List Byte) : (s.ramWrite a l).nv = s.nv := rfl
@[simp] theorem State.ramWrite_sec (a : Nat) (l : List Byte) : (s.ramWrite a l).sec = s.sec := rfl

@[simp] theorem State.raise_pending (r : FaultReport) : (s.raise r).pending = s.pending := rfl
@[simp] theorem State.raise_clk (r : FaultReport) : (s.raise r).clk = s.clk := rfl
@[simp] theorem State.raise_pwr (r : FaultReport) : (s.raise r).pwr = s.pwr := rfl
@[simp] theorem State.raise_cores (r : FaultReport) : (s.raise r).cores = s.cores := rfl
@[simp] theorem State.raise_clusters (r : FaultReport) : (s.raise r).clusters = s.clusters := rfl
@[simp] theorem State.raise_rep (r : FaultReport) : (s.raise r).rep = s.rep := rfl
@[simp] theorem State.raise_scale (r : FaultReport) : (s.raise r).scale = s.scale := rfl
@[simp] theorem State.raise_rake (r : FaultReport) : (s.raise r).rake = s.rake := rfl
@[simp] theorem State.raise_prog (r : FaultReport) : (s.raise r).prog = s.prog := rfl
@[simp] theorem State.raise_train (r : FaultReport) : (s.raise r).train = s.train := rfl
@[simp] theorem State.raise_mem (r : FaultReport) : (s.raise r).mem = s.mem := rfl
@[simp] theorem State.raise_arb (r : FaultReport) : (s.raise r).arb = s.arb := rfl
@[simp] theorem State.raise_dict (r : FaultReport) : (s.raise r).dict = s.dict := rfl
@[simp] theorem State.raise_comm (r : FaultReport) : (s.raise r).comm = s.comm := rfl
@[simp] theorem State.raise_links (r : FaultReport) : (s.raise r).links = s.links := rfl
@[simp] theorem State.raise_crust (r : FaultReport) : (s.raise r).crust = s.crust := rfl
@[simp] theorem State.raise_stock (r : FaultReport) : (s.raise r).stock = s.stock := rfl
@[simp] theorem State.raise_nv (r : FaultReport) : (s.raise r).nv = s.nv := rfl
@[simp] theorem State.raise_sec (r : FaultReport) : (s.raise r).sec = s.sec := rfl

@[simp] theorem State.setLane_pending (i : Nat) (l : LaneSt) : (s.setLane i l).pending = s.pending := rfl
@[simp] theorem State.setLane_clk (i : Nat) (l : LaneSt) : (s.setLane i l).clk = s.clk := rfl
@[simp] theorem State.setLane_pwr (i : Nat) (l : LaneSt) : (s.setLane i l).pwr = s.pwr := rfl
@[simp] theorem State.setLane_cores (i : Nat) (l : LaneSt) : (s.setLane i l).cores = s.cores := rfl
@[simp] theorem State.setLane_clusters (i : Nat) (l : LaneSt) : (s.setLane i l).clusters = s.clusters := rfl
@[simp] theorem State.setLane_rep (i : Nat) (l : LaneSt) : (s.setLane i l).rep = s.rep := rfl
@[simp] theorem State.setLane_scale (i : Nat) (l : LaneSt) : (s.setLane i l).scale = s.scale := rfl
@[simp] theorem State.setLane_rake (i : Nat) (l : LaneSt) : (s.setLane i l).rake = s.rake := rfl
@[simp] theorem State.setLane_prog (i : Nat) (l : LaneSt) : (s.setLane i l).prog = s.prog := rfl
@[simp] theorem State.setLane_train (i : Nat) (l : LaneSt) : (s.setLane i l).train = s.train := rfl
@[simp] theorem State.setLane_mem (i : Nat) (l : LaneSt) : (s.setLane i l).mem = s.mem := rfl
@[simp] theorem State.setLane_arb (i : Nat) (l : LaneSt) : (s.setLane i l).arb = s.arb := rfl
@[simp] theorem State.setLane_flt (i : Nat) (l : LaneSt) : (s.setLane i l).flt = s.flt := rfl
@[simp] theorem State.setLane_dict (i : Nat) (l : LaneSt) : (s.setLane i l).dict = s.dict := rfl
@[simp] theorem State.setLane_comm (i : Nat) (l : LaneSt) : (s.setLane i l).comm = s.comm := rfl
@[simp] theorem State.setLane_crust (i : Nat) (l : LaneSt) : (s.setLane i l).crust = s.crust := rfl
@[simp] theorem State.setLane_stock (i : Nat) (l : LaneSt) : (s.setLane i l).stock = s.stock := rfl
@[simp] theorem State.setLane_nv (i : Nat) (l : LaneSt) : (s.setLane i l).nv = s.nv := rfl
@[simp] theorem State.setLane_sec (i : Nat) (l : LaneSt) : (s.setLane i l).sec = s.sec := rfl

@[simp] theorem State.setStack_pending (i : Nat) (x : StackSt) : (s.setStack i x).pending = s.pending := rfl
@[simp] theorem State.setStack_clk (i : Nat) (x : StackSt) : (s.setStack i x).clk = s.clk := rfl
@[simp] theorem State.setStack_pwr (i : Nat) (x : StackSt) : (s.setStack i x).pwr = s.pwr := rfl
@[simp] theorem State.setStack_cores (i : Nat) (x : StackSt) : (s.setStack i x).cores = s.cores := rfl
@[simp] theorem State.setStack_clusters (i : Nat) (x : StackSt) : (s.setStack i x).clusters = s.clusters := rfl
@[simp] theorem State.setStack_rep (i : Nat) (x : StackSt) : (s.setStack i x).rep = s.rep := rfl
@[simp] theorem State.setStack_scale (i : Nat) (x : StackSt) : (s.setStack i x).scale = s.scale := rfl
@[simp] theorem State.setStack_rake (i : Nat) (x : StackSt) : (s.setStack i x).rake = s.rake := rfl
@[simp] theorem State.setStack_prog (i : Nat) (x : StackSt) : (s.setStack i x).prog = s.prog := rfl
@[simp] theorem State.setStack_train (i : Nat) (x : StackSt) : (s.setStack i x).train = s.train := rfl
@[simp] theorem State.setStack_arb (i : Nat) (x : StackSt) : (s.setStack i x).arb = s.arb := rfl
@[simp] theorem State.setStack_flt (i : Nat) (x : StackSt) : (s.setStack i x).flt = s.flt := rfl
@[simp] theorem State.setStack_dict (i : Nat) (x : StackSt) : (s.setStack i x).dict = s.dict := rfl
@[simp] theorem State.setStack_comm (i : Nat) (x : StackSt) : (s.setStack i x).comm = s.comm := rfl
@[simp] theorem State.setStack_links (i : Nat) (x : StackSt) : (s.setStack i x).links = s.links := rfl
@[simp] theorem State.setStack_crust (i : Nat) (x : StackSt) : (s.setStack i x).crust = s.crust := rfl
@[simp] theorem State.setStack_stock (i : Nat) (x : StackSt) : (s.setStack i x).stock = s.stock := rfl
@[simp] theorem State.setStack_nv (i : Nat) (x : StackSt) : (s.setStack i x).nv = s.nv := rfl
@[simp] theorem State.setStack_sec (i : Nat) (x : StackSt) : (s.setStack i x).sec = s.sec := rfl

@[simp] theorem State.setDev_pending (i : Nat) (x : CxlSt) : (s.setDev i x).pending = s.pending := rfl
@[simp] theorem State.setDev_clk (i : Nat) (x : CxlSt) : (s.setDev i x).clk = s.clk := rfl
@[simp] theorem State.setDev_pwr (i : Nat) (x : CxlSt) : (s.setDev i x).pwr = s.pwr := rfl
@[simp] theorem State.setDev_cores (i : Nat) (x : CxlSt) : (s.setDev i x).cores = s.cores := rfl
@[simp] theorem State.setDev_clusters (i : Nat) (x : CxlSt) : (s.setDev i x).clusters = s.clusters := rfl
@[simp] theorem State.setDev_rep (i : Nat) (x : CxlSt) : (s.setDev i x).rep = s.rep := rfl
@[simp] theorem State.setDev_scale (i : Nat) (x : CxlSt) : (s.setDev i x).scale = s.scale := rfl
@[simp] theorem State.setDev_rake (i : Nat) (x : CxlSt) : (s.setDev i x).rake = s.rake := rfl
@[simp] theorem State.setDev_prog (i : Nat) (x : CxlSt) : (s.setDev i x).prog = s.prog := rfl
@[simp] theorem State.setDev_train (i : Nat) (x : CxlSt) : (s.setDev i x).train = s.train := rfl
@[simp] theorem State.setDev_arb (i : Nat) (x : CxlSt) : (s.setDev i x).arb = s.arb := rfl
@[simp] theorem State.setDev_flt (i : Nat) (x : CxlSt) : (s.setDev i x).flt = s.flt := rfl
@[simp] theorem State.setDev_dict (i : Nat) (x : CxlSt) : (s.setDev i x).dict = s.dict := rfl
@[simp] theorem State.setDev_comm (i : Nat) (x : CxlSt) : (s.setDev i x).comm = s.comm := rfl
@[simp] theorem State.setDev_links (i : Nat) (x : CxlSt) : (s.setDev i x).links = s.links := rfl
@[simp] theorem State.setDev_crust (i : Nat) (x : CxlSt) : (s.setDev i x).crust = s.crust := rfl
@[simp] theorem State.setDev_stock (i : Nat) (x : CxlSt) : (s.setDev i x).stock = s.stock := rfl
@[simp] theorem State.setDev_nv (i : Nat) (x : CxlSt) : (s.setDev i x).nv = s.nv := rfl
@[simp] theorem State.setDev_sec (i : Nat) (x : CxlSt) : (s.setDev i x).sec = s.sec := rfl

@[simp] theorem State.setCollector_pending (k : Nat) (x : Collector) : (s.setCollector k x).pending = s.pending := rfl
@[simp] theorem State.setCollector_clk (k : Nat) (x : Collector) : (s.setCollector k x).clk = s.clk := rfl
@[simp] theorem State.setCollector_pwr (k : Nat) (x : Collector) : (s.setCollector k x).pwr = s.pwr := rfl
@[simp] theorem State.setCollector_cores (k : Nat) (x : Collector) : (s.setCollector k x).cores = s.cores := rfl
@[simp] theorem State.setCollector_clusters (k : Nat) (x : Collector) : (s.setCollector k x).clusters = s.clusters := rfl
@[simp] theorem State.setCollector_rep (k : Nat) (x : Collector) : (s.setCollector k x).rep = s.rep := rfl
@[simp] theorem State.setCollector_scale (k : Nat) (x : Collector) : (s.setCollector k x).scale = s.scale := rfl
@[simp] theorem State.setCollector_rake (k : Nat) (x : Collector) : (s.setCollector k x).rake = s.rake := rfl
@[simp] theorem State.setCollector_prog (k : Nat) (x : Collector) : (s.setCollector k x).prog = s.prog := rfl
@[simp] theorem State.setCollector_train (k : Nat) (x : Collector) : (s.setCollector k x).train = s.train := rfl
@[simp] theorem State.setCollector_mem (k : Nat) (x : Collector) : (s.setCollector k x).mem = s.mem := rfl
@[simp] theorem State.setCollector_arb (k : Nat) (x : Collector) : (s.setCollector k x).arb = s.arb := rfl
@[simp] theorem State.setCollector_dict (k : Nat) (x : Collector) : (s.setCollector k x).dict = s.dict := rfl
@[simp] theorem State.setCollector_comm (k : Nat) (x : Collector) : (s.setCollector k x).comm = s.comm := rfl
@[simp] theorem State.setCollector_links (k : Nat) (x : Collector) : (s.setCollector k x).links = s.links := rfl
@[simp] theorem State.setCollector_crust (k : Nat) (x : Collector) : (s.setCollector k x).crust = s.crust := rfl
@[simp] theorem State.setCollector_stock (k : Nat) (x : Collector) : (s.setCollector k x).stock = s.stock := rfl
@[simp] theorem State.setCollector_nv (k : Nat) (x : Collector) : (s.setCollector k x).nv = s.nv := rfl
@[simp] theorem State.setCollector_sec (k : Nat) (x : Collector) : (s.setCollector k x).sec = s.sec := rfl

@[simp] theorem State.setQueue_pending (q : QueueId) (x : QueueSt) : (s.setQueue q x).pending = s.pending := rfl
@[simp] theorem State.setQueue_pwr (q : QueueId) (x : QueueSt) : (s.setQueue q x).pwr = s.pwr := rfl
@[simp] theorem State.setQueue_cores (q : QueueId) (x : QueueSt) : (s.setQueue q x).cores = s.cores := rfl
@[simp] theorem State.setQueue_clusters (q : QueueId) (x : QueueSt) : (s.setQueue q x).clusters = s.clusters := rfl
@[simp] theorem State.setQueue_rep (q : QueueId) (x : QueueSt) : (s.setQueue q x).rep = s.rep := rfl
@[simp] theorem State.setQueue_scale (q : QueueId) (x : QueueSt) : (s.setQueue q x).scale = s.scale := rfl
@[simp] theorem State.setQueue_rake (q : QueueId) (x : QueueSt) : (s.setQueue q x).rake = s.rake := rfl
@[simp] theorem State.setQueue_prog (q : QueueId) (x : QueueSt) : (s.setQueue q x).prog = s.prog := rfl
@[simp] theorem State.setQueue_train (q : QueueId) (x : QueueSt) : (s.setQueue q x).train = s.train := rfl
@[simp] theorem State.setQueue_mem (q : QueueId) (x : QueueSt) : (s.setQueue q x).mem = s.mem := rfl
@[simp] theorem State.setQueue_arb (q : QueueId) (x : QueueSt) : (s.setQueue q x).arb = s.arb := rfl
@[simp] theorem State.setQueue_flt (q : QueueId) (x : QueueSt) : (s.setQueue q x).flt = s.flt := rfl
@[simp] theorem State.setQueue_dict (q : QueueId) (x : QueueSt) : (s.setQueue q x).dict = s.dict := rfl
@[simp] theorem State.setQueue_comm (q : QueueId) (x : QueueSt) : (s.setQueue q x).comm = s.comm := rfl
@[simp] theorem State.setQueue_links (q : QueueId) (x : QueueSt) : (s.setQueue q x).links = s.links := rfl
@[simp] theorem State.setQueue_crust (q : QueueId) (x : QueueSt) : (s.setQueue q x).crust = s.crust := rfl
@[simp] theorem State.setQueue_stock (q : QueueId) (x : QueueSt) : (s.setQueue q x).stock = s.stock := rfl
@[simp] theorem State.setQueue_nv (q : QueueId) (x : QueueSt) : (s.setQueue q x).nv = s.nv := rfl
@[simp] theorem State.setQueue_sec (q : QueueId) (x : QueueSt) : (s.setQueue q x).sec = s.sec := rfl

@[simp] theorem State.setSlot_pending (n : Nat) (x : MbxSlot) : (s.setSlot n x).pending = s.pending := rfl
@[simp] theorem State.setSlot_clk (n : Nat) (x : MbxSlot) : (s.setSlot n x).clk = s.clk := rfl
@[simp] theorem State.setSlot_pwr (n : Nat) (x : MbxSlot) : (s.setSlot n x).pwr = s.pwr := rfl
@[simp] theorem State.setSlot_cores (n : Nat) (x : MbxSlot) : (s.setSlot n x).cores = s.cores := rfl
@[simp] theorem State.setSlot_clusters (n : Nat) (x : MbxSlot) : (s.setSlot n x).clusters = s.clusters := rfl
@[simp] theorem State.setSlot_rep (n : Nat) (x : MbxSlot) : (s.setSlot n x).rep = s.rep := rfl
@[simp] theorem State.setSlot_scale (n : Nat) (x : MbxSlot) : (s.setSlot n x).scale = s.scale := rfl
@[simp] theorem State.setSlot_rake (n : Nat) (x : MbxSlot) : (s.setSlot n x).rake = s.rake := rfl
@[simp] theorem State.setSlot_prog (n : Nat) (x : MbxSlot) : (s.setSlot n x).prog = s.prog := rfl
@[simp] theorem State.setSlot_train (n : Nat) (x : MbxSlot) : (s.setSlot n x).train = s.train := rfl
@[simp] theorem State.setSlot_mem (n : Nat) (x : MbxSlot) : (s.setSlot n x).mem = s.mem := rfl
@[simp] theorem State.setSlot_arb (n : Nat) (x : MbxSlot) : (s.setSlot n x).arb = s.arb := rfl
@[simp] theorem State.setSlot_flt (n : Nat) (x : MbxSlot) : (s.setSlot n x).flt = s.flt := rfl
@[simp] theorem State.setSlot_dict (n : Nat) (x : MbxSlot) : (s.setSlot n x).dict = s.dict := rfl
@[simp] theorem State.setSlot_links (n : Nat) (x : MbxSlot) : (s.setSlot n x).links = s.links := rfl
@[simp] theorem State.setSlot_crust (n : Nat) (x : MbxSlot) : (s.setSlot n x).crust = s.crust := rfl
@[simp] theorem State.setSlot_stock (n : Nat) (x : MbxSlot) : (s.setSlot n x).stock = s.stock := rfl
@[simp] theorem State.setSlot_nv (n : Nat) (x : MbxSlot) : (s.setSlot n x).nv = s.nv := rfl
@[simp] theorem State.setSlot_sec (n : Nat) (x : MbxSlot) : (s.setSlot n x).sec = s.sec := rfl

@[simp] theorem State.takeSeq_pending : (s.takeSeq).pending = s.pending := rfl
@[simp] theorem State.takeSeq_clk : (s.takeSeq).clk = s.clk := rfl
@[simp] theorem State.takeSeq_pwr : (s.takeSeq).pwr = s.pwr := rfl
@[simp] theorem State.takeSeq_cores : (s.takeSeq).cores = s.cores := rfl
@[simp] theorem State.takeSeq_clusters : (s.takeSeq).clusters = s.clusters := rfl
@[simp] theorem State.takeSeq_rep : (s.takeSeq).rep = s.rep := rfl
@[simp] theorem State.takeSeq_scale : (s.takeSeq).scale = s.scale := rfl
@[simp] theorem State.takeSeq_rake : (s.takeSeq).rake = s.rake := rfl
@[simp] theorem State.takeSeq_prog : (s.takeSeq).prog = s.prog := rfl
@[simp] theorem State.takeSeq_train : (s.takeSeq).train = s.train := rfl
@[simp] theorem State.takeSeq_mem : (s.takeSeq).mem = s.mem := rfl
@[simp] theorem State.takeSeq_arb : (s.takeSeq).arb = s.arb := rfl
@[simp] theorem State.takeSeq_dict : (s.takeSeq).dict = s.dict := rfl
@[simp] theorem State.takeSeq_comm : (s.takeSeq).comm = s.comm := rfl
@[simp] theorem State.takeSeq_links : (s.takeSeq).links = s.links := rfl
@[simp] theorem State.takeSeq_crust : (s.takeSeq).crust = s.crust := rfl
@[simp] theorem State.takeSeq_stock : (s.takeSeq).stock = s.stock := rfl
@[simp] theorem State.takeSeq_sec : (s.takeSeq).sec = s.sec := rfl

@[simp] theorem State.setSource_pending (c : Nat) (l : Level) (u src : Nat) (ts : List Nat) : (s.setSource c l u src ts).pending = s.pending := rfl
@[simp] theorem State.setSource_clk (c : Nat) (l : Level) (u src : Nat) (ts : List Nat) : (s.setSource c l u src ts).clk = s.clk := rfl
@[simp] theorem State.setSource_pwr (c : Nat) (l : Level) (u src : Nat) (ts : List Nat) : (s.setSource c l u src ts).pwr = s.pwr := rfl
@[simp] theorem State.setSource_cores (c : Nat) (l : Level) (u src : Nat) (ts : List Nat) : (s.setSource c l u src ts).cores = s.cores := rfl
@[simp] theorem State.setSource_clusters (c : Nat) (l : Level) (u src : Nat) (ts : List Nat) : (s.setSource c l u src ts).clusters = s.clusters := rfl
@[simp] theorem State.setSource_rep (c : Nat) (l : Level) (u src : Nat) (ts : List Nat) : (s.setSource c l u src ts).rep = s.rep := rfl
@[simp] theorem State.setSource_scale (c : Nat) (l : Level) (u src : Nat) (ts : List Nat) : (s.setSource c l u src ts).scale = s.scale := rfl
@[simp] theorem State.setSource_rake (c : Nat) (l : Level) (u src : Nat) (ts : List Nat) : (s.setSource c l u src ts).rake = s.rake := rfl
@[simp] theorem State.setSource_prog (c : Nat) (l : Level) (u src : Nat) (ts : List Nat) : (s.setSource c l u src ts).prog = s.prog := rfl
@[simp] theorem State.setSource_train (c : Nat) (l : Level) (u src : Nat) (ts : List Nat) : (s.setSource c l u src ts).train = s.train := rfl
@[simp] theorem State.setSource_mem (c : Nat) (l : Level) (u src : Nat) (ts : List Nat) : (s.setSource c l u src ts).mem = s.mem := rfl
@[simp] theorem State.setSource_arb (c : Nat) (l : Level) (u src : Nat) (ts : List Nat) : (s.setSource c l u src ts).arb = s.arb := rfl
@[simp] theorem State.setSource_dict (c : Nat) (l : Level) (u src : Nat) (ts : List Nat) : (s.setSource c l u src ts).dict = s.dict := rfl
@[simp] theorem State.setSource_comm (c : Nat) (l : Level) (u src : Nat) (ts : List Nat) : (s.setSource c l u src ts).comm = s.comm := rfl
@[simp] theorem State.setSource_links (c : Nat) (l : Level) (u src : Nat) (ts : List Nat) : (s.setSource c l u src ts).links = s.links := rfl
@[simp] theorem State.setSource_crust (c : Nat) (l : Level) (u src : Nat) (ts : List Nat) : (s.setSource c l u src ts).crust = s.crust := rfl
@[simp] theorem State.setSource_stock (c : Nat) (l : Level) (u src : Nat) (ts : List Nat) : (s.setSource c l u src ts).stock = s.stock := rfl
@[simp] theorem State.setSource_nv (c : Nat) (l : Level) (u src : Nat) (ts : List Nat) : (s.setSource c l u src ts).nv = s.nv := rfl
@[simp] theorem State.setSource_sec (c : Nat) (l : Level) (u src : Nat) (ts : List Nat) : (s.setSource c l u src ts).sec = s.sec := rfl

@[simp] theorem State.setCluster_pending (k : Nat) (x : ClusterSt) : (s.setCluster k x).pending = s.pending := rfl
@[simp] theorem State.setCluster_clk (k : Nat) (x : ClusterSt) : (s.setCluster k x).clk = s.clk := rfl
@[simp] theorem State.setCluster_pwr (k : Nat) (x : ClusterSt) : (s.setCluster k x).pwr = s.pwr := rfl
@[simp] theorem State.setCluster_cores (k : Nat) (x : ClusterSt) : (s.setCluster k x).cores = s.cores := rfl
@[simp] theorem State.setCluster_rep (k : Nat) (x : ClusterSt) : (s.setCluster k x).rep = s.rep := rfl
@[simp] theorem State.setCluster_scale (k : Nat) (x : ClusterSt) : (s.setCluster k x).scale = s.scale := rfl
@[simp] theorem State.setCluster_rake (k : Nat) (x : ClusterSt) : (s.setCluster k x).rake = s.rake := rfl
@[simp] theorem State.setCluster_prog (k : Nat) (x : ClusterSt) : (s.setCluster k x).prog = s.prog := rfl
@[simp] theorem State.setCluster_train (k : Nat) (x : ClusterSt) : (s.setCluster k x).train = s.train := rfl
@[simp] theorem State.setCluster_mem (k : Nat) (x : ClusterSt) : (s.setCluster k x).mem = s.mem := rfl
@[simp] theorem State.setCluster_arb (k : Nat) (x : ClusterSt) : (s.setCluster k x).arb = s.arb := rfl
@[simp] theorem State.setCluster_flt (k : Nat) (x : ClusterSt) : (s.setCluster k x).flt = s.flt := rfl
@[simp] theorem State.setCluster_dict (k : Nat) (x : ClusterSt) : (s.setCluster k x).dict = s.dict := rfl
@[simp] theorem State.setCluster_comm (k : Nat) (x : ClusterSt) : (s.setCluster k x).comm = s.comm := rfl
@[simp] theorem State.setCluster_links (k : Nat) (x : ClusterSt) : (s.setCluster k x).links = s.links := rfl
@[simp] theorem State.setCluster_crust (k : Nat) (x : ClusterSt) : (s.setCluster k x).crust = s.crust := rfl
@[simp] theorem State.setCluster_stock (k : Nat) (x : ClusterSt) : (s.setCluster k x).stock = s.stock := rfl
@[simp] theorem State.setCluster_nv (k : Nat) (x : ClusterSt) : (s.setCluster k x).nv = s.nv := rfl
@[simp] theorem State.setCluster_sec (k : Nat) (x : ClusterSt) : (s.setCluster k x).sec = s.sec := rfl

@[simp] theorem State.setQueueAt_pending (k : Nat) (x : QueueSt) : (s.setQueueAt k x).pending = s.pending := rfl
@[simp] theorem State.setQueueAt_pwr (k : Nat) (x : QueueSt) : (s.setQueueAt k x).pwr = s.pwr := rfl
@[simp] theorem State.setQueueAt_cores (k : Nat) (x : QueueSt) : (s.setQueueAt k x).cores = s.cores := rfl
@[simp] theorem State.setQueueAt_clusters (k : Nat) (x : QueueSt) : (s.setQueueAt k x).clusters = s.clusters := rfl
@[simp] theorem State.setQueueAt_rep (k : Nat) (x : QueueSt) : (s.setQueueAt k x).rep = s.rep := rfl
@[simp] theorem State.setQueueAt_scale (k : Nat) (x : QueueSt) : (s.setQueueAt k x).scale = s.scale := rfl
@[simp] theorem State.setQueueAt_rake (k : Nat) (x : QueueSt) : (s.setQueueAt k x).rake = s.rake := rfl
@[simp] theorem State.setQueueAt_prog (k : Nat) (x : QueueSt) : (s.setQueueAt k x).prog = s.prog := rfl
@[simp] theorem State.setQueueAt_train (k : Nat) (x : QueueSt) : (s.setQueueAt k x).train = s.train := rfl
@[simp] theorem State.setQueueAt_mem (k : Nat) (x : QueueSt) : (s.setQueueAt k x).mem = s.mem := rfl
@[simp] theorem State.setQueueAt_arb (k : Nat) (x : QueueSt) : (s.setQueueAt k x).arb = s.arb := rfl
@[simp] theorem State.setQueueAt_flt (k : Nat) (x : QueueSt) : (s.setQueueAt k x).flt = s.flt := rfl
@[simp] theorem State.setQueueAt_dict (k : Nat) (x : QueueSt) : (s.setQueueAt k x).dict = s.dict := rfl
@[simp] theorem State.setQueueAt_comm (k : Nat) (x : QueueSt) : (s.setQueueAt k x).comm = s.comm := rfl
@[simp] theorem State.setQueueAt_links (k : Nat) (x : QueueSt) : (s.setQueueAt k x).links = s.links := rfl
@[simp] theorem State.setQueueAt_crust (k : Nat) (x : QueueSt) : (s.setQueueAt k x).crust = s.crust := rfl
@[simp] theorem State.setQueueAt_stock (k : Nat) (x : QueueSt) : (s.setQueueAt k x).stock = s.stock := rfl
@[simp] theorem State.setQueueAt_nv (k : Nat) (x : QueueSt) : (s.setQueueAt k x).nv = s.nv := rfl
@[simp] theorem State.setQueueAt_sec (k : Nat) (x : QueueSt) : (s.setQueueAt k x).sec = s.sec := rfl

@[simp] theorem State.setArbCnt_pending (level inst rank : Nat) (x : ArbCnt) : (s.setArbCnt level inst rank x).pending = s.pending := rfl
@[simp] theorem State.setArbCnt_clk (level inst rank : Nat) (x : ArbCnt) : (s.setArbCnt level inst rank x).clk = s.clk := rfl
@[simp] theorem State.setArbCnt_pwr (level inst rank : Nat) (x : ArbCnt) : (s.setArbCnt level inst rank x).pwr = s.pwr := rfl
@[simp] theorem State.setArbCnt_cores (level inst rank : Nat) (x : ArbCnt) : (s.setArbCnt level inst rank x).cores = s.cores := rfl
@[simp] theorem State.setArbCnt_clusters (level inst rank : Nat) (x : ArbCnt) : (s.setArbCnt level inst rank x).clusters = s.clusters := rfl
@[simp] theorem State.setArbCnt_rep (level inst rank : Nat) (x : ArbCnt) : (s.setArbCnt level inst rank x).rep = s.rep := rfl
@[simp] theorem State.setArbCnt_scale (level inst rank : Nat) (x : ArbCnt) : (s.setArbCnt level inst rank x).scale = s.scale := rfl
@[simp] theorem State.setArbCnt_rake (level inst rank : Nat) (x : ArbCnt) : (s.setArbCnt level inst rank x).rake = s.rake := rfl
@[simp] theorem State.setArbCnt_prog (level inst rank : Nat) (x : ArbCnt) : (s.setArbCnt level inst rank x).prog = s.prog := rfl
@[simp] theorem State.setArbCnt_train (level inst rank : Nat) (x : ArbCnt) : (s.setArbCnt level inst rank x).train = s.train := rfl
@[simp] theorem State.setArbCnt_mem (level inst rank : Nat) (x : ArbCnt) : (s.setArbCnt level inst rank x).mem = s.mem := rfl
@[simp] theorem State.setArbCnt_flt (level inst rank : Nat) (x : ArbCnt) : (s.setArbCnt level inst rank x).flt = s.flt := rfl
@[simp] theorem State.setArbCnt_dict (level inst rank : Nat) (x : ArbCnt) : (s.setArbCnt level inst rank x).dict = s.dict := rfl
@[simp] theorem State.setArbCnt_comm (level inst rank : Nat) (x : ArbCnt) : (s.setArbCnt level inst rank x).comm = s.comm := rfl
@[simp] theorem State.setArbCnt_links (level inst rank : Nat) (x : ArbCnt) : (s.setArbCnt level inst rank x).links = s.links := rfl
@[simp] theorem State.setArbCnt_crust (level inst rank : Nat) (x : ArbCnt) : (s.setArbCnt level inst rank x).crust = s.crust := rfl
@[simp] theorem State.setArbCnt_stock (level inst rank : Nat) (x : ArbCnt) : (s.setArbCnt level inst rank x).stock = s.stock := rfl
@[simp] theorem State.setArbCnt_nv (level inst rank : Nat) (x : ArbCnt) : (s.setArbCnt level inst rank x).nv = s.nv := rfl
@[simp] theorem State.setArbCnt_sec (level inst rank : Nat) (x : ArbCnt) : (s.setArbCnt level inst rank x).sec = s.sec := rfl

@[simp] theorem State.setArbCycle_pending (level inst : Nat) (x : ArbCycle) : (s.setArbCycle level inst x).pending = s.pending := rfl
@[simp] theorem State.setArbCycle_clk (level inst : Nat) (x : ArbCycle) : (s.setArbCycle level inst x).clk = s.clk := rfl
@[simp] theorem State.setArbCycle_pwr (level inst : Nat) (x : ArbCycle) : (s.setArbCycle level inst x).pwr = s.pwr := rfl
@[simp] theorem State.setArbCycle_cores (level inst : Nat) (x : ArbCycle) : (s.setArbCycle level inst x).cores = s.cores := rfl
@[simp] theorem State.setArbCycle_clusters (level inst : Nat) (x : ArbCycle) : (s.setArbCycle level inst x).clusters = s.clusters := rfl
@[simp] theorem State.setArbCycle_rep (level inst : Nat) (x : ArbCycle) : (s.setArbCycle level inst x).rep = s.rep := rfl
@[simp] theorem State.setArbCycle_scale (level inst : Nat) (x : ArbCycle) : (s.setArbCycle level inst x).scale = s.scale := rfl
@[simp] theorem State.setArbCycle_rake (level inst : Nat) (x : ArbCycle) : (s.setArbCycle level inst x).rake = s.rake := rfl
@[simp] theorem State.setArbCycle_prog (level inst : Nat) (x : ArbCycle) : (s.setArbCycle level inst x).prog = s.prog := rfl
@[simp] theorem State.setArbCycle_train (level inst : Nat) (x : ArbCycle) : (s.setArbCycle level inst x).train = s.train := rfl
@[simp] theorem State.setArbCycle_mem (level inst : Nat) (x : ArbCycle) : (s.setArbCycle level inst x).mem = s.mem := rfl
@[simp] theorem State.setArbCycle_flt (level inst : Nat) (x : ArbCycle) : (s.setArbCycle level inst x).flt = s.flt := rfl
@[simp] theorem State.setArbCycle_dict (level inst : Nat) (x : ArbCycle) : (s.setArbCycle level inst x).dict = s.dict := rfl
@[simp] theorem State.setArbCycle_comm (level inst : Nat) (x : ArbCycle) : (s.setArbCycle level inst x).comm = s.comm := rfl
@[simp] theorem State.setArbCycle_links (level inst : Nat) (x : ArbCycle) : (s.setArbCycle level inst x).links = s.links := rfl
@[simp] theorem State.setArbCycle_crust (level inst : Nat) (x : ArbCycle) : (s.setArbCycle level inst x).crust = s.crust := rfl
@[simp] theorem State.setArbCycle_stock (level inst : Nat) (x : ArbCycle) : (s.setArbCycle level inst x).stock = s.stock := rfl
@[simp] theorem State.setArbCycle_nv (level inst : Nat) (x : ArbCycle) : (s.setArbCycle level inst x).nv = s.nv := rfl
@[simp] theorem State.setArbCycle_sec (level inst : Nat) (x : ArbCycle) : (s.setArbCycle level inst x).sec = s.sec := rfl

@[simp] theorem State.setRake_pending (l : Nat) (r : RakeSt) : (s.setRake l r).pending = s.pending := rfl
@[simp] theorem State.setRake_clk (l : Nat) (r : RakeSt) : (s.setRake l r).clk = s.clk := rfl
@[simp] theorem State.setRake_pwr (l : Nat) (r : RakeSt) : (s.setRake l r).pwr = s.pwr := rfl
@[simp] theorem State.setRake_cores (l : Nat) (r : RakeSt) : (s.setRake l r).cores = s.cores := rfl
@[simp] theorem State.setRake_clusters (l : Nat) (r : RakeSt) : (s.setRake l r).clusters = s.clusters := rfl
@[simp] theorem State.setRake_rep (l : Nat) (r : RakeSt) : (s.setRake l r).rep = s.rep := rfl
@[simp] theorem State.setRake_scale (l : Nat) (r : RakeSt) : (s.setRake l r).scale = s.scale := rfl
@[simp] theorem State.setRake_prog (l : Nat) (r : RakeSt) : (s.setRake l r).prog = s.prog := rfl
@[simp] theorem State.setRake_train (l : Nat) (r : RakeSt) : (s.setRake l r).train = s.train := rfl
@[simp] theorem State.setRake_mem (l : Nat) (r : RakeSt) : (s.setRake l r).mem = s.mem := rfl
@[simp] theorem State.setRake_arb (l : Nat) (r : RakeSt) : (s.setRake l r).arb = s.arb := rfl
@[simp] theorem State.setRake_flt (l : Nat) (r : RakeSt) : (s.setRake l r).flt = s.flt := rfl
@[simp] theorem State.setRake_dict (l : Nat) (r : RakeSt) : (s.setRake l r).dict = s.dict := rfl
@[simp] theorem State.setRake_comm (l : Nat) (r : RakeSt) : (s.setRake l r).comm = s.comm := rfl
@[simp] theorem State.setRake_links (l : Nat) (r : RakeSt) : (s.setRake l r).links = s.links := rfl
@[simp] theorem State.setRake_crust (l : Nat) (r : RakeSt) : (s.setRake l r).crust = s.crust := rfl
@[simp] theorem State.setRake_stock (l : Nat) (r : RakeSt) : (s.setRake l r).stock = s.stock := rfl
@[simp] theorem State.setRake_nv (l : Nat) (r : RakeSt) : (s.setRake l r).nv = s.nv := rfl
@[simp] theorem State.setRake_sec (l : Nat) (r : RakeSt) : (s.setRake l r).sec = s.sec := rfl

/-! ## Reads after writes -/

@[simp] theorem State.ent_setEnt (k v : Nat) : (s.setEnt k v).ent k = v := by simp [State.ent, State.setEnt]

theorem State.ent_setEnt_ne {j k : Nat} (v : Nat) (h : j ≠ k) : (s.setEnt k v).ent j = s.ent j := by
  simp only [State.ent, State.setEnt]
  exact Kv.getD_setD_ne_of_ne s.dict.vals _ _ v h

@[simp] theorem State.ent_bump (w k n : Nat) : (s.bump w k n).ent k = satAdd w (s.ent k) n := by simp [State.bump]

theorem State.ent_bump_ne {j k : Nat} (w n : Nat) (h : j ≠ k) : (s.bump w k n).ent j = s.ent j := by
  simp [State.bump, State.ent_setEnt_ne s _ h]

@[simp] theorem State.core_setCore (c : Nat) (x : CoreSt) : (s.setCore c x).core c = x := by simp [State.core, State.setCore]

theorem State.core_setCore_ne {c d : Nat} (x : CoreSt) (h : d ≠ c) : (s.setCore c x).core d = s.core d := by
  simp [State.core, State.setCore, Kv.getD_setD_ne _ _ _ h]

@[simp] theorem State.pan_setPan (c p : Nat) (x : PanSt) : (s.setPan c p x).pan c p = x := by simp [State.pan, State.setPan]

@[simp] theorem State.lane_setLane (i : Nat) (l : LaneSt) : (s.setLane i l).lane i = l := by simp [State.lane, State.setLane]

theorem State.lane_setLane_ne {i j : Nat} (l : LaneSt) (h : j ≠ i) : (s.setLane i l).lane j = s.lane j := by
  simp [State.lane, State.setLane, Kv.getD_setD_ne _ _ _ h]

@[simp] theorem State.stack_setStack (i : Nat) (x : StackSt) : (s.setStack i x).stack i = x := by simp [State.stack, State.setStack]

@[simp] theorem State.dev_setDev (i : Nat) (x : CxlSt) : (s.setDev i x).dev i = x := by simp [State.dev, State.setDev]

@[simp] theorem State.collector_setCollector (k : Nat) (x : Collector) : (s.setCollector k x).collector k = x := by
  simp [State.collector, State.setCollector]

@[simp] theorem State.queue_setQueue (q : QueueId) (x : QueueSt) : (s.setQueue q x).queue q = x := by simp [State.queue, State.setQueue, State.queueAt, State.setQueueAt]

@[simp] theorem State.cluster_setCluster (k : Nat) (x : ClusterSt) : (s.setCluster k x).cluster k = x := by simp [State.cluster, State.setCluster]

@[simp] theorem State.queueAt_setQueueAt (k : Nat) (x : QueueSt) : (s.setQueueAt k x).queueAt k = x := by simp [State.queueAt, State.setQueueAt]

@[simp] theorem State.slot_setSlot (n : Nat) (x : MbxSlot) : (s.setSlot n x).slot n = x := by simp [State.slot, State.setSlot]

/-- A page's entry after a write to it; the reserved pages' entries are the module's own. -/
theorem State.mapEntry_setMapEntry {p : Nat} (e : MapEntry) (h : p < firstReserved) : (s.setMapEntry p e).mapEntry p = e := by
  simp [State.mapEntry, State.setMapEntry, Nat.not_le.2 h]

/-- A byte after writes that do not reach it. -/
theorem ramPut_getD : ∀ (l : List Byte) (m : List Host.Cell) (a b : Nat), b < a ∨ a + l.length ≤ b →
    Kv.getD (ramPut m a l) b 0 = Kv.getD m b 0
  | [], _, _, _, _ => rfl
  | x :: l, m, a, b, h => by
    simp only [List.length_cons] at h
    rw [ramPut, ramPut_getD l _ (a + 1) b (by omega), Kv.getD_setD_ne m 0 x (by omega)]

/-- The byte that a write puts at a place of its range. -/
theorem ramPut_getD_mem : ∀ (l : List Byte) (m : List Host.Cell) (a i : Nat), i < l.length →
    Kv.getD (ramPut m a l) (a + i) 0 = l.getD i 0
  | [], _, _, _, h => absurd h (Nat.not_lt_zero _)
  | x :: l, m, a, 0, _ => by
    rw [ramPut, ramPut_getD l _ (a + 1) (a + 0) (by omega)]
    simp
  | x :: l, m, a, i + 1, h => by
    have e : a + (i + 1) = a + 1 + i := by omega
    rw [ramPut, e, ramPut_getD_mem l _ (a + 1) i (by simpa using h)]
    simp

theorem State.ramByte_ramWrite_ne {a b : Nat} {l : List Byte} (h : b < a ∨ a + l.length ≤ b) : (s.ramWrite a l).ramByte b = s.ramByte b :=
  ramPut_getD l _ a b h

theorem State.ramByte_ramWrite {a i : Nat} {l : List Byte} (h : i < l.length) : (s.ramWrite a l).ramByte (a + i) = l.getD i 0 :=
  ramPut_getD_mem l _ a i h

/-! ## Latching with nothing asserted -/

/-- With no line asserted, latching changes nothing. -/
theorem State.latchAll_of_lines {s : State} (h : s.flt.lines = []) : s.latchAll = s := by
  have e : ({ s with flt.lines := [] } : State) = s := by rw [← h]
  simp only [State.latchAll, State.settle, h, List.foldl_nil]
  exact e

end Sys2Proof.Machine
end

