-- ==== Sys2Proof/WellFormed.lean ====
section
/-! DEFINITION. Which commands are well formed: the ranges that the spec gives their operands, where the operand's type does not
already say them. A meaning is total on ill-formed commands too. -/

namespace Sys2Proof

/-- A frame header's fields fit their places in the header (R385). -/
def BrineHdr.wf (h : BrineHdr) : Bool :=
  decide (h.src < 65536) && decide (h.psn < 2 ^ 24) && decide (h.ack < 2 ^ 24) && decide (h.epoch < 2 ^ 32) && decide (h.step < 65536)
    && decide (h.sequence < 65536) && decide (h.segment < 2 ^ 32) && decide (h.payload.length ≤ 4096)

/-- A transaction has a size of 64, 128 or 256 bytes and an address of 64 bits aligned to it, and a write carries as many bytes as it says
(R244, R263); an address beyond the map is an error response, and no ill-formed command (R266). -/
def MemReq.wf (r : MemReq) : Bool :=
  decide (64 ≤ r.len) && decide (r.len ≤ 256) && decide (r.addr % r.len = 0) && decide (r.addr % 524288 + r.len ≤ 524288)
    && decide (r.addr < 2 ^ 64) &&
    match r.data with
    | some d => decide (d.length = r.len)
    | none => true

/-- An error line names an instance of its level and a class of the table (R319, R320). -/
def FaultReport.wf (r : FaultReport) : Bool :=
  decide (1 ≤ r.cls) && decide (r.cls ≤ 0x1A) && decide (r.cls ≠ 0x11) && decide (r.atLeast ≤ 3) &&
    match r.level with
    | .pan => decide (r.unit < 512)
    | .core => decide (r.unit < 128)
    | .cluster => decide (r.unit < 16)
    | .die => decide (r.unit < 2)
    | .module => decide (r.unit = 0)

/-- The fields of a packet's headers fit their places (R362, R363). -/
def FieldAddr.wf (a : FieldAddr) : Bool := decide (a.mac < 2 ^ 48) && decide (a.ip < 2 ^ 128)
def FieldPacket.wf (p : FieldPacket) : Bool := p.src.wf && p.dst.wf && decide (p.hopLimit < 256)
def IxSource.wf : IxSource → Bool
  | .mailbox => true
  | .field p => p.wf

/-- Ranges of one member's part of a finite check: the CRC and the step amax patterns (R222). -/
def FcContribution.wf (c : FcContribution) : Bool := decide (c.frozenCrc < 2 ^ 32) && c.groupAmax.all fun g => decide (g.1 < 65536)

/-- Well-formed commands. -/
def Instr.wf : Instr → Bool
  | .finiteCheckResult others => others.all FcContribution.wf && decide (others.length < 256)
  | .rakeReductionDone others _ => others.all (fun o => decide (o.rank < 256) && decide (o.stateCrc < 2 ^ 32)) && decide (others.length < 256)
  | .memTransaction r => r.wf
  | .mapReqMap => true
  | .migrationDone p => decide (p < 2 ^ 24)
  | .pageRebuildDone p => decide (p < 2 ^ 24)
  | .hbmUncorrectableError _ _ a _ => decide (a < 2 ^ 43)
  | .arbGrant _ r present _ => decide (r < 256) && present.all (fun k => decide (k < 32))
  | .holdCutoff _ r => decide (r < 256)
  | .faultLatch r => r.wf
  | .faultHandlingDone .pan u => decide (u < 512)
  | .faultHandlingDone .core u => decide (u < 128)
  | .faultHandlingDone .cluster u => decide (u < 16)
  | .faultHandlingDone .die u => decide (u < 2)
  | .faultHandlingDone .module u => decide (u = 0)
  | .chain _ a => a.wf
  | .hostBar4Read off len => decide (0 < len) && decide (off + len ≤ 2 ^ 43)
  | .hostBar4Write off d => decide (0 < d.length) && decide (off + d.length ≤ 2 ^ 43)
  | .brineRetxTimeout _ _ dst => decide (dst < 65536)
  | .brineAckTimer _ _ dst => decide (dst < 65536)
  | .collectiveDataRx h => h.wf
  | .brineAckRx h => h.wf
  | .brineNackRx h => h.wf
  | .heartbeatRx h => h.wf
  | .withdrawalRx h => h.wf
  | .abandonNoticeRx h => h.wf
  | .epochChangeRx h => h.wf
  | .epochAckRx h => h.wf
  | .crustDeltaRx h => h.wf
  | .crustSealAckRx h => h.wf
  | .crustSealRx h => h.wf
  | .mirrorRx h => h.wf
  | .reducedStreamRx h => h.wf
  | .laneStateRx h => h.wf
  | .nvpSelftestDone failures first => decide (failures < 2 ^ 32) && decide (first < 2 ^ 32)
  | .inputApplied => true
  | .prechargeDone => true
  | .pwrOkRise => true
  | .powerGood => true
  | .firmwareStart => true
  | .recorderReloadDone => true
  | .functionReady _ => true
  | .readinessDeadline _ => true
  | .pwrOkFall => true
  | .inputUndervoltage _ => true
  | .inputOvervoltage => true
  | .hardwareOvervoltageRemoval => true
  | .evtTick => true
  | .evtTickLost => true
  | .powerControlTick _ => true
  | .clockStopRequest _ => true
  | .clockStopRelease _ => true
  | .peakStepdown => true
  | .transientSample _ => true
  | .thermalSample _ _ => true
  | .thermalTrip _ => true
  | .energyBook _ => true
  | .springDeferredApply => true
  | .queueEntryArrive q payload _ => decide (payload < 2 ^ q.width)
  | .queueSlotRelease _ => true
  | .syncLevelChange _ _ => true
  | .tideRampStart _ => true
  | .stationaryLoadAdmit _ _ => true
  | .passStart _ _ _ => true
  | .tileComplete _ _ => true
  | .writebackDrain _ _ _ => true
  | .tideRampStop _ => true
  | .polwinIdleStop _ => true
  | .segmentTestDone _ _ _ => true
  | .sluicePassComplete _ => true
  | .vectorChunkComplete _ _ => true
  | .forwardAttemptDone _ => true
  | .amaxPassDone _ _ => true
  | .progLoadCheckDone => true
  | .descAdmit _ => true
  | .descReady _ => true
  | .unitSchedule _ => true
  | .mcastDelivery _ _ => true
  | .finiteCheck => true
  | .finiteCheckTimeout => true
  | .updateGatherDone _ => true
  | .applyChunkComplete _ => true
  | .updateComplete => true
  | .stepBoundary _ => true
  | .mapReqUnmap => true
  | .mapReqMigrate => true
  | .mapReqSetRo => true
  | .mapReqClearRo => true
  | .mapReqSetCc => true
  | .mapReqClearCc => true
  | .mapRunComplete => true
  | .hbmCorrectableError _ _ => true
  | .hbmScrubPass _ => true
  | .pcSpareCopyDone _ => true
  | .cxlEventRecord _ _ => true
  | .cxlReplaceCopyDone _ => true
  | .coreSwapDone _ _ => true
  | .clusterSwapDone _ _ => true
  | .crustResyncDone => true
  | .heartbeatTx => true
  | .memberLost _ _ _ _ => true
  | .rebuildComplete _ => true
  | .snapshotImageWritten => true
  | .snapshotComplete => true
  | .stockRestoreDone => true
  | .aliveToggle => true
  | .mgmtWatchdogExpiry => true
  | .dmpWatchdogExpiry _ => true
  | .cprocWatchdogExpiry _ => true
  | .mirrorFlush _ => true
  | .ixiqueRead x => x.wf
  | .ixiqueWrite x => x.wf
  | .ixiqueDescribe x => x.wf
  | .segmentRead x => x.wf
  | .segmentWrite x => x.wf
  | .segmentTransferTimeout => true
  | .chainReset => true
  | .notify => true
  | .mailboxDoorbell _ _ => true
  | .mailboxSlotFree _ _ => true
  | .perstAssert => true
  | .hotReset => true
  | .functionLevelReset => true
  | .powerStateChange _ => true
  | .pcieLinkError _ => true
  | .cxlLinkError _ _ => true
  | .brineLaneError _ _ _ => true
  | .attestReportDone => true
  | .stageDone => true
  | .perstDeassert => true
  | .plcaTransmitOpportunity => true
  | .hotSpareOfferRx _ => true
  | .linkRetrainDone _ _ _ => true
  | .dmpSwapDone _ => true

end Sys2Proof
end

