-- ==== Sys2Proof/Tests/Slice0.lean ====
section
/-! SUPPORT. Tests: ill-formed commands refused by each check, small runs whose expected results come from the spec, and for each
statement with hypotheses a state and operands that meet them, clause by clause. -/

namespace Sys2Proof.Tests

set_option Elab.async false

open Sys2Proof.Machine

/-! ## Well-formed commands -/

/-- A small well-formed frame header. -/
def hdr : BrineHdr :=
  { port := 0, lane := 0, src := 5, psn := 0, liveMask := 15, ack := 0, group := 0, epoch := 0, step := 0, sequence := 0, segment := 0,
    hollow := false, last := true, payload := [] }

/-- A small well-formed transaction. -/
def req : MemReq := { die := 0, who := .host, addr := 0, len := 64, data := some (List.replicate 64 7#8), completed := 0 }

/-- A small well-formed report: DESC of core 0. -/
def rep : FaultReport := fault 0x06 .core 0

/-- A member that agrees to commit. -/
def agrees : FcContribution := { nonFinite := false, fault := false, frozenCrc := 0, step := 0, groupAmax := [] }

/-- Another member's Rake contribution with nothing in it. -/
def rakeAgrees : RakeContribution := { rank := 1, step := 0, stateCrc := 0, vectors := [] }

/-- A packet from one address of the field network to the module's. -/
def pkt : FieldPacket := { src := ⟨1, 1⟩, dst := ⟨2, 2⟩, udp := true, hopLimit := 255, checksumOk := true, bytes := [] }

theorem test_wf_accepts :
    [Instr.brineAckRx hdr, .crustDeltaRx { hdr with segment := 2 ^ 32 - 1 }, .memTransaction req, .faultLatch rep, .finiteCheckResult [agrees], .rakeReductionDone [rakeAgrees] 0,
      .migrationDone (2 ^ 24 - 1), .pageRebuildDone (2 ^ 24 - 1), .hbmUncorrectableError 0 0 (2 ^ 43 - 1) .host, .arbGrant (.die 0) 255 [31] false,
      .holdCutoff (.die 0) 255, .faultHandlingDone .pan 511, .chain 0 ⟨2 ^ 48 - 1, 2 ^ 128 - 1⟩, .ixiqueRead (.field pkt), .hostBar4Read 0 (2 ^ 43), .hostBar4Write 0 [0#8],
      .brineRetxTimeout 0 0 65535, .brineAckTimer 0 0 65535, .nvpSelftestDone (2 ^ 32 - 1) (2 ^ 32 - 1)].all Instr.wf = true := by decide

theorem test_wf_refuses_headers :
    [{ hdr with src := 65536 }, { hdr with psn := 2 ^ 24 }, { hdr with ack := 2 ^ 24 }, { hdr with epoch := 2 ^ 32 }, { hdr with step := 65536 },
      { hdr with sequence := 65536 }, { hdr with segment := 2 ^ 32 }, { hdr with payload := List.replicate 4097 0#8 }].any
      (fun h => [Instr.collectiveDataRx h, .brineAckRx h, .brineNackRx h, .heartbeatRx h, .withdrawalRx h, .abandonNoticeRx h,
        .epochChangeRx h, .epochAckRx h, .crustDeltaRx h, .crustSealAckRx h, .crustSealRx h, .mirrorRx h, .reducedStreamRx h,
        .laneStateRx h].any Instr.wf) = false := by decide +kernel

theorem test_wf_refuses_transactions :
    [{ req with len := 0, data := none }, { req with addr := 2 ^ 64 }, { req with addr := 32 }, { req with len := 128 }, { req with len := 257, data := none },
      { req with addr := 524256, len := 96, data := none }].any (fun r => (Instr.memTransaction r).wf) = false := by
  decide

theorem test_wf_refuses_reports :
    [{ rep with cls := 0 }, { rep with cls := 0x1B }, { rep with cls := 0x11 }, { rep with atLeast := 4 }, { rep with level := .pan, unit := 512 },
      { rep with unit := 128 }, { rep with level := .cluster, unit := 16 }, { rep with level := .die, unit := 2 },
      { rep with level := .module, unit := 1 }].any (fun r => (Instr.faultLatch r).wf) = false := by decide

theorem test_wf_refuses_operands :
    [Instr.migrationDone (2 ^ 24), .pageRebuildDone (2 ^ 24), .hbmUncorrectableError 0 0 (2 ^ 43) .host, .arbGrant (.die 0) 256 [] false,
      .arbGrant (.die 0) 0 [32] false, .holdCutoff (.die 0) 256, .faultHandlingDone .pan 512, .faultHandlingDone .core 128,
      .faultHandlingDone .cluster 16, .faultHandlingDone .die 2, .faultHandlingDone .module 1, .chain 0 ⟨2 ^ 48, 0⟩, .chain 0 ⟨0, 2 ^ 128⟩, .segmentRead (.field { pkt with hopLimit := 256 }),
      .ixiqueWrite (.field { pkt with src := ⟨2 ^ 48, 0⟩ }), .ixiqueDescribe (.field { pkt with dst := ⟨0, 2 ^ 128⟩ }), .hostBar4Read 0 0,
      .hostBar4Read 1 (2 ^ 43), .hostBar4Write 0 [], .hostBar4Write (2 ^ 43) [0#8], .brineRetxTimeout 0 0 65536, .brineAckTimer 0 0 65536,
      .nvpSelftestDone (2 ^ 32) 0, .nvpSelftestDone 0 (2 ^ 32), .finiteCheckResult [{ agrees with frozenCrc := 2 ^ 32 }],
      .finiteCheckResult [{ agrees with groupAmax := [(65536, 0, 0)] }], .finiteCheckResult (List.replicate 256 agrees),
      .rakeReductionDone [{ rakeAgrees with rank := 256 }] 0, .rakeReductionDone [{ rakeAgrees with stateCrc := 2 ^ 32 }] 0,
      .rakeReductionDone (List.replicate 256 rakeAgrees) 0,
      .queueEntryArrive (.panShifts 0 0) (2 ^ QueueId.width (.panShifts 0 0)) true].any Instr.wf = false := by decide +kernel

/-! ## Results that the spec works out -/

/-- R27, R30: codes and values. -/
theorem test_decode_formats :
    decode .e4m3 0x7E = .fin false 14 5 ∧ decode .e4m3 0x7F = .nan ∧ decode .e5m2 0x7C = .inf false ∧ decode .flake4 0xF = .fin true 3 1 ∧
      decode .fp32 0x3F800000 = .fin false 0x800000 (-23) := by decide

/-- R36: halfway between two codes goes to the even one; R37: -520 saturates at -448; R40: a value that rounds to zero keeps its sign and
counts a flush. -/
theorem test_convert_ties_and_saturates :
    (convert .e4m3 (.fin false 17 0)).code = 0x58 ∧ (convert .e4m3 (.fin false 19 0)).code = 0x5A ∧
      convert .e4m3 (.fin true 65 3) = { code := 0xFE, finiteSat := true, saturated := true } ∧
      convert .e4m3 (.fin true 1 (-11)) = { code := 0x80, flushed := true } := by decide

/-- The check value that RFC 3720 gives CRC-32C: that of the digits 1 to 9 is E3069283. -/
theorem test_crc32c : crc32c [0x31#8, 0x32#8, 0x33#8, 0x34#8, 0x35#8, 0x36#8, 0x37#8, 0x38#8, 0x39#8] = 0xE3069283 := by decide +kernel

/-- The digits that a one-time signature signs, by RFC 8391: a digest of zeros has 64 digits 0 and the checksum 64 × 15 = 0x3C0. -/
theorem test_xmss_digits : wotsDigits (List.replicate 32 0#8) = List.replicate 64 0 ++ [3, 12, 0] := by decide

/-- No row of the table has bits. -/
theorem test_no_word_spells_a_command (n w : Nat) : decodeTableWord n w = none := rfl

/-- A module with power, nothing else. -/
def powered : State := { State.reset with pwr.on := true }

/-- R329: ALIVE inverts. -/
theorem test_alive_inverts : (match exec .aliveToggle powered with | .next t => t.flt.aliveLevel | _ => false) = true := rfl

/-- R23: a tick counts in every domain. -/
theorem test_tick_counts :
    (match exec .evtTick powered with | .next t => (t.clk.evtMgmt, t.clk.evtArith.getD 17 0) | _ => (0, 0)) = (1, 1) := rfl

/-- The queue is first in, first out. -/
theorem test_queue_order :
    (match step { powered with pending := [.evtTick, .aliveToggle] } with | .next t => (t.clk.evtMgmt, t.pending) | _ => (0, [])) =
      (1, [.aliveToggle]) := rfl

/-! ## Witnesses: the hypotheses of the statements can be met -/

/-- Memory holding bytes from an address on. -/
def cells (a : Nat) (l : List Byte) : List Host.Cell := ((l.zipIdx.map fun x => (a + x.2, x.1)).filter fun x => x.2 != 0#8)

/-- A state with power and values of entries. -/
def withEnts (l : List (Nat × Nat)) : State := { powered with dict.vals := l }

theorem witness_invariants :
    ∃ s t : State, Sound s ∧ step s = .next t ∧ t.pwr.inputOn = true :=
  ⟨{ State.reset with pending := [.inputApplied] }, _, ⟨rfl, Nat.le_refl _, rfl, rfl, rfl, rfl⟩, rfl, rfl⟩

theorem witness_commands :
    (∃ c t, suppliesPower c = false ∧ mayStore c = false ∧ exec c powered = .next t ∧ t.clk.evtMgmt = 1) ∧
      ∃ s : State, s.pending = [] := ⟨⟨.evtTick, _, rfl, rfl, rfl, rfl⟩, powered, rfl⟩

theorem witness_conversions : (∃ m : Nat, 0 < m) ∧ (∃ xs : List Val, Val.nan ∈ xs) := ⟨⟨1, by decide⟩, [.inf true, .nan], by decide⟩

theorem witness_power_up :
    (∃ s : State, s.pwr.inputOn = false) ∧ (∃ s : State, s.pwr.inputOn = true ∧ s.pwr.precharged = false) ∧
      (∃ s : State, s.pwr.pwrOk = false ∧ s.pwr.on = false) ∧ ∃ s : State, s.pwr.sequencing = true ∧ s.pwr.on = false :=
  ⟨⟨State.reset, rfl⟩, ⟨{ State.reset with pwr.inputOn := true }, rfl, rfl⟩, ⟨State.reset, rfl, rfl⟩,
    { State.reset with pwr.sequencing := true }, rfl, rfl⟩

theorem witness_supply : ∃ s : State, s.pwr.on = true ∧ s.pwr.pwrOk = true ∧ s.pwr.inputOn = true ∧ LinesLatched s :=
  ⟨{ powered with pwr.pwrOk := true, pwr.inputOn := true }, rfl, rfl, rfl, rfl⟩

theorem witness_fuses : ∃ s : State, s.nv.fuses.testBit 0 = true ∧ s.nv.otp.getD 63 0 ≠ 0 ∧ s.sec.otpWriting ≠ some 63 :=
  ⟨{ State.reset with nv.fuses := 1, nv.otp := List.replicate 64 1 }, by decide⟩

theorem witness_event_time :
    (∃ s : State, s.pwr.on = true ∧ s.clk.lost = false ∧ LinesLatched s) ∧ ∃ s : State, s.pwr.on = true ∧ s.clk.lost = true :=
  ⟨⟨powered, rfl, rfl, rfl⟩, { powered with clk.lost := true }, rfl, rfl⟩

theorem witness_readiness :
    (∃ s : State, ∃ b : Fin 60, s.pwr.on = true ∧ s.bitAllowed b.val = true) ∧
      (∃ s : State, ∃ c : CoreId, s.pwr.on = true ∧ s.sec.bootState ≠ 3 ∧ s.rep.coreSwap.contains c.val = false) ∧
      (∃ s : State, ∃ b : Fin 60, s.pwr.on = true ∧ s.isReady b.val = false ∧ b.val ≠ 6 ∧ b.val ≠ 7) ∧
      ∃ s : State, ∃ c : CoreId, s.pwr.on = true ∧ s.coreReady c.val = false :=
  ⟨⟨{ powered with sec.bootState := 1, sec.attest := some {} }, 59, by decide +kernel⟩, ⟨powered, 127, by decide +kernel⟩,
    ⟨powered, 59, by decide +kernel⟩, powered, 127, by decide +kernel⟩

theorem witness_startup :
    (∃ s : State, s.pwr.on = true ∧ s.flt.alive ≠ .stopped) ∧ (∃ s : State, s.pwr.on = true ∧ s.flt.alive = .stopped) ∧
      (∃ s : State, s.flt.reloading = true ∧ s.flt.held = []) ∧
      (∃ s : State, s.pwr.on = true ∧ s.sec.fwStarted = false ∧ s.sec.bootState = 1 ∧
        componentsOk (if s.sec.bankBooted = 1 then s.nv.bankB else s.nv.bankA) (fun _ => true) = true) ∧
      (∃ s : State, s.pwr.on = true ∧ s.ent Ent.nvpState = 1 ∧ LinesLatched s ∧ s.dict.computeOnce = true ∧ s.flt.fatal = 0 ∧
        s.dict.computeBarred = false) :=
  ⟨⟨powered, by decide⟩, ⟨{ powered with flt.alive := .stopped }, rfl, rfl⟩, ⟨{ powered with flt.reloading := true }, rfl, rfl⟩,
    ⟨{ powered with sec.bootState := 1, nv.bankA := [] }, rfl, rfl, rfl, by decide +kernel⟩, { withEnts [(Ent.nvpState, 1)] with dict.computeOnce := true }, by decide +kernel⟩

/-- Readings of a quiet microsecond. -/
def quietMeas : PowerMeas := { avg10ms := 0, avg1s := 0, inputMv := 54000 }

theorem witness_power_control :
    (∃ s : State, s.pwr.on = true ∧ s.pwr.levels.length = 16 ∧ s.pwr.stopped.length = 16 ∧ LinesLatched s ∧
      (∀ e ∈ s.cores, e.2.faults = []) ∧ s.cores ≠ []) ∧ (∃ a b i : Nat, b + 1 < a ∧ i + 1 = 8) ∧
      (∃ (s : State) (mw : Nat), s.pwr.on = true ∧ mw = 1800001 ∧ (∀ k ∈ s.active, s.pwr.levels.getD k 15 = 0) ∧ s.active ≠ []) ∧
      (∃ s : State, s.pwr.on = true ∧ s.pwr.capHeld = false ∧ s.pwr.account = 0) ∧
      (∃ s : State, s.pwr.on = true ∧ s.pwr.capHeld = false ∧ 2000000 ≤ s.pwr.excursionUs) ∧
      ∃ (s : State) (mw : Nat), s.pwr.on = true ∧ 1700000 < mw ∧ s.pwr.guardHold = true :=
  ⟨⟨{ powered with cores := [(127, {})] }, by decide⟩, ⟨2, 0, 7, by decide⟩,
    ⟨{ withEnts [(Ent.readySummary, 2 ^ 55)] with pwr.levels := List.replicate 16 0 }, 1800001, by decide +kernel⟩,
    ⟨{ powered with pwr.account := 0 }, by decide⟩, ⟨{ powered with pwr.excursionUs := 2000000 }, by decide⟩,
    { powered with pwr.guardHold := true }, 1700001, by decide⟩

theorem witness_heat :
    (∃ (x : Sensor) (t : Int) (s : State), s.pwr.on = true ∧ (∀ v, (s.thresholds x).2.1 = some v → t < v) ∧
      (∀ v, (s.thresholds x).2.2 = some v → t < v) ∧ (s.thresholds x).1 = some t) ∧
      (∃ s : State, s.pwr.on = true ∧ LinesLatched s) ∧
      (∃ (x : Sensor) (t : Int) (s : State), s.pwr.on = true ∧ LinesLatched s ∧ (s.thresholds x).2.2 = some t ∧
        (s.sensor (sensorKey x)).severe = false ∧ (s.sensor (sensorKey x)).warning = false) ∧
      (∃ s : State, s.pwr.on = true ∧ s.phase = 0 ∧ s.pwr.springWaits = true ∧ 100 ≤ s.pwr.springCool ∧ s.inletMilliC ≤ 30000) ∧
      ∃ s : State, s.pwr.on = true ∧ s.pwr.springWaits = true ∧ 100 ≤ s.pwr.springCool ∧ s.phase ≠ 0 := by
  refine ⟨⟨.cluster 17, 95000, powered, rfl, ?_, ?_, rfl⟩, ⟨powered, rfl, rfl⟩, ⟨.cluster 17, 105000, powered, rfl, rfl, rfl, rfl, rfl⟩,
    ⟨{ powered with pwr.springWaits := true, pwr.springCool := 100 }, by decide +kernel⟩,
    { withEnts [(Ent.trainPhase, 1)] with pwr.springWaits := true, pwr.springCool := 100 }, by decide +kernel⟩
  · intro v h
    cases h
    decide
  · intro v h
    cases h
    decide

theorem witness_energy :
    (∃ (b : Booking) (s : State), s.pwr.on = true ∧ s.pwr.meterUs + 2 = 1000000 ∧ Kv.wf 0 s.pwr.layerUj = true ∧ 0 < b.inputUj) ∧
    (∃ (b : Booking) (s : State), s.pwr.on = true ∧ s.pwr.meterUs + 1 = 1000000 ∧ LinesLatched s ∧ s.pwr.meterBad = false ∧
      metersDiffer (s.pwr.meterInput + b.inputUj) (s.pwr.meterRails + bookedRails b) = true) ∧
    ∃ (b : Booking) (s : State), s.pwr.on = true ∧ s.pwr.meterUs + 1 = 1000000 ∧ LinesLatched s ∧
      metersDiffer (s.pwr.meterInput + b.inputUj) (s.pwr.meterRails + bookedRails b) = false :=
  ⟨⟨{ inputUj := 1400, rails := [(.management, 900), (.cluster 17, 500)], activity := [] },
      { powered with pwr.meterUs := 999998 }, by decide⟩,
    ⟨{ inputUj := 1000, rails := [(.flash, 899)], activity := [] }, { powered with pwr.meterUs := 999999 }, by decide⟩,
    { inputUj := 1000, rails := [(.flash, 900)], activity := [] }, { powered with pwr.meterUs := 999999 }, by decide⟩

theorem witness_clock_stop :
    (∃ (c : CoreId) (s : State), s.pwr.on = true ∧ (s.core c.val).frozen = false ∧ Kv.wf {} s.cores = true ∧ LinesLatched s ∧
      (s.core c.val).faults = []) ∧
    ∃ (c : CoreId) (s : State), s.pwr.on = true ∧ (s.core c.val).frozen = false ∧ Kv.wf {} s.cores = true ∧ LinesLatched s ∧
      (s.core c.val).faults ≠ [] :=
  ⟨⟨127, powered, rfl, rfl, rfl, rfl, rfl⟩, 0, { powered with cores := [(0, { faults := [fault 0x01 .pan 0] })] }, by decide +kernel⟩


/-- A queue of the module as given. -/
def queued (q : QueueId) (x : QueueSt) : State := { powered with clk.queues := [(queueKey q, x)] }

theorem witness_queues :
    (∃ (q : QueueId) (s : State), s.pwr.on = true ∧ fromOutside q = true ∧ (s.queue q).held + 1 = queueDepth q ∧ rowsAwaited s q = 0) ∧
    (∃ (q : QueueId) (s : State), s.pwr.on = true ∧ fromOutside q = true ∧ (s.queue q).held = 0 ∧ rowsAwaited s q = 1) ∧
    (∃ (q : QueueId) (s : State) (e : Nat) (l : List Nat), s.pwr.on = true ∧ moduleSends q = true ∧ (s.queue q).sending = e :: l) ∧
    (∃ (q : QueueId) (s : State), s.pwr.on = true ∧ moduleSends q = true ∧ (s.queue q).sending = []) ∧
    (∃ (q : QueueId) (s : State), s.pwr.on = true ∧ readsOnly q = true ∧ (s.queue q).visible ≠ [] ∧ LinesLatched s ∧
      (s.queue q).taken ≠ 0) ∧
    (∃ (q : QueueId) (s : State), s.pwr.on = true ∧ readsOnly q = true ∧ (s.queue q).visible ≠ [] ∧ LinesLatched s ∧
      (queueReader q).any s.coreStopped = false ∧ s.canRead q = true) ∧
    (∃ (q : QueueId) (s : State), s.pwr.on = true ∧ (s.queue q).visible = []) ∧
    (∃ (q : QueueId) (s : State), s.pwr.on = true ∧ moduleSends q = false ∧ queueDepth q = (s.queue q).held ∧
      queueRequester q = some (0, 511, 1)) ∧
    (∃ (q : QueueId) (s : State) (x : Txn), s.pwr.on = true ∧ moduleSends q = false ∧ queueDepth q = (s.queue q).held ∧
      queueRequester q = none ∧ s.heldBack q = some x) ∧
    (∃ (q : QueueId) (s : State), s.pwr.on = true ∧ moduleSends q = false ∧ queueDepth q = (s.queue q).held ∧
      queueRequester q = none ∧ s.heldBack q = none) ∧
    (∃ (q : QueueId) (s : State) (c : Nat), s.pwr.on = true ∧ (s.queue q).taken = 0 ∧ queueReader q = some c ∧ (s.core c).frozen = true ∧
      s.coreStopped c = true) ∧
    ∃ (q : QueueId) (s : State) (c : Nat), s.pwr.on = true ∧ (s.queue q).taken = 0 ∧ queueReader q = some c ∧ (s.core c).frozen = false ∧
      s.coreStopped c = true :=
  ⟨⟨.panRows 127 3, queued (.panRows 127 3) { visible := List.replicate (queueDepth (.panRows 127 3) - 1) 0 }, by decide +kernel⟩,
    ⟨.panRows 5 1, { powered with cores := [(5, { pans := [(1, { rowsDue := 1 })] })] }, by decide +kernel⟩,
    ⟨.coreSal 127, queued (.coreSal 127) { sending := [7, 8] }, 7, [8], by decide +kernel⟩, ⟨.sluice 0 true, powered, by decide +kernel⟩,
    ⟨.panRows 0 0, queued (.panRows 0 0) { visible := [1], taken := 1 }, by decide +kernel⟩,
    ⟨.vector 5 false, queued (.vector 5 false) { visible := [1] }, by decide +kernel⟩, ⟨.mirror, powered, by decide +kernel⟩,
    ⟨.panStationary 127 3, queued (.panStationary 127 3) { visible := List.replicate (queueDepth (.panStationary 127 3)) 0 },
      by decide +kernel⟩,
    ⟨.hbmReq 0 1, { queued (.hbmReq 0 1) { visible := List.replicate (queueDepth (.hbmReq 0 1)) 0 } with
        mem.outstanding := [{ req := { req with addr := 256 }, home := (0, 0, 0) }] }, { req := { req with addr := 256 }, home := (0, 0, 0) },
      by decide +kernel⟩,
    ⟨.mirror, queued .mirror { visible := List.replicate (queueDepth .mirror) 0 }, by decide +kernel⟩,
    ⟨.sluice 127 false, { powered with cores := [(127, { frozen := true })] }, 127, by decide +kernel⟩,
    .sluice 127 false, { powered with pwr.stopped := List.replicate 16 true }, 127, by decide +kernel⟩

theorem witness_synchronised_bits :
    (∃ (b : SyncBit) (s : State), s.pwr.on = true ∧ s.syncSends b (!(s.syncLevel b)) = true ∧ syncReports b = true) ∧
    (∃ (b : SyncBit) (s : State), s.pwr.on = true ∧ s.syncSends b (!(s.syncLevel b)) = true ∧ syncReports b = false) ∧
    (∃ (b : SyncBit) (s : State), s.pwr.on = true ∧ s.syncSends b (!(s.syncLevel b)) = false) ∧
    ∃ (b : SyncBit) (s : State), s.pwr.on = false ∧ b ≠ .addrIn :=
  ⟨⟨.tileDone 127 3, { powered with clk.syncs := [(syncKey (.tileDone 127 3), { pending := 15 })] }, by decide +kernel⟩,
    ⟨.addrIn, powered, by decide +kernel⟩, ⟨.tileDone 0 0, powered, by decide +kernel⟩, .perst, State.reset, by decide⟩

/-- Three tensors of 32 by 32 in E4M3, at addresses in page 0. -/
def smallProgram : Program :=
  { tensors := [0, 4096, 8192].map fun a => { address := a, rows := 32, cols := 32, rowStride := 32 } }

/-- A pan descriptor over them at Fine, all of it ready. -/
def panDesc : Desc := { kind := 0, rung := 1, mCap := 512, m := 32, n := 32, k := 32, a := 0, b := 1, c := 2 }
def panRun : DescRun := { d := panDesc, m := 32, n := 32, k := 32, ready := true, issued := [0] }

/-- Its one tile, with the pass still to come. -/
def smallTile : TileRun := { rows := 32, cols := 32, kt := 32, passes := 1 }

/-- A step in phase 1 with that descriptor in flight on a core whose first pan is as given, whose tile buffers hold the operands of its one
pass, and whose queues for that pan hold an entry each. -/
def running (c : CoreId) (x : PanSt) (r : DescRun) : State :=
  { withEnts [(Ent.trainPhase, 1), (Ent.panStartMode, 0)] with
    mem.map := [(0, { v := true })], prog.loaded := some smallProgram, prog.pool := [r],
    cores := [(c.val, { pans := [(0, x)], rowBuf := [{}], statBuf := [{}] })]
    clk.queues := (List.range 3).map fun i => (64 * c.val + i, { visible := [0] }) }

/-- The same in Polwin mode. -/
def polwin (c : CoreId) (x : PanSt) (r : DescRun) : State := { running c x r with dict.vals := [(Ent.trainPhase, 1), (Ent.panStartMode, 1)] }

/-- A pan whose next pass is loaded whole with its shifts, and one with nothing loaded. -/
def loadedPan : PanSt := { tile := some smallTile, bankB := some { pass := 0, admitted := 36 }, shiftEntries := shiftEntriesOf 1 0 }
def emptyPan : PanSt := { tile := some smallTile }

theorem witness_bad_parity :
    (∃ (q : QueueId) (s : State), s.pwr.on = true ∧ moduleSends q = true ∧ (s.queue q).sending ≠ []) ∧
    (∃ (q : QueueId) (s : State) (c : CoreId) (i : PanId) (tile : TileRun) (n : Nat), s.pwr.on = true ∧ (s.queue q).held < queueDepth q ∧
      q = .panShifts c i ∧ s.nextShifts c i = some (tile, .ok n)) ∧
    ∃ (q : QueueId) (s : State) (x : Txn), s.pwr.on = true ∧ fromOutside q = true ∧ (s.queue q).held < queueDepth q ∧
      s.mem.outstanding.find? (carries q) = some x :=
  ⟨⟨.panWriteback 0 3, queued (.panWriteback 0 3) { sending := [1] }, by decide +kernel⟩,
    ⟨.panShifts 127 0, running 127 { loadedPan with shiftEntries := 0 } panRun, 127, 0, smallTile, _, rfl, by decide +kernel, rfl, rfl⟩,
    .hbmReq 0 0, { powered with mem.outstanding := [{ req := { req with data := none }, home := (0, 0, 0) }] },
    { req := { req with data := none }, home := (0, 0, 0) }, by decide +kernel⟩

theorem witness_ramps :
    (∃ (s : State) (c : CoreId) (p : PanId), s.coreLive c = true ∧ s.native = true ∧ (s.pan c p).motion = .rest ∧
      s.passReady c p = true) ∧
    (∃ (s : State) (c : CoreId) (p : PanId), s.coreLive c = true ∧ s.native = true ∧ (s.pan c p).motion ≠ .rest ∧
      (s.pan c p).rowsDue = 0 ∧ s.passReady c p = false) ∧
    (∃ (s : State) (c : CoreId) (p : PanId), s.coreLive c = true ∧ s.native = true ∧ (s.pan c p).rowsDue ≠ 0) ∧
    (∃ (s : State) (c : CoreId) (p : PanId), s.coreLive c = true ∧ s.native = false ∧ (s.pan c p).motion ≠ .rest ∧
      (s.pan c p).tile = none ∧ (s.pan c p).testing = false) ∧
    (∃ (s : State) (c : CoreId) (p : PanId), s.coreLive c = true ∧ s.native = true ∧ (s.pan c p).motion ≠ .rest ∧
      s.passReady c p = true ∧ 0 < s.ent Ent.panTideCycles) ∧
    (∃ (s : State) (c : CoreId) (p : PanId), s.coreLive c = true ∧ s.native = false ∧ (s.pan c p).motion ≠ .rest ∧
      s.passReady c p = false) ∧
    (∃ (s : State) (c : CoreId), s.coreLive c = true ∧ s.native = true ∧ (s.core c).sluice = .rest ∧ s.sluiceReady c = true) ∧
    (∃ (s : State) (c : CoreId), s.coreLive c = true ∧ s.native = true ∧ (s.core c).sluice = .running ∧ s.sluiceReady c = false) ∧
    ∃ (s : State) (c : CoreId), s.coreLive c = true ∧ s.native = false ∧ (s.core c).sluice = .running ∧ s.sluiceReady c = false :=
  ⟨⟨running 127 loadedPan panRun, 127, 0, by decide +kernel⟩, ⟨running 0 { emptyPan with motion := .running } panRun, 0, 0, by decide +kernel⟩,
    ⟨running 0 { loadedPan with motion := .running, rowsDue := 1 } panRun, 0, 0, by decide +kernel⟩,
    ⟨polwin 0 { motion := .running } panRun, 0, 0, by decide +kernel⟩,
    ⟨running 0 { loadedPan with motion := .filling } panRun, 0, 0, by decide +kernel⟩,
    ⟨polwin 0 { emptyPan with motion := .running } panRun, 0, 0, by decide +kernel⟩,
    ⟨{ running 0 {} panRun with cores := [(0, { units := [(1, {})] })] }, 0, by decide +kernel⟩,
    ⟨{ running 0 {} panRun with cores := [(0, { sluice := .running })] }, 0, by decide +kernel⟩,
    { polwin 0 {} panRun with cores := [(0, { sluice := .running })] }, 0, by decide +kernel⟩

/-- A table of shifts that fails its complement: of zeros throughout. -/
def badShifts : DescRun := { panRun with d := { panDesc with shiftOut := 0 } }

theorem witness_loads :
    (∃ (c : CoreId) (p : PanId) (s : State) (t : TileRun) (r : DescRun), s.coreLive c = true ∧ (s.pan c p).testing = false ∧
      s.queueReady (stationaryQueue c p) = true ∧ s.tileToCome c p = some (t, r) ∧ loadEntries r.d.rung = ((s.pan c p).loadingBank t).admitted) ∧
    (∃ (c : CoreId) (p : PanId) (s : State), s.coreLive c = true ∧ (s.pan c p).testing = false ∧
      s.queueReady (stationaryQueue c p) = true ∧ s.tileToCome c p = none ∧ (s.pan c p).tile ≠ none ∧ (s.pan c p).preload + 1 = 40) ∧
    (∃ (c : CoreId) (p : PanId) (s : State), s.coreLive c = true ∧ (s.pan c p).testing = false ∧
      s.queueReady (stationaryQueue c p) = true ∧ s.tileToCome c p = none ∧ (s.pan c p).preload = 40) ∧
    (∃ (c : CoreId) (p : PanId) (s : State) (t : TileRun) (r : DescRun) (buf : TileBuf), s.coreLive c = true ∧ (s.pan c p).testing = false ∧
      s.queueReady (stationaryQueue c p) = true ∧ s.tileToCome c p = some (t, r) ∧
      ((s.pan c p).loadingBank t).admitted + 1 = loadEntries r.d.rung ∧ (s.core c).statFor r t = some buf) :=
  ⟨⟨127, 0, running 127 loadedPan panRun, smallTile, panRun, by decide +kernel⟩,
    ⟨0, 0, running 0 { tile := some { smallTile with done := 1 }, preload := 39 } panRun, by decide +kernel⟩,
    ⟨0, 0, running 0 { preload := 40 } panRun, by decide +kernel⟩,
    0, 0, running 0 (emptyPan.setIdleBank { pass := 0, admitted := 35 }) panRun, smallTile, panRun, {}, by decide +kernel⟩

theorem witness_shifts :
    (∃ l : List ShiftReg, l.length = 10 ∧ ∀ y ∈ l, y.value < 64 ∧ y.value + y.compl = 63) ∧
    (∃ (c : CoreId) (p : PanId) (s : State) (t : TileRun) (r : DescRun), s.coreLive c = true ∧ s.tileToCome c p = some (t, r) ∧
      LinesLatched s ∧ (s.queue (.panShifts c p)).held < 4 ∧
      shiftEntriesOf r.d.rung t.done = (s.pan c p).shiftEntries + ((s.queue (.panShifts c p)).visible.length - (s.queue (.panShifts c p)).taken)) ∧
    (∃ (c : CoreId) (p : PanId) (s : State) (t : TileRun) (r : DescRun), s.coreLive c = true ∧ s.tileToCome c p = some (t, r) ∧
      LinesLatched s ∧ (s.queue (.panShifts c p)).held < 4 ∧
      (s.pan c p).shiftEntries + ((s.queue (.panShifts c p)).visible.length - (s.queue (.panShifts c p)).taken) = 2 ∧
      s.tileShiftTrouble r t (shiftSlot r.d.rung t.done 2).1 (shiftSlot r.d.rung t.done 2).2 10 = none) ∧
    (∃ (c : CoreId) (p : PanId) (s : State) (t : TileRun) (r : DescRun), s.coreLive c = true ∧ s.tileToCome c p = some (t, r) ∧
      LinesLatched s ∧ (s.queue (.panShifts c p)).held < 4 ∧
      (s.pan c p).shiftEntries + ((s.queue (.panShifts c p)).visible.length - (s.queue (.panShifts c p)).taken) = 2 ∧
      2 < shiftEntriesOf r.d.rung t.done ∧
      (s.tileShiftTrouble r t (shiftSlot r.d.rung t.done 2).1 (shiftSlot r.d.rung t.done 2).2 10).isSome = true) ∧
    ∃ (c : CoreId) (p : PanId) (s : State) (t : TileRun) (r : DescRun), s.coreLive c = true ∧ s.tileToCome c p = some (t, r) ∧
      LinesLatched s ∧ (s.pan c p).shiftEntries + 1 = shiftEntriesOf r.d.rung t.done ∧ (s.queue (.panShifts c p)).taken = 0 ∧
      (s.queue (.panShifts c p)).visible = 0 :: [] := by
  let n := shiftEntriesOf 1 0
  exact ⟨⟨List.replicate 10 (shiftReg 0), by decide⟩, ⟨127, 0, running 127 { emptyPan with shiftEntries := n - 1 } panRun, smallTile, panRun, by decide +kernel⟩,
    ⟨0, 0, running 0 { emptyPan with shiftEntries := 1 } panRun, smallTile, panRun, by decide +kernel⟩,
    ⟨0, 0, running 0 { emptyPan with shiftEntries := 1 } badShifts, smallTile, badShifts, by decide +kernel⟩,
    0, 0, running 0 { emptyPan with shiftEntries := n - 1 } panRun, smallTile, panRun, by decide +kernel⟩

theorem witness_tiles :
    (∃ (c : CoreId) (p : PanId) (s : State) (t : TileRun) (r : DescRun) (rows : TileBuf), s.coreLive c = true ∧ (s.pan c p).tile = some t ∧
      s.desc? t.pos = some r ∧ (s.pan c p).testing = false ∧ t.done < t.passes ∧ (s.core c).rowsFor r t = some rows ∧
      s.passReady c p = true ∧ (s.pan c p).halfFree t = true ∧ (s.pan c p).motion ≠ .rest ∧ (s.pan c p).badReg = none) ∧
    (∃ (c : CoreId) (p : PanId) (s : State) (t : TileRun) (r : DescRun) (rows : TileBuf), s.coreLive c = true ∧ (s.pan c p).tile = some t ∧
      s.desc? t.pos = some r ∧ (s.pan c p).testing = false ∧ t.done < t.passes ∧ (s.core c).rowsFor r t = some rows ∧
      s.passReady c p = true ∧ (s.pan c p).halfFree t = true ∧ (s.pan c p).motion = .rest ∧ s.native = false ∧
      (s.pan c p).badReg = none) ∧
    (∃ (c : CoreId) (p : PanId) (s : State) (t : TileRun) (r : DescRun) (rows : TileBuf) (y : TagSlip), s.coreLive c = true ∧
      (s.pan c p).tile = some t ∧ s.desc? t.pos = some r ∧ (s.pan c p).testing = false ∧ t.done < t.passes ∧
      (s.core c).rowsFor r t = some rows ∧ s.passReady c p = true ∧ (s.pan c p).halfFree t = true ∧ (s.pan c p).motion ≠ .rest ∧
      r.d.rung = 0 ∧ slipped y = true) ∧
    (∃ (c : CoreId) (p : PanId) (s : State) (t : TileRun) (r : DescRun) (rows : TileBuf) (i : Nat), s.coreLive c = true ∧
      (s.pan c p).tile = some t ∧ s.desc? t.pos = some r ∧ (s.pan c p).testing = false ∧ t.done < t.passes ∧
      (s.core c).rowsFor r t = some rows ∧ s.passReady c p = true ∧ (s.pan c p).halfFree t = true ∧ (s.pan c p).motion ≠ .rest ∧
      (s.pan c p).badReg = some i ∧ LinesLatched s) ∧
    (∃ (c : CoreId) (p : PanId) (s : State) (t : TileRun) (r : DescRun), s.coreLive c = true ∧ (s.pan c p).tile = some t ∧
      s.desc? t.pos = some r ∧ (s.pan c p).testing = false ∧ t.done < t.passes ∧ (s.pan c p).rowsDue = 1) ∧
    (∃ (c : CoreId) (p : PanId) (s : State) (t : TileRun) (r : DescRun), s.coreLive c = true ∧ (s.pan c p).tile = some t ∧
      s.desc? t.pos = some r ∧ (s.pan c p).testing = false ∧ t.done < t.passes ∧ (s.pan c p).motion ≠ .rest ∧ (s.pan c p).rowsDue = 0 ∧
      s.passReady c p = false) ∧
    ∃ (c : CoreId) (p : PanId) (s : State) (t : TileRun) (r : DescRun), s.coreLive c = true ∧ (s.pan c p).tile = some t ∧
      s.desc? t.pos = some r ∧ (s.pan c p).testing = false ∧ t.done < t.passes ∧ (s.pan c p).motion ≠ .rest ∧ (s.pan c p).rowsDue = 0 ∧
      s.passReady c p = true ∧ (s.pan c p).halfFree t = false :=
  ⟨⟨127, 0, running 127 { loadedPan with motion := .running } panRun, smallTile, panRun, {}, by decide +kernel⟩,
    ⟨0, 0, polwin 0 loadedPan panRun, smallTile, panRun, {}, by decide +kernel⟩,
    ⟨0, 0, running 0 { emptyPan with motion := .running, shiftEntries := shiftEntriesOf 0 0, bankB := some { pass := 0, admitted := 40 } } { panRun with d := { panDesc with rung := 0 } }, smallTile,
      { panRun with d := { panDesc with rung := 0 } }, {}, ⟨0, 1, 2⟩, by decide +kernel⟩,
    ⟨0, 0, running 0 { loadedPan with motion := .running, outRegs := [{}, { value := 1 }] } panRun, smallTile, panRun, {}, 1,
      by decide +kernel⟩,
    ⟨0, 0, running 0 { emptyPan with motion := .running, rowsDue := 1 } panRun, smallTile, panRun, by decide +kernel⟩,
    ⟨0, 0, running 0 { emptyPan with motion := .running } panRun, smallTile, panRun, by decide +kernel⟩,
    0, 0, running 0 { loadedPan with motion := .running, halfA := some {} } panRun, smallTile, panRun, by decide +kernel⟩

/-- An image whose one component, of the core sequencers' kind, does not have the digest 0 that its header gives. -/
def badFirmware : List Byte := zeros 0x18 ++ [1#8] ++ zeros 7 ++ [3#8] ++ zeros 47

/-- The tile with its pass done. -/
def doneTile : TileRun := { smallTile with done := 1 }

/-- A half whose results drain. -/
def drainHalf (n : Nat) : Writeback := { rows := 32, cols := 32, drained := n }

theorem witness_results :
    (∃ (c : CoreId) (p : PanId) (s : State) (t : TileRun) (r : DescRun), s.coreLive c = true ∧ (s.pan c p).tile = some t ∧
      s.desc? t.pos = some r ∧ (s.pan c p).testing = false ∧ t.passes = t.done ∧ (s.pan c p).rowsDue = 0 ∧ (s.pan c p).halfFree t = true ∧
      s.salRoom c = true ∧ LinesLatched s ∧ (s.pan c p).remapNext = [] ∧ r.amaxPass = false ∧ t.block % r.panCut.t + 1 = r.panCut.t ∧ r.panCut.t = 1) ∧
    (∃ (c : CoreId) (p : PanId) (s : State) (t : TileRun) (r : DescRun) (w : Nat × Nat) (y : PanSt), s.coreLive c = true ∧
      (s.pan c p).tile = some t ∧ s.desc? t.pos = some r ∧ (s.pan c p).testing = false ∧ t.passes = t.done ∧ (s.pan c p).rowsDue = 0 ∧
      (s.pan c p).halfFree t = true ∧ s.salRoom c = true ∧ LinesLatched s ∧ (s.pan c p).remapNext = [w] ∧ (s.pan c p).retire w.1 w.2 = some y) ∧
    (∃ (c : CoreId) (p : PanId) (s : State) (t : TileRun) (r : DescRun), s.coreLive c = true ∧ (s.pan c p).tile = some t ∧
      s.desc? t.pos = some r ∧ (s.pan c p).testing = false ∧ t.passes = t.done ∧ (s.pan c p).rowsDue = 0 ∧ (s.pan c p).halfFree t = true ∧
      s.salRoom c = true ∧ LinesLatched s ∧ r.amaxPass = true ∧ (s.pan c p).remapNext = []) ∧
    (∃ (c : CoreId) (p : PanId) (s : State) (w : Writeback) (r : DescRun), s.coreLive c = true ∧ (s.pan c p).draining = some w ∧
      s.desc? w.pos = some r ∧ LinesLatched s ∧ w.drained + 1 = w.rows ∧ s.drainRoom c p r w = true ∧
      (s.rowRanges r w).any (fun x => s.writeWaits w.sealUnit.isNone x.1 x.2) = false) ∧
    (∃ (c : CoreId) (p : PanId) (s : State) (w : Writeback) (r : DescRun), s.coreLive c = true ∧ (s.pan c p).draining = some w ∧
      s.desc? w.pos = some r ∧ LinesLatched s ∧ w.drained < w.rows ∧ s.drainRoom c p r w = false) ∧
    ∃ (c : CoreId) (p : PanId) (s : State) (w : Writeback) (r : DescRun), s.coreLive c = true ∧ (s.pan c p).draining = some w ∧
      s.desc? w.pos = some r ∧ LinesLatched s ∧ (s.queue (.panWriteback c p)).visible ≠ [] ∧ w.waiting = 1 ∧ w.rows = w.drained :=
  ⟨⟨0, 0, running 0 { emptyPan with tile := some doneTile } panRun, doneTile, panRun, by decide +kernel⟩,
    ⟨0, 0, running 0 { emptyPan with tile := some doneTile, remapNext := [(145, 36)] } panRun, doneTile, panRun, (145, 36), _, rfl,
      by decide +kernel, by decide +kernel, rfl, rfl, by decide +kernel, by decide +kernel, by decide +kernel, rfl, by decide +kernel, rfl⟩,
    ⟨0, 0, running 0 { emptyPan with tile := some doneTile } { panRun with amaxPass := true }, doneTile, { panRun with amaxPass := true },
      by decide +kernel⟩,
    ⟨0, 0, running 0 { halfA := some (drainHalf 31) } panRun, drainHalf 31, panRun, by decide +kernel⟩,
    ⟨0, 0, { running 0 { halfA := some (drainHalf 30) } panRun with
        clk.queues := [(writebackQueue 0 0, { visible := List.replicate (queueDepth (.panWriteback 0 0)) 0 })] }, drainHalf 30, panRun,
      by decide +kernel⟩,
    0, 0, { running 0 { halfA := some { drainHalf 32 with waiting := 1 } } panRun with
        clk.queues := [(writebackQueue 0 0, { visible := [0] })] }, { drainHalf 32 with waiting := 1 }, panRun, by decide +kernel⟩

theorem witness_repairs :
    (∃ (c : CoreId) (p : PanId) (f : SegFinding) (s : State) (y : PanSt), s.coreLive c = true ∧ (s.pan c p).testing = true ∧ LinesLatched s ∧
      s.rep.coreSwap.contains c.val = false ∧ (s.pan c p).remapNext = [] ∧
      ({ s.pan c p with testing := false, suspect := none } : PanSt).retire (segPlace f).1 (segPlace f).2 = some y) ∧
    (∃ (c : CoreId) (p : PanId) (f : SegFinding) (s : State), s.coreLive c = true ∧ (s.pan c p).testing = true ∧ LinesLatched s ∧
      s.rep.coreSwap.contains c.val = false ∧ (s.pan c p).remapNext = [] ∧ s.rep.spareCore.contains (c.val / 8) = false ∧
      ({ s.pan c p with testing := false, suspect := none } : PanSt).retire (segPlace f).1 (segPlace f).2 = none) ∧
    (∃ (s : State) (c : CoreId), s.pwr.on = true ∧ LinesLatched s ∧ s.rep.coreSwap.contains c.val = true ∧
      s.rep.spareCluster.contains (c.val / 64) = false ∧ s.loadsComponent 3 = true) ∧
    (∃ (s : State) (k : ClusterId), s.pwr.on = true ∧ LinesLatched s ∧ s.rep.clusterSwap.contains k.val = true ∧
      s.loadsComponent 3 = false) ∧
    (∃ (s : State) (d : DieId), s.pwr.on = true ∧ LinesLatched s ∧ s.rep.dmpSwapping.contains d.val = true) :=
  ⟨⟨127, 0, .grain 145 36, running 127 { testing := true } panRun, _, by decide +kernel, by decide +kernel, rfl, rfl, rfl, rfl⟩,
    ⟨0, 0, .grain 5 0, running 0 { testing := true, rowA := 1, rowB := 2, col := 3 } panRun, by decide +kernel⟩,
    ⟨{ powered with rep.coreSwap := [127] }, 127, by decide +kernel⟩, ⟨{ powered with rep.clusterSwap := [15], nv.bankA := badFirmware, sec.bankBooted := 0 }, 15, by decide +kernel⟩,
    { powered with rep.dmpSwapping := [1] }, 1, by decide +kernel⟩

/-- A sluice descriptor of four rows, and a vector descriptor. -/
def sluiceRun : DescRun := { d := { panDesc with kind := 1, mCap := 4 }, m := 32, n := 32, k := 32, ready := true, issued := [0] }
def vectorRun : DescRun := { d := { kind := 2 }, m := 1, n := 1, k := 1, ready := true, issued := [0] }

/-- A core whose sluice path runs one of its units. -/
def sluicing : State := { running 0 {} sluiceRun with cores := [(0, { sluice := .running, units := [(1, {})] })] }

/-- A core whose vector unit runs one of its units. -/
def vectoring (r : DescRun) : State := { powered with prog.pool := [r], cores := [(0, { units := [(2, {})] })] }

theorem witness_units :
    (∃ (c : CoreId) (s : State) (x : RunUnit) (r : DescRun), s.coreLive c = true ∧ Kv.find? (s.core c).units 1 = some x ∧
      s.desc? x.pos = some r ∧ (s.core c).sluice = .running ∧ s.passRoom c r = true ∧ s.sluiceTrouble r (r.sluicePass x.number) = none ∧
      LinesLatched s ∧ ((s.view r.d.c 0).region (r.sluicePass x.number).m0 (r.sluicePass x.number).rows (r.sluicePass x.number).n0
        (r.sluicePass x.number).cols).any (fun z => s.writeWaits true z.1 z.2) = false) ∧
    (∃ (c : CoreId) (s : State) (x : RunUnit) (r : DescRun), s.coreLive c = true ∧ Kv.find? (s.core c).units 1 = some x ∧
      s.desc? x.pos = some r ∧ (s.core c).sluice = .running ∧ s.passRoom c r = false) ∧
    (∃ (c : CoreId) (s : State) (x : RunUnit) (r : DescRun), s.coreLive c = true ∧ s.vectorUnit c = some (x, r) ∧ r.isUpdate = false ∧
      s.chunkAfter r x.number = true ∧ s.chunkTrouble r x.number = none ∧ s.salRoom c = true ∧ LinesLatched s ∧
      s.chunkWaits (s.chunkOut r (s.runChunk r x.number)) = false) ∧
    ∃ (c : CoreId) (s : State) (x : RunUnit) (r : DescRun), s.coreLive c = true ∧ s.vectorUnit c = some (x, r) ∧ r.isUpdate = false ∧
      s.chunkAfter r x.number = true ∧ s.chunkTrouble r x.number = none ∧ r.amaxPass = false ∧ s.salRoom c = false :=
  ⟨⟨0, sluicing, {}, sluiceRun, by decide +kernel⟩,
    ⟨0, { sluicing with clk.queues := [(sluiceResultQueue 0, { sending := [0] })] }, {}, sluiceRun, by decide +kernel⟩,
    ⟨0, vectoring vectorRun, {}, vectorRun, by decide +kernel⟩,
    0, { vectoring vectorRun with clk.queues := [(salQueue 0, { visible := List.replicate 7 0 })] }, {}, vectorRun, by decide +kernel⟩

/-- The scaled output of a forward descriptor: an E4M3 tensor with a scale record. -/
def scaledProgram : Program := { tensors := [{ scaleRecord := 0, rows := 1, cols := 1 }] }

/-- A descriptor that writes it, in its first attempt, with every unit complete. -/
def finishedRun : DescRun :=
  { d := { kind := 2, c := 0 }, m := 1, n := 1, k := 1, ready := true, issued := [0], finished := [0] }

theorem witness_attempts :
    (∃ (slot : Nat) (s : State) (r : DescRun), s.pwr.on = true ∧ s.desc? slot = some r ∧ r.d.kind < 3 ∧ r.isUpdate = false ∧
      r.amaxPass = false ∧ s.producerOver r = true ∧ LinesLatched s ∧ s.endRoom (s.producers r) = true ∧ s.producerSat r = true ∧
      s.retriable r = true) ∧
    (∃ (slot : Nat) (s : State) (r : DescRun), s.pwr.on = true ∧ s.desc? slot = some r ∧ r.d.kind < 3 ∧ r.isUpdate = false ∧
      r.amaxPass = false ∧ s.producerOver r = true ∧ LinesLatched s ∧ s.endRoom (s.producers r) = false) ∧
    (∃ (slot : Nat) (s : State) (r : DescRun), s.pwr.on = true ∧ s.desc? slot = some r ∧ r.d.kind < 3 ∧ r.isUpdate = false ∧
      r.amaxPass = false ∧ s.producerOver r = true ∧ LinesLatched s ∧ s.endRoom (s.producers r) = true ∧
      (s.producerSat r && s.retriable r) = false ∧
      ∀ d, (s.endProducers r).desc? slot = some d → ((s.endProducers r).producerSat d && (s.endProducers r).retriable d) = false) ∧
    (∃ (slot : Nat) (s : State) (r : DescRun), s.pwr.on = true ∧ s.desc? slot = some r ∧ r.amaxPass = true ∧ r.d.kind ≠ 3 ∧
      s.producerOver r = true ∧ LinesLatched s) ∧
    ∃ (slot : Nat) (s : State) (r : DescRun), s.pwr.on = true ∧ s.desc? slot = some r ∧ r.amaxPass = true ∧ r.d.kind = 3 ∧
      r.amaxes ≠ [] ∧ LinesLatched s := by
  refine ⟨⟨0, { powered with prog.loaded := some scaledProgram, prog.pool := [{ finishedRun with saturated := true, attempt := 1 }] },
      { finishedRun with saturated := true, attempt := 1 }, by decide +kernel⟩,
    ⟨0, { powered with prog.pool := [finishedRun], clk.queues := [(salQueue 0, { visible := List.replicate 7 0 })] }, finishedRun,
      by decide +kernel⟩,
    ⟨0, { powered with prog.pool := [finishedRun] }, finishedRun, by decide +kernel, by decide +kernel, by decide, by decide, by decide,
      by decide +kernel, rfl, by decide +kernel, by decide +kernel, ?_⟩,
    ⟨0, { powered with prog.pool := [{ finishedRun with amaxPass := true }] }, { finishedRun with amaxPass := true }, by decide +kernel⟩,
    0, { powered with prog.pool := [{ d := { kind := 3 }, amaxPass := true, amaxes := [(0, 1)] }] },
    { d := { kind := 3 }, amaxPass := true, amaxes := [(0, 1)] }, by decide +kernel⟩
  intro d h
  have f : (({ powered with prog.pool := [finishedRun] } : State).endProducers finishedRun).producerSat d = false := by
    have : ∀ x ∈ (({ powered with prog.pool := [finishedRun] } : State).endProducers finishedRun).prog.pool, x.saturated = false := by
      decide +kernel
    unfold State.producerSat
    rw [List.any_eq_false]
    intro x hx
    rw [this x (List.mem_filter.1 hx).1]
    decide
  rw [f]
  rfl

/-- A program whose one descriptor is a pan's, and an item of its stream. -/
def onePan : Program := { smallProgram with descs := [panDesc] }
def item : Item := {}

theorem witness_admission :
    (∃ (d : DieId) (s : State) (it : Item) (rest : List Item), s.streamOf d = it :: rest ∧ s.admits it = true ∧
      (s.afterAbandon it && decide ((s.descAt it.index).kind ≠ 3)) = true) ∧
    (∃ (d : DieId) (s : State) (it : Item) (rest : List Item), s.streamOf d = it :: rest ∧ s.admits it = true ∧
      (s.afterAbandon it && decide ((s.descAt it.index).kind ≠ 3)) = false ∧ s.programMigrates = false ∧ s.inFlight d < poolSlots) ∧
    (∃ (d : DieId) (s : State) (it : Item) (rest : List Item), s.streamOf d = it :: rest ∧ s.admits it = true ∧
      (s.afterAbandon it && decide ((s.descAt it.index).kind ≠ 3)) = false ∧ s.programMigrates = false ∧ s.inFlight d = poolSlots) ∧
    (∃ (slot : Nat) (s : State) (r : DescRun), s.pwr.on = true ∧ s.desc? slot = some r ∧ r.ready = false ∧ r.hollow = false ∧ LinesLatched s ∧
      ¬(r.isUpdate = true ∧ s.layerFrozen r.d.layer = true) ∧ s.isEmpty r = true) ∧
    ∃ (slot : Nat) (s : State) (r : DescRun), s.pwr.on = true ∧ s.desc? slot = some r ∧ r.ready = false ∧ r.hollow = false ∧ LinesLatched s ∧
      ¬(r.isUpdate = true ∧ s.layerFrozen r.d.layer = true) ∧ s.isEmpty r = false ∧ (s.readsOf r.d r.update).all (s.tensorReady r) = true := by
  refine ⟨⟨0, { withEnts [(Ent.trainPhase, 2)] with prog.stream0 := [{ entry := 1 }], train.abandoned := true, prog.loaded := some onePan },
      { entry := 1 }, [], by decide +kernel⟩,
    ⟨1, { withEnts [(Ent.trainPhase, 1)] with prog.stream1 := [item], prog.loaded := some onePan }, item, [], by decide +kernel⟩,
    ⟨0, { withEnts [(Ent.trainPhase, 1)] with prog.stream0 := [item], prog.loaded := some onePan, prog.pool := List.replicate poolSlots {} },
      item, [], rfl, by decide +kernel, by decide +kernel, by decide +kernel, ?_⟩,
    ⟨0, { powered with prog.pool := [{ m := 0 }] }, { m := 0 }, by decide +kernel⟩,
    0, { running 0 {} { panRun with ready := false } with prog.all := [item] }, { panRun with ready := false }, by decide +kernel⟩
  decide +kernel

/-- Page 0 holds a descriptor of zeros and its complement. -/
def scheduling : State :=
  { running 0 {} { panRun with issued := [] } with mem.ram := cells 64 (List.replicate 64 0xFF#8), cores := [],
                                                    dict.vals := [(Ent.readyCores 0, 1), (Ent.trainPhase, 1)] }

/-- A core that is ready and runs the block of the descriptor, with tile buffers as given. -/
def fetching (l : List TileBuf) : State :=
  { running 0 {} panRun with
    cores := [(0, { pans := [(0, emptyPan)], rowBuf := l, statBuf := l, units := [(0, {})] })]
    dict.vals := [(Ent.readyCores 0, 1), (Ent.trainPhase, 1)] }

theorem witness_scheduling :
    (∃ (c : CoreId) (e : Nat) (s : State) (r : DescRun) (n : Nat) (l : List Nat), s.coreTakes c = true ∧ LinesLatched s ∧ e < 3 ∧
      (∀ d ∈ s.prog.pool, d.d.kind < 3) ∧ s.links.collectives = [] ∧ (∀ p < 4, (s.pan c p).remapNext = []) ∧ (∀ x < e, (Kv.find? (s.core c).units x).isSome = true) ∧
      Kv.find? (s.core c).units e = none ∧ bestOffer (s.prog.pool.filter (s.offers c e)) = some r ∧ r.unitsLeft c = n :: l ∧
      (∀ d ∈ s.prog.pool, s.complOk (s.descAddr d.index) 64 = true) ∧ r.d.kind = 0) ∧
    (∃ (d : DieId) (set : Nat) (s : State) (r : DescRun) (c b : Nat), s.desc? (mcastSet set).pos = some r ∧ s.pwr.on = true ∧
      r.ready = true ∧ r.d.kind = 0 ∧ r.d.die = d.val ∧ s.mcastReceivers r (mcastSet set) = [(c, b)] ∧
      s.readTrouble (s.fetchRanges r (mcastSet set) b) = none ∧ s.mcastRoom r (mcastSet set) c b = true) ∧
    ∃ (d : DieId) (set : Nat) (s : State) (r : DescRun) (c b : Nat), s.desc? (mcastSet set).pos = some r ∧ s.pwr.on = true ∧
      r.ready = true ∧ r.d.kind = 0 ∧ r.d.die = d.val ∧ s.mcastReceivers r (mcastSet set) = [(c, b)] ∧
      (Kv.find? (s.cluster (c / 8)).staging set).isSome = true ∧ s.mcastRoom r (mcastSet set) c b = false :=
  ⟨⟨0, 0, scheduling, { panRun with issued := [] }, 0, [], by decide +kernel, rfl, by decide, by decide +kernel, rfl, by decide +kernel, by decide, by decide +kernel,
      by decide +kernel, by decide +kernel, by decide +kernel, rfl⟩,
    ⟨0, 0, fetching [], panRun, 0, 0, by decide +kernel⟩,
    0, 1, { fetching [{ pass := 5 }, { pass := 6 }] with clusters := [(0, { staging := [(1, {})] })] }, panRun, 0, 0, by decide +kernel⟩

/-- With no record listed, every record is intact. -/
theorem intact {s : State} (h : s.scale.recs = []) (k : s.scale.staged = []) : RecordsIntact s := by simp [RecordsIntact, h, k]

theorem witness_step_ends :
    (∃ s : State, s.pwr.on = true ∧ LinesLatched s ∧ s.running = true ∧ s.forwardDone = true) ∧
    (∃ (s : State) (heard : List FcContribution), s.pwr.on = true ∧ LinesLatched s ∧ s.phase = 3 ∧ s.train.contributed = true ∧
      s.train.replaying = false ∧
      (heard ++ s.mirroredCheck.toList).length + 1 = max 1 (s.groupP (s.ent Ent.trainRunGroup)) ∧ RecordsIntact s ∧
      s.stepsEqual (heard ++ s.mirroredCheck.toList) = true ∧ heard ≠ []) ∧
    (∃ (s : State) (heard : List FcContribution), s.pwr.on = true ∧ LinesLatched s ∧ s.phase = 3 ∧ s.train.contributed = true ∧
      s.train.replaying = false ∧
      (heard ++ s.mirroredCheck.toList).length + 1 = max 1 (s.groupP (s.ent Ent.trainRunGroup)) ∧
      s.stepsEqual (heard ++ s.mirroredCheck.toList) = false ∧ s.dict.pend = []) ∧
    (∃ s : State, s.pwr.on = true ∧ LinesLatched s ∧ s.phase = 3 ∧ s.train.replaying = false ∧ s.dict.pend = []) ∧
    (∃ (s : State) (g : Program) (heard : List RakeContribution), s.prog.loaded = some g ∧ s.pwr.on = true ∧ s.phase = 4 ∧
      s.rake.done = false ∧ s.rep.dmpSwapping.contains 0 = false ∧ s.rakeMembers (heard ++ s.mirroredVecs.toList) = true ∧ s.dict.pend = [] ∧
      LinesLatched s ∧ s.rakeDiverged (heard ++ s.mirroredVecs.toList) = false ∧ (∀ l, (s.rakeOf l).bad = false) ∧ s.ent Ent.rakeMode = 0 ∧
      0 < g.layers.length) ∧
    (∃ (s : State) (heard : List RakeContribution), s.rakeDiverged (heard ++ s.mirroredVecs.toList) = true ∧
      s.rakeMembers (heard ++ s.mirroredVecs.toList) = true) ∧
    (∃ s : State, s.pwr.on = true ∧ s.phase = 4 ∧ s.rake.done = true ∧ s.train.updateDone = true ∧ LinesLatched s ∧ s.dict.pend = [] ∧
      s.mem.owed = [] ∧ (∀ c, (s.core c).windowBad = false) ∧ s.train.m3Wait = false ∧ s.crustMember = true) ∧
    (∃ s : State, s.pwr.on = true ∧ s.phase = 4 ∧ s.rake.done = true ∧ s.train.updateDone = true ∧ LinesLatched s ∧ s.dict.pend = [] ∧
      s.mem.owed = [] ∧ (∀ c, (s.core c).windowBad = false) ∧ s.crustMember = false ∧ s.crust.mirrorWait.contains 3 = false) ∧
    ∃ s : State, s.pwr.on = true ∧ s.phase = 4 ∧ s.rake.done = true ∧ s.train.updateDone = true ∧ LinesLatched s ∧ s.dict.pend = [] ∧
      s.mem.owed = [] ∧ (∀ c, (s.core c).windowBad = false) ∧ s.crustMember = false ∧ s.crust.mirrorWait.contains 3 = false ∧ s.ent Ent.salRingSteps = 2 ∧
      s.rake.own ≠ [] ∧ s.layerCount = 1 ∧
      s.rangeMapped (s.ent Ent.salRingBase + s.stepNow % max (s.ent Ent.salRingSteps) 1 * (128 * s.layerCount)) (128 * s.layerCount) = true ∧
      s.writeCode false (s.ent Ent.salRingBase + s.stepNow % max (s.ent Ent.salRingSteps) 1 * (128 * s.layerCount)) (128 * s.layerCount) = 0 ∧
      (s.rake.next.map (·.1)).Nodup ∧ Kv.find? s.rake.next 1 = some {} :=
  ⟨⟨withEnts [(Ent.trainPhase, 2)], by decide +kernel⟩,
    ⟨{ withEnts [(Ent.trainPhase, 3)] with train.contributed := true, links.groups := [(0, { valid := true, p := 2, rank := 0, members := [4, 5] })] },
      [agrees], by decide +kernel, rfl, by decide +kernel, rfl, rfl, by decide +kernel, intact rfl rfl,
      by decide +kernel, by decide⟩,
    ⟨{ withEnts [(Ent.trainPhase, 3)] with train.contributed := true, links.groups := [(0, { valid := true, p := 2, rank := 0, members := [4, 5] })] },
      [{ agrees with step := 1 }], by decide +kernel⟩,
    ⟨withEnts [(Ent.trainPhase, 3)], by decide +kernel⟩,
    ⟨{ withEnts [(Ent.trainPhase, 4), (Ent.rakeMode, 0)] with prog.loaded := some { layers := [{}] } }, { layers := [{}] }, [], rfl, rfl,
      by decide +kernel, rfl, rfl, by decide +kernel, rfl, rfl, rfl, fun _ => rfl, by decide +kernel, by decide⟩,
    ⟨powered, [{ rakeAgrees with step := 7 }], by decide +kernel⟩,
    ⟨{ withEnts [(Ent.trainPhase, 4), (Ent.crustMode, 1), (Ent.crustRole, 0), (Ent.crustGroup, 3)] with
        rake.done := true, train.updateDone := true, links.groups := [(3, { valid := true, p := 8, rank := 0 })] },
      rfl, by decide +kernel, rfl, rfl, rfl, rfl, rfl, fun _ => rfl, rfl, by decide +kernel⟩,
    ⟨{ withEnts [(Ent.trainPhase, 4), (Ent.crustMode, 0)] with rake.done := true, train.updateDone := true },
      rfl, by decide +kernel, rfl, rfl, rfl, rfl, rfl, fun _ => rfl, by decide +kernel, rfl⟩,
    { withEnts [(Ent.trainPhase, 4), (Ent.crustMode, 0), (Ent.salRingSteps, 2), (Ent.salRingBase, pageBytes)] with
      rake.done := true, train.updateDone := true, rake.own := [{}], rake.next := [(0, {}), (1, {})], mem.map := [(1, { v := true })],
      prog.loaded := some { layers := [{}] }, train.commit := { step := 1 } },
    rfl, by decide +kernel, rfl, rfl, rfl, rfl, rfl, fun _ => rfl, by decide +kernel, by decide +kernel⟩

/-- A gather stage of an update, complete; then its apply stage. -/
def gatherRun : DescRun := { d := { kind := 2 }, update := true, m := 1, n := 1, k := 1, ready := true, issued := [0], finished := [0] }
def applyRun : DescRun := { gatherRun with gathered := true, finished := [] }

theorem witness_update :
    (∃ (layer : Nat) (s : State), s.pwr.on = true ∧ s.phase = 4 ∧ s.train.updating = true ∧ s.layerUpdates layer ≠ [] ∧
      s.updatesToCome layer = false ∧ (s.layerUpdates layer).all s.gatherOver = true ∧ s.endRoom (s.layerUpdates layer) = true ∧
      LinesLatched s ∧ s.crust.units = [] ∧ ∃ r ∈ s.layerUpdates layer, r.gathered = false ∧ s.sealedChunks r.pos = [0]) ∧
    (∃ (c : CoreId) (s : State) (x : RunUnit) (r : DescRun), s.coreLive c = true ∧ s.vectorUnit c = some (x, r) ∧ r.isUpdate = true ∧
      r.gathered = true ∧ s.chunkAfter r x.number = true ∧ s.chunkTrouble r x.number = none ∧ RecordsIntact s ∧ LinesLatched s ∧
      s.salRoom c = true ∧ s.chunkWaits (s.chunkOut r (s.runChunk r x.number)) = false ∧ r.amaxPass = false ∧ s.ent Ent.crustMode = 0) ∧
    ∃ s : State, s.pwr.on = true ∧ s.phase = 4 ∧ s.train.updating = true ∧ s.train.updateDone = false ∧ s.prog.pool = [] ∧
      s.prog.stream0 = [] ∧ s.prog.stream1 = [] ∧ RecordsIntact s ∧ LinesLatched s ∧ s.train.badUpdate ≠ none :=
  ⟨⟨0, { withEnts [(Ent.trainPhase, 4)] with train.updating := true, prog.pool := [gatherRun], train.ledger := [(0, 0)] }, by decide +kernel,
      by decide +kernel, rfl, by decide +kernel, by decide +kernel, by decide +kernel, by decide +kernel, rfl, rfl, gatherRun, by decide +kernel,
      rfl, by decide⟩,
    ⟨0, { vectoring applyRun with dict.vals := [(Ent.crustMode, 0)] }, {}, applyRun, by decide +kernel, by decide +kernel, rfl, rfl,
      by decide +kernel, by decide +kernel, intact rfl rfl, rfl, by decide +kernel, by decide +kernel, rfl, by decide +kernel⟩,
    { withEnts [(Ent.trainPhase, 4)] with train.updating := true, train.badUpdate := some (0, 0) }, rfl, by decide +kernel, rfl, rfl, rfl, rfl,
    rfl, intact rfl rfl, rfl, by decide⟩

/-- An image of 32 bytes whose update's preamble gives one operation to the apply stage, and a Flake-4 tensor. -/
def flakeProgram : Program := { bytes := 32, tensors := [{ formats := 2 }] }

/-- A slipped tag at an apply chunk that loads a Flake-4 tensor. The code's encoding is a free value, so that the witness takes one that
spells a load of tensor 0. -/
theorem witness_slipped_chunk (h : Config.vectorCode [] = some [[0, 0]]) :
    ∃ (c : CoreId) (s : State) (x : RunUnit) (r : DescRun) (y : TagSlip), s.coreLive c = true ∧ s.vectorUnit c = some (x, r) ∧
      r.isUpdate = true ∧ r.gathered = true ∧ s.chunkAfter r x.number = true ∧ slipped y = true ∧ s.loadsFlake r = true := by
  let s : State := { vectoring applyRun with prog.loaded := some flakeProgram, mem.ram := [(0x14, 1#8)] }
  have o : s.updateCode applyRun.d = some [.load 0] := by
    show vecOpsOf [] = _
    simp [vecOpsOf, h, vecOpOf]
  have g : s.codeOf applyRun = [.load 0] := by
    show s.stageOf applyRun.d true = _
    unfold State.stageOf
    rw [o]
    decide +kernel
  refine ⟨0, s, {}, applyRun, ⟨0, 1, 2⟩, by decide +kernel, by decide +kernel, rfl, rfl, rfl, by decide, ?_⟩
  unfold State.loadsFlake
  rw [g]
  decide +kernel

/-! ### Memory -/

/-- A value and its complement, as memory holds them. -/
def withCompl (l : List Byte) : List Byte := l ++ flipBytes l

/-- A run whose one request stands in the request area: op, tier, device, flags, page, count. -/
def asking (op tier dev flags page count : Nat) (m : KV MapEntry) : State :=
  { withEnts [(Ent.memReqState, 1)] with
    mem.map := m
    mem.reqTotal := 1
    mem.ram := cells (requestAddr 0) (withCompl ([op, tier, dev, flags].flatMap (leBytes 1) ++ leBytes 4 page ++ leBytes 4 count ++ leBytes 4 0)) }

/-- A crust member of rank 0, whose covered region is pages 0 to 6 and whose parity lies in page 7. -/
def crusted (l : List (Nat × Nat)) : State :=
  { withEnts (l ++ [(Ent.brineNode, 4), (Ent.crustMode, 2), (Ent.crustGroup, 3), (Ent.crustRole, 0), (Ent.crustSpanFirst, 0),
      (Ent.crustSpanPages, 8), (Ent.crustParityFirst, 7), (Ent.crustState, 2)]) with
    links.groups := [(3, { valid := true, p := 8, rank := 0, members := [4, 5, 6, 7, 8, 9, 10, 11] })]
    links.lanes := [(0, { live := true })] }

/-- Page 5, mapped. -/
def page5 : KV MapEntry := [(5, { v := true, gen := 255 })]

theorem witness_map_requests :
    (∃ s : State, s.nextReq.fieldCode = 0 ∧ RequestWaits 1 s ∧ (∀ p ∈ s.nextReq.pages, (s.mapEntry p).v = false) ∧
      (s.nextReq.flags.testBit 1 = true → ∀ p ∈ s.nextReq.pages, s.inCovered p = true) ∧ (s.mapRun s.nextReq).2 = 0 ∧ s.nextReq.pages.length = 2) ∧
    (∃ s : State, s.nextReq.fieldCode = 0 ∧ RequestWaits 2 s ∧ FoldsRun false State.dropPage s ∧ s.allMapped s.nextReq = true ∧ s.nextReq.pages = [5] ∧
      ∀ p ∈ s.nextReq.pages, (s.programNames p || (s.mapEntry p).img || (s.mapEntry p).stp || (s.mapEntry p).fz) = false) ∧
    (∃ s : State, s.nextReq.fieldCode = 0 ∧ RequestWaits 3 s ∧ s.allMapped s.nextReq = true ∧ s.phase = 0 ∧ (s.migrateRun s.nextReq).2 = 0 ∧
      State.placed s.nextReq s 5 = false) ∧
    (∃ s : State, s.nextReq.fieldCode = 0 ∧ RequestWaits 3 s ∧ s.allMapped s.nextReq = true ∧ s.phase ≠ 0 ∧ s.nextReq.pages.any s.programNames = false ∧
      (s.migrateRun s.nextReq).2 = 0 ∧ State.placed s.nextReq s 5 = true) ∧
    (∀ on : Bool, ∃ s : State, s.nextReq.fieldCode = 0 ∧ RequestWaits (if on then 4 else 5) s ∧ s.allMapped s.nextReq = true) ∧
    ∀ on : Bool, ∃ s : State, s.nextReq.fieldCode = 0 ∧ RequestWaits (if on then 6 else 7) s ∧
      FoldsRun on (if on then State.coverPage else State.uncoverPage) s ∧ s.allMapped s.nextReq = true ∧ s.phase = 0 ∧
      (on = true → ∀ p ∈ s.nextReq.pages, s.inCovered p = true) := by
  unfold RequestWaits FoldsRun
  refine ⟨⟨asking 1 0 255 1 (firstReserved - 2) 2 [], by decide +kernel⟩, ⟨asking 2 0 0 0 5 1 page5, by decide +kernel⟩,
    ⟨asking 3 0 1 0 5 1 page5, by decide +kernel⟩,
    ⟨{ asking 3 0 0 0 5 1 page5 with dict.vals := [(Ent.memReqState, 1), (Ent.trainPhase, 1)] }, by decide +kernel⟩, fun on => ?_, fun on => ?_⟩
  · cases on
    · exact ⟨asking 5 0 0 0 5 1 page5, by decide +kernel⟩
    · exact ⟨asking 4 0 0 0 5 1 page5, by decide +kernel⟩
  · let s : Nat → State := fun op =>
      { asking op 0 0 0 5 1 page5 with dict.vals := (crusted [(Ent.memReqState, 1)]).dict.vals, links.groups := (crusted []).links.groups }
    cases on
    · exact ⟨s 7, by decide +kernel⟩
    · exact ⟨s 6, by decide +kernel⟩

theorem witness_waiting_folds :
    (∃ s : State, s.mem.reqAt ≠ 0 ∧ RequestWaits 2 s) ∧ (∃ s : State, s.mem.reqAt ≠ 0 ∧ RequestWaits 6 s) ∧
      ∃ s : State, s.mem.reqAt ≠ 0 ∧ RequestWaits 7 s := by
  unfold RequestWaits
  exact ⟨⟨{ asking 2 0 0 0 5 2 page5 with mem.reqAt := 1 }, by decide +kernel⟩, ⟨{ asking 6 0 0 0 5 2 page5 with mem.reqAt := 1 }, by decide +kernel⟩,
    { asking 7 0 0 0 5 2 page5 with mem.reqAt := 1 }, by decide +kernel⟩

theorem witness_bad_map_requests :
    (∃ s : State, RequestWaits 1 s ∧ s.mem.reqAt = 0 ∧ s.nextReq.fieldCode = 2) ∧
    (∃ s : State, RequestWaits 7 s ∧ s.mem.reqAt = 0 ∧ s.nextReq.fieldCode = 3) ∧
    (∃ s : State, s.runsMap = true ∧ s.reqOk = true ∧ s.nextReq.op = 0 ∧ LinesLatched s) ∧
    (∃ s : State, s.runsMap = true ∧ s.reqOk = true ∧ s.nextReq.op = 8 ∧ LinesLatched s) ∧
    ∃ s : State, s.runsMap = false ∧ s.pwr.on = true ∧ s.ent Ent.memReqState = 1 ∧
      s.mem.reqChanged.all (fun p => (Kv.find? s.mem.migrating p).isNone) = true ∧ s.crustMember = false ∧ s.crust.mirrorWait.contains 4 = false := by
  unfold RequestWaits
  exact ⟨⟨asking 1 0 255 0 (firstReserved - 1) 2 [], by decide +kernel⟩, ⟨asking 7 0 0 4 5 1 [], by decide +kernel⟩,
    ⟨asking 0 0 0 0 0 0 [], by decide +kernel⟩, ⟨asking 8 0 0 0 0 0 [], by decide +kernel⟩,
    { asking 1 0 0 0 5 1 [] with mem.reqDone := 1, mem.reqChanged := [5] }, by decide +kernel⟩

theorem witness_memory_moves :
    (∃ (page : Nat) (s : State) (m : MigTarget), Kv.find? s.mem.migrating page = some m ∧ m.active = true ∧ page < firstReserved ∧ m.tier = 1 ∧
      s.cxlActive m.device = true ∧ HostIdle s ∧ LinesLatched s) ∧
    (∃ (r : MemReq) (s : State), s.pwr.on = true ∧ txnLegal r = true ∧ s.flt.fatal ≠ 0) ∧
    (∃ (r : MemReq) (s : State) (l : List Byte), s.pwr.on = true ∧ txnLegal r = true ∧ s.flt.fatal = 0 ∧ s.mem.outstanding = [] ∧ s.mem.waiting = [] ∧
      s.txnHeld r = false ∧ s.txnCode r = 0 ∧ s.mem.mapBad = [] ∧ s.mem.mapLost = [] ∧ LinesLatched s ∧ r.data = some l) ∧
    ∃ (r : MemReq) (s : State), s.pwr.on = true ∧ txnLegal r = true ∧ s.flt.fatal = 0 ∧ s.mem.outstanding = [] ∧ s.mem.waiting = [] ∧
      s.txnHeld r = false ∧ s.txnCode r = 0 ∧ s.mem.mapBad = [] ∧ s.mem.mapLost = [] ∧ LinesLatched s ∧ r.data = none ∧
      s.rangeTrouble r.addr r.len = none := by
  unfold HostIdle
  exact ⟨⟨firstReserved - 1, { powered with
      mem.migrating := [(firstReserved - 1, { tier := 1, device := 10, frame := 3, active := true })], mem.cxl := [(2, { role := 10 })] },
      { tier := 1, device := 10, frame := 3, active := true }, by decide +kernel⟩,
    ⟨req, { powered with flt.fatal := 0x12 }, by decide +kernel⟩,
    ⟨{ req with addr := 6 * pageBytes - 64, len := 64, data := some (List.replicate 64 1#8) }, { powered with mem.map := page5 },
      List.replicate 64 1#8, by decide +kernel⟩,
    { req with addr := 5 * pageBytes, len := 256, data := none }, { powered with mem.map := page5 }, by decide +kernel⟩

theorem witness_memory_errors :
    (∃ s : State, s.pwr.on = true ∧ LinesLatched s) ∧ (∃ addr : Nat, pageOf addr < firstReserved) ∧
    (∃ (s : State) (st : StackId) (pc : Nat), (s.stack st).copying = some pc) ∧
    (∃ (s : State) (d : CxlId) (sp : Nat), (s.dev d).replace = 1 ∧ s.spareDev = some sp ∧ sp ≠ d.val) ∧
    (∃ (s : State) (d : CxlId), s.pwr.on = true ∧ LinesLatched s ∧ s.spareDev.isSome = true ∧ s.devCopying = false ∧ (s.dev d).role < 11) ∧
    (∃ (s : State) (page : Nat), s.rebuildsFirst page = true) ∧
    ∃ (s : State) (page : Nat), (s.mapEntry page).v = true ∧ (s.mapEntry page).rb = true ∧ s.rebuildsFirst page = false ∧ HostIdle s ∧
      LinesLatched s := by
  unfold HostIdle
  exact ⟨⟨powered, rfl, rfl⟩, ⟨firstReserved * pageBytes - 1, by decide⟩, ⟨{ powered with mem.hbm := [(11, { copying := some 31 })] }, 11, 31, rfl⟩,
    ⟨{ withEnts [(Ent.readySummary, 2 ^ 23)] with mem.cxl := [(2, { role := 10, replace := 1 }), (3, { role := 0x80 })] }, 2, 3, by decide +kernel⟩,
    ⟨{ withEnts [(Ent.readySummary, 2 ^ 23)] with mem.cxl := [(2, { role := 10 }), (3, { role := 0x80 })] }, 2, by decide +kernel⟩,
    ⟨{ powered with mem.map := [(4, { v := true, rb := true }), (5, { v := true, rb := true })], mem.rebuildNext := some 5, mem.lostPages := [4, 5] },
      4, by decide +kernel⟩,
    { powered with mem.map := [(firstReserved - 1, { v := true, rb := true })] }, firstReserved - 1, by decide +kernel⟩

theorem witness_arbiters :
    (∃ (a : ArbId) (resource : Nat) (s : State) (present : List Nat) (r : Nat), s.pwr.on = true ∧ resource + 1 = arbResources (arbLevel a) ∧
      s.hold? (arbLevel a) (arbInstance a) resource = none ∧ topRank (present.filter (rankExists (arbLevel a) (arbInstance a))) = some r) ∧
    (∃ (a : ArbId) (resource : Nat) (s : State) (h : Hold), s.pwr.on = true ∧ resource < arbResources (arbLevel a) ∧
      s.hold? (arbLevel a) (arbInstance a) resource = some h ∧ h.cycles + 1 = s.holdLimit (arbLevel a)) ∧
    ∃ (a : ArbId) (resource : Nat) (s : State) (h : Hold), s.pwr.on = true ∧ resource < arbResources (arbLevel a) ∧
      s.hold? (arbLevel a) (arbInstance a) resource = some h ∧ s.holdLimit (arbLevel a) = h.cycles :=
  ⟨⟨.die 1, 38, powered, [18, 17], 17, by decide +kernel⟩,
    ⟨.pan 127 3, 0, { withEnts [(Ent.arbHoldPan, 64)] with arb.holds := [(holdKey 0 511 0, { rank := 2, cycles := 63 })] }, { rank := 2, cycles := 63 },
      by decide +kernel⟩,
    .core 0, 16, { withEnts [(Ent.arbHoldCore, 64)] with arb.holds := [(holdKey 1 0 16, { rank := 7, cycles := 64 })] }, { rank := 7, cycles := 64 },
    by decide +kernel⟩

/-! ### Brine and the crust -/

/-- A step in a phase, of a group of two whose other member is node 5, on lane 0. -/
def grouped (phase : Nat) : State :=
  { withEnts [(Ent.brineNode, 4), (Ent.trainPhase, phase), (Ent.trainRunGroup, 0)] with
    links.groups := [(0, { valid := true, p := 2, rank := 0, members := [4, 5] })]
    links.lanes := [(0, { live := true })] }

/-- Frames that a lane has sent to node 5 and node 6. -/
def sentFrames : List TxFrame := [{ dst := 5, psn := 0 }, { dst := 5, psn := 1 }, { dst := 6, psn := 0 }]

theorem witness_frames :
    (∃ (h : BrineHdr) (s : State), s.hears h = true ∧ LinesLatched s ∧ h.psn % 2 ^ 24 = s.rxNext (laneIx h) h.src) ∧
    (∃ (h : BrineHdr) (s : State), s.hears h = true ∧ LinesLatched s ∧ h.psn % 2 ^ 24 ≠ s.rxNext (laneIx h) h.src ∧
      psnLe h.psn (s.rxNext (laneIx h) h.src) = true) ∧
    ∃ (h : BrineHdr) (s : State), s.hears h = true ∧ LinesLatched s ∧ h.psn % 2 ^ 24 ≠ s.rxNext (laneIx h) h.src ∧
      psnLe h.psn (s.rxNext (laneIx h) h.src) = false :=
  ⟨⟨{ hdr with psn := 2 ^ 24 - 1 }, { grouped 1 with links.lanes := [(0, { live := true, rxNext := [(5, 2 ^ 24 - 1)] })] }, by decide +kernel⟩,
    ⟨{ hdr with psn := 2 ^ 24 - 1 }, grouped 1, by decide +kernel⟩, { hdr with psn := 1 }, grouped 1, by decide +kernel⟩

theorem witness_lanes :
    (∃ (h : BrineHdr) (s : State), s.hears h = true ∧ LinesLatched s ∧ LanesStay h s ∧
      (((s.lane (laneIx h)).unacked.filter fun f => f.dst != h.src || !psnLe f.psn h.ack).filter fun f =>
        f.dst == h.src && psnLe (leNat (h.payload.take 4)) f.psn) ≠ []) ∧
    (∃ (h : BrineHdr) (s : State), s.hears h = true ∧ LinesLatched s ∧ 3 ≠ h.lane.val ∧
      (Kv.getD s.links.farMask (65536 * h.port.val + h.src) 15).testBit 3 = true ∧ h.liveMask.val.testBit 3 = false) ∧
    (∃ (p : PortId) (l : LaneId) (s : State), s.pwr.on = true ∧ s.laneUp (4 * p + l) = true ∧ s.node = 0xFFFF) ∧
    (∃ (p : PortId) (l : LaneId) (dst : Nat) (s : State) (f : TxFrame), s.pwr.on = true ∧ s.laneUp (4 * p + l) = true ∧ s.node ≠ 0xFFFF ∧
      ((s.lane (4 * p + l)).unacked.filter fun f => f.dst == dst).getLast? = some f) ∧
    ∃ (p : PortId) (l : LaneId) (dst : Nat) (s : State), s.pwr.on = true ∧ s.laneUp (4 * p + l) = true ∧ s.node ≠ 0xFFFF ∧
      0 < Kv.getD (s.lane (4 * p + l)).rxDue dst 0 := by
  unfold LanesStay
  exact ⟨⟨{ hdr with payload := leBytes 4 1 }, { grouped 1 with links.lanes := [(0, { live := true, unacked := sentFrames })] }, by decide +kernel⟩,
    ⟨{ hdr with liveMask := 7 }, grouped 1, by decide +kernel⟩,
    ⟨7, 3, { powered with links.lanes := [(31, { live := true })] }, by decide +kernel⟩,
    ⟨7, 3, 6, { grouped 0 with links.lanes := [(31, { live := true, unacked := sentFrames })] }, { dst := 6, psn := 0 }, by decide +kernel⟩,
    7, 3, 65535, { grouped 0 with links.lanes := [(31, { live := true, rxDue := [(65535, 1)] })] }, by decide +kernel⟩

theorem witness_contributions :
    (∃ (h : BrineHdr) (s : State), InOrder h s ∧ (s.group h.group.val).valid = true ∧
      ((s.group h.group.val).members.take (s.group h.group.val).p).contains h.src = true ∧ h.epoch = (s.group h.group.val).epoch ∧
      h.step = s.ent Ent.trainStepIndex % 65536 ∧ s.phase = 1 ∧ s.coll? h.group.val h.sequence = none ∧
      s.collDone h.group.val h.sequence = false) ∧
    (∀ phase ∈ [1, 3], ∃ (h : BrineHdr) (s : State), InOrder h s ∧ (s.group h.group.val).valid = true ∧
      ((s.group h.group.val).members.take (s.group h.group.val).p).contains h.src = decide (phase = 1) ∧ h.epoch ≠ (s.group h.group.val).epoch ∧
      s.phase = phase ∧ (s.running = true ∨ s.phase = 3) ∧ s.train.replaying = false ∧ s.dict.pend = []) ∧
    ∀ phase ∈ [0, 4], ∃ (h : BrineHdr) (s : State), InOrder h s ∧ (s.group h.group.val).valid = true ∧
      ((s.group h.group.val).members.take (s.group h.group.val).p).contains h.src = true ∧ h.epoch ≠ (s.group h.group.val).epoch ∧
      s.phase = phase ∧ s.coll? h.group.val h.sequence = none := by
  unfold InOrder
  refine ⟨⟨{ hdr with hollow := true }, grouped 1, by decide +kernel⟩, fun phase h => ?_, fun phase h => ?_⟩
  · refine ⟨{ hdr with epoch := 2 ^ 32 - 1, src := if phase = 1 then 5 else 6 }, grouped phase, ?_⟩
    revert phase
    decide +kernel
  · refine ⟨{ hdr with epoch := 2 ^ 32 - 1 }, grouped phase, ?_⟩
    revert phase
    decide +kernel

/-- A frame of the crust group, from rank 1 (node 5) or from rank 7 (node 11). -/
def crustHdr : BrineHdr := { hdr with group := 3, payload := leBytes 8 (8 * pageBytes - 2) ++ [0x0F#8, 0xF0#8] }

/-- A unit sent to one holder, before and after that holder's acknowledgement. -/
def sentUnit : SealUnit := { number := 65536, step := 65535, seq := 2, deltas := [(1, 0, 0, [1#8])] }
def unitHdr : BrineHdr := { crustHdr with step := 65535, sequence := 2 }
def heldDelta : HeldDelta := { rank := 1, addr := 8 * pageBytes - 2, bytes := [0x0F#8, 0xF0#8], last := true }

theorem witness_deltas :
    (∃ (h : BrineHdr) (s : State) (r : Nat) (d : HeldDelta), InOrder h s ∧ s.crustFrom h = some r ∧ s.deltaKnown r h = true ∧
      (s.crust.heldDeltas.filter fun d => d.rank == r && d.unit == unitKey h) = [d]) ∧
    (∃ (h : BrineHdr) (s : State) (r : Nat), InOrder h s ∧ s.crustFrom h = some r ∧ s.deltaKnown r h = false ∧
      (s.crust.heldDeltas.filter fun d => d.rank == r && d.unit == unitKey h) = []) ∧
    (∃ (h : BrineHdr) (s : State) (r : Nat) (x : SealUnit), InOrder h s ∧ s.crustFrom h = some r ∧ s.unit? (unitKey h) = some x ∧ h.segment = 0) ∧
    ∃ (h : BrineHdr) (s : State) (r : Nat) (x : SealUnit), InOrder h s ∧ s.crustFrom h = some r ∧ s.unit? (unitKey h) = some x ∧
      h.segment = 1 ∧ x.allAcked = true ∧ x.chunk = none ∧ HostIdle s := by
  unfold InOrder HostIdle
  exact ⟨⟨crustHdr, { crusted [] with crust.heldDeltas := [heldDelta] }, 1, heldDelta, by decide +kernel⟩,
    ⟨crustHdr, { crusted [] with crust.sealsSeen := [(1, 65536)] }, 1, by decide +kernel⟩,
    ⟨unitHdr, { crusted [] with crust.units := [sentUnit] }, 1, sentUnit, by decide +kernel⟩,
    { unitHdr with segment := 1 }, { crusted [] with crust.units := [{ sentUnit with acked := [1] }] }, 1, { sentUnit with acked := [1] },
    by decide +kernel⟩

/-- A stream's segment 127 of page 6, toward rank 0. -/
def lastSegment : BrineHdr := { crustHdr with segment := 6 * 128 + 127, payload := [9#8] }

theorem witness_mirrors :
    (∃ (h : BrineHdr) (s : State) (r : Nat), InOrder h s ∧ s.crustFrom h = some r ∧ h.segment = 0 ∧ h.last = true ∧ s.crust.taking = none ∧
      r = (s.crustRankOf + 7) % 8) ∧
    (∃ (h : BrineHdr) (s : State) (r q : Nat), InOrder h s ∧ s.crustFrom h = some r ∧ h.segment = 0 ∧ h.last = true ∧ h.sequence = 4 ∧
      s.crust.taking = some q ∧ r = (q + 1) % 8 ∧ s.crust.heldChange ≠ []) ∧
    (∃ (h : BrineHdr) (s : State) (r : Nat), InOrder h s ∧ s.crustFrom h = some r ∧
      (Kv.getD s.crust.passed (2 ^ 24 * h.sequence + 6) 0).testBit 127 = true ∧ h.segment = 6 * pageSegments + 127) ∧
    (∀ cover ∈ [true, false], ∃ (h : BrineHdr) (s : State) (r : Nat), InOrder h s ∧ s.crustFrom h = some r ∧
      (Kv.getD s.crust.passed (2 ^ 24 * h.sequence + 6) 0).testBit 127 = false ∧ s.ownRank = h.sequence % 256 ∧
      h.segment = 6 * pageSegments + 127 ∧
      decide (h.sequence < 256 ∨ (s.mapEntry (s.ent Ent.crustSpanFirst + 6)).cc = true) = cover) ∧
    (∃ (h : BrineHdr) (s : State) (r : Nat), InOrder h s ∧ s.crustFrom h = some r ∧
      (Kv.getD s.crust.passed (2 ^ 24 * h.sequence) 0).testBit 0 = false ∧ h.segment = 0 ∧ s.ownRank ≠ h.sequence % 256 ∧
      s.crustMember = true ∧ HostIdle s) ∧
    ∃ s : State, s.pwr.on = true ∧ s.crust.resync = true ∧ s.resyncOver = true ∧ HostIdle s ∧ LinesLatched s := by
  unfold InOrder HostIdle
  refine ⟨⟨{ crustHdr with src := 11, sequence := 4 }, crusted [], 7, by decide +kernel⟩,
    ⟨{ crustHdr with sequence := 4 }, { crusted [(Ent.crustRole, 1)] with crust.taking := some 0, crust.heldChange := [crustHdr] }, 1, 0, by decide +kernel⟩,
    ⟨lastSegment, { crusted [] with crust.passed := [(6, 2 ^ 127)] }, 1, by decide +kernel⟩, ?_,
    ⟨{ crustHdr with sequence := 257 }, crusted [], 1, by decide +kernel⟩,
    { crusted [] with crust.resync := true, crust.passed := (List.range 8).map fun h => (2 ^ 24 * h, 2 ^ 128 - 1) }, by decide +kernel⟩
  intro cover m
  rcases List.mem_cons.1 m with rfl | m
  · exact ⟨lastSegment, crusted [], 1, by decide +kernel⟩
  · rw [List.mem_singleton.1 m]
    exact ⟨{ lastSegment with sequence := 256 }, crusted [], 1, by decide +kernel⟩

/-- A spare that the epoch change has put in rank 0, and that is still being filled. -/
def standing : State := { crusted [(Ent.crustRole, 1)] with crust.taking := some 0 }

theorem witness_members :
    (∃ s : State, s.pwr.on = true ∧ s.crustMember = true ∧ s.awaited ≠ []) ∧
    (∃ s : State, s.pwr.on = true ∧ s.crustTaker = true ∧ s.awaited ≠ []) ∧
    (∃ (h : BrineHdr) (s : State) (r : Nat), s.hears h = true ∧ s.crustFrom h = some r ∧ LinesLatched s ∧ h.psn ≠ 0) ∧
    (∃ (h : BrineHdr) (s : State) (r : Nat), InOrder h s ∧ s.crustFrom h = some r ∧ s.crust.lost.contains r = false) ∧
    ∃ (h : BrineHdr) (s : State) (r : Nat), InOrder h s ∧ s.crustFrom h = some r ∧ s.crust.lost.contains r = true := by
  unfold InOrder
  exact ⟨⟨crusted [], by decide +kernel⟩, ⟨standing, by decide +kernel⟩, ⟨{ crustHdr with psn := 9 }, crusted [], 1, by decide +kernel⟩,
    ⟨crustHdr, crusted [], 1, by decide +kernel⟩, crustHdr, { crusted [(Ent.crustSpareNode 2, 5)] with crust.lost := [1], crust.rebuilding := some (1, 2) }, 1, by decide +kernel⟩

/-- Members that have lost rank 1, with two spares named. -/
def bereft (l : List (Nat × Nat)) : State :=
  { crusted (l ++ [(Ent.crustLossAfter, 4), (Ent.crustSpareNode 2, 12), (Ent.crustSpareNode 3, 13), (Ent.trainPhase, 0)]) with
    crust.missed := [(1, 4)] }

theorem witness_losses :
    (∃ (answers : List SpareAnswer) (s : State) (j : Nat), LossIsDue 1 false s ∧ s.crust.handled.contains 1 = false ∧
      s.crust.rebuilding = none ∧ s.crust.lost.all (· == 1) = true ∧ s.ent Ent.crustState = 2 ∧ s.takenSpare 0 answers = some j) ∧
    (∃ (answers : List SpareAnswer) (s : State), LossIsDue 7 true s ∧ s.crust.handled.contains 7 = false ∧
      s.crust.rebuilding = none ∧ s.crust.lost.all (· == 7) = true ∧ s.ent Ent.crustState = 2 ∧ s.takenSpare 0 answers = none ∧ HostIdle s ∧
      s.crust.taking = none ∧ s.prog.pool.filter s.applyOver = []) ∧
    (∃ s : State, LossIsDue 1 false s ∧ s.crust.handled.contains 1 = false ∧ s.crust.rebuilding = none ∧
      s.crust.lost.all (· == 1) = false ∧ HostIdle s ∧ s.prog.pool.filter s.applyOver = []) ∧
    (∃ s : State, LossIsDue 1 false s ∧ s.crust.handled.contains 1 = false ∧ s.crust.rebuilding = none ∧
      s.crust.taking ≠ none ∧ HostIdle s ∧ s.prog.pool.filter s.applyOver = []) ∧
    (∀ state ∈ [1, 3], ∃ s : State, LossIsDue 1 false s ∧ s.crust.handled.contains 1 = false ∧ s.crust.rebuilding = none ∧
      s.crust.unserved = none ∧ s.ent Ent.crustState = state ∧ HostIdle s ∧ s.prog.pool.filter s.applyOver = []) ∧
    ∃ (answers : List SpareAnswer) (s : State) (j k : Nat), s.crust.taking = none ∧ LossIsDue 1 false s ∧ s.crust.handled.contains 1 = true ∧
      s.crust.lost.contains 1 = true ∧ s.crust.lost.all (· == 1) = true ∧ s.crust.rebuilding = some (1, j) ∧ s.ent Ent.crustState = 4 ∧
      s.ent Ent.crustLossAfter = Kv.getD s.crust.missed 1 0 ∧ s.takenSpare (j + 1) answers = some k := by
  unfold LossIsDue HostIdle
  refine ⟨⟨[⟨2, false⟩, ⟨3, true⟩], bereft [], 3, by decide +kernel⟩,
    ⟨[], { crusted [] with crust.lost := [7] }, by decide +kernel⟩,
    ⟨{ bereft [] with crust.lost := [4] }, by decide +kernel⟩,
    ⟨{ standing with crust.missed := [(1, 4)], dict.vals := (Ent.crustLossAfter, 4) :: (Ent.trainPhase, 0) :: standing.dict.vals }, by decide +kernel⟩,
    fun state h => ⟨bereft [(Ent.crustState, state)], by revert state; decide +kernel⟩,
    [⟨2, true⟩, ⟨3, true⟩], { bereft [(Ent.crustState, 4)] with crust.lost := [1], crust.handled := [1], crust.rebuilding := some (1, 2) }, 2, 3,
    by decide +kernel⟩

theorem witness_epochs :
    (∃ (h : BrineHdr) (s : State), InOrder h s ∧ s.mapsFirst h = false ∧ h.epoch = (s.group h.group.val).epoch + 1) ∧
    (∃ (h : BrineHdr) (s : State), InOrder h s ∧ s.mapsFirst h = true) ∧
    (∃ (h : BrineHdr) (s : State), InOrder h s ∧ s.mapsFirst h = false ∧ h.epoch ≠ (s.group h.group.val).epoch + 1 ∧
      ((s.group h.group.val).members.take (s.group h.group.val).p).contains (leAt h.payload 2 2) = true) ∧
    (∃ (h : BrineHdr) (s : State), InOrder h s ∧ s.mapsFirst h = false ∧ h.epoch ≠ (s.group h.group.val).epoch + 1 ∧
      ((s.group h.group.val).members.take (s.group h.group.val).p).contains (leAt h.payload 2 2) = false) ∧
    ∃ (h : BrineHdr) (s : State), InOrder h s ∧ h.group.val = s.ent Ent.trainRunGroup ∧ h.step = s.ent Ent.trainStepIndex % 65536 ∧
      (s.others h.group.val).contains h.src = true ∧ s.phase = 1 := by
  unfold InOrder
  exact ⟨⟨{ crustHdr with epoch := 2 ^ 32 - 1, payload := leBytes 8 0 },
      { crusted [] with links.groups := [(3, { valid := true, p := 8, rank := 0, epoch := 2 ^ 32 - 2, members := [4, 5, 6, 7, 8, 9, 10, 11] })] },
      by decide +kernel⟩,
    ⟨crustHdr, standing, by decide +kernel⟩,
    ⟨{ crustHdr with epoch := 0, payload := leBytes 2 0 ++ leBytes 2 11 ++ leBytes 4 12 }, crusted [], by decide +kernel⟩,
    ⟨{ crustHdr with epoch := 2, payload := leBytes 8 0 }, crusted [], by decide +kernel⟩, hdr, grouped 1, by decide +kernel⟩

/-- A spare with every stream in, whose M3 mirror is as given. -/
def filled (m3 : List Byte) : State :=
  { withEnts [(Ent.crustSpanPages, 8)] with
    crust.taking := some 7
    crust.own := [(3, m3)]
    crust.passed := (2 ^ 24 * 7, 2 ^ 128 - 1) :: (List.range 7).map fun o => (2 ^ 24 * 263 + o, 2 ^ 128 - 1) }

theorem witness_spares :
    (∃ (o : SpareOffer) (s : State), s.pwr.on = true ∧ s.crust.taking = none ∧ s.eligible o = true) ∧
    (∃ (s : State) (r : Nat), s.pwr.on = true ∧ LinesLatched s ∧ s.crust.taking = some r ∧ s.spareFilled r = true ∧
      s.ownOk (s.m3Parts ((Kv.find? s.crust.own 3).getD [])) = true ∧ s.flightOf = none) ∧
    (∃ (s : State) (r : Nat), s.pwr.on = true ∧ LinesLatched s ∧ s.crust.taking = some r ∧ s.spareFilled r = true ∧
      s.ownOk (s.m3Parts ((Kv.find? s.crust.own 3).getD [])) = false) ∧
    ∃ (s : State) (r j : Nat), s.pwr.on = true ∧ LinesLatched s ∧ s.crust.taking = none ∧ s.crust.rebuilding = some (r, j) ∧
      s.crust.epochWait = [] ∧ HostIdle s := by
  unfold HostIdle
  exact ⟨⟨⟨3, 7, 1, 0, 64, 0, 8, 7, 12, 0⟩,
      withEnts [(Ent.readySummary, 192), (Ent.progState, 2), (Ent.progImageAddress, 64), (Ent.crustRole, 1), (Ent.crustGroup, 3),
        (Ent.crustSpanFirst, 0), (Ent.crustSpanPages, 8), (Ent.crustParityFirst, 7), (Ent.trainPhase, 0)], by decide +kernel⟩,
    ⟨filled [], 7, by decide +kernel⟩, ⟨filled (zeros 128), 7, by decide +kernel⟩,
    { crusted [] with crust.rebuilding := some (7, 3) }, 7, 3, by decide +kernel⟩

/-! ### Messages, the mailbox and the field network -/

/-- The body of an item that names an entry: type, value and its complement. -/
def itemBody (k ty v : Nat) : List Byte :=
  leBytes 2 (k / 256) ++ leBytes 1 (k % 256) ++ leBytes 1 0 ++ leBytes 1 ty ++ leBytes 1 0 ++ leBytes 2 0 ++ withCompl (leBytes 8 v)

/-- The body of a segment: entry, type, flags, length, then the data and its complement. -/
def segBody (k ty flags len : Nat) (data : List Byte) : List Byte :=
  leBytes 2 (k / 256) ++ leBytes 1 (k % 256) ++ leBytes 1 0 ++ leBytes 1 ty ++ leBytes 1 flags ++ leBytes 2 len ++ leBytes 8 0 ++
    (if data = [] then [] else withCompl data)

/-- A request as the mailbox takes it. -/
def asked (op : Nat) (body : List Byte) : List Byte := msgBytes op 0 0 7 1 body

/-- A module with values of entries whose mailbox has taken a message from slot 15. -/
def mailed (msg : List Byte) (l : List (Nat × Nat)) : State :=
  { withEnts l with comm.queue := [(15, msg)], comm.slots := [(15, { state := 1, bytes := msg })] }

/-- The message of a request parses as it was put together (R355). -/
theorem test_message_layout :
    parseMsg true (asked 1 (itemBody Ent.readySummary 10 0)) =
      some { op := 1, dest := 0, src := 0, transaction := 7, items := 1, body := itemBody Ent.readySummary 10 0 } := by decide +kernel

/-- R353: one wrong byte of the body fails the CRC. -/
theorem test_message_crc : parseMsg true ((asked 1 (itemBody Ent.readySummary 10 0)).set 16 1#8) = none := by decide +kernel

theorem witness_mailbox_requests :
    (∃ (s : State) (n : Nat) (msg : List Byte) (rest : List (Nat × List Byte)), s.pwr.on = true ∧ s.comm.queue = (n, msg) :: rest ∧ n < 16 ∧
      (s.slot n).state = 1 ∧ parseMsg true msg = none) ∧
    (∃ (s : State) (n : Nat) (msg b : List Byte) (rest : List (Nat × List Byte)) (h : MsgHdr), s.pwr.on = true ∧ s.comm.queue = (n, msg) :: rest ∧
      n < 16 ∧ (s.slot n).state = 1 ∧ parseMsg true msg = some h ∧ h.op = 1 ∧ s.repeated mailboxSource h.transaction = some b) ∧
    (∃ (s : State) (p : FieldPacket), s.pwr.on = true ∧ s.isReady 0 = true ∧ p.udp = true ∧ p.dst ≠ allNodes ∧ s.nodeId = 0xFF) ∧
    (∃ (s : State) (p : FieldPacket), s.pwr.on = true ∧ s.isReady 0 = true ∧ s.takesPacket p = true ∧ parseMsg false p.bytes = none ∧
      p.dst = allNodes ∧ s.nodeId = 0xFF) ∧
    (∃ (s : State) (p : FieldPacket) (h : MsgHdr), s.pwr.on = true ∧ s.isReady 0 = true ∧ s.takesPacket p = true ∧ p.checksumOk = true ∧
      parseMsg false p.bytes = some h ∧ h.dest ≠ 0xFF ∧ h.dest ≠ s.nodeId ∧ p.dst ≠ allNodes) ∧
    ∃ (s : State) (p : FieldPacket) (b : List Byte) (h : MsgHdr), s.pwr.on = true ∧ s.isReady 0 = true ∧ s.takesPacket p = true ∧
      p.checksumOk = true ∧ parseMsg false p.bytes = some h ∧ h.op = 1 ∧
      h.dest = s.nodeId ∧ s.nodeId ≠ 0xFF ∧ p.dst ≠ allNodes ∧ s.comm.queue ≠ [] ∧ (State.drainMailbox s.comm.queue.length s).nodeId ≠ 0xFF ∧
      h.src ≠ (State.drainMailbox s.comm.queue.length s).nodeId ∧
      (State.drainMailbox s.comm.queue.length s).repeated h.src h.transaction = some b := by
  let m := asked 1 (itemBody Ent.readySummary 10 0)
  let f := msgBytes 1 1 2 7 1 (itemBody Ent.readySummary 10 0)
  refine ⟨⟨mailed [] [], 15, [], [], by decide +kernel⟩,
    ⟨{ mailed m [] with dict.last := [(mailboxSource, { transaction := 7, bytes := [1#8] })], clk.evtMgmt := 32768 }, 15, m, [1#8], [],
      { op := 1, dest := 0, src := 0, transaction := 7, items := 1, body := itemBody Ent.readySummary 10 0 }, by decide +kernel⟩,
    ⟨withEnts [(Ent.readySummary, 1), (Ent.fieldNodeId, 255)], { pkt with hopLimit := 1 }, by decide +kernel⟩,
    ⟨withEnts [(Ent.readySummary, 1), (Ent.fieldNodeId, 255)], { pkt with dst := allNodes }, by decide +kernel⟩,
    ⟨withEnts [(Ent.readySummary, 1), (Ent.fieldNodeId, 2)], { pkt with dst := nodeAddr 2, bytes := f },
      { op := 1, dest := 1, src := 2, transaction := 7, items := 1, body := itemBody Ent.readySummary 10 0 }, by decide +kernel⟩,
    { withEnts [(Ent.readySummary, 1), (Ent.fieldNodeId, 1)] with
        comm.queue := [(15, [])], dict.last := [(2, { transaction := 7, bytes := [1#8] })] }, { pkt with dst := nodeAddr 1, bytes := f }, [1#8],
    { op := 1, dest := 1, src := 2, transaction := 7, items := 1, body := itemBody Ent.readySummary 10 0 }, by decide +kernel⟩

/-- The header of a request of one item. -/
def askHdr (op : Nat) (body : List Byte) : MsgHdr := { op := op, dest := 0, src := 0, transaction := 7, items := 1, body := body }

/-- The row of an entry. -/
def row (k : Nat) : EntryRow := (State.reset.row? k).getD (ent 0 0 0 0 0 .ro .live 0 0 0 0)

/-- R343, R346: an entry below the windows, not the map's inspection, with no bad value and no line waiting, is read as it stands. -/
theorem stored_sound {s : State} {k : Nat} (rest : List (Nat × List Byte)) (hl : s.flt.lines = []) (hb : s.dict.bad.contains k = false)
    (hk : k / 256 < 0x3000) (hi : k ≠ Ent.memInspectValue) : StoredSound s rest k := by
  have c : ({ s with comm.queue := rest } : State).dict.bad.contains k = false := hb
  simp only [StoredSound, State.checkStored, c, Bool.false_eq_true, if_false]
  rw [if_neg (by omega), if_neg (by omega), if_neg (by omega), if_neg (by omega), if_neg hi]
  exact State.latchAll_of_lines hl

theorem witness_items :
    (∃ (s : State) (n : Nat) (msg : List Byte) (h : MsgHdr) (e : EntryRow), Asks s n msg [] h 1 ∧ s.row? (itemKey (h.body.take 24)) = some e ∧
      s.unreachable (itemKey (h.body.take 24)) = false ∧ StoredSound s [] (itemKey (h.body.take 24)) ∧ (leAt h.body 5 1).testBit 0 = false) ∧
    (∃ (s : State) (n : Nat) (msg : List Byte) (h : MsgHdr) (e : EntryRow), Asks s n msg [] h 3 ∧ s.row? (itemKey (h.body.take 24)) = some e ∧
      s.unreachable (itemKey (h.body.take 24)) = false) ∧
    (∃ (s : State) (n : Nat) (msg : List Byte) (h : MsgHdr) (e : EntryRow), Asks s n msg [] h 2 ∧ s.row? (itemKey (h.body.take 24)) = some e ∧
      s.writeCheck (itemKey (h.body.take 24)) (leAt h.body 4 1) (leAt h.body 8 8) (leAt h.body 16 8) = 0 ∧
      plainEntries.contains (itemKey (h.body.take 24)) = true ∧ e.apply ≠ .boundary) ∧
    (∃ (s : State) (n : Nat) (msg : List Byte) (h : MsgHdr) (e : EntryRow), Asks s n msg [] h 2 ∧ s.row? (itemKey (h.body.take 24)) = some e ∧
      s.writeCheck (itemKey (h.body.take 24)) (leAt h.body 4 1) (leAt h.body 8 8) (leAt h.body 16 8) = 0 ∧ e.apply = .boundary ∧ s.phase ≠ 0 ∧
      ¬(0x3480 ≤ itemKey (h.body.take 24) / 256 ∧ itemKey (h.body.take 24) / 256 ≤ 0x34BF ∧ itemKey (h.body.take 24) % 256 = 8)) ∧
    ∃ (s : State) (n : Nat) (msg : List Byte) (h : MsgHdr), Asks s n msg [] h 2 ∧
      s.writeCheck (itemKey (h.body.take 24)) (leAt h.body 4 1) (leAt h.body 8 8) (leAt h.body 16 8) = 5 := by
  unfold Asks
  refine ⟨⟨mailed (asked 1 (itemBody Ent.readySummary 10 0)) [], 15, asked 1 (itemBody Ent.readySummary 10 0),
      askHdr 1 (itemBody Ent.readySummary 10 0), row Ent.readySummary, by decide +kernel, by decide +kernel, by decide +kernel,
      stored_sound [] rfl (by decide +kernel) (by decide +kernel) (by decide +kernel), by decide +kernel⟩,
    ⟨mailed (asked 3 (itemBody Ent.rakeMode 0 0)) [], 15, asked 3 (itemBody Ent.rakeMode 0 0),
      askHdr 3 (itemBody Ent.rakeMode 0 0), row Ent.rakeMode, by decide +kernel⟩,
    ⟨mailed (asked 2 (itemBody Ent.memReqCount 2 4096)) [], 15, asked 2 (itemBody Ent.memReqCount 2 4096),
      askHdr 2 (itemBody Ent.memReqCount 2 4096), row Ent.memReqCount, by
      decide +kernel⟩,
    ⟨mailed (asked 2 (itemBody Ent.rakeMode 1 2)) [(Ent.trainPhase, 1)], 15, asked 2 (itemBody Ent.rakeMode 1 2),
      askHdr 2 (itemBody Ent.rakeMode 1 2), row Ent.rakeMode, by
      decide +kernel⟩,
    mailed (asked 2 ((itemBody Ent.rakeMode 1 2).set 23 0#8)) [], 15, asked 2 ((itemBody Ent.rakeMode 1 2).set 23 0#8),
      askHdr 2 ((itemBody Ent.rakeMode 1 2).set 23 0#8), by decide +kernel⟩

theorem witness_segments :
    (∃ (s : State) (n : Nat) (msg : List Byte) (h : MsgHdr) (e : EntryRow), Asks s n msg [] h 4 ∧ s.row? (segOf h.body).k = some e ∧
      e.isBlob = true ∧ (segOf h.body).len = 512 ∧ s.unreachable (segOf h.body).k = false ∧ StoredSound s [] (segOf h.body).k) ∧
    ∃ (s : State) (n : Nat) (msg : List Byte) (h : MsgHdr), Asks s n msg [] h 5 ∧ s.segCheck mailboxSource (segOf h.body) = 0 ∧
      (segOf h.body).flags = 1 ∧ (segOf h.body).off = 0 ∧ (segOf h.body).data.length ≤ blobMax (segOf h.body).k := by
  unfold Asks
  exact ⟨⟨mailed (asked 4 (segBody 0x100001 11 0 512 [])) [], 15, asked 4 (segBody 0x100001 11 0 512 []),
      askHdr 4 (segBody 0x100001 11 0 512 []), row 0x100001, by decide +kernel, by decide +kernel, by decide +kernel, by decide +kernel,
      by decide +kernel, stored_sound [] rfl (by decide +kernel) (by decide +kernel) (by decide +kernel)⟩,
    mailed (asked 5 (segBody Ent.secAttestNonce 12 1 3 [1#8, 2#8, 3#8])) [], 15, asked 5 (segBody Ent.secAttestNonce 12 1 3 [1#8, 2#8, 3#8]),
      askHdr 5 (segBody Ent.secAttestNonce 12 1 3 [1#8, 2#8, 3#8]), by
    decide +kernel⟩

/-- The mailbox answers the host. -/
def open_ (l : List (Nat × MbxSlot)) : State := { withEnts [(Ent.readySummary, 2)] with links.host.perst := false, comm.slots := l }

theorem witness_mailbox_slots :
    (∃ (s : State) (v : BitVec 32), s.isReady 1 = true ∧ s.links.host.d3 = false ∧ s.links.host.perst = false ∧ LinesLatched s ∧ HostIdle s ∧
      v.toNat = 15 ∧ (s.slot v.toNat).state = 0) ∧
    (∃ (s : State) (v : BitVec 32), s.isReady 1 = true ∧ s.links.host.d3 = false ∧ s.links.host.perst = false ∧ LinesLatched s ∧ HostIdle s ∧
      v.toNat = 16) ∧
    (∃ (s : State) (v : BitVec 32), s.isReady 1 = true ∧ s.links.host.d3 = false ∧ s.links.host.perst = false ∧ LinesLatched s ∧ HostIdle s ∧
      (s.slot v.toNat).state ≠ 0) ∧
    (∃ (s : State) (n : Fin 16), s.isReady 1 = true ∧ s.links.host.d3 = false ∧ s.links.host.perst = false ∧ 2 ≤ (s.slot n).state) ∧
    (∃ (s : State) (n : Fin 16), s.isReady 1 = true ∧ s.links.host.d3 = false ∧ s.links.host.perst = false ∧ (s.slot n).state < 2) ∧
    (∃ (s : State) (v : BitVec 32) (w : Bar2Writes), s.isReady 1 = true ∧ s.links.host.d3 = false ∧ s.links.host.perst = false ∧ LinesLatched s ∧
      HostIdle s ∧ toBar2 w = true ∧ w.config = [] ∧ w.bell = false ∧ v.toNat = 0) ∧
    (∃ off b : Nat, off + 1 = 0x8000 ∧ b = 0x18004) ∧
    (∃ s : State, s.links.host.up = true ∧ s.links.host.d3 = true) ∧
    ∃ (s : State), s.isReady 1 = false := by
  unfold HostIdle
  exact ⟨⟨open_ [], 15#32, by decide +kernel⟩, ⟨open_ [], 16#32, by decide +kernel⟩, ⟨open_ [(0, { state := 2 })], 0#32, by decide +kernel⟩,
    ⟨open_ [(0, { state := 2 })], 0, by decide +kernel⟩, ⟨open_ [(0, { state := 1 })], 0, by decide +kernel⟩,
    ⟨open_ [], 0#32, { message := [], irqEnable := some true, masks := [], bell := false }, by decide +kernel⟩, ⟨0x7FFF, 0x18004, by decide⟩,
    ⟨{ powered with links.host.up := true, links.host.d3 := true }, rfl, rfl⟩, powered, by decide +kernel⟩

theorem witness_field_network :
    (∃ (s : State) (src : Fin 256), s.pwr.on = true ∧ s.isReady 0 = true ∧ s.nodeId = 0xFF ∧ s.comm.addrIn = true ∧ src.val = 30) ∧
    (∃ (s : State) (src : Fin 256), s.pwr.on = true ∧ s.isReady 0 = true ∧ s.nodeId ≠ 0xFF ∧ src.val ≠ s.nodeId) ∧
    (∃ s : State, s.pwr.on = true ∧ s.nodeId ≠ 0xFF ∧ s.ent Ent.fieldNotifyEnable = 1 ∧ s.comm.notifyDue = true ∧
      s.paced s.comm.notifyAt = true ∧ s.comm.outbox.contains .notify = false) ∧
    (∃ s : State, s.pwr.on = true ∧ s.comm.notifyDue = false) ∧
    ∃ s : State, s.pwr.on = true ∧ s.comm.transmitting = true ∧ s.comm.outbox = .notify :: [] :=
  ⟨⟨{ withEnts [(Ent.readySummary, 1), (Ent.fieldNodeId, 255)] with comm.addrIn := true }, 30, by decide +kernel⟩,
    ⟨withEnts [(Ent.readySummary, 1), (Ent.fieldNodeId, 31)], 255, by decide +kernel⟩,
    ⟨{ withEnts [(Ent.readySummary, 1), (Ent.fieldNodeId, 31), (Ent.fieldNotifyEnable, 1)] with comm.notifyAt := some 0, comm.notifyDue := true, clk.evtMgmt := 328 },
      by decide +kernel⟩, ⟨powered, rfl, rfl⟩,
    { powered with comm.transmitting := true, comm.outbox := [.notify] }, by decide +kernel⟩

/-! ### The host port, the links, the stockpile, faults and reports -/

/-- A module whose host link is up, with page 5 mapped. -/
def hosted (d3 : Bool) : State := { powered with links.host.up := true, links.host.perst := false, links.host.d3 := d3, mem.map := page5 }

theorem witness_host_resets :
    (∃ s : State, s.pwr.on = true ∧ s.links.host.perst = false ∧ s.links.host.up = true) ∧
    ∃ (s : State) (msg : List Byte) (h : MsgHdr), s.pwr.on = true ∧ s.comm.queue = (16, msg) :: [] ∧ parseMsg true msg = some h ∧ h.op = 2 ∧
      (2, Instr.ixiqueWrite .mailbox) ∈ mailboxRequests :=
  ⟨⟨hosted false, by decide⟩, { powered with comm.queue := [(16, asked 2 (itemBody Ent.rakeMode 1 2))] }, asked 2 (itemBody Ent.rakeMode 1 2),
    askHdr 2 (itemBody Ent.rakeMode 1 2), by decide +kernel⟩

theorem witness_doorbell : ∃ (s : State) (v : BitVec 32) (w : Bar2Writes), s.isReady 1 = true ∧ s.links.host.d3 = false ∧
    s.links.host.perst = false ∧ HostIdle s ∧ LinesLatched s ∧ plainBell w ∧ v.toNat + 1 = 16 ∧ (s.slot v.toNat).state = 0 := by
  unfold HostIdle plainBell
  exact ⟨open_ [], 15#32, { message := [], irqEnable := none, masks := [] }, by decide +kernel⟩

theorem witness_window :
    (∃ (offset len : Nat) (s : State), HostReaches s offset len ∧ s.links.host.d3 = false ∧ s.rangeTrouble (s.windowAddr offset) len = none) ∧
    (∃ (offset : Nat) (data : List Byte) (s : State), HostReaches s offset data.length ∧ s.links.host.d3 = false ∧
      s.writeCode true (s.windowAddr offset) data.length = 0 ∧
      (∀ p ∈ pagesOf (s.windowAddr offset) data.length, (Kv.find? s.mem.migrating p).isNone = true) ∧ s.crustMember = false) ∧
    (∃ (offset len x : Nat) (s : State), HostReaches s offset len ∧ s.links.host.d3 = false ∧
      (∀ p ∈ pagesOf (s.windowAddr offset) len, (s.mapEntry p).v = true) ∧ s.rangeTrouble (s.windowAddr offset) len = some (.poisoned x)) ∧
    (∃ (offset len p : Nat) (s : State), HostReaches s offset len ∧ s.links.host.d3 = false ∧
      (∀ p ∈ pagesOf (s.windowAddr offset) len, (s.mapEntry p).v = true) ∧ s.rangeTrouble (s.windowAddr offset) len = some (.pending p) ∧
      s.mem.lostPages.contains p = true) ∧
    (∃ s : State, s.flt.fatal ≠ 0 ∧ s.links.host.up = true) ∧
    (∃ (offset len : Nat) (s : State), HostReaches s offset len ∧ s.links.host.d3 = true) ∧
    (∃ (offset len : Nat) (s : State), offset + len = s.barSize + 1 ∧ s.links.host.up = true) ∧
    ∃ (offset len : Nat) (s : State), HostReaches s offset len ∧ s.links.host.d3 = false ∧ s.windowAddr offset % pageBytes + len = pageBytes ∧
      (s.mapEntry (pageOf (s.windowAddr offset))).v = false ∧ s.pageWriteCode true (pageOf (s.windowAddr offset)) ≠ 0 := by
  unfold HostReaches HostIdle
  exact ⟨⟨6 * pageBytes - 2, 2, hosted false, by decide +kernel⟩, ⟨5 * pageBytes, [1#8, 2#8], hosted false, by decide +kernel⟩,
    ⟨5 * pageBytes, 256, 5 * pageBytes, { hosted false with mem.poison := [5 * 2048] }, by decide +kernel⟩,
    ⟨5 * pageBytes, 64, 5, { hosted false with mem.map := [(5, { v := true, rb := true, tier := 1 })], mem.lostPages := [5] }, by decide +kernel⟩,
    ⟨{ hosted false with flt.fatal := 1 }, by decide⟩, ⟨0, 1, hosted true, by decide +kernel⟩,
    ⟨2 ^ 43, 1, hosted false, by decide +kernel⟩, 7 * pageBytes - 4, 4, hosted false, by decide +kernel⟩

theorem witness_links :
    (∃ s : State, s.pwr.on = true ∧ LinesLatched s ∧ s.links.host.perst = false) ∧
    (∃ (s : State) (d : CxlId), s.pwr.on = true ∧ LinesLatched s ∧ (Kv.getD s.links.cxl d.val {}).up = false) ∧
    (∃ (s : State) (p : PortId) (l : LaneId) (e : LaneErr), s.pwr.on = true ∧ LinesLatched s ∧ (s.lane (4 * p.val + l.val)).retired = false ∧
      e = .fec ∧ ∀ n, e ≠ .corrected n) ∧
    (∃ rate width : Nat, cxlTrains rate width = false ∧ hostRuns rate width = false) ∧
    (∀ rate ∈ [32, 64], ∀ width ∈ [4, 8], ¬(rate = 64 ∧ width = 8) → ∃ s : State, s.pwr.on = true ∧ LinesLatched s ∧ HostIdle s ∧
      cxlTrains rate width = true ∧ (rate < 64 ∨ width < 8)) ∧
    (∃ (s : State) (p : PortId) (l : LaneId), s.pwr.on = true ∧ LinesLatched s ∧ (s.lane (4 * p.val + l.val)).retired = false ∧
      s.links.portsOut.contains p.val = false) ∧
    (∀ rate ∈ [32, 64, 128], ∀ width ∈ [4, 8, 16],
      ∃ s : State, s.pwr.on = true ∧ s.links.host.perst = false ∧ s.links.host.up = false ∧ hostRuns rate width = true) ∧
    ∃ (rate width : Nat) (s : State) (d : CxlId), s.pwr.on = true ∧ (s.dev d.val).role ≠ 0xFE ∧ cxlTrains rate width = true ∧ 64 ≤ rate ∧
      8 ≤ width ∧ HostIdle s ∧ LinesLatched s := by
  unfold HostIdle
  exact
  ⟨⟨hosted false, by decide⟩, ⟨powered, 11, by decide +kernel⟩,
    ⟨powered, 7, 3, .fec, rfl, rfl, by decide +kernel, rfl, fun n h => by cases h⟩, ⟨63, 8, by decide⟩,
    fun rate hr width hw h => ⟨powered, rfl, rfl, by decide, by revert rate width; decide⟩, ⟨powered, 7, 3, by decide +kernel⟩,
    fun rate hr width hw => ⟨{ powered with links.host.perst := false }, rfl, rfl, rfl, by revert rate width; decide⟩, 64, 8, powered, 0, by decide +kernel⟩

/-- A snapshot of page 5 with one byte of it, and the module that holds it. -/
def snap : Snapshot := { step := 3, pages := [(5, [(5 * pageBytes + 1, 9#8)])], complete := true, bytes := 100 }

theorem witness_snapshots :
    (∃ (s : State) (w : Snapshot), s.pwr.on = true ∧ s.stock.writing = some w ∧ s.stock.imageWritten = false) ∧
    (∃ (s : State) (w : Snapshot), s.pwr.on = true ∧ s.stock.writing = some w ∧ s.stock.imageWritten = true ∧ s.ent Ent.stockState ≠ 4 ∧
      LinesLatched s ∧ s.stock.lifeBytes + w.bytes + 1 = wornBytes) ∧
    (∃ (s : State) (w : Snapshot), s.pwr.on = true ∧ s.stock.writing = some w ∧ s.stock.imageWritten = true ∧ s.ent Ent.stockState ≠ 4 ∧
      LinesLatched s ∧ wornBytes = s.stock.lifeBytes + w.bytes ∧ s.stock.wornNoted = false) ∧
    ∃ (s : State) (v : Nat) (w : Snapshot), s.pwr.on = true ∧ s.stock.restoring = some v ∧ s.snapshot? v = some w ∧ SnapshotSound w ∧
      MemoryCanonical s ∧ w.pages ≠ [] := by
  unfold SnapshotSound
  exact ⟨⟨{ powered with stock.writing := some snap }, snap, by decide +kernel⟩,
    ⟨{ powered with stock.writing := some snap, stock.imageWritten := true, stock.lifeBytes := wornBytes - 101 }, snap, by decide +kernel⟩,
    ⟨{ powered with stock.writing := some snap, stock.imageWritten := true, stock.lifeBytes := wornBytes - 100 }, snap, by decide +kernel⟩,
    { powered with stock.restoring := some 3, stock.snaps := [snap] }, 3, snap, by decide +kernel⟩

/-- A fault that a collector has latched. -/
def latched : Latched := { cls := 6, sev := 1, seq := 4 }

theorem witness_faults :
    (∃ (r : FaultReport) (s : State), s.pwr.on = true ∧ reportOk r = true ∧ LinesLatched s ∧ r.cls = 0x11) ∧
    (∃ (r : FaultReport) (s : State), s.pwr.on = true ∧ reportOk r = true ∧ LinesLatched s ∧ r.cls = 0x10 ∧ r.source ≠ intSignature ∧
      ((s.mismatch r).judge (forward 4 { r with atLeast := if r.source = intRake then max 2 r.atLeast else r.atLeast })).sev < 2) ∧
    (∃ (r : FaultReport) (s : State), s.pwr.on = true ∧ reportOk r = true ∧ LinesLatched s ∧ r.cls = 0x10 ∧ r.source = intRake ∧
      r.source ≠ intGroup ∧
      2 ≤ ((s.mismatch r).judge (forward 4 { r with atLeast := if r.source = intRake then max 2 r.atLeast else r.atLeast })).sev) ∧
    (∃ (r : FaultReport) (s : State), s.pwr.on = true ∧ reportOk r = true ∧ LinesLatched s ∧ r.cls = 0x10 ∧ r.source = intGroup ∧
      2 ≤ ((s.mismatch r).judge (forward 4 { r with atLeast := if r.source = intRake then max 2 r.atLeast else r.atLeast })).sev) ∧
    (∃ (r : FaultReport) (s : State), s.pwr.on = true ∧ reportOk r = true ∧ LinesLatched s ∧ r.cls = 0x10 ∧ r.source = intSignature) ∧
    (∃ (r : FaultReport) (s : State), s.pwr.on = true ∧ reportOk r = true ∧ LinesLatched s ∧ r.cls ≠ 0x10 ∧ r.cls ≠ 0x11 ∧
      (s.judge (forward 4 r)).sev < 2) ∧
    (∃ (r : FaultReport) (s : State), s.pwr.on = true ∧ reportOk r = true ∧ LinesLatched s ∧ r.cls ≠ 0x10 ∧ r.cls ≠ 0x11 ∧
      2 ≤ (s.judge (forward 4 r)).sev) ∧
    (∃ (r : FaultReport) (s : State), s.pwr.on = true ∧ reportOk r = true ∧ LinesLatched s ∧ r.cls ≠ 0x10 ∧ r.cls ≠ 0x11 ∧
      (s.collector (colKey (levelCode (forward 4 r).level) (forward 4 r).unit)).slot1 = none) ∧
    (∃ (l : Level) (unit : Nat) (s : State) (f g : Latched), s.pwr.on = true ∧ unit + 1 = levelInstances (levelCode l) ∧
      (s.collector (colKey (levelCode l) unit)).slot1 = some f ∧ (s.collector (colKey (levelCode l) unit)).slot2 = some g ∧ f.sev < 2) ∧
    (∃ (l : Level) (unit : Nat) (s : State) (f : Latched), s.pwr.on = true ∧ unit < levelInstances (levelCode l) ∧
      (s.collector (colKey (levelCode l) unit)).slot1 = some f ∧ f.sev = 2) ∧
    ∃ (l : Level) (unit : Nat) (s : State), s.pwr.on = true ∧ unit < levelInstances (levelCode l) ∧
      (s.collector (colKey (levelCode l) unit)).slot1 = none :=
  ⟨⟨{ fault 0x11 .module 0 with space := 1 }, powered, by decide +kernel⟩, ⟨fault 0x10 .core 127, powered, by decide +kernel⟩,
    ⟨{ fault 0x10 .core 0 with source := intRake }, powered, by decide +kernel⟩,
    ⟨{ fault 0x10 .core 0 with source := intGroup, atLeast := 2 }, powered, by decide +kernel⟩,
    ⟨{ fault 0x10 .module 0 with source := intSignature }, powered, by decide +kernel⟩,
    ⟨fault 0x01 .pan 511, powered, by decide +kernel⟩, ⟨{ fault 0x06 .core 0 with atLeast := 2 }, powered, by decide +kernel⟩, ⟨fault 0x06 .pan 511, powered, by decide +kernel⟩,
    ⟨.pan, 511, { powered with flt.collectors := [(colKey 0 511, { slot1 := some latched, slot2 := some latched })] }, latched, latched,
      by decide +kernel⟩,
    ⟨.module, 0, { powered with flt.collectors := [(colKey 4 0, { slot1 := some { latched with sev := 2 } })] }, { latched with sev := 2 },
      by decide +kernel⟩, .die, 1, powered, by decide +kernel⟩

theorem witness_mirror_flush :
    (∃ s : State, s.pwr.on = true ∧ LinesLatched s ∧ s.flt.flashFailed = false) ∧
    ∃ (s : State) (q : Nat) (r : EvRecord), s.pwr.on = true ∧ LinesLatched s ∧ s.flt.flashFailed = false ∧ s.flt.mirrorQueue = q :: [] ∧
      s.flt.records.find? (fun x => x.seq == q) = some r :=
  ⟨⟨powered, by decide⟩, { powered with flt.mirrorQueue := [0], flt.records := [{}] }, 0, {}, by decide⟩

/-- A report of 4 bytes, asked for at an address in page 5. -/
def reportJob (a : Option Nat) : ReportJob := { index := 0, toAddress := a, bytes := [1#8, 2#8, 3#8, 4#8] }

theorem signedReport_length (s : State) (j : ReportJob) : (signedReport s j).length = j.bytes.length + 2500 := by
  simp only [signedReport, List.length_append, List.length_take, zeros, List.length_replicate]
  omega

theorem witness_reports :
    (∃ (s : State) (j : ReportJob), s.sec.job = some j ∧ LinesLatched s ∧ j.toAddress = none) ∧
    (∃ (s : State) (j : ReportJob) (a : Nat), s.sec.job = some j ∧ LinesLatched s ∧ j.toAddress = some a ∧
      s.rangeOrdinary a (signedReport s j).length = true ∧ s.writeCode true a (signedReport s j).length ≠ 0) ∧
    (∃ (s : State) (j : ReportJob) (a : Nat), s.sec.job = some j ∧ LinesLatched s ∧ j.toAddress = some a ∧ s.mem.owed = [] ∧
      s.rangeOrdinary a (signedReport s j).length = true ∧ s.writeCode true a (signedReport s j).length = 0 ∧
      s.writeWaits true a (signedReport s j).length = true) ∧
    ∃ (s : State) (j : ReportJob) (a : Nat), s.sec.job = some j ∧ LinesLatched s ∧ j.toAddress = some a ∧ s.mem.owed = [] ∧
      s.rangeOrdinary a (signedReport s j).length = true ∧ s.writeCode true a (signedReport s j).length = 0 ∧
      s.writeWaits true a (signedReport s j).length = false := by
  let a := 6 * pageBytes - 2504
  refine ⟨⟨{ powered with sec.job := some (reportJob none) }, reportJob none, rfl, rfl, rfl⟩,
    ⟨{ powered with sec.job := some (reportJob (some a)), mem.map := [(5, { v := true, ro := true })] }, reportJob (some a), a, rfl, rfl, rfl, ?_⟩,
    ⟨{ crusted [] with
        crust.resync := true, sec.job := some (reportJob (some a)), mem.map := [(5, { v := true, cc := true })],
        dict.vals := (Ent.crustMode, 1) :: (Ent.crustState, 3) :: (crusted []).dict.vals }, reportJob (some a), a, rfl, rfl, rfl, rfl, ?_⟩,
    { powered with sec.job := some (reportJob (some (6 * pageBytes - 2504))), mem.map := page5 }, reportJob (some (6 * pageBytes - 2504)),
    6 * pageBytes - 2504, rfl, rfl, rfl, rfl, ?_⟩ <;> rw [signedReport_length] <;> decide +kernel

theorem witness_firmware : ∃ s : State, s.pwr.on = true ∧ s.sec.fwStarted = false ∧ (s.sec.bootState = 1 ∨ s.sec.bootState = 2) ∧
    componentsOk (if s.sec.bankBooted = 1 then s.nv.bankB else s.nv.bankA) (fun _ => true) = true :=
  ⟨{ powered with sec.bootState := 2, nv.bankA := [] }, by decide +kernel⟩

theorem witness_frozen_group : ∃ (slot : Nat) (s : State) (r : DescRun), s.pwr.on = true ∧ s.desc? slot = some r ∧ r.ready = false ∧
    r.hollow = false ∧ LinesLatched s ∧ r.isUpdate = true ∧ s.layerFrozen r.d.layer = true :=
  ⟨0, { withEnts [(Ent.commitFrozenMask, 1)] with
      prog.pool := [{ d := { kind := 2 }, update := true }]
      prog.loaded := some { descs := [{ kind := 2 }], layers := [{ ladder := 2, variants := [noVariant, 0] }],
                            variants := [[(0, 0), (0, 0), (0, 1)]] } },
    { d := { kind := 2 }, update := true }, by decide +kernel⟩

/-! ### A step program, and firmware images -/

/-- Bytes of a range that a write has just stored. -/
theorem ramRead_ramWrite (s : State) (a n : Nat) (l : List Byte) (h : n ≤ l.length) : (s.ramWrite a l).ramRead a n = l.take n := by
  apply List.ext_getElem
  · simp [State.ramRead, h]
  · intro i hi _
    have k : i < n := by simpa [State.ramRead] using hi
    have j : i < l.length := by omega
    simp [State.ramRead, State.ramByte_ramWrite (s := s) (a := a) j, List.getD_eq_getElem?_getD, j]

/-- The tables of an image of R184 with one layer, whose variant of Fine has no descriptor, and one tensor of 32 by 32. -/
def imageTables : List Byte :=
  let head := [0x53#8, 0x4C#8, 0x54#8, 0x4E#8] ++ leBytes 2 1 ++ leBytes 2 1 ++ leBytes 4 4096 ++ leBytes 4 0 ++ leBytes 4 1 ++ leBytes 4 0 ++
    leBytes 2 0 ++ leBytes 2 1 ++ leBytes 4 0 ++ leBytes 8 256 ++ leBytes 8 304 ++ leBytes 8 328 ++ leBytes 8 328 ++ leBytes 8 392 ++
    leBytes 8 392 ++ leBytes 8 396 ++ leBytes 8 0
  let layer := leBytes 4 (2 + 256 + 4096) ++ zeros 16 ++ (([noVariant, 0] ++ List.replicate 3 noVariant).flatMap (leBytes 4)) ++ zeros 8
  let tensor := leBytes 8 4096 ++ leBytes 4 0 ++ leBytes 2 65535 ++ leBytes 2 65535 ++ leBytes 4 32 ++ leBytes 4 32 ++ leBytes 4 32 ++ leBytes 4 0
  head ++ zeros 160 ++ layer ++ zeros 24 ++ withCompl tensor ++ leBytes 4 0

/-- The image, all but its hash. -/
def imageBody : List Byte := imageTables ++ zeros 3700

/-- Its hash. -/
def imageHash : Nat := 63087726820708074904250034438171881856391744405157039295932293216583019162812

theorem imageBody_hash : digest256 imageBody = imageHash := by
  rw [digest256_eq]
  decide +kernel

/-- The image. -/
def image : List Byte := imageBody.take 0x60 ++ leBytes 32 imageHash ++ imageBody.drop 0x80

theorem imageBody_length : imageBody.length = 4096 := by
  have h : imageTables.length = 396 := by decide +kernel
  rw [imageBody, List.length_append, h, zeros, List.length_replicate]

theorem imageHash_length : (leBytes 32 imageHash).length = 32 := by decide +kernel

theorem image_length : image.length = 4096 := by
  simp only [image, List.length_append, List.length_take, List.length_drop, imageBody_length, imageHash_length]
  decide

/-- With its hash field at zero, the image is what its hash covers. -/
theorem image_hashInput : hashInput image = imageBody := by
  have l : (imageBody.take 0x60).length = 96 := by rw [List.length_take, imageBody_length]; decide
  have z : (imageBody.drop 0x60).take 32 = zeros 32 := by decide +kernel
  have a : image.take 0x60 = imageBody.take 0x60 := by
    rw [image, List.append_assoc, List.take_append_of_le_length (by omega), List.take_take]
    rfl
  have b : image.drop 0x80 = imageBody.drop 0x80 := by
    rw [image, List.drop_left' (by rw [List.length_append, l, imageHash_length])]
  rw [hashInput, a, b, ← z, List.append_assoc, show imageBody.drop 0x80 = (imageBody.drop 0x60).drop 32 by rw [List.drop_drop],
    List.take_append_drop, List.take_append_drop]

/-- Memory holds the image at address 0. -/
def loadable : State := { powered with mem.map := [(0, { v := true })], prog.checking := some 0 }.ramWrite 0 image

theorem witness_load :
    (∃ (s : State) (a : Nat), s.prog.checking = some a ∧ s.prog.verdict.or (s.loadFails a) = none) ∧
    ∃ (s : State) (a : Nat) (v : Nat × Nat), s.prog.checking = some a ∧ s.prog.verdict.or (s.loadFails a) = some v := by
  refine ⟨⟨loadable, 0, rfl, ?_⟩, { powered with prog.checking := some 0 }, 0, (6, 0), rfl, by decide +kernel⟩
  have e : loadable.ramRead 0 256 = image.take 256 := ramRead_ramWrite _ 0 256 _ (by rw [image_length]; decide)
  have f : loadable.ramRead 0 4096 = image := by
    rw [show loadable.ramRead 0 4096 = image.take 4096 from ramRead_ramWrite _ 0 4096 _ (by have h := image_length; omega)]
    exact List.take_of_length_le (by have h := image_length; omega)
  have n : hdrBytes (image.take 256) = 4096 := by decide +kernel
  have d : digest256 (hashInput image) = leAt image 0x60 32 := by
    rw [image_hashInput, imageBody_hash]
    decide +kernel
  have v : loadable.prog.verdict = none := rfl
  have m (k : Nat) (h : k = 256 ∨ k = 4096) : loadable.rangeMapped 0 k = true := by rcases h with rfl | rfl <;> decide +kernel
  rw [v]
  simp only [Option.none_or, State.loadFails, e, n, f, d, m 256 (.inl rfl), m 4096 (.inr rfl)]
  rw [show headerFails (image.take 256) = none by decide +kernel]
  simp only [Bool.not_true, Bool.false_eq_true, if_false, ne_eq, not_true_eq_false]
  decide +kernel

/-- SHAKE256 of nothing: the value that FIPS 202's algorithm gives, 46b9dd2b 0ba88d13 233b3feb 743eeb24 and so on. -/
def emptyDigest : Nat := 21468664885170662639985957090336418708702569955620632736621138429888230701382

theorem test_digest_of_nothing : digest256 [] = emptyDigest := by
  rw [digest256_eq]
  decide +kernel

/-- The table of a firmware image of 65,536 bytes whose five components are empty. -/
def fwTable : List Byte :=
  [0x4B#8, 0x5A#8, 0x46#8, 0x57#8] ++ leBytes 2 1 ++ leBytes 2 1 ++ leBytes 8 0 ++ leBytes 4 0 ++ leBytes 4 65536 ++ leBytes 4 5 ++ leBytes 4 0 ++
    ([1, 2, 3, 4, 5].flatMap fun k => leBytes 4 k ++ leBytes 4 4096 ++ leBytes 8 0 ++ leBytes 32 emptyDigest)

/-- The header as it is signed. -/
def fwHead : List Byte := fwTable ++ zeros 3824

theorem fwHead_length : fwHead.length = 4096 := by
  have h : fwTable.length = 272 := by decide +kernel
  rw [fwHead, List.length_append, h, zeros, List.length_replicate]

theorem slice_head (t : List Byte) (o k : Nat) (h : o + k ≤ 4096) : slice (fwHead ++ t) o k = slice fwHead o k := by
  unfold slice
  rw [List.drop_append_of_le_length (by rw [fwHead_length]; omega), List.take_append_of_le_length (by rw [List.length_drop, fwHead_length]; omega)]

theorem leAt_head (t : List Byte) (o k : Nat) (h : o + k ≤ 4096) : leAt (fwHead ++ t) o k = leAt fwHead o k := by
  rw [leAt, slice_head t o k h, ← leAt]

theorem components_head (t : List Byte) : imageComponents (fwHead ++ t) = imageComponents fwHead := by
  unfold imageComponents
  rw [leAt_head t _ _ (by decide), show leAt fwHead 0x18 4 = 5 by decide +kernel]
  apply List.map_congr_left
  intro i h
  have k := List.mem_range.1 h
  simp only [imageComponent, leAt_head t _ _ (show 0x20 + 48 * i + 4 ≤ 4096 by omega),
    leAt_head t _ _ (show 0x20 + 48 * i + 4 + 4 ≤ 4096 by omega), leAt_head t _ _ (show 0x20 + 48 * i + 8 + 4 ≤ 4096 by omega),
    leAt_head t _ _ (show 0x20 + 48 * i + 16 + 32 ≤ 4096 by omega)]

/-- The image's shape is sound, whatever follows the header, where there is enough of it. -/
theorem shape_head (t : List Byte) (h : 61440 ≤ t.length) : imageShapeOk (fwHead ++ t) = true := by
  have n : leAt fwHead 0x14 4 = 65536 := by decide +kernel
  have k : leAt fwHead 0x18 4 = 5 := by decide +kernel
  have l : 65536 ≤ (fwHead ++ t).length := by rw [List.length_append, fwHead_length]; omega
  have c : ∀ i < 5, leAt (fwHead ++ t) (0x20 + 48 * i + 12) 4 = 0 := by
    intro i hi
    rw [leAt_head t _ _ (by omega)]
    revert i
    decide +kernel
  simp only [imageShapeOk, components_head, slice_head t _ _ (show 0 + 4 ≤ 4096 by decide), leAt_head t 4 2 (by decide), leAt_head t 0x14 4 (by decide),
    leAt_head t 0x18 4 (by decide), leAt_head t 0x0A 2 (by decide), leAt_head t 0x12 2 (by decide), slice_head t 0x320 3296 (by decide), n, k,
    slice_head t (0x20 + 48 * 5) (48 * (16 - 5)) (by decide), l, decide_true, Bool.and_true]
  rw [show ((List.range 5).all fun i => decide (leAt (fwHead ++ t) (0x20 + 48 * i + 12) 4 = 0)) = true from
    List.all_eq_true.2 fun i hi => decide_eq_true (c i (List.mem_range.1 hi))]
  decide +kernel

theorem components_pass (t : List Byte) (p : Nat → Bool) : componentsOk (fwHead ++ t) p = true := by
  have e : imageComponents fwHead = [1, 2, 3, 4, 5].map fun k => (k, 4096, 0, emptyDigest) := by decide +kernel
  have z : ∀ k, componentOk (fwHead ++ t) (k, 4096, 0, emptyDigest) = true := fun k => by
    rw [componentOk, slice, List.take_zero, test_digest_of_nothing]
    exact decide_eq_true rfl
  rw [componentsOk, components_head, e]
  simp [z]

/-- R422: the image whose signature the vendor's key verifies is one that no check rejects; the vendor's keys have no value in this model. -/
theorem witness_staging (sig : List Byte) (h : sig.length = 2820) (ok : xmssVerify (Config.vendorKey 0) fwHead sig = true) :
    (∀ fails : Bool, ∃ (s : State) (img : List Byte) (toB : Bool), s.pwr.on = true ∧ s.sec.staging = some (img, toB, false) ∧
      s.stageReject img = 0 ∧ (if toB then s.nv.readFailB else s.nv.readFailA) = fails) ∧
    ∃ (s : State) (img : List Byte) (toB inPlace : Bool), s.pwr.on = true ∧ s.sec.staging = some (img, toB, inPlace) ∧ s.stageReject img ≠ 0 := by
  let t := zeros 58620 ++ sig
  have l : t.length = 61440 := by simp only [t, zeros, List.length_append, List.length_replicate, h]
  have d : (fwHead ++ t).take 4096 = fwHead := List.take_left' fwHead_length
  have g : slice (fwHead ++ t) (65536 - 2820) 2820 = sig := by
    rw [slice, ← List.append_assoc, List.drop_left' (by simp only [List.length_append, fwHead_length, zeros, List.length_replicate])]
    exact List.take_of_length_le (by omega)
  refine ⟨fun fails => ⟨{ powered with sec.staging := some (fwHead ++ t, true, false), nv.readFailB := fails }, fwHead ++ t, true, rfl, rfl, ?_, rfl⟩,
    { powered with sec.staging := some ([], false, true) }, [], false, true, rfl, rfl, by decide +kernel⟩
  have r : ({ powered with sec.staging := some (fwHead ++ t, true, false), nv.readFailB := fails } : State).rollback = 0 := by
    show rollbackOf (List.replicate 64 0) = 0
    decide +kernel
  simp only [State.stageReject, State.imageReject, shape_head t (by omega), components_pass, leAt_head t 0x1C 4 (by decide),
    leAt_head t 0x10 2 (by decide), leAt_head t 0x14 4 (by decide), show leAt fwHead 0x1C 4 = 0 by decide +kernel,
    show leAt fwHead 0x10 2 = 0 by decide +kernel, show leAt fwHead 0x14 4 = 65536 by decide +kernel, d, g, ok, r]
  decide +kernel

end Sys2Proof.Tests
end

/-! PROOFS. What a command completes with: every command but the tick and those of the supply keeps what `State.Keeps` says. One lemma a
command; boot and readiness. -/

namespace Sys2Proof.Machine

/-- A meaning completes: it answers a next state, of which `P` holds. -/
def Completes (P : State → Prop) (o : Out) : Prop := ∃ t, o = .next t ∧ P t

theorem Completes.next {P : State → Prop} {t : State} (h : P t) : Completes P (.next t) := ⟨t, rfl, h⟩

variable (s : State)

/-! ### Boot and readiness -/

theorem execFirmwareStart_keeps : Completes s.Keeps (execFirmwareStart s) := by
  have refused (b : Bool) : s.Keeps (if b then { s with sec.rejectB := 5 } else { s with sec.rejectA := 5 }) :=
    ite_keeps (.of_mk rfl rfl .rfl') (.of_mk rfl rfl .rfl')
  refine .next (ite_keeps (ite_keeps ?good (ite_keeps ?recover (ite_keeps ?other ?neither))) .rfl')
  case good => exact State.latchAll_keeps _ (State.createAttestKey_keeps _ (.of_mk rfl rfl .rfl'))
  case recover => exact State.latchAll_keeps _ (State.recoveryMode_keeps _ (refused _))
  case other =>
    exact State.latchAll_keeps _ (State.createAttestKey_keeps _ (.of_mk rfl rfl (State.bootBank_keeps _ _ _ (refused _))))
  case neither =>
    exact State.latchAll_keeps _ (State.recoveryMode_keeps _
      (ite_keeps (.of_mk rfl rfl (refused _)) (.of_mk rfl rfl (refused _))))

theorem execRecorderReloadDone_keeps : Completes s.Keeps (execRecorderReloadDone s) :=
  .next (ite_keeps (State.setReady_keeps _ _ _ (foldl_keeps (fun _ _ => State.storeRecord_keeps _ _) _
    (State.setEnt_keeps _ _ _ (.of_mk rfl rfl .rfl')))) .rfl')

theorem execFunctionReady_keeps (f : FnId) : Completes s.Keeps (execFunctionReady f s) := by
  refine .next (ite_keeps .rfl' ?_)
  cases f with
  | core c => exact ite_keeps .rfl' (State.computeCheck_keeps _ (State.setCoreReady_keeps _ _ _ .rfl'))
  | bit b =>
    exact ite_keeps (State.computeCheck_keeps _ (State.bitSet_keeps _ _ (State.setReady_keeps _ _ _ (State.bringUp_keeps _ _ .rfl')))) .rfl'

theorem execReadinessDeadline_keeps (f : FnId) : Completes s.Keeps (execReadinessDeadline f s) := by
  have late (b : Nat) (x : FnId) : s.Keeps (s.lateRecord b x) := State.lateRecord_keeps _ _ _ .rfl'
  refine .next (ite_keeps .rfl' ?_)
  cases f with
  | core c => exact ite_keeps .rfl' (State.latchAll_keeps _ (State.swapCore_keeps _ _ (late _ _)))
  | bit b =>
    refine ite_keeps .rfl' (ite_keeps ?cluster (ite_keeps ?stack (ite_keeps ?dev (ite_keeps ?port (ite_keeps ?dmp ?other))))) <;>
      refine State.latchAll_keeps _ ?_
    case cluster => exact State.swapCluster_keeps _ _ (late _ _)
    case stack => exact State.lateStack_keeps _ _ (late _ _)
    case dev => exact State.failDev_keeps _ _ (late _ _)
    case port => exact foldl_keeps (fun _ _ h => ite_keeps h (State.retireLane_keeps _ _ h)) _ (late _ _)
    case dmp => exact ite_keeps (late _ _) (State.swapDmp_keeps _ _ (late _ _))
    case other => exact late _ _

end Sys2Proof.Machine

/-! PROOFS. What commands keep: supply faults, event time, power, heat, clock crossings, compute units, programs and the step. -/

namespace Sys2Proof.Machine

variable (s : State)

/-! ### Supply faults and event time -/

/-- An undervoltage that leaves the rails up keeps what every command keeps. -/
theorem execInputUndervoltage_keeps {v : UnderVolt} (h42 : v ≠ .below42) (hw : v ≠ .withdrawn) :
    Completes s.Keeps (execInputUndervoltage v s) := by
  refine .next (ite_keeps .rfl' ?_)
  cases v with
  | below48 => exact State.latchAll_keeps _ (State.raise_keeps _ _ (.of_mk rfl rfl .rfl'))
  | below45 => exact ite_keeps (State.latchAll_keeps _ (State.raise_keeps _ _ .rfl')) .rfl'
  | below42 => exact absurd rfl h42
  | withdrawn => exact absurd rfl hw

theorem execInputOvervoltage_keeps : Completes s.Keeps (execInputOvervoltage s) :=
  .next (ite_keeps (State.latchAll_keeps _ (State.raise_keeps _ _ .rfl')) .rfl')

theorem execEvtTickLost_keeps : Completes s.Keeps (execEvtTickLost s) :=
  .next (ite_keeps (State.latchAll_keeps _ (State.raise_keeps _ _ .rfl')) .rfl')

theorem execAliveToggle_keeps : Completes s.Keeps (execAliveToggle s) := .next (ite_keeps (.of_mk rfl rfl .rfl') .rfl')

/-! ### Power and heat -/

theorem execPowerControlTick_keeps (m : PowerMeas) : Completes s.Keeps (execPowerControlTick m s) :=
  .next (ite_keeps
    (State.draw_keeps _ (State.bump_keeps _ _ _ _ (State.bump_keeps _ _ _ _ (State.latchAll_keeps _ (State.thawAll_keeps _
      (State.setEnt_keeps _ _ _ (foldl_keeps (fun _ _ => State.tickCluster_keeps _ _ _) _
        (State.voltTick_keeps _ _ (State.accountTick_keeps _ _ (State.meterEntries_keeps _ _ .rfl'))))))))))
    .rfl')

theorem execClockStopRelease_keeps (c : CoreId) : Completes s.Keeps (execClockStopRelease c s) :=
  .next (ite_keeps (State.latchAll_keeps _ (State.thaw_keeps _ _ (State.setCore_keeps _ _ _ .rfl'))) .rfl')

theorem execPeakStepdown_keeps : Completes s.Keeps (execPeakStepdown s) :=
  .next (ite_keeps (State.condition_keeps _ _ _ _ _ _ (State.bump_keeps _ _ _ _ (.of_mk rfl rfl .rfl'))) .rfl')

theorem execTransientSample_keeps (mw : Nat) : Completes s.Keeps (execTransientSample mw s) :=
  .next (ite_keeps (.of_mk rfl rfl (State.setEnt_keeps s _ _ .rfl')) .rfl')

theorem execThermalSample_keeps (x : Sensor) (milliC : Int) : Completes s.Keeps (execThermalSample x milliC s) := by
  refine .next ?_
  extract_lets was th now _ s1 s2
  have h1 : s.Keeps s1 := State.heatHolds_keeps _ (State.springSample_keeps _ _ _ (.of_mk rfl rfl .rfl'))
  have h2 : s.Keeps s2 := by
    unfold s2
    split
    · exact State.setStack_keeps _ _ _ h1
    · exact ite_keeps (State.replaceDev_keeps _ _ h1) h1
    · exact h1
  exact ite_keeps (ite_keeps (State.latchAll_keeps _ (State.raisePower_keeps _ _ _ h2))
    (ite_keeps (State.latchAll_keeps _ (State.raisePower_keeps _ _ _ h2)) h2)) .rfl'

theorem execThermalTrip_keeps (x : Sensor) : Completes s.Keeps (execThermalTrip x s) := by
  refine .next (ite_keeps ?_ .rfl')
  cases x with
  | cluster p => exact State.latchAll_keeps _ (State.raisePower_keeps _ _ _ (State.dieTrip_keeps _ _ .rfl'))
  | stack st => exact State.latchAll_keeps _ (State.raisePower_keeps _ _ _ (State.stackTrip_keeps _ _ .rfl'))
  | regulator r => exact State.latchAll_keeps _ (State.raisePower_keeps _ _ _ (State.regulatorTrip_keeps _ _ .rfl'))
  | cxl d => exact .rfl'
  | inlet => exact .rfl'
  | outlet => exact .rfl'

theorem execEnergyBook_keeps (b : Booking) : Completes s.Keeps (execEnergyBook b s) := by
  refine .next ?_
  extract_lets sum u total _ u1 u2
  have hu : s.Keeps u := State.compareMeters_keeps _ _ _ (State.meterRailEnergy_keeps _ _ .rfl')
  have h2 : s.Keeps u2 := State.bookAll_keeps _ _ _ _ (.of_mk rfl rfl hu)
  exact ite_keeps (ite_keeps (State.latchAll_keeps _ (State.raisePower_keeps _ _ _ h2)) h2) .rfl'

/-! ### Clock crossings -/

theorem execQueueEntryArrive_keeps (q : QueueId) (payload : Nat) (parityOk : Bool) :
    Completes s.Keeps (execQueueEntryArrive q payload parityOk s) := by
  refine .next (ite_keeps (ite_keeps ?sent (ite_keeps (State.stallAt_keeps _ _ .rfl') ?outside)) .rfl')
  case sent =>
    split
    · exact .rfl'
    · exact ite_keeps (State.setQueue_keeps _ _ _ .rfl') (State.latchAll_keeps _ (State.queueParity_keeps _ _ .rfl'))
  case outside =>
    split
    · exact State.shiftsArrive_keeps _ _ _ _ _ .rfl'
    · exact ite_keeps (State.seeEntry_keeps _ _ _ .rfl') (State.latchAll_keeps _ (State.queueParity_keeps _ _ .rfl'))

theorem execQueueSlotRelease_keeps (q : QueueId) : Completes s.Keeps (execQueueSlotRelease q s) :=
  .next (ite_keeps (State.latchAll_keeps _ (State.entryRead_keeps _ _ _ _ (State.setQueue_keeps _ _ _ .rfl'))) .rfl')

theorem execSyncLevelChange_keeps (b : SyncBit) (level : Bool) : Completes s.Keeps (execSyncLevelChange b level s) := by
  refine .next (ite_keeps .rfl' (ite_keeps (State.syncEffect_keeps _ _ _ (.of_mk rfl rfl .rfl')) ?_))
  split
  · exact State.syncEffect_keeps _ _ _ .rfl'
  · exact .rfl'

/-! ### Pans, sluice paths and vector units -/

theorem execTideRampStart_keeps (u : StreamUnit) : Completes s.Keeps (execTideRampStart u s) := by
  refine .next ?_
  cases u with
  | pan c p => exact ite_keeps (State.bump_keeps _ _ _ _ (State.setPan_keeps _ _ _ _ .rfl')) .rfl'
  | sluice c => exact ite_keeps (State.setCore_keeps _ _ _ .rfl') .rfl'

theorem execTideRampStop_keeps (u : StreamUnit) : Completes s.Keeps (execTideRampStop u s) := by
  refine .next ?_
  cases u with
  | pan c p =>
    exact ite_keeps (ite_keeps (State.draw_keeps _ (State.bump_keeps _ _ _ _ (State.setPan_keeps _ _ _ _ .rfl')))
      (State.bump_keeps _ _ _ _ (State.setPan_keeps _ _ _ _ .rfl'))) .rfl'
  | sluice c => exact ite_keeps (State.setCore_keeps _ _ _ .rfl') .rfl'

theorem execPolwinIdleStop_keeps (u : StreamUnit) : Completes s.Keeps (execPolwinIdleStop u s) := by
  refine .next ?_
  cases u with
  | pan c p => exact ite_keeps (State.bump_keeps _ _ _ _ (State.setPan_keeps _ _ _ _ .rfl')) .rfl'
  | sluice c => exact ite_keeps (State.setCore_keeps _ _ _ .rfl') .rfl'

theorem execStationaryLoadAdmit_keeps (c : CoreId) (p : PanId) : Completes s.Keeps (execStationaryLoadAdmit c p s) := by
  have taken (x : PanSt) : s.Keeps ((s.readQueue (stationaryQueue c p) 1).setPan c p x) :=
    State.setPan_keeps _ _ _ _ (State.readQueue_keeps _ _ _ .rfl')
  have full (k : Nat) : s.Keeps (s.bump 64 k 1) := State.bump_keeps _ _ _ _ .rfl'
  refine .next (ite_keeps ?_ .rfl')
  split
  · exact ite_keeps (full _) (taken _)
  · refine ite_keeps (full _) ?_
    split
    · exact .rfl'
    · exact taken _

theorem execPassStart_keeps (c : CoreId) (p : PanId) (slip : Option TagSlip) : Completes s.Keeps (execPassStart c p slip s) := by
  have fill : s.Keeps (s.fillRow c p) := State.fillRow_keeps _ _ _ .rfl'
  have wait : s.Keeps (s.waitRow c p) := State.waitRow_keeps _ _ _ .rfl'
  refine .next ?_
  dsimp only
  split
  · exact fill
  split
  · exact .rfl'
  refine ite_keeps .rfl' (ite_keeps fill (ite_keeps ?_ .rfl'))
  split
  · refine ite_keeps ?_ (ite_keeps .rfl' wait)
    split
    · exact State.tagFault_keeps _ _ _ _ _ .rfl'
    · exact State.badRegister_keeps _ _ _ _ _ _ .rfl'
    · exact State.runPass_keeps _ _ _ _ _ _ .rfl'
  · exact ite_keeps .rfl' wait

theorem execTileComplete_keeps (c : CoreId) (p : PanId) : Completes s.Keeps (execTileComplete c p s) := by
  refine .next ?_
  dsimp only
  split
  · exact .rfl'
  split
  · exact .rfl'
  · exact ite_keeps (ite_keeps (State.latchAll_keeps _ (State.pendEvent_keeps _ _ (State.applyRemap_keeps _ _ _
      (State.completeTile_keeps _ _ _ _ _ .rfl')))) (State.stallQueue_keeps _ _ .rfl')) .rfl'

theorem execWritebackDrain_keeps (c : CoreId) (p : PanId) (slip : Option TagSlip) :
    Completes s.Keeps (execWritebackDrain c p slip s) := by
  refine .next ?_
  split
  · exact .rfl'
  split
  · exact .rfl'
  refine ite_keeps ?_ .rfl'
  split
  · exact State.tagFault_keeps _ _ _ _ _ .rfl'
  · exact ite_keeps (State.stallSender_keeps _ _ _ _ _ .rfl') (ite_keeps (ite_keeps (State.stallSeals_keeps _ _ .rfl') .rfl')
      (State.latchAll_keeps _ (State.drainRow_keeps _ _ _ _ _ .rfl')))

theorem execSegmentTestDone_keeps (c : CoreId) (p : PanId) (found : SegFinding) :
    Completes s.Keeps (execSegmentTestDone c p found s) := by
  refine .next ?_
  extract_lets x s1 s2
  have h2 : s.Keeps s2 := by
    cases found <;> exact State.retirePan_keeps _ _ _ _ _ (State.setPan_keeps _ _ _ _ .rfl')
  exact ite_keeps (State.latchAll_keeps _ (ite_keeps (State.bump_keeps _ _ _ _ h2) (State.replayPan_keeps _ _ _ _ h2))) .rfl'

theorem execSluicePassComplete_keeps (c : CoreId) : Completes s.Keeps (execSluicePassComplete c s) := by
  refine .next ?_
  split
  · exact .rfl'
  split
  · exact .rfl'
  refine ite_keeps (State.stallQueue_keeps _ _ .rfl') (ite_keeps ?_ (ite_keeps (State.stallSeals_keeps _ _ .rfl') .rfl'))
  split
  · exact State.troubled_keeps _ _ _ .rfl'
  · exact State.latchAll_keeps _ (State.troubled_keeps _ _ _ (State.dropPass_keeps _ _ _ _ .rfl'))
  · exact State.latchAll_keeps _ (State.completePass_keeps _ _ _ _ .rfl')

theorem execVectorChunkComplete_keeps (c : CoreId) (slip : Option TagSlip) : Completes s.Keeps (execVectorChunkComplete c slip s) := by
  refine .next ?_
  split
  · exact .rfl'
  refine ite_keeps ?_ .rfl'
  split
  · exact State.vectorTag_keeps _ _ _ .rfl'
  split
  · exact State.troubled_keeps _ _ _ .rfl'
  · exact State.dropChunk_keeps _ _ _ _ _ .rfl'
  · exact ite_keeps (State.stallQueue_keeps _ _ .rfl') (ite_keeps (State.stallSeals_keeps _ _ .rfl')
      (State.latchAll_keeps _ (State.completeChunk_keeps _ _ _ _ _ .rfl')))

/-! ### Scaling, programs and the step -/

theorem execForwardAttemptDone_keeps (slot : Nat) : Completes s.Keeps (execForwardAttemptDone slot s) := by
  refine .next ?_
  split
  · exact .rfl'
  · exact ite_keeps (State.latchAll_keeps _ (State.decideAttempt_keeps _ _ (ite_keeps .rfl' (State.endProducers_keeps _ _ .rfl')))) .rfl'

theorem execAmaxPassDone_keeps (slot : Nat) (others : List (Nat × F32)) : Completes s.Keeps (execAmaxPassDone slot others s) := by
  have present (l : List (Nat × F32)) : s.Keeps (l.foldl (fun s e => s.presentT others e) s) :=
    foldl_keeps (fun _ _ => State.presentT_keeps _ _ _) _ .rfl'
  refine .next ?_
  split
  · exact .rfl'
  · exact ite_keeps (State.latchAll_keeps _ (State.advanceColl_keeps _ _ (State.mapDesc_keeps _ _ _ (State.keepPass_keeps _ _ (present _)))))
      (ite_keeps (State.latchAll_keeps _ (foldl_keeps (fun _ _ h => State.mapDesc_keeps _ _ _ (State.keepPass_keeps _ _ h)) _ (present _)))
        .rfl')

theorem execCollectiveDataRx_keeps (h : BrineHdr) : Completes s.Keeps (execCollectiveDataRx h s) :=
  .next (State.receive_keeps _ _ _ (fun _ => State.takeContribution_keeps _ _) .rfl')

theorem execProgLoadCheckDone_keeps : Completes s.Keeps (execProgLoadCheckDone s) := by
  refine .next ?_
  split
  · exact .rfl'
  dsimp only
  split
  · exact State.setEnt_keeps _ _ _ (State.setEnt_keeps _ _ _ (.of_mk rfl rfl .rfl'))
  · exact State.acceptProgram_keeps _ _ (.of_mk rfl rfl .rfl')

theorem execDescAdmit_keeps (d : DieId) : Completes s.Keeps (execDescAdmit d s) := by
  refine .next ?_
  split
  · exact .rfl'
  · exact ite_keeps .rfl' (ite_keeps (State.setStream_keeps _ _ _ .rfl') (ite_keeps (State.draw_keeps _ (State.bump_keeps _ _ _ _ .rfl'))
      (ite_keeps (State.bump_keeps _ _ _ _ .rfl') (State.admitItem_keeps _ _ _ _ .rfl'))))

theorem execDescReady_keeps (slot : Nat) : Completes s.Keeps (execDescReady slot s) := by
  have ready (f : DescRun → DescRun) : s.Keeps (s.mapDesc slot f) := State.mapDesc_keeps _ _ _ .rfl'
  refine .next ?_
  split
  · exact .rfl'
  · exact ite_keeps .rfl' (ite_keeps (ready _) (ite_keeps (State.noopUpdate_keeps _ _ .rfl')
      (ite_keeps (State.latchAll_keeps _ (State.completeEmpty_keeps _ _ .rfl')) (ite_keeps (ready _) .rfl'))))

theorem execUnitSchedule_keeps (c : CoreId) : Completes s.Keeps (execUnitSchedule c s) := by
  have h0 : s.Keeps (s.remapIdle c.val) := State.remapIdle_keeps _ _ .rfl'
  exact .next (ite_keeps (State.latchAll_keeps _ (State.scheduleCopy_keeps _ _ (State.scheduleColl_keeps _ _
    (foldl_keeps (fun _ _ => State.scheduleEngine_keeps _ _ _) _ h0)))) (State.latchAll_keeps _ h0))

theorem execMcastDelivery_keeps (d : DieId) (set : Nat) : Completes s.Keeps (execMcastDelivery d set s) := by
  refine .next ?_
  dsimp only
  split
  · exact .rfl'
  refine ite_keeps ?_ .rfl'
  split
  · exact .rfl'
  split
  · exact State.deliverSet_keeps _ _ _ _ _ _ .rfl'
  split
  · exact State.troubled_keeps _ _ _ .rfl'
  · exact State.fetchTrouble_keeps _ _ _ _ _ .rfl'
  · exact State.deliverSet_keeps _ _ _ _ _ _ .rfl'

theorem execFiniteCheck_keeps : Completes s.Keeps (execFiniteCheck s) := by
  refine .next ?_
  extract_lets _ _ s1 s2
  have h1 : s.Keeps s1 := State.setPhase_keeps _ _ (.of_mk rfl rfl (State.rollUp_keeps _ .rfl'))
  have h2 : s.Keeps s2 := ite_keeps h1 (State.sendMirror_keeps _ _ _ h1)
  exact ite_keeps (.of_mk rfl rfl h2) (ite_keeps (.of_mk rfl rfl .rfl') .rfl')

theorem execFiniteCheckResult_keeps (heard : List FcContribution) : Completes s.Keeps (execFiniteCheckResult heard s) := by
  refine .next (ite_keeps ?_ .rfl')
  extract_lets s0
  have h0 : s.Keeps s0 := State.draw_keeps _ (State.setEnt_keeps _ _ _ .rfl')
  exact ite_keeps (State.latchAll_keeps _ (State.groupFault_keeps _ h0)) (ite_keeps (State.latchAll_keeps _ (State.endReplay_keeps _ _ h0))
    (State.latchAll_keeps _ (State.commitStep_keeps _ _ _ h0)))

theorem execFiniteCheckTimeout_keeps : Completes s.Keeps (execFiniteCheckTimeout s) :=
  .next (ite_keeps (State.latchAll_keeps _ (State.groupFault_keeps _ .rfl')) .rfl')

theorem execRakeReductionDone_keeps (heard : List RakeContribution) (micros : Nat) :
    Completes s.Keeps (execRakeReductionDone heard micros s) := by
  refine .next ?_
  split
  · exact .rfl'
  refine ite_keeps ?_ .rfl'
  extract_lets s1 _ s2
  have h1 : s.Keeps s1 := State.askReset_keeps _ _ (State.installFloors_keeps _ .rfl')
  have h2 : s.Keeps s2 := State.setEnt_keeps _ _ _ (.of_mk rfl rfl h1)
  refine ite_keeps (State.latchAll_keeps _ (State.groupFault_keeps _ (.of_mk rfl rfl h2))) ?_
  split
  · exact State.latchAll_keeps _ (State.badRake_keeps _ _ h2)
  · exact State.latchAll_keeps _ (State.runRake_keeps _ _ _ h2)

theorem execUpdateGatherDone_keeps (layer : Nat) : Completes s.Keeps (execUpdateGatherDone layer s) :=
  .next (ite_keeps (State.latchAll_keeps _ (foldl_keeps (fun _ _ => State.startApply_keeps _ _) _ .rfl')) .rfl')

theorem execApplyChunkComplete_keeps (x : ApplyEnd) : Completes s.Keeps (execApplyChunkComplete x s) := by
  refine .next ?_
  split
  · exact .rfl'
  refine ite_keeps ?_ .rfl'
  split
  · exact State.vectorTag_keeps _ _ _ .rfl'
  split
  · exact State.troubled_keeps _ _ _ .rfl'
  · exact State.dropChunk_keeps _ _ _ _ _ .rfl'
  · exact ite_keeps (State.stallQueue_keeps _ _ .rfl') (ite_keeps (State.stallSeals_keeps _ _ .rfl')
      (State.latchAll_keeps _ (State.settleUpdates_keeps _ (State.completeChunk_keeps _ _ _ _ _ .rfl'))))

theorem execUpdateComplete_keeps : Completes s.Keeps (execUpdateComplete s) := by
  have h0 : s.Keeps s.settleUpdates := State.settleUpdates_keeps _ .rfl'
  have h1 : s.Keeps (s.settleUpdates.scale.staged.foldl (fun s e => s.pushStaged [] e.1 e.2) s.settleUpdates) :=
    foldl_keeps (fun _ _ => State.pushStaged_keeps _ _ _ _) _ h0
  refine .next (ite_keeps ?_ (State.latchAll_keeps _ h0))
  dsimp only
  split
  · exact State.latchAll_keeps _ (State.raise_keeps _ _ (.of_mk rfl rfl h1))
  · exact State.latchAll_keeps _ (.of_mk rfl rfl h1)

theorem execStepBoundary_keeps (rank0 : List RakeImage) : Completes s.Keeps (execStepBoundary rank0 s) :=
  .next (ite_keeps
    (ite_keeps (State.sendMirror_keeps _ _ _ (.of_mk rfl rfl .rfl'))
      (ite_keeps .rfl' (State.latchAll_keeps _ (State.closeBoundary_keeps _ _ .rfl'))))
    (ite_keeps (State.adoptRake_keeps _ _ .rfl') .rfl'))

theorem execNvpSelftestDone_keeps (failures first : Nat) : Completes s.Keeps (execNvpSelftestDone failures first s) := by
  refine .next (ite_keeps ?_ .rfl')
  extract_lets s1 s2 _ s3
  have h2 : s.Keeps s2 := State.setEnt_keeps _ _ _ (State.setEnt_keeps _ _ _ (State.setEnt_keeps _ _ _ .rfl'))
  have h3 : s.Keeps s3 := .of_mk rfl rfl h2
  exact ite_keeps (State.latchAll_keeps _ (State.raise_keeps _ _ h2))
    (ite_keeps (State.setCompute_keeps _ h3) (State.computeCheck_keeps _ h3))

end Sys2Proof.Machine

/-! PROOFS. What commands keep: memory, arbitration, repairs, the stockpile, the crust, faults, messages and links. -/

namespace Sys2Proof.Machine

variable (s : State)

/-! ### Memory, arbitration and repairs -/

theorem execMapReqMap_keeps : Completes s.Keeps (execMapReqMap s) :=
  .next (State.processReq_keeps _ _ _ _ (fun _ _ => State.mapRun_keeps _ _) .rfl')

theorem execMapReqUnmap_keeps : Completes s.Keeps (execMapReqUnmap s) :=
  .next (State.processFold_keeps _ _ _ _ _ State.dropPage_keeps .rfl')

theorem execMapReqMigrate_keeps : Completes s.Keeps (execMapReqMigrate s) :=
  .next (State.processReq_keeps _ _ _ _ (fun _ _ => State.migrateRun_keeps _ _) .rfl')

theorem execMapReqSetRo_keeps : Completes s.Keeps (execMapReqSetRo s) :=
  .next (State.processReq_keeps _ _ _ _ (fun _ _ => State.flagPages_keeps _ _ _) .rfl')

theorem execMapReqClearRo_keeps : Completes s.Keeps (execMapReqClearRo s) :=
  .next (State.processReq_keeps _ _ _ _ (fun _ _ => State.flagPages_keeps _ _ _) .rfl')

theorem execMapReqSetCc_keeps : Completes s.Keeps (execMapReqSetCc s) :=
  .next (State.processFold_keeps _ _ _ _ _ State.coverPage_keeps .rfl')

theorem execMapReqClearCc_keeps : Completes s.Keeps (execMapReqClearCc s) :=
  .next (State.processFold_keeps _ _ _ _ _ State.uncoverPage_keeps .rfl')

theorem execMapRunComplete_keeps : Completes s.Keeps (execMapRunComplete s) := by
  have h1 : s.Keeps s.sendMapMirror := State.sendMapMirror_keeps _ .rfl'
  exact .next (ite_keeps
    (ite_keeps (State.latchAll_keeps _ (State.failReq_keeps _ _ (State.raise_keeps _ _ .rfl')))
      (ite_keeps (State.latchAll_keeps _ (State.failReq_keeps _ _ .rfl')) .rfl'))
    (ite_keeps (ite_keeps h1 (State.raiseVector_keeps _ _ (State.setEnt_keeps _ _ _ h1))) .rfl'))

theorem execMigrationDone_keeps (page : Nat) : Completes s.Keeps (execMigrationDone page s) := by
  have h1 : s.Keeps { s with mem.migrating := Kv.del s.mem.migrating page } := .of_mk rfl rfl .rfl'
  refine .next ?_
  split
  · exact .rfl'
  · exact ite_keeps
      (State.latchAll_keeps _ (State.drainHost_keeps _ (State.nextCopies_keeps _ (State.setMapEntry_keeps _ _ _ h1))))
      (State.latchAll_keeps _ (State.drainHost_keeps _ (State.nextCopies_keeps _ (State.bump_keeps _ _ _ _
        (State.setMapEntry_keeps _ _ _ h1)))))

theorem execMemTransaction_keeps (r : MemReq) : Completes s.Keeps (execMemTransaction r s) := by
  have done : s.Keeps (s.completeTxns r.die.val r.completed) := State.completeTxns_keeps _ _ _ .rfl'
  exact .next (ite_keeps (ite_keeps done (State.latchAll_keeps _ (State.offerTxn_keeps _ _ (State.retryTxns_keeps _ _ done)))) .rfl')

theorem execHbmCorrectableError_keeps (st : StackId) (pc : PcId) : Completes s.Keeps (execHbmCorrectableError st pc s) :=
  .next (ite_keeps (State.latchAll_keeps _ (State.raise_keeps _ _ (State.bump_keeps _ _ _ _ .rfl'))) .rfl')

/-- A line that cannot be corrected: it is poisoned, reported and waits for its rebuild, and its reader bears it (R248, R250). -/
theorem State.poisonedLine_keeps {z t : State} (addr : Nat) (by_ : Reader) (h : z.Keeps t) :
    z.Keeps ((((t.poisonLine addr).memEvent addr).rebuildLine (pageOf addr)).bearPoison by_ addr).latchAll :=
  State.latchAll_keeps _ (State.bearPoison_keeps _ _ _ (State.rebuildLine_keeps _ _ (State.memEvent_keeps _ _ (State.poisonLine_keeps _ _ h))))

theorem execHbmUncorrectableError_keeps (st : StackId) (pc : PcId) (addr : Nat) (by_ : Reader) :
    Completes s.Keeps (execHbmUncorrectableError st pc addr by_ s) := by
  refine .next (ite_keeps ?_ .rfl')
  extract_lets _ s1
  have h1 : s.Keeps s1 := State.raise_keeps _ _ (State.bump_keeps _ _ _ _ .rfl')
  exact ite_keeps (State.latchAll_keeps _ (State.reservedError_keeps _ _ _ h1)) (State.poisonedLine_keeps _ _ h1)

theorem execHbmScrubPass_keeps (st : StackId) : Completes s.Keeps (execHbmScrubPass st s) :=
  .next (ite_keeps (State.bump_keeps _ _ _ _ .rfl') .rfl')

theorem execPcSpareCopyDone_keeps (st : StackId) : Completes s.Keeps (execPcSpareCopyDone st s) := by
  refine .next ?_
  split
  · exact .rfl'
  · exact State.dropMemSource_keeps _ _ (State.dropMemSource_keeps _ _ (State.setStack_keeps _ _ _ .rfl'))

theorem execCxlEventRecord_keeps (d : CxlId) (e : CxlEvent) : Completes s.Keeps (execCxlEventRecord d e s) := by
  refine .next (ite_keeps ?_ .rfl')
  cases e with
  | corrected n => exact State.cxlCorrected_keeps _ _ _ (State.bump_keeps _ _ _ _ .rfl')
  | poisoned addr by_ => exact State.poisonedLine_keeps _ _ (State.raise_keeps _ _ (State.bump_keeps _ _ _ _ .rfl'))
  | degraded => exact State.latchAll_keeps _ (State.replaceDev_keeps _ _ .rfl')
  | failed => exact State.latchAll_keeps _ (State.failDev_keeps _ _ .rfl')

theorem execCxlReplaceCopyDone_keeps (d : CxlId) : Completes s.Keeps (execCxlReplaceCopyDone d s) := by
  refine .next (ite_keeps ?_ .rfl')
  split
  · exact State.setDev_keeps _ _ _ .rfl'
  · exact State.setReady_keeps _ _ _ (State.dropMemSource_keeps _ _ (State.dropMemSource_keeps _ _
      (State.setDev_keeps _ _ _ (State.setDev_keeps _ _ _ .rfl'))))

theorem execPageRebuildDone_keeps (page : Nat) : Completes s.Keeps (execPageRebuildDone page s) := by
  refine .next (ite_keeps ?_ .rfl')
  extract_lets s1 _ s2
  have h2 : s.Keeps s2 := .of_mk rfl rfl (State.setMapEntry_keeps _ _ _ (State.clearLines_keeps _ _ .rfl'))
  exact State.latchAll_keeps _ (State.retryRead_keeps _ (ite_keeps (State.stackRebuilt_keeps _ _ h2) h2))

theorem execArbGrant_keeps (a : ArbId) (resource : Nat) (present : List Nat) (hold : Bool) :
    Completes s.Keeps (execArbGrant a resource present hold s) := by
  have h1 : s.Keeps (s.cutIfDue (arbLevel a) (arbInstance a) resource) := State.cutIfDue_keeps _ _ _ _ .rfl'
  refine .next (ite_keeps .rfl' ?_)
  dsimp only
  split
  · exact State.setHold_keeps _ _ _ _ _ (State.countCycle_keeps _ _ _ _ _ _ _ h1)
  split
  · exact State.countCycle_keeps _ _ _ _ _ _ _ h1
  · exact State.setHold_keeps _ _ _ _ _ (State.countCycle_keeps _ _ _ _ _ _ _ h1)

theorem execHoldCutoff_keeps (a : ArbId) (resource : Nat) : Completes s.Keeps (execHoldCutoff a resource s) :=
  .next (ite_keeps (State.cutIfDue_keeps _ _ _ _ .rfl') .rfl')

theorem execCoreSwapDone_keeps (c : CoreId) (passed : Bool) : Completes s.Keeps (execCoreSwapDone c passed s) :=
  .next (ite_keeps
    (ite_keeps (State.computeCheck_keeps _ (State.setCoreReady_keeps _ _ _ (State.countSwap_keeps _ _ _ (.of_mk rfl rfl .rfl'))))
      (State.latchAll_keeps _ (State.swapCluster_keeps _ _ .rfl'))) .rfl')

theorem execClusterSwapDone_keeps (k : ClusterId) (passed : Bool) : Completes s.Keeps (execClusterSwapDone k passed s) := by
  have h1 : s.Keeps { s with rep.clusterSwap := listErase s.rep.clusterSwap k.val } := .of_mk rfl rfl .rfl'
  exact .next (ite_keeps
    (ite_keeps
      (State.computeCheck_keeps _ (State.setReady_keeps _ _ _ (foldl_keeps (fun _ _ => State.setCoreReady_keeps _ _ _) _
        (State.countSwap_keeps _ _ _ h1))))
      (State.latchAll_keeps _ (State.raise_keeps _ _ h1))) .rfl')

theorem execDmpSwapDone_keeps (d : DieId) : Completes s.Keeps (execDmpSwapDone d s) :=
  .next (ite_keeps (State.computeCheck_keeps _ (State.setReady_keeps _ _ _ (.of_mk rfl rfl .rfl'))) .rfl')

/-! ### The stockpile and the crust -/

theorem execSnapshotImageWritten_keeps : Completes s.Keeps (execSnapshotImageWritten s) :=
  .next (ite_keeps (.of_mk rfl rfl .rfl') .rfl')

theorem execSnapshotComplete_keeps : Completes s.Keeps (execSnapshotComplete s) := by
  refine .next ?_
  split
  · exact .rfl'
  · exact ite_keeps (State.latchAll_keeps _ (State.wear_keeps _ _ (State.setEnt_keeps _ _ _ (.of_mk rfl rfl .rfl')))) .rfl'

theorem execStockRestoreDone_keeps : Completes s.Keeps (execStockRestoreDone s) := by
  refine .next ?_
  split
  · exact .rfl'
  refine ite_keeps (State.setEnt_keeps _ _ _ ?_) .rfl'
  split
  · exact .of_mk rfl rfl (foldl_keeps (fun _ _ => State.restorePage_keeps _ _) _ .rfl')
  · exact .of_mk rfl rfl .rfl'

theorem execCrustDeltaRx_keeps (h : BrineHdr) : Completes s.Keeps (execCrustDeltaRx h s) := by
  refine .next (State.receive_keeps _ _ _ (fun u hu => ?_) .rfl')
  split
  · exact State.holdDelta_keeps _ _ _ hu
  · exact hu

theorem execCrustSealAckRx_keeps (h : BrineHdr) : Completes s.Keeps (execCrustSealAckRx h s) := by
  refine .next (State.receive_keeps _ _ _ (fun u hu => ?_) .rfl')
  split
  · exact ite_keeps (ite_keeps (State.unitSealed_keeps _ _ hu) hu) (State.unitAcked_keeps _ _ _ hu)
  · exact hu

theorem execCrustSealRx_keeps (h : BrineHdr) : Completes s.Keeps (execCrustSealRx h s) := by
  refine .next (State.receive_keeps _ _ _ (fun u hu => ?_) .rfl')
  split
  · exact hu
  · exact State.ackUnit_keeps _ _ _ _ (.of_mk rfl rfl (State.applyUnit_keeps _ _ _ hu))

theorem execReducedStreamRx_keeps (h : BrineHdr) : Completes s.Keeps (execReducedStreamRx h s) := by
  refine .next (State.receive_keeps _ _ _ (fun u hu => ?_) .rfl')
  split
  · exact State.passSegment_keeps _ _ hu
  · exact hu

theorem execCrustResyncDone_keeps : Completes s.Keeps (execCrustResyncDone s) :=
  .next (ite_keeps (State.latchAll_keeps _ (State.drainHost_keeps _ (State.becomeFresh_keeps _ (.of_mk rfl rfl .rfl')))) .rfl')

theorem execHeartbeatTx_keeps : Completes s.Keeps (execHeartbeatTx s) := by
  refine .next (ite_keeps ?_ .rfl')
  extract_lets s1
  have h1 : s.Keeps s1 := foldl_keeps (fun _ _ => State.sendAllLanes_keeps _ _) _ .rfl'
  exact .of_mk rfl rfl h1

theorem execHeartbeatRx_keeps (h : BrineHdr) : Completes s.Keeps (execHeartbeatRx h s) := by
  refine .next (State.receiveFree_keeps _ _ _ (fun u hu => ?_) .rfl')
  split
  · exact .of_mk rfl rfl hu
  · exact hu

theorem execWithdrawalRx_keeps (h : BrineHdr) : Completes s.Keeps (execWithdrawalRx h s) := by
  refine .next (State.receive_keeps _ _ _ (fun u hu => ?_) .rfl')
  split
  · exact State.takeWithdrawal_keeps _ _ hu
  · exact hu

theorem execMemberLost_keeps (rank : Fin 8) (mirrored : Bool) (sealedUnits : List Nat) (answers : List SpareAnswer) :
    Completes s.Keeps (execMemberLost rank mirrored sealedUnits answers s) :=
  .next (ite_keeps (State.latchAll_keeps _ (State.handleLoss_keeps _ _ _ _ _ (State.countLost_keeps _ _ .rfl'))) .rfl')

theorem execEpochChangeRx_keeps (h : BrineHdr) : Completes s.Keeps (execEpochChangeRx h s) :=
  .next (State.receive_keeps _ _ _ (fun _ hu => ite_keeps (.of_mk rfl rfl hu) (State.takeChange_keeps _ _ hu)) .rfl')

theorem execMirrorRx_keeps (h : BrineHdr) : Completes s.Keeps (execMirrorRx h s) := by
  refine .next (State.receive_keeps _ _ _ (fun u hu => ?_) .rfl')
  split
  · exact State.takePart_keeps _ _ _ hu
  · exact hu

theorem execEpochAckRx_keeps (h : BrineHdr) : Completes s.Keeps (execEpochAckRx h s) :=
  .next (State.receive_keeps _ _ _ (fun _ hu => State.startRebuild_keeps _ (.of_mk rfl rfl hu)) .rfl')

theorem execAbandonNoticeRx_keeps (h : BrineHdr) : Completes s.Keeps (execAbandonNoticeRx h s) :=
  .next (State.receive_keeps _ _ _ (fun _ hu => ite_keeps (State.enterAbandon_keeps _ _ hu) hu) .rfl')

theorem execHotSpareOfferRx_keeps (o : SpareOffer) : Completes s.Keeps (execHotSpareOfferRx o s) :=
  .next (ite_keeps (State.setEnt_keeps _ _ _ (State.setEnt_keeps _ _ _ (.of_mk rfl rfl .rfl'))) .rfl')

theorem execRebuildComplete_keeps (ledger : List (Nat × Nat)) : Completes s.Keeps (execRebuildComplete ledger s) := by
  refine .next (ite_keeps .rfl' ?_)
  split
  · exact ite_keeps (State.latchAll_keeps _ (State.finishSpare_keeps _ _ .rfl')) .rfl'
  · exact ite_keeps (State.latchAll_keeps _ (State.drainHost_keeps _ (State.becomeFresh_keeps _ (.of_mk rfl rfl .rfl')))) .rfl'
  · exact .rfl'

/-! ### Faults -/

theorem execFaultLatch_keeps (r : FaultReport) : Completes s.Keeps (execFaultLatch r s) :=
  .next (ite_keeps
    (ite_keeps (State.violation_keeps _ _ _ _ _ .rfl')
      (ite_keeps (State.latchAll_keeps _ (State.raise_keeps _ _ (State.mismatch_keeps _ _ .rfl')))
        (State.latchAll_keeps _ (State.raise_keeps _ _ .rfl')))) .rfl')

theorem execFaultHandlingDone_keeps (l : Level) (unit : Nat) : Completes s.Keeps (execFaultHandlingDone l unit s) :=
  .next (ite_keeps (State.handled_keeps _ _ .rfl') .rfl')

theorem execMgmtWatchdogExpiry_keeps : Completes s.Keeps (execMgmtWatchdogExpiry s) :=
  .next (ite_keeps (State.latchAll_keeps _ (State.raise_keeps _ _ (.of_mk rfl rfl .rfl'))) .rfl')

theorem execDmpWatchdogExpiry_keeps (d : DieId) : Completes s.Keeps (execDmpWatchdogExpiry d s) :=
  .next (ite_keeps (State.latchAll_keeps _ (State.raise_keeps _ _ (.of_mk rfl rfl .rfl'))) .rfl')

theorem execCprocWatchdogExpiry_keeps (c : CoreId) : Completes s.Keeps (execCprocWatchdogExpiry c s) :=
  .next (ite_keeps (State.latchAll_keeps _ (State.raise_keeps _ _ .rfl')) .rfl')

theorem execMirrorFlush_keeps (ok : Bool) : Completes s.Keeps (execMirrorFlush ok s) := by
  refine .next (ite_keeps (ite_keeps ?_ (State.latchAll_keeps _ (State.raise_keeps _ _ (.of_mk rfl rfl .rfl')))) .rfl')
  split
  · exact .rfl'
  · exact State.mirrorOne_keeps _ _ .rfl'

/-! ### Messages and the field network -/

theorem execSegmentTransferTimeout_keeps : Completes s.Keeps (execSegmentTransferTimeout s) := .next (.of_mk rfl rfl .rfl')

theorem execMailboxDoorbell_keeps (value : BitVec 32) (w : Bar2Writes) : Completes s.Keeps (execMailboxDoorbell value w s) := by
  have h0 : s.Keeps (if s.links.host.up then w.config.foldl State.configWrite s else s) :=
    ite_keeps (foldl_keeps (fun _ _ => State.configWrite_keeps _ _) _ .rfl') .rfl'
  exact .next (ite_keeps
    (State.bar2_keeps _ _ (fun _ hu => State.latchAll_keeps _ (State.afterWrites_keeps _ (.of_mk rfl rfl hu))) h0) h0)

theorem execMailboxSlotFree_keeps (slot : Fin 16) (value : Byte) : Completes s.Keeps (execMailboxSlotFree slot value s) :=
  .next (State.bar2_keeps _ _ (fun _ => State.freeSlot_keeps _ _ _) .rfl')

theorem execChain_keeps (src : Fin 256) (sender : FieldAddr) : Completes s.Keeps (execChain src sender s) := by
  refine .next (ite_keeps ?_ .rfl')
  extract_lets _ s0 s1 s2
  have h1 : s.Keeps s1 := State.checkClaim_keeps _ _ _ (ite_keeps (.of_mk rfl rfl .rfl') .rfl')
  have h2 : s.Keeps s2 := State.bump_keeps _ _ _ _ h1
  exact ite_keeps h1 (ite_keeps (State.takeId_keeps _ _ h2) (State.condition_keeps _ _ _ _ _ _ h2))

theorem execChainReset_keeps : Completes s.Keeps (execChainReset s) :=
  .next (ite_keeps (State.condition_keeps _ _ _ _ _ _ (State.bump_keeps _ _ _ _ (State.setEnt_keeps _ _ _ (.of_mk rfl rfl .rfl')))) .rfl')

theorem execNotify_keeps : Completes s.Keeps (execNotify s) :=
  .next (ite_keeps (State.fieldNotify_keeps _ (State.vectorOne_keeps _ .rfl')) .rfl')

theorem execPlcaTransmitOpportunity_keeps : Completes s.Keeps (execPlcaTransmitOpportunity s) := by
  refine .next (ite_keeps ?_ .rfl')
  split
  · exact .rfl'
  extract_lets _ s1
  have h1 : s.Keeps s1 := State.bump_keeps _ _ _ _ (.of_mk rfl rfl .rfl')
  exact ite_keeps (.of_mk rfl rfl h1) h1

/-! ### The host link, CXL links and Brine -/

theorem execPerstAssert_keeps : Completes s.Keeps (execPerstAssert s) :=
  .next (ite_keeps .rfl' (.of_mk rfl rfl (State.resetPort_keeps s .rfl')))

theorem execHotReset_keeps : Completes s.Keeps (execHotReset s) := .next (ite_keeps (State.resetPort_keeps _ .rfl') .rfl')

theorem execFunctionLevelReset_keeps : Completes s.Keeps (execFunctionLevelReset s) :=
  .next (ite_keeps (State.resetFunction_keeps _ .rfl') .rfl')

theorem execPerstDeassert_keeps : Completes s.Keeps (execPerstDeassert s) := .next (.of_mk rfl rfl .rfl')

theorem execPowerStateChange_keeps (d : DState) : Completes s.Keeps (execPowerStateChange d s) :=
  .next (ite_keeps (.of_mk rfl rfl .rfl') .rfl')

theorem execHostBar4Read_keeps (offset len : Nat) : Completes s.Keeps (execHostBar4Read offset len s) :=
  .next (ite_keeps .rfl' (ite_keeps (.of_mk rfl rfl .rfl') (State.latchAll_keeps _ (State.hostRead_keeps _ _ _ .rfl'))))

theorem execHostBar4Write_keeps (offset : Nat) (data : List Byte) : Completes s.Keeps (execHostBar4Write offset data s) :=
  .next (ite_keeps .rfl' (ite_keeps (.of_mk rfl rfl .rfl') (State.latchAll_keeps _ (State.hostWrite_keeps _ _ _ .rfl'))))

theorem execPcieLinkError_keeps (e : HostErr) : Completes s.Keeps (execPcieLinkError e s) := by
  refine .next (ite_keeps ?_ .rfl')
  cases e with
  | replay => exact State.latchAll_keeps _ (State.raise_keeps _ _ (State.bump_keeps _ _ _ _ .rfl'))
  | uncorrectable => exact State.latchAll_keeps _ (State.raise_keeps _ _ .rfl')
  | receiver => exact State.latchAll_keeps _ (State.raise_keeps _ _ .rfl')
  | linkDown => exact State.hostDown_keeps _ (State.latchAll_keeps _ (State.raise_keeps _ _ .rfl'))

theorem execCxlLinkError_keeps (d : CxlId) (e : CxlErr) : Completes s.Keeps (execCxlLinkError d e s) := by
  refine .next (ite_keeps ?_ .rfl')
  cases e with
  | replay => exact State.latchAll_keeps _ (State.raise_keeps _ _ (State.bump_keeps _ _ _ _ .rfl'))
  | linkDown => exact State.latchAll_keeps _ (State.raise_keeps _ _ (.of_mk rfl rfl .rfl'))
  | stillDown =>
    exact ite_keeps .rfl' (State.latchAll_keeps _ (State.downForGood_keeps _ _ (State.latchAll_keeps _ (State.raise_keeps _ _
      (State.bump_keeps _ _ _ _ (State.setDev_keeps _ _ _ .rfl'))))))
  | trainedBelow rate width => exact State.cxlRuns_keeps _ _ _ _ .rfl'

theorem execLinkRetrainDone_keeps (k : LinkId) (rate width : Nat) : Completes s.Keeps (execLinkRetrainDone k rate width s) := by
  refine .next (ite_keeps .rfl' ?_)
  cases k with
  | host => exact ite_keeps .rfl' (State.hostUp_keeps _ _ _ .rfl')
  | cxl d => exact ite_keeps .rfl' (State.cxlRuns_keeps _ _ _ _ (State.bump_keeps _ _ _ _ (State.setDev_keeps _ _ _ .rfl')))
  | lane p l => exact ite_keeps .rfl' (State.sendLaneState_keeps _ _ (State.setLane_keeps _ _ _ .rfl'))

theorem execBrineAckRx_keeps (h : BrineHdr) : Completes s.Keeps (execBrineAckRx h s) :=
  .next (State.receiveFree_keeps _ _ _ (fun _ => id) .rfl')

theorem execBrineNackRx_keeps (h : BrineHdr) : Completes s.Keeps (execBrineNackRx h s) :=
  .next (State.receiveFree_keeps _ _ _ (fun _ => State.resend_keeps _ _ _) .rfl')

theorem execBrineRetxTimeout_keeps (p : PortId) (l : LaneId) (dst : Nat) : Completes s.Keeps (execBrineRetxTimeout p l dst s) :=
  .next (ite_keeps (State.resend_keeps _ _ _ .rfl') .rfl')

theorem execBrineAckTimer_keeps (p : PortId) (l : LaneId) (dst : Nat) : Completes s.Keeps (execBrineAckTimer p l dst s) :=
  .next (ite_keeps (State.sendAck_keeps _ _ _ .rfl') .rfl')

theorem execLaneStateRx_keeps (h : BrineHdr) : Completes s.Keeps (execLaneStateRx h s) :=
  .next (State.receiveFree_keeps _ _ _ (fun _ => id) .rfl')

theorem execBrineLaneError_keeps (p : PortId) (l : LaneId) (e : LaneErr) : Completes s.Keeps (execBrineLaneError p l e s) := by
  refine .next (ite_keeps ?_ .rfl')
  cases e with
  | corrected n => exact State.bump_keeps _ _ _ _ .rfl'
  | fec => exact State.latchAll_keeps _ (State.raise_keeps _ _ (State.resend_keeps _ _ _ (State.bump_keeps _ _ _ _ .rfl')))
  | resendTimeout => exact State.latchAll_keeps _ (State.raise_keeps _ _ (State.resend_keeps _ _ _ .rfl'))
  | lossOfLock =>
    exact State.latchAll_keeps _ (State.raise_keeps _ _ (State.rerouteLane_keeps _ _ (State.sendLaneState_keeps _ _
      (State.setLane_keeps _ _ _ .rfl'))))
  | failsTraining => exact State.retireLane_keeps _ _ (State.latchAll_keeps _ (State.raise_keeps _ _ .rfl'))

theorem execAttestReportDone_keeps : Completes s.Keeps (execAttestReportDone s) := by
  refine .next ?_
  split
  · exact .rfl'
  dsimp only
  split
  · exact .of_mk rfl rfl .rfl'
  · have h1 (a : Nat) (l : List Byte) : s.Keeps ({ s with sec.job := none, sec.reportState := 2 }.exportTo a l).s :=
      State.exportTo_keeps _ _ _ (.of_mk rfl rfl .rfl')
    exact ite_keeps (State.latchAll_keeps _ (h1 _ _))
      (State.latchAll_keeps _ (.of_mk rfl rfl (State.memViolation_keeps _ _ _ (.of_mk rfl rfl (.rfl' (z := s))))))

theorem execStageDone_keeps : Completes s.Keeps (execStageDone s) := .next (ite_keeps (State.stageDone_keeps _ .rfl') .rfl')

end Sys2Proof.Machine

/-! PROOFS. Every command, and event time (R23). -/

namespace Sys2Proof.Machine

/-- Every command but the tick and those of the supply completes, and keeps the waiting commands, event time, the supply, the boot count,
memory's canonical form, blown fuses, written counter entries, and the order of sequence numbers below their mark. -/
theorem exec_keeps (c : Instr) (s : State) (hp : suppliesPower c = false) (ht : c ≠ .evtTick) : Completes s.Keeps (exec c s) := by
  cases c with
  | inputApplied => exact absurd hp (by decide)
  | prechargeDone => exact absurd hp (by decide)
  | pwrOkRise => exact absurd hp (by decide)
  | powerGood => exact absurd hp (by decide)
  | firmwareStart => exact execFirmwareStart_keeps s
  | recorderReloadDone => exact execRecorderReloadDone_keeps s
  | functionReady f => exact execFunctionReady_keeps s f
  | readinessDeadline f => exact execReadinessDeadline_keeps s f
  | pwrOkFall => exact absurd hp (by decide)
  | inputUndervoltage v =>
    exact execInputUndervoltage_keeps s (by rintro rfl; exact absurd hp (by decide)) (by rintro rfl; exact absurd hp (by decide))
  | inputOvervoltage => exact execInputOvervoltage_keeps s
  | hardwareOvervoltageRemoval => exact absurd hp (by decide)
  | evtTick => exact absurd rfl ht
  | evtTickLost => exact execEvtTickLost_keeps s
  | powerControlTick m => exact execPowerControlTick_keeps s m
  | clockStopRequest c => exact .next (ite_keeps (State.setCore_keeps _ _ _ .rfl') .rfl')
  | clockStopRelease c => exact execClockStopRelease_keeps s c
  | peakStepdown => exact execPeakStepdown_keeps s
  | transientSample mw => exact execTransientSample_keeps s mw
  | thermalSample x milliC => exact execThermalSample_keeps s x milliC
  | thermalTrip x => exact execThermalTrip_keeps s x
  | energyBook b => exact execEnergyBook_keeps s b
  | springDeferredApply => exact .next (ite_keeps (State.springBoundary_keeps _ .rfl') .rfl')
  | queueEntryArrive q payload parityOk => exact execQueueEntryArrive_keeps s q payload parityOk
  | queueSlotRelease q => exact execQueueSlotRelease_keeps s q
  | syncLevelChange b level => exact execSyncLevelChange_keeps s b level
  | tideRampStart u => exact execTideRampStart_keeps s u
  | stationaryLoadAdmit c p => exact execStationaryLoadAdmit_keeps s c p
  | passStart c p slip => exact execPassStart_keeps s c p slip
  | tileComplete c p => exact execTileComplete_keeps s c p
  | writebackDrain c p slip => exact execWritebackDrain_keeps s c p slip
  | tideRampStop u => exact execTideRampStop_keeps s u
  | polwinIdleStop u => exact execPolwinIdleStop_keeps s u
  | segmentTestDone c p found => exact execSegmentTestDone_keeps s c p found
  | sluicePassComplete c => exact execSluicePassComplete_keeps s c
  | vectorChunkComplete c slip => exact execVectorChunkComplete_keeps s c slip
  | forwardAttemptDone slot => exact execForwardAttemptDone_keeps s slot
  | amaxPassDone slot others => exact execAmaxPassDone_keeps s slot others
  | progLoadCheckDone => exact execProgLoadCheckDone_keeps s
  | descAdmit d => exact execDescAdmit_keeps s d
  | descReady slot => exact execDescReady_keeps s slot
  | unitSchedule c => exact execUnitSchedule_keeps s c
  | mcastDelivery d set => exact execMcastDelivery_keeps s d set
  | finiteCheck => exact execFiniteCheck_keeps s
  | finiteCheckResult others => exact execFiniteCheckResult_keeps s others
  | finiteCheckTimeout => exact execFiniteCheckTimeout_keeps s
  | rakeReductionDone others micros => exact execRakeReductionDone_keeps s others micros
  | updateGatherDone layer => exact execUpdateGatherDone_keeps s layer
  | applyChunkComplete c => exact execApplyChunkComplete_keeps s c
  | updateComplete => exact execUpdateComplete_keeps s
  | stepBoundary rank0 => exact execStepBoundary_keeps s rank0
  | nvpSelftestDone failures first => exact execNvpSelftestDone_keeps s failures first
  | mapReqMap => exact execMapReqMap_keeps s
  | mapReqUnmap => exact execMapReqUnmap_keeps s
  | mapReqMigrate => exact execMapReqMigrate_keeps s
  | mapReqSetRo => exact execMapReqSetRo_keeps s
  | mapReqClearRo => exact execMapReqClearRo_keeps s
  | mapReqSetCc => exact execMapReqSetCc_keeps s
  | mapReqClearCc => exact execMapReqClearCc_keeps s
  | mapRunComplete => exact execMapRunComplete_keeps s
  | migrationDone page => exact execMigrationDone_keeps s page
  | memTransaction r => exact execMemTransaction_keeps s r
  | hbmCorrectableError st pc => exact execHbmCorrectableError_keeps s st pc
  | hbmUncorrectableError st pc addr by_ => exact execHbmUncorrectableError_keeps s st pc addr by_
  | hbmScrubPass st => exact execHbmScrubPass_keeps s st
  | pcSpareCopyDone st => exact execPcSpareCopyDone_keeps s st
  | cxlEventRecord d e => exact execCxlEventRecord_keeps s d e
  | cxlReplaceCopyDone d => exact execCxlReplaceCopyDone_keeps s d
  | pageRebuildDone page => exact execPageRebuildDone_keeps s page
  | arbGrant a resource present hold => exact execArbGrant_keeps s a resource present hold
  | holdCutoff a resource => exact execHoldCutoff_keeps s a resource
  | coreSwapDone c passed => exact execCoreSwapDone_keeps s c passed
  | clusterSwapDone k passed => exact execClusterSwapDone_keeps s k passed
  | crustResyncDone => exact execCrustResyncDone_keeps s
  | heartbeatTx => exact execHeartbeatTx_keeps s
  | memberLost rank mirrored sealedUnits answers => exact execMemberLost_keeps s rank mirrored sealedUnits answers
  | rebuildComplete ledger => exact execRebuildComplete_keeps s ledger
  | snapshotImageWritten => exact execSnapshotImageWritten_keeps s
  | snapshotComplete => exact execSnapshotComplete_keeps s
  | stockRestoreDone => exact execStockRestoreDone_keeps s
  | faultLatch r => exact execFaultLatch_keeps s r
  | faultHandlingDone l unit => exact execFaultHandlingDone_keeps s l unit
  | aliveToggle => exact execAliveToggle_keeps s
  | mgmtWatchdogExpiry => exact execMgmtWatchdogExpiry_keeps s
  | dmpWatchdogExpiry d => exact execDmpWatchdogExpiry_keeps s d
  | cprocWatchdogExpiry c => exact execCprocWatchdogExpiry_keeps s c
  | mirrorFlush ok => exact execMirrorFlush_keeps s ok
  | ixiqueRead src => exact .next (State.request_keeps _ _ _ .rfl')
  | ixiqueWrite src => exact .next (State.request_keeps _ _ _ .rfl')
  | ixiqueDescribe src => exact .next (State.request_keeps _ _ _ .rfl')
  | segmentRead src => exact .next (State.request_keeps _ _ _ .rfl')
  | segmentWrite src => exact .next (State.request_keeps _ _ _ .rfl')
  | segmentTransferTimeout => exact execSegmentTransferTimeout_keeps s
  | chain src mac => exact execChain_keeps s src mac
  | chainReset => exact execChainReset_keeps s
  | notify => exact execNotify_keeps s
  | mailboxDoorbell value w => exact execMailboxDoorbell_keeps s value w
  | mailboxSlotFree slot value => exact execMailboxSlotFree_keeps s slot value
  | perstAssert => exact execPerstAssert_keeps s
  | hotReset => exact execHotReset_keeps s
  | functionLevelReset => exact execFunctionLevelReset_keeps s
  | powerStateChange d => exact execPowerStateChange_keeps s d
  | hostBar4Read offset len => exact execHostBar4Read_keeps s offset len
  | hostBar4Write offset data => exact execHostBar4Write_keeps s offset data
  | pcieLinkError e => exact execPcieLinkError_keeps s e
  | cxlLinkError d e => exact execCxlLinkError_keeps s d e
  | brineLaneError p l e => exact execBrineLaneError_keeps s p l e
  | collectiveDataRx h => exact execCollectiveDataRx_keeps s h
  | brineAckRx h => exact execBrineAckRx_keeps s h
  | brineNackRx h => exact execBrineNackRx_keeps s h
  | brineRetxTimeout p l dst => exact execBrineRetxTimeout_keeps s p l dst
  | brineAckTimer p l dst => exact execBrineAckTimer_keeps s p l dst
  | heartbeatRx h => exact execHeartbeatRx_keeps s h
  | withdrawalRx h => exact execWithdrawalRx_keeps s h
  | abandonNoticeRx h => exact execAbandonNoticeRx_keeps s h
  | epochChangeRx h => exact execEpochChangeRx_keeps s h
  | epochAckRx h => exact execEpochAckRx_keeps s h
  | crustDeltaRx h => exact execCrustDeltaRx_keeps s h
  | crustSealAckRx h => exact execCrustSealAckRx_keeps s h
  | crustSealRx h => exact execCrustSealRx_keeps s h
  | mirrorRx h => exact execMirrorRx_keeps s h
  | reducedStreamRx h => exact execReducedStreamRx_keeps s h
  | laneStateRx h => exact execLaneStateRx_keeps s h
  | attestReportDone => exact execAttestReportDone_keeps s
  | stageDone => exact execStageDone_keeps s
  | perstDeassert => exact execPerstDeassert_keeps s
  | plcaTransmitOpportunity => exact execPlcaTransmitOpportunity_keeps s
  | hotSpareOfferRx o => exact execHotSpareOfferRx_keeps s o
  | linkRetrainDone k rate width => exact execLinkRetrainDone_keeps s k rate width
  | dmpSwapDone d => exact execDmpSwapDone_keeps s d

/-! ### The commands of the supply -/

/-- Event time is a matter of what no shared operation touches. -/
theorem State.Keeps.time {s t : State} (h : s.Keeps t) : EventTimeTogether s → EventTimeTogether t := by
  have e := congrArg (·.2.1) h.still
  simp only [Prod.mk.injEq] at e
  obtain ⟨hm, h0, h1, ha⟩ := e
  simp only [EventTimeTogether, hm, h0, h1, ha, imp_self]

/-- Without its rails the module's event time is zero in every domain. -/
theorem State.powerOff_time (s : State) : EventTimeTogether s.powerOff := ⟨rfl, rfl, rfl⟩

/-- At power good event time starts from zero in every domain (R23). -/
theorem State.wake_time (s : State) : EventTimeTogether s.wake := s.powerOff_time

/-- What follows a domain's tick in every domain. -/
theorem execEvtTick_time {s : State} (h : EventTimeTogether s) : Completes EventTimeTogether (execEvtTick s) := by
  obtain ⟨h0, h1, ha⟩ := h
  refine .next ?_
  split
  · exact ⟨congrArg (· + 1) h0, congrArg (· + 1) h1, by rw [ha]; exact List.map_replicate⟩
  · exact ⟨h0, h1, ha⟩

theorem ite_time {c : Prop} [Decidable c] {a b : State} (ha : EventTimeTogether a) (hb : EventTimeTogether b) :
    EventTimeTogether (if c then a else b) := by
  split <;> assumption

/-- A command of the supply leaves event time alone, or starts it from zero in every domain. -/
theorem exec_supply_time {c : Instr} {s : State} (hp : suppliesPower c = true) (h : EventTimeTogether s) :
    Completes EventTimeTogether (exec c s) := by
  match c with
  | .inputApplied => exact .next (ite_time h h)
  | .prechargeDone => exact .next (ite_time h h)
  | .pwrOkRise => exact .next (ite_time h h)
  | .powerGood =>
    exact .next (ite_time (State.Keeps.time (State.latchAll_keeps _ (State.bootRom_keeps _ .rfl')) s.wake_time) h)
  | .pwrOkFall => exact .next (ite_time h (ite_time (State.powerOff_time _) h))
  | .hardwareOvervoltageRemoval => exact .next (ite_time s.powerOff_time h)
  | .inputUndervoltage .below42 => exact .next (ite_time h s.powerOff_time)
  | .inputUndervoltage .withdrawn => exact .next (ite_time h s.powerOff_time)

/-- Every command keeps the event-time counters together. -/
theorem exec_time (c : Instr) {s : State} (h : EventTimeTogether s) : Completes EventTimeTogether (exec c s) := by
  cases hp : suppliesPower c with
  | true => exact exec_supply_time hp h
  | false =>
    by_cases ht : c = .evtTick
    · subst ht
      exact execEvtTick_time h
    · obtain ⟨t, e, k⟩ := exec_keeps c s hp ht
      exact ⟨t, e, k.time h⟩

/-- Settles O11: each command keeps the counters together, so that a step does. -/
theorem stepKeepsEventTimeTogether : Obligations.StepKeepsEventTimeTogether := by
  unfold Obligations.StepKeepsEventTimeTogether
  intro s t h e
  unfold step at e
  split at e
  · cases e
    exact h
  · rename_i c rest _
    obtain ⟨u, eu, hu⟩ := exec_time c (s := { s with pending := rest }) h
    rw [eu] at e
    cases e
    exact hu

end Sys2Proof.Machine

/-! PROOFS. Latching (R315 to R328): what is raised takes a record, one raised line is latched alone, and a severity never falls below its
class's. -/

namespace Sys2Proof.Machine

variable {s : State}

/-! ### Sequence numbers -/

/-- A record takes a sequence number (R333). -/
theorem State.record_seq_lt (s : State) (r : EvRecord) : s.flt.nextSeq < (s.record r).flt.nextSeq :=
  Nat.lt_of_lt_of_le (Nat.lt_succ_self _) (State.fileRecord_keeps s.takeSeq (s.stamp r) .rfl').seq

/-- A record takes a number wherever it is latched (R13, R333). -/
theorem State.recordAt_seq_lt (s : State) (die : Nat) (r : EvRecord) : s.flt.nextSeq < (s.recordAt die r).flt.nextSeq := by
  unfold State.recordAt
  split
  · exact Nat.lt_succ_self _
  · exact s.record_seq_lt r

/-- A fault that is latched takes a record (R315). -/
theorem State.latchIn_seq_lt (s : State) (r : FaultReport) (v : Verdict) : s.flt.nextSeq < (s.latchIn r v).flt.nextSeq := by
  unfold State.latchIn
  extract_lets lv src x s1 s2
  have h1 : s.Keeps s1 := State.workFault_keeps _ _ (State.setCollector_keeps _ _ _ (State.setSource_keeps _ _ _ _ _ _ .rfl'))
  have h2 : s.Keeps s2 := State.place_keeps _ _ _ _ _ (State.classHolds_keeps _ _ _ h1)
  have record := s2.recordAt_seq_lt (dieOfUnit lv r.unit) (s2.faultRecord x r v)
  have after : (s2.recordAt (dieOfUnit lv r.unit) (s2.faultRecord x r v)).Keeps
      (((s2.recordAt (dieOfUnit lv r.unit) (s2.faultRecord x r v)).countFault r v).changed (s.topSev != s2.topSev)) :=
    State.changed_keeps _ _ (State.countFault_keeps _ _ _ .rfl')
  exact Nat.lt_of_le_of_lt h2.seq (Nat.lt_of_lt_of_le record after.seq)

theorem State.latchOne_seq_lt (s : State) (r : FaultReport) : s.flt.nextSeq < (s.latchOne r).flt.nextSeq := by
  have h : s.flt.nextSeq < (s.latchIn r (s.judge r)).flt.nextSeq := s.latchIn_seq_lt r _
  unfold State.latchOne
  dsimp only
  split
  · exact Nat.lt_of_lt_of_le h (State.severeEffects_keeps _ r _ .rfl').seq
  · exact h

theorem State.latch_seq_lt (s : State) (r : FaultReport) : s.flt.nextSeq < (s.latch r).flt.nextSeq := by
  unfold State.latch
  dsimp only
  split
  · exact s.latchOne_seq_lt _
  · exact Nat.lt_of_le_of_lt (State.setSource_keeps s _ _ _ _ _ .rfl').seq (State.latchOne_seq_lt _ _)

/-- Where a line is asserted, latching takes a record (R315, R333). -/
theorem State.latchAll_seq_lt (h : s.flt.lines ≠ []) : s.flt.nextSeq < s.latchAll.flt.nextSeq := by
  obtain ⟨r, l, e⟩ := List.exists_cons_of_ne_nil h
  have first : s.flt.nextSeq < (({ s with flt.lines := [] } : State).latch r).flt.nextSeq :=
    State.latch_seq_lt { s with flt.lines := [] } r
  have rest : (({ s with flt.lines := [] } : State).latch r).Keeps s.latchAll := by
    unfold State.latchAll State.settle
    rw [e]
    exact State.settle_keeps _ _ (foldl_keeps (fun _ _ => State.latch_keeps _ _) l .rfl')
  exact Nat.lt_of_lt_of_le first rest.seq

/-- Raising a line and latching takes a record. -/
theorem State.raise_latchAll_seq_lt (s : State) (r : FaultReport) : s.flt.nextSeq < (s.raise r).latchAll.flt.nextSeq :=
  State.latchAll_seq_lt (s := s.raise r) (by simp [State.raise])

/-! ### One raised line -/

/-- A fault of any class but INTEGRITY is latched under its own (R332). -/
theorem State.latch_of_cls {r : FaultReport} (h : r.cls ≠ 0x10) : s.latch r = s.latchOne r := by
  simp [State.latch, State.latchedAs, h]

/-- A line raised alone, whose latching asserts nothing, is latched and nothing more. -/
theorem State.latchAll_raise {r : FaultReport} (hs : s.Quiet) (hq : (s.latch r).Quiet) : (s.raise r).latchAll = s.latch r := by
  have e : ({ s.raise r with flt.lines := [] } : State) = s := by
    show ({ s with flt.lines := [] } : State) = s
    rw [← hs]
  have one : (s.raise r).flt.lines = [r] := by rw [State.raise, show s.flt.lines = [] from hs]; rfl
  have drop : ({ s.latch r with flt.lines := [] } : State) = s.latch r := by rw [← hq]
  simp only [State.latchAll, State.settle, one, List.foldl_cons, List.foldl_nil, e, show (s.latch r).flt.lines = [] from hq, drop]

/-- A fault judged Severe or above has its effects once it is latched (R320, R327, R328). -/
theorem State.latchOne_of_severe {r : FaultReport} (h : 2 ≤ (s.judge r).sev) :
    s.latchOne r = (s.latchIn r (s.judge r)).severeEffects r (s.judge r) := if_pos h

/-- A fault's severity is at least its class's and what its report asks, Fatal being the highest (R320). -/
theorem State.judge_sev_ge (s : State) (r : FaultReport) : min 3 (max (classRow r.cls).base r.atLeast) ≤ (s.judge r).sev := by
  unfold State.judge
  extract_lets row src times full base sev1 x meets esc top sev2 fatal sev3
  have counted : base ≤ sev1 := by
    unfold sev1
    split
    · split <;> exact Nat.le_max_left _ _
    · exact Nat.le_refl _
  have escalated : sev1 ≤ sev2 := by unfold sev2; split <;> omega
  have special : min 3 sev2 ≤ sev3 := by unfold sev3; split <;> omega
  show min 3 base ≤ sev3
  omega

/-- A class whose base severity is Severe is never judged less (R320). -/
theorem State.judge_severe {r : FaultReport} (h : 2 ≤ (classRow r.cls).base) : 2 ≤ (s.judge r).sev := by
  have := s.judge_sev_ge r
  omega

end Sys2Proof.Machine

/-! PROOFS. Event time (R23, R25) and synchronised bits (R21, R281, R443). -/

namespace Sys2Proof.Machine

variable {s : State}

/-! ### Event time -/

theorem tickAdvancesEveryDomain : TickAdvancesEveryDomain := by
  intro s hon
  constructor
  · intro hl
    exact congrArg Host.Outcome.next (if_pos ⟨hon, hl⟩)
  · intro hl
    exact congrArg Host.Outcome.next (if_neg (by simp [hl]))

/-- The fault of a lost tick (R25). -/
abbrev tickFault : FaultReport := fault 0x17 .module 0

/-- What the lost tick's own action does: every time field freezes, and readiness bit [58] clears (R25, R320). -/
theorem State.severeAction_tickFault (s : State) : s.severeAction tickFault = { s with clk.lost := true }.setReady 58 false := rfl

theorem State.latch_tickFault (s : State) :
    s.latch tickFault = (s.latchIn tickFault (s.judge tickFault)).severeEffects tickFault (s.judge tickFault) := by
  rw [State.latch_of_cls (by decide), State.latchOne_of_severe (State.judge_severe (by decide))]

/-- Latching a lost tick asserts no further line. -/
theorem State.latch_tickFault_quiet (h : s.Quiet) : (s.latch tickFault).Quiet := by
  have h1 : (s.latchIn tickFault (s.judge tickFault)).Quiet := State.latchIn_quiet _ _ _ rfl h
  rw [State.latch_tickFault, State.severeEffects, State.severeAction_tickFault]
  exact State.setReady_quiet _ _ _ (State.stepEffect_quiet _ _ (ite_quiet (State.fatalStop_quiet _ _ h1) h1))

/-- A readiness bit's write is the write of ready.summary, for whatever does not read the bit's time or what is reported (R367, R370). -/
theorem State.setReady_frame {α : Type} {f : State → α} (h : ∀ (u : State) c t, f { u with comm := c, dict.readyTime := t } = f u)
    (s : State) (b : Nat) (on : Bool) :
    f (s.setReady b on) = f (s.setEnt Ent.readySummary (setBitN (s.ent Ent.readySummary) b on)) := by
  have report (u : State) (p : Bool) : f (u.changed p) = f u := by
    unfold State.changed
    split
    · exact h u _ u.dict.readyTime
    · rfl
  have time (u : State) (t : KV Nat) : f { u with dict.readyTime := t } = f u := h u u.comm t
  unfold State.setReady
  dsimp only
  split
  · split
    · exact report _ _
    · exact (time _ _).trans (report _ _)
  · exact (time _ _).trans (report _ _)

/-- Setting or clearing a readiness bit leaves the clocks alone. -/
@[simp] theorem State.setReady_clk (s : State) (b : Nat) (on : Bool) : (s.setReady b on).clk = s.clk :=
  State.setReady_frame (f := State.clk) (fun _ _ _ => rfl) s b on

theorem State.latch_tickFault_lost (s : State) : (s.latch tickFault).clk.lost = true := by
  rw [State.latch_tickFault, State.severeEffects, State.severeAction_tickFault, State.setReady_clk]

theorem lostTickFreezesTime : LostTickFreezesTime := by
  intro s hon hl hq
  have e : exec .evtTickLost s = .next (s.raise tickFault).latchAll := congrArg Host.Outcome.next (if_pos ⟨hon, hl⟩)
  have keeps : s.Keeps (s.raise tickFault).latchAll := State.latchAll_keeps _ (State.raise_keeps _ _ .rfl')
  have one : (s.raise tickFault).latchAll = s.latch tickFault := State.latchAll_raise hq (State.latch_tickFault_quiet hq)
  have still := congrArg (·.2.1) keeps.still
  simp only [Prod.mk.injEq] at still
  obtain ⟨mgmt, _, _, arith⟩ := still
  exact ⟨_, e, by rw [one]; exact s.latch_tickFault_lost, mgmt, arith, s.raise_latchAll_seq_lt _⟩

/-- Settles O17: the tick by its meaning, the lost tick by what latching its fault does. -/
theorem eventTimeRunsTogetherAndStops : Obligations.EventTimeRunsTogetherAndStops :=
  ⟨tickAdvancesEveryDomain, lostTickFreezesTime⟩

/-! ### Synchronised bits -/

/-- A level that has not changed does nothing. -/
theorem execSyncLevelChange_same (b : SyncBit) (s : State) : execSyncLevelChange b (s.syncLevel b) s = .next s :=
  congrArg Host.Outcome.next (if_pos (.inl rfl))

/-- A level that the sending side does not make does nothing. -/
theorem execSyncLevelChange_unsent {b : SyncBit} {l : Bool} (h : s.syncSends b l = false) : execSyncLevelChange b l s = .next s :=
  congrArg Host.Outcome.next (if_pos (.inr h))

/-- What the receiver holds of a bit once a level has come (R281). -/
def SyncSt.took (x : SyncSt) (b : SyncBit) (l : Bool) : SyncSt :=
  if syncReports b then { level := l, events := x.events + 1, pending := x.pending - 1 } else { x with level := l, cleared := false }

@[simp] theorem SyncSt.took_level (x : SyncSt) (b : SyncBit) (l : Bool) : (x.took b l).level = l := by
  unfold SyncSt.took
  split <;> rfl

/-- The state once a level has come. -/
def State.syncTook (s : State) (b : SyncBit) (l : Bool) : State :=
  { s with clk.syncs := Kv.setD s.clk.syncs (syncKey b) {} ((Kv.getD s.clk.syncs (syncKey b) {}).took b l) }.syncEffect b l

/-- With power, a level that has changed and that the sending side makes comes through. -/
theorem execSyncLevelChange_took {b : SyncBit} {l : Bool} (hon : s.pwr.on = true) (hl : s.syncLevel b ≠ l) (hs : s.syncSends b l = true) :
    execSyncLevelChange b l s = .next (s.syncTook b l) := by
  simp only [execSyncLevelChange, State.syncTook, SyncSt.took, hl, hs, hon, Bool.true_eq_false, or_self, if_false, if_true]

/-- What a receiver does with a level touches neither the synchronisers nor what the modules' units hold. -/
theorem State.syncEffect_frame (s : State) (b : SyncBit) (l : Bool) :
    (s.syncEffect b l).clk = s.clk ∧ (s.syncEffect b l).mem = s.mem ∧ (s.syncEffect b l).cores = s.cores ∧
      (s.syncEffect b l).dict = s.dict := by
  cases b <;> exact ⟨rfl, rfl, rfl, rfl⟩

theorem State.syncTook_syncs (s : State) (b : SyncBit) (l : Bool) : (s.syncTook b l).clk.syncs =
    Kv.setD s.clk.syncs (syncKey b) {} ((Kv.getD s.clk.syncs (syncKey b) {}).took b l) := by
  rw [State.syncTook, (State.syncEffect_frame _ b l).1]

/-- The level that has come is the one read. -/
theorem State.syncTook_level (s : State) (b : SyncBit) (l : Bool) : (s.syncTook b l).syncLevel b = l := by
  have h : (Kv.getD (s.syncTook b l).clk.syncs (syncKey b) {}).level = l := by
    rw [s.syncTook_syncs, Kv.getD_setD_self, SyncSt.took_level]
  cases b
  case addrIn => rfl
  all_goals exact h

/-- The tray drives ADDR_IN (R443): the module's sending side puts nothing in its way. -/
theorem State.syncSends_addrIn (s : State) (l : Bool) : s.syncSends .addrIn l = true := by
  simp [State.syncSends, syncReports, stickyLine]

/-- Without power only ADDR_IN's level moves (R443). -/
theorem execSyncLevelChange_addrIn_off (hoff : s.pwr.on = false) (l : Bool) :
    execSyncLevelChange .addrIn l s = .next { s with comm.addrIn := l } := by
  by_cases h : s.syncLevel .addrIn = l
  · subst h
    exact execSyncLevelChange_same .addrIn s
  · simp only [execSyncLevelChange, h, s.syncSends_addrIn l, hoff, Bool.true_eq_false, Bool.false_eq_true, or_self, if_false, State.syncEffect]

theorem execSyncLevelChange_off (hoff : s.pwr.on = false) {b : SyncBit} (hb : b ≠ .addrIn) (l : Bool) :
    execSyncLevelChange b l s = .next s := by
  simp only [execSyncLevelChange, hoff, Bool.false_eq_true, if_false]
  split
  · rfl
  · cases b
    case addrIn => exact absurd rfl hb
    all_goals rfl

/-- Settles O22. -/
theorem synchronisedBitsCountChanges : Obligations.SynchronisedBitsCountChanges := by
  refine ⟨fun b s hon => ⟨execSyncLevelChange_same b s, execSyncLevelChange_unsent, fun hs => ?_⟩, fun l s hoff =>
    ⟨execSyncLevelChange_addrIn_off hoff l, fun b hb => execSyncLevelChange_off hoff hb l⟩⟩
  have frame := State.syncEffect_frame
    { s with clk.syncs := Kv.setD s.clk.syncs (syncKey b) {} ((Kv.getD s.clk.syncs (syncKey b) {}).took b (!s.syncLevel b)) } b (!s.syncLevel b)
  obtain ⟨_, mem, cores, dict⟩ := frame
  refine ⟨_, execSyncLevelChange_took hon (by simp) hs, s.syncTook_level b _, ?_, fun k hk => ?_, mem, cores, dict⟩
  · rw [s.syncTook_syncs, Kv.getD_setD_self]
    rfl
  · rw [s.syncTook_syncs, Kv.getD_setD_ne _ _ _ hk]

end Sys2Proof.Machine

/-! PROOFS. Dual-clock queues (R22, R278 to R283). -/

namespace Sys2Proof.Machine

variable {s : State}

/-! ### What a record leaves alone -/

/-- The parts of the state that no record touches: a record goes to the recorder and its mirror, and counts, or raises vector 4. -/
abbrev State.unrecorded (s : State) :=
  (s.pending, s.clk, s.pwr, s.cores, s.clusters, s.rep, s.scale, s.rake, s.prog, s.train, s.mem, s.arb, s.links, s.crust, s.stock, s.sec)

theorem State.raiseVector_unrecorded (s : State) (v : Nat) : (s.raiseVector v).unrecorded = s.unrecorded := by
  unfold State.raiseVector
  split <;> rfl

theorem State.storeRecord_unrecorded (s : State) (r : EvRecord) : (s.storeRecord r).unrecorded = s.unrecorded := by
  unfold State.storeRecord
  generalize h1 : (if 1 ≤ r.severity then s.raiseVector 4 else s) = s1
  have e : s1.unrecorded = s.unrecorded := by
    rw [← h1]
    split
    · exact s.raiseVector_unrecorded 4
    · rfl
  dsimp only
  split
  · rfl
  · split <;> exact e

theorem State.record_unrecorded (s : State) (r : EvRecord) : (s.record r).unrecorded = s.unrecorded := by
  unfold State.record State.fileRecord
  split
  · rfl
  · exact State.storeRecord_unrecorded _ _

theorem State.violation_unrecorded (s : State) (code space addr p0 : Nat) :
    (s.violation code space addr p0).unrecorded = s.unrecorded := by
  unfold State.violation
  exact State.record_unrecorded _ _

/-! ### Reads and writes of a queue -/

/-- A write of a queue leaves the queues under other keys as they were. -/
theorem State.queue_setQueue_ne {q k : QueueId} (x : QueueSt) (h : queueKey k ≠ queueKey q) : (s.setQueue q x).queue k = s.queue k :=
  Kv.getD_setD_ne _ _ _ h

/-- A stall is counted in the queue's state. -/
theorem State.queue_stallQueue (s : State) (q : QueueId) :
    (s.stallQueue (queueKey q)).queue q = { s.queue q with stalls := (s.queue q).stalls + 1 } := s.queue_setQueue q _

theorem State.queue_stallQueue_ne {q k : QueueId} (h : queueKey k ≠ queueKey q) : (s.stallQueue (queueKey q)).queue k = s.queue k :=
  State.queue_setQueue_ne _ h

/-- A requester's counters read back. -/
@[simp] theorem State.arbCnt_setArbCnt (s : State) (l i k : Nat) (x : ArbCnt) : (s.setArbCnt l i k x).arbCnt l i k = x := by
  simp [State.arbCnt, State.setArbCnt]

/-- A wait of so many cycles is counted for its requester (R275). -/
theorem State.countWait_wait (s : State) (l i resource k n : Nat) :
    ((s.countWait l i resource k n).arbCnt l i k).wait = satAdd 64 (s.arbCnt l i k).wait n := by
  simp [State.countWait, ArbCnt.waits]

/-! ### An entry arrives -/

/-- What stays where queue `q` alone changes. -/
structure State.QueueAlone (s t : State) (q : QueueId) : Prop where
  others : ∀ k, queueKey k ≠ queueKey q → t.queue k = s.queue k
  mem : t.mem = s.mem
  flt : t.flt = s.flt

theorem State.setQueue_alone (s : State) (q : QueueId) (x : QueueSt) : s.QueueAlone (s.setQueue q x) q :=
  ⟨fun _ => State.queue_setQueue_ne x, rfl, rfl⟩

/-- The row queue of a pan whose pass awaits rows: the pass takes an entry at once (R91, R283). -/
theorem State.seeEntry_awaited {c : CoreId} {i : PanId} (h : 0 < (s.pan c i).rowsDue) (e : Nat) :
    s.seeEntry (.panRows c i) e =
      ((s.setQueue (.panRows c i) { s.queue (.panRows c i) with visible := (s.queue (.panRows c i)).visible ++ [e] }).readQueue
        (queueKey (.panRows c i)) 1).setPan c i { s.pan c i with rowsDue := (s.pan c i).rowsDue - 1 } := if_pos h

/-- Any other entry only becomes visible. -/
theorem State.seeEntry_plain {q : QueueId} (h : rowsAwaited s q = 0) (e : Nat) :
    s.seeEntry q e = s.setQueue q { s.queue q with visible := (s.queue q).visible ++ [e] } := by
  cases q
  case panRows c i => exact if_neg (Nat.not_lt.2 (Nat.le_of_eq h))
  all_goals rfl

/-- What a receiver reads of a queue it reads from the front of what it sees. -/
theorem State.queue_readQueue (s : State) (q : QueueId) (n : Nat) : (s.readQueue (queueKey q) n).queue q =
    { s.queue q with taken := min (s.queue q).visible.length ((s.queue q).taken + n) } := s.queue_setQueue q _

/-- Only the row queue of a pan has rows awaited. -/
theorem rowsAwaited_pos {q : QueueId} (h : 0 < rowsAwaited s q) : ∃ c i, q = .panRows c i ∧ 0 < (s.pan c i).rowsDue := by
  cases q
  case panRows c i => exact ⟨c, i, rfl, h⟩
  all_goals exact absurd h (Nat.lt_irrefl 0)

/-- The rows that a pass awaits are its pan's, not the queues'. -/
theorem State.rowsAwaited_setQueue (s : State) (q k : QueueId) (x : QueueSt) : rowsAwaited (s.setQueue k x) q = rowsAwaited s q := by
  cases q <;> rfl

/-- The entry that arrives is the last of those visible; a pass that awaits rows reads one (R278, R283). -/
theorem State.seeEntry_spec (s : State) (q : QueueId) (e : Nat) :
    (s.seeEntry q e).queue q = { s.queue q with
      visible := (s.queue q).visible ++ [e],
      taken := if 0 < rowsAwaited s q then min ((s.queue q).visible.length + 1) ((s.queue q).taken + 1) else (s.queue q).taken } ∧
    rowsAwaited (s.seeEntry q e) q = rowsAwaited s q - 1 ∧ s.QueueAlone (s.seeEntry q e) q := by
  by_cases h : 0 < rowsAwaited s q
  · obtain ⟨c, i, rfl, hr⟩ := rowsAwaited_pos h
    rw [State.seeEntry_awaited hr, if_pos h]
    refine ⟨?_, ?_, fun k hk => ?_, rfl, rfl⟩
    · show State.queue (State.readQueue _ _ 1) _ = _
      rw [State.queue_readQueue, State.queue_setQueue]
      simp
    · show (State.pan _ c i).rowsDue = _
      rw [State.pan_setPan]
      rfl
    · show State.queue (State.readQueue _ _ 1) k = _
      exact (State.queue_setQueue_ne _ hk).trans (State.queue_setQueue_ne _ hk)
  · have h0 : rowsAwaited s q = 0 := by omega
    rw [State.seeEntry_plain h0, if_neg h, h0]
    exact ⟨s.queue_setQueue q _, (s.rowsAwaited_setQueue q q _).trans h0, s.setQueue_alone q _⟩

/-- An entry from outside that finds room becomes visible where its parity holds. -/
theorem execQueueEntryArrive_outside {q : QueueId} (hon : s.pwr.on = true) (ho : fromOutside q = true)
    (hroom : (s.queue q).held < queueDepth q) (p : Nat) (ok : Bool) :
    execQueueEntryArrive q p ok s = .next (if ok then s.seeEntry q (p % 2 ^ q.width) else (s.queueParity q).latchAll) := by
  have hm : moduleSends q = false := by cases q <;> simp_all [fromOutside]
  simp only [execQueueEntryArrive, hon, hm, Nat.not_le.2 hroom, if_true, if_false, Bool.false_eq_true]
  split
  · exact absurd ho Bool.false_ne_true
  · rfl

/-- What a unit of the module has sent becomes visible oldest first, where its parity holds. -/
theorem execQueueEntryArrive_sent {q : QueueId} (hon : s.pwr.on = true) (hm : moduleSends q = true) {e : Nat} {l : List Nat}
    (hs : (s.queue q).sending = e :: l) (p : Nat) (ok : Bool) :
    execQueueEntryArrive q p ok s = .next (if ok then s.setQueue q { s.queue q with sending := l, visible := (s.queue q).visible ++ [e] }
      else (s.queueParity q).latchAll) := by
  simp only [execQueueEntryArrive, hon, hm, hs, if_true]

/-- Where a unit of the module has sent nothing, nothing arrives. -/
theorem execQueueEntryArrive_unsent {q : QueueId} (hm : moduleSends q = true) (hs : (s.queue q).sending = []) (p : Nat) (ok : Bool) :
    execQueueEntryArrive q p ok s = .next s := by
  simp only [execQueueEntryArrive, hm, hs, if_true, ite_self]

/-- A full queue stalls its sender from outside (R278). -/
theorem execQueueEntryArrive_full {q : QueueId} (hon : s.pwr.on = true) (hm : moduleSends q = false)
    (hfull : queueDepth q ≤ (s.queue q).held) (p : Nat) (ok : Bool) : execQueueEntryArrive q p ok s = .next (s.stallAt q) := by
  simp only [execQueueEntryArrive, hon, hm, hfull, if_true, if_false, Bool.false_eq_true]

/-! ### A slot is released -/

/-- An empty queue gives nothing. -/
theorem execQueueSlotRelease_empty {q : QueueId} (h : (s.queue q).visible = []) : execQueueSlotRelease q s = .next s :=
  congrArg Host.Outcome.next (if_neg fun k => k.2.1 h)

/-- A receiver in a stopped core releases nothing that it has not read (R79). -/
theorem execQueueSlotRelease_stopped {q : QueueId} {c : Nat} (ht : (s.queue q).taken = 0) (hr : queueReader q = some c)
    (hc : s.coreStopped c = true) : execQueueSlotRelease q s = .next s :=
  congrArg Host.Outcome.next (if_neg fun k => k.2.2 ⟨ht, .inl (by simp [hr, hc])⟩)

/-- Where reading has no effect of its own, a release takes the oldest entry and nothing more. -/
theorem execQueueSlotRelease_plain {q : QueueId} (hon : s.pwr.on = true) (hq : readsOnly q = true) (hv : (s.queue q).visible ≠ [])
    (hl : s.Quiet) (hr : (s.queue q).taken ≠ 0 ∨ (queueReader q).any s.coreStopped = false ∧ s.canRead q = true) :
    execQueueSlotRelease q s =
      .next (s.setQueue q { s.queue q with visible := (s.queue q).visible.drop 1, taken := (s.queue q).taken - 1 }) := by
  have reads (u : State) (fresh : Bool) (e : Nat) : u.entryRead q fresh e = u := by
    cases q
    case panShifts => exact absurd hq Bool.false_ne_true
    case panWriteback => exact absurd hq Bool.false_ne_true
    all_goals rfl
  have go : ¬((s.queue q).taken = 0 ∧ ((queueReader q).any s.coreStopped = true ∨ s.canRead q = false)) := by
    rintro ⟨h0, hs | hs⟩
    · exact hr.elim (· h0) fun h => absurd (hs.symm.trans h.1) (by decide)
    · exact hr.elim (· h0) fun h => absurd (h.2.symm.trans hs) (by decide)
  simp only [execQueueSlotRelease, if_pos (And.intro hon (And.intro hv go)), reads]
  rw [State.latchAll_of_lines (show (s.setQueue q _).flt.lines = [] from hl)]

theorem queuesDeliverInOrder : QueuesDeliverInOrder := by
  intro q p s hon
  refine ⟨fun ho hroom => ?_, fun hm e l hs => ?_, fun hm hs ok => execQueueEntryArrive_unsent hm hs p ok, fun hq hv hl hr =>
    execQueueSlotRelease_plain hon hq hv hl hr, execQueueSlotRelease_empty⟩
  · obtain ⟨queue, rows, others, mem, flt⟩ := s.seeEntry_spec q (p % 2 ^ q.width)
    exact ⟨_, execQueueEntryArrive_outside hon ho hroom p true, queue, rows, others, mem, flt⟩
  · obtain ⟨others, mem, flt⟩ := s.setQueue_alone q { s.queue q with sending := l, visible := (s.queue q).visible ++ [e] }
    exact ⟨_, execQueueEntryArrive_sent hon hm hs p true, s.queue_setQueue q _, others, mem, flt⟩

theorem fullQueuesStallTheirSenders : FullQueuesStallTheirSenders := by
  intro q p ok s hon
  refine ⟨fun hm hfull => ⟨_, execQueueEntryArrive_full hon hm hfull p ok, ?_⟩, fun ht c hr hc => execQueueSlotRelease_stopped ht hr hc⟩
  have queue := s.queue_stallQueue q
  have others (k : QueueId) (hk : queueKey k ≠ queueKey q) := s.queue_stallQueue_ne hk
  unfold State.stallAt
  cases hr : queueRequester q with
  | some x =>
    obtain ⟨l, i, k⟩ := x
    refine ⟨queue, ?_, nofun, nofun, others, rfl, rfl⟩
    rintro l' i' k' ⟨⟩
    exact State.countWait_wait _ l i 0 k 1
  | none =>
    cases hb : s.heldBack q with
    | some x =>
      refine ⟨queue, nofun, ?_, nofun, others, rfl, rfl⟩
      rintro - x' ⟨⟩
      exact State.countWait_wait _ _ _ _ _ 1
    | none => exact ⟨queue, nofun, nofun, fun _ _ => rfl, others, rfl, rfl⟩

/-! ### Parity -/

/-- The line of a queue's receiving unit (R282, R321). -/
def queueFault (q : QueueId) : FaultReport :=
  { fault 0x03 (queueReceiver q).1 (queueReceiver q).2.1 with source := (queueReceiver q).2.2, detail := queueDetail q }

/-- The oldest transaction that a queue carries ends; clocks, cores and lines stay (R282). -/
theorem State.failOldest_frame (s : State) (q : QueueId) :
    (s.failOldest q).clk = s.clk ∧ (s.failOldest q).cores = s.cores ∧ (s.failOldest q).flt.lines = s.flt.lines ∧
      ∀ x, s.mem.outstanding.find? (carries q) = some x → (s.failOldest q).mem.outstanding = s.mem.outstanding.erase x := by
  unfold State.failOldest
  split
  case h_1 y hy =>
    have e := (s.completeTxn y).violation_unrecorded 6 0 y.req.addr 0
    simp only [Prod.mk.injEq] at e
    obtain ⟨-, clk, -, cores, -, -, -, -, -, -, mem, -⟩ := e
    refine ⟨clk, cores, State.violation_quiet _ _ _ _ _ rfl, fun x hx => ?_⟩
    rw [mem]
    cases hy.symm.trans hx
    rfl
  case h_2 hy => exact ⟨rfl, rfl, rfl, fun x hx => by rw [hy] at hx; cases hx⟩

theorem execQueueEntryArrive_bad {q : QueueId} (hon : s.pwr.on = true) (p : Nat)
    (h : fromOutside q = true ∧ (s.queue q).held < queueDepth q ∨ moduleSends q = true ∧ (s.queue q).sending ≠ [] ∨
      (s.queue q).held < queueDepth q ∧ ∃ c i tile n, q = .panShifts c i ∧ s.nextShifts c i = some (tile, .ok n)) :
    execQueueEntryArrive q p false s = .next (s.queueParity q).latchAll := by
  rcases h with ⟨ho, hroom⟩ | ⟨hm, hs⟩ | ⟨hroom, c, i, tile, n, rfl, hn⟩
  · exact execQueueEntryArrive_outside hon ho hroom p false
  · obtain ⟨e, l, hs⟩ := List.exists_cons_of_ne_nil hs
    exact execQueueEntryArrive_sent hon hm hs p false
  · simp only [execQueueEntryArrive, hon, moduleSends, Nat.not_le.2 hroom, State.shiftsArrive, hn, if_true, if_false, Bool.false_eq_true]

theorem badParityIsNotDelivered : BadParityIsNotDelivered := by
  intro q p s hon h
  obtain ⟨clk, cores, lines, txn⟩ := (s.raise (queueFault q)).failOldest_frame q
  have keeps : s.Keeps (s.queueParity q) := State.queueParity_keeps _ _ .rfl'
  have asserted : (s.queueParity q).flt.lines = s.flt.lines ++ [queueFault q] := lines
  have taken := State.latchAll_seq_lt (s := s.queueParity q) (by simp [asserted])
  exact ⟨s.queueParity q, _, execQueueEntryArrive_bad hon p h, rfl, clk, cores, asserted, txn, Nat.lt_of_le_of_lt keeps.seq taken,
    State.latchAll_quiet _, State.latchAll_ram _ (State.queueParity_ram _ _ rfl)⟩

/-- Settles O25. -/
theorem queuesDeliverGoodEntriesInOrder : Obligations.QueuesDeliverGoodEntriesInOrder :=
  ⟨queuesDeliverInOrder, fullQueuesStallTheirSenders, badParityIsNotDelivered⟩

end Sys2Proof.Machine

/-! PROOFS. The module comes up (R405, R423, R447): sequencing, and what the boot ROM leaves at power good. -/

namespace Sys2Proof.Machine

variable {s : State}

theorem sequencingWaitsForChargeAndPwrOk : SequencingWaitsForChargeAndPwrOk := by
  intro s
  refine ⟨fun hi => ?_, fun hi hc => ?_, fun hok hon => ?_⟩
  · exact congrArg Host.Outcome.next (if_neg (by simp [hi]))
  · exact congrArg Host.Outcome.next (if_pos ⟨hi, hc⟩)
  · exact congrArg Host.Outcome.next ((if_neg (by simp [hok])).trans (by simp [hon]))

/-! ### A fault latched while the recorder reloads -/

/-- A fault is placed in collectors, and nowhere else (R316, R324). -/
theorem State.place_eq : ∀ (n : Nat) (s : State) (level unit : Nat) (f : Latched),
    ∃ c, State.place n s level unit f = { s with flt.collectors := c }
  | 0, s, _, _, _ => ⟨s.flt.collectors, rfl⟩
  | n + 1, s, level, unit, f => by
    unfold State.place
    dsimp only
    split
    · exact ⟨_, rfl⟩
    · exact ⟨_, rfl⟩
    · split
      · obtain ⟨c, e⟩ := State.place_eq n (s.setCollector (colKey level unit) { s.collector (colKey level unit) with overflow := true })
          (level + 1) (parentUnit level unit) { f with origins := f.origins ++ [colKey level unit] }
        exact ⟨c, e⟩
      · exact ⟨_, rfl⟩

/-- While the recorder reloads, a record is held: it takes its number, and no entry of the dictionary counts it (R339). -/
theorem State.recordAt_reloading (h : s.flt.reloading = true) (die : Nat) (r : EvRecord) :
    (s.recordAt die r).nv = s.takeSeq.nv ∧ (s.recordAt die r).dict = s.dict := by
  have held : s.record r = { s.takeSeq with flt.held := s.takeSeq.flt.held ++ [s.stamp r] } := if_pos h
  unfold State.recordAt
  split
  · exact ⟨rfl, rfl⟩
  · rw [held]
    exact ⟨rfl, rfl⟩

/-- The counters of a fault's class lie beside train.phase (R340). -/
theorem State.countFault_phase (s : State) (r : FaultReport) (v : Verdict) : (s.countFault r v).phase = s.phase := by
  have beside (u : State) (k n : Nat) (hk : 0x410104 ≤ k) : (u.bump 64 k n).phase = u.phase :=
    u.ent_bump_ne 64 n (show Ent.trainPhase ≠ k by unfold Ent.trainPhase; omega)
  unfold State.countFault
  extract_lets s1 s2
  have h1 : s1.phase = s.phase := beside _ _ _ (by unfold Ent.classFaults; omega)
  have h2 : s2.phase = s1.phase := by
    unfold s2
    split
    · exact beside _ _ _ (by unfold Ent.classSevere; omega)
    · rfl
  split
  · exact (beside _ _ _ (by unfold Ent.classEscalations; omega)).trans (h2.trans h1)
  · exact h2.trans h1

theorem State.countFault_nv (s : State) (r : FaultReport) (v : Verdict) : (s.countFault r v).nv = s.nv := by
  unfold State.countFault
  extract_lets s1 s2
  have severe : s2.nv = s.nv := by
    unfold s2
    split <;> rfl
  split <;> exact severe

/-- A fault that discards no core's work, latched while the recorder reloads: flash gives up a number and nothing else, and no step's phase
moves. -/
theorem State.latchIn_reloading {r : FaultReport} (hr : faultCore r = none) (h : s.flt.reloading = true) (v : Verdict) :
    (s.latchIn r v).nv = s.takeSeq.nv ∧ (s.latchIn r v).phase = s.phase := by
  have work (u : State) : u.workFault r = u := by rw [State.workFault, hr]
  unfold State.latchIn
  extract_lets lv src x s1 s2
  have e1 : s1 = (s.setSource r.cls r.level r.unit src v.times).setCollector (colKey lv r.unit) { x with word1 := detailWord r } := work _
  obtain ⟨c, e2⟩ := State.place_eq 4 (s1.classHolds r v) lv r.unit { cls := r.cls, sev := v.sev, seq := s1.flt.nextSeq, source := src }
  have reloading : s2.flt.reloading = true := by unfold s2; rw [e2, e1]; exact h
  have nv : s2.takeSeq.nv = s.takeSeq.nv := by unfold s2; rw [e2, e1]; rfl
  have dict : s2.dict = s.dict := by unfold s2; rw [e2, e1]; rfl
  obtain ⟨recNv, recDict⟩ := State.recordAt_reloading reloading (dieOfUnit lv r.unit) (s2.faultRecord x r v)
  have changedNv (u : State) (p : Bool) : (u.changed p).nv = u.nv := by unfold State.changed; split <;> rfl
  have changedPhase (u : State) (p : Bool) : (u.changed p).phase = u.phase := by unfold State.changed; split <;> rfl
  refine ⟨?_, ?_⟩
  · rw [changedNv, State.countFault_nv, recNv, nv]
  · rw [changedPhase, State.countFault_phase]
    show Kv.getD (State.dict _).vals _ _ = _
    rw [recDict, dict]
    rfl

/-! ### The boot ROM at power good -/

/-- Both banks of flash hold what they held. -/
def State.SameBanks (s t : State) : Prop := t.nv.bankA = s.nv.bankA ∧ t.nv.bankB = s.nv.bankB

/-- A number taken of the mark leaves the banks. -/
theorem State.SameBanks.of_takeSeq {z s t : State} (e : t.nv = s.takeSeq.nv) (h : z.SameBanks s) : z.SameBanks t := by
  unfold State.SameBanks at *
  rw [e]
  exact h

/-- The fault by which the ROM reports that it entered recovery (R423). -/
abbrev recoveryFault : FaultReport := { fault 0x1A .module 0 with detail := 3 }

/-- With nothing latched before it, a recovery is Severe and no more. -/
theorem State.judge_recoveryFault (h : s.flt.collectors = []) : (s.judge recoveryFault).sev = 2 := by
  have none_ : s.collector (colKey (levelCode .module) 0) = {} := by rw [State.collector, h]; rfl
  unfold State.judge
  extract_lets row src times full base sev1 x meets esc top sev2 fatal sev3
  have hs1 : sev1 = 2 := by
    by_cases hf : full = true
    · exact (if_pos hf).trans (if_pos (show 2 ≤ 3 by decide))
    · exact if_neg hf
  have hx : x = {} := none_
  have hm : meets = false := by unfold meets; rw [hx]; rfl
  have he : esc = false := by unfold esc; rw [hm]; rfl
  have hs2 : sev2 = 2 := by unfold sev2; rw [he, hs1]; rfl
  show sev3 = 2
  unfold sev3
  rw [if_neg (by simp [fatal, fault]), hs2]

/-- Latching the recovery's fault at power good, between steps: the fault takes its slot and its record, and no action follows. -/
theorem State.latch_recoveryFault (hc : s.flt.collectors = []) (hr : s.flt.reloading = true) (hp : s.phase = 0) :
    s.latch recoveryFault = s.latchIn recoveryFault (s.judge recoveryFault) := by
  have sev := State.judge_recoveryFault hc
  have phase : (s.latchIn recoveryFault (s.judge recoveryFault)).phase = 0 :=
    (State.latchIn_reloading (r := recoveryFault) rfl hr _).2.trans hp
  rw [State.latch_of_cls (by decide), State.latchOne_of_severe (by omega), State.severeEffects, sev, if_neg (by decide)]
  show State.noOutcome _ = _
  rw [State.noOutcome, if_pos (.inl phase)]

/-- What power good brings up, before the ROM has chosen a bank: nothing latched or asserted, the recorder reloading, no step. -/
structure State.Fresh (s : State) : Prop where
  collectors : s.flt.collectors = []
  lines : s.Quiet
  reloading : s.flt.reloading = true
  phase : s.phase = 0

theorem State.wake_fresh (s : State) : s.wake.Fresh := ⟨rfl, rfl, rfl, by show entryDefault Ent.trainPhase = 0; decide⟩

/-- A bank that is refused leaves its code, and no more. -/
theorem State.Fresh.rejected (h : s.Fresh) (b : Bool) (c : Nat) :
    (if b then { s with sec.rejectB := c } else { s with sec.rejectA := c } : State).Fresh ∧
      s.SameBanks (if b then { s with sec.rejectB := c } else { s with sec.rejectA := c }) := by
  cases b <;> exact ⟨⟨h.collectors, h.lines, h.reloading, h.phase⟩, rfl, rfl⟩

/-- Booting a bank leaves both as they were. -/
theorem State.Fresh.bootBank_sameBanks (h : s.Fresh) (b other : Bool) : s.SameBanks (s.bootBank b other).latchAll := by
  unfold State.bootBank
  extract_lets _ _ s1
  cases other with
  | false =>
    show s.SameBanks s1.latchAll
    rw [State.latchAll_of_lines (s := s1) h.lines]
    exact ⟨rfl, rfl⟩
  | true =>
    show s.SameBanks (s1.latchAt 1 (fault 0x1A .module 0)).latchAll
    rw [State.latchAll_of_lines (State.latchAt_quiet s1 1 _ rfl h.lines)]
    exact .of_takeSeq (State.latchIn_reloading (s := s1) (r := fault 0x1A .module 0) rfl h.reloading _).1 ⟨rfl, rfl⟩

/-- The recovery's fault, raised and latched at power good, leaves both banks. -/
theorem State.Fresh.raise_recoveryFault_sameBanks (h : s.Fresh) : s.SameBanks (s.raise recoveryFault).latchAll := by
  have latched := State.latch_recoveryFault h.collectors h.reloading h.phase
  have quiet : (s.latch recoveryFault).Quiet := by
    rw [latched]
    exact State.latchIn_quiet _ _ _ rfl h.lines
  rw [State.latchAll_raise h.lines quiet, latched]
  exact .of_takeSeq (State.latchIn_reloading rfl h.reloading _).1 ⟨rfl, rfl⟩

/-- Recovery mode leaves both banks as they were. -/
theorem State.Fresh.recoveryMode_sameBanks (h : s.Fresh) : s.SameBanks s.recoveryMode.latchAll :=
  have h1 : ({ s with sec.bootState := 3, sec.bankBooted := 255 } : State).Fresh := ⟨h.collectors, h.lines, h.reloading, h.phase⟩
  h1.raise_recoveryFault_sameBanks

theorem State.SameBanks.trans {z s t : State} (h : z.SameBanks s) (k : s.SameBanks t) : z.SameBanks t :=
  ⟨k.1.trans h.1, k.2.trans h.2⟩

/-- The boot ROM reads the banks of flash and writes neither (R423). -/
theorem State.Fresh.bootRom_sameBanks (h : s.Fresh) : s.SameBanks s.bootRom.latchAll := by
  unfold State.bootRom
  extract_lets first r1 setR s1 r2
  obtain ⟨h1, b1⟩ : s1.Fresh ∧ s.SameBanks s1 := h.rejected first r1
  obtain ⟨h2, b2⟩ : (setR s1 (!first) r2).Fresh ∧ s1.SameBanks (setR s1 (!first) r2) := h1.rejected (!first) r2
  split
  · exact h.bootBank_sameBanks _ _
  split
  · exact b1.trans (h1.bootBank_sameBanks _ _)
  · exact b1.trans (b2.trans h2.recoveryMode_sameBanks)

theorem powerGoodStartsFromZero : PowerGoodStartsFromZero := by
  intro s hseq hoff
  have keeps : s.wake.Keeps s.wake.bootRom.latchAll := State.latchAll_keeps _ (State.bootRom_keeps _ .rfl')
  have still := keeps.still
  simp only [Prod.mk.injEq] at still
  obtain ⟨pending, ⟨mgmt, -⟩, ⟨input, -, ok, -, on⟩, boot⟩ := still
  obtain ⟨bankA, bankB⟩ := s.wake_fresh.bootRom_sameBanks
  exact ⟨_, congrArg Host.Outcome.next (if_pos ⟨hseq, hoff⟩), on, mgmt, keeps.time s.wake_time, boot, keeps.seq, ok, input, bankA, bankB,
    pending⟩

/-- Settles O16. -/
theorem powerComesUpInOrder : Obligations.PowerComesUpInOrder := ⟨sequencingWaitsForChargeAndPwrOk, powerGoodStartsFromZero⟩

end Sys2Proof.Machine

/-! PROOFS. Readiness (R368, R369): bits set and cleared, and the entries of the dictionary that other work leaves alone. -/

namespace Sys2Proof.Machine

variable {s : State}

/-! ### Bits of a number -/

/-- Adding a power of two at a clear bit moves no other bit. -/
theorem testBit_add_two_pow_ne {m b j : Nat} (h : m.testBit b = false) (hj : j ≠ b) : (m + 2 ^ b).testBit j = m.testBit j := by
  rcases Nat.lt_or_gt_of_ne hj with hlt | hgt
  · rw [Nat.add_comm, Nat.testBit_two_pow_add_gt hlt]
  · obtain ⟨i, rfl⟩ : ∃ i, j = i + (b + 1) := ⟨j - (b + 1), by omega⟩
    have even : m / 2 ^ b % 2 = 0 := by
      simpa [Nat.testBit_eq_decide_div_mod_eq] using h
    have high : (m + 2 ^ b) / 2 ^ (b + 1) = m / 2 ^ (b + 1) := by
      rw [Nat.pow_succ, ← Nat.div_div_eq_div_mul, ← Nat.div_div_eq_div_mul, Nat.add_div_right _ (Nat.two_pow_pos b)]
      omega
    rw [Nat.testBit_add, Nat.testBit_add, high]

/-- A number with a bit set is another with that bit clear, and the bit's power of two. -/
theorem exists_add_two_pow_of_testBit {n b : Nat} (h : n.testBit b = true) : ∃ m, n = m + 2 ^ b ∧ m.testBit b = false := by
  obtain ⟨m, rfl⟩ : ∃ m, n = m + 2 ^ b := ⟨n - 2 ^ b, (Nat.sub_add_cancel (Nat.ge_two_pow_of_testBit h)).symm⟩
  refine ⟨m, rfl, ?_⟩
  rw [Nat.add_comm, Nat.testBit_two_pow_add_eq] at h
  simpa using h

/-- A bit that is written reads back. -/
@[simp] theorem testBit_setBitN_self (n b : Nat) (on : Bool) : (setBitN n b on).testBit b = on := by
  unfold setBitN
  split
  · assumption
  · cases on with
    | true => simp_all [Nat.add_comm n, Nat.testBit_two_pow_add_eq]
    | false =>
      obtain ⟨m, rfl, hm⟩ := exists_add_two_pow_of_testBit (n := n) (b := b) (by simp_all)
      simpa using hm

/-- Writing a bit moves no other. -/
theorem testBit_setBitN_ne {n b j : Nat} (on : Bool) (hj : j ≠ b) : (setBitN n b on).testBit j = n.testBit j := by
  unfold setBitN
  split
  · rfl
  · cases on with
    | true => exact testBit_add_two_pow_ne (by simp_all) hj
    | false =>
      obtain ⟨m, rfl, hm⟩ := exists_add_two_pow_of_testBit (n := n) (b := b) (by simp_all)
      simpa using (testBit_add_two_pow_ne hm hj).symm

/-! ### ready.summary and ready.cores -/

/-- Setting or clearing a readiness bit writes ready.summary. -/
theorem State.ent_setReady_summary (s : State) (b : Nat) (on : Bool) :
    (s.setReady b on).ent Ent.readySummary = setBitN (s.ent Ent.readySummary) b on :=
  (State.setReady_frame (f := (·.ent Ent.readySummary)) (fun _ _ _ => rfl) s b on).trans (s.ent_setEnt _ _)

/-- It writes no other entry. -/
theorem State.ent_setReady_ne (s : State) (b : Nat) (on : Bool) {k : Nat} (hk : k ≠ Ent.readySummary) :
    (s.setReady b on).ent k = s.ent k :=
  (State.setReady_frame (f := (·.ent k)) (fun _ _ _ => rfl) s b on).trans (s.ent_setEnt_ne _ hk)

@[simp] theorem State.isReady_setReady_self (s : State) (b : Nat) (on : Bool) : (s.setReady b on).isReady b = on := by
  rw [State.isReady, s.ent_setReady_summary, testBit_setBitN_self]

theorem State.isReady_setReady_ne (s : State) {b j : Nat} (on : Bool) (h : j ≠ b) : (s.setReady b on).isReady j = s.isReady j := by
  rw [State.isReady, s.ent_setReady_summary, testBit_setBitN_ne on h, State.isReady]

@[simp] theorem State.coreReady_setCoreReady_self (s : State) (c : Nat) (on : Bool) : (s.setCoreReady c on).coreReady c = on := by
  rw [State.coreReady, State.setCoreReady, State.ent_setEnt, testBit_setBitN_self]

theorem State.coreReady_setCoreReady_ne (s : State) {c d : Nat} (on : Bool) (h : d ≠ c) :
    (s.setCoreReady c on).coreReady d = s.coreReady d := by
  unfold State.coreReady State.setCoreReady
  by_cases hq : d / 64 = c / 64
  · rw [hq, State.ent_setEnt, testBit_setBitN_ne on (by omega)]
  · rw [State.ent_setEnt_ne _ _ (by unfold Ent.readyCores; omega)]

/-- Of the cores that come ready one after another, each is ready in the end, as is one that was ready before. -/
theorem State.coreReady_foldl_setCoreReady (k : Nat) : ∀ (l : List Nat) (s : State) {i : Nat}, i ∈ l ∨ s.coreReady (k + i) = true →
    (l.foldl (fun s i => s.setCoreReady (k + i) true) s).coreReady (k + i) = true := by
  intro l
  induction l with
  | nil => exact fun _ _ h => h.resolve_left List.not_mem_nil
  | cons j l ih =>
    intro s i h
    refine ih _ ?_
    by_cases e : i = j
    · rw [e]
      exact .inr (State.coreReady_setCoreReady_self _ _ _)
    · rw [State.coreReady_setCoreReady_ne _ _ (by omega)]
      exact h.imp_left fun m => (List.mem_cons.1 m).resolve_left e

/-- Cores' readiness is kept apart from ready.summary and every counter. -/
theorem State.ent_foldl_setCoreReady (k : Nat) {j : Nat} (hj : j < Ent.readyCores 0 ∨ Ent.readyCores 2 ≤ j) (hk : k + 8 ≤ 128) :
    ∀ (l : List Nat) (s : State), (∀ i ∈ l, i < 8) → (l.foldl (fun s i => s.setCoreReady (k + i) true) s).ent j = s.ent j := by
  intro l
  induction l with
  | nil => exact fun _ _ => rfl
  | cons i l ih =>
    intro s h
    rw [List.foldl_cons, ih _ fun x hx => h x (List.mem_cons_of_mem i hx)]
    have hi := h i List.mem_cons_self
    exact s.ent_setEnt_ne _ (by simp only [Ent.readyCores] at *; omega)

/-! ### What leaves entries alone -/

/-- A record counts, where it finds no room, among the records dropped, and in no other entry. -/
theorem State.ent_storeRecord (s : State) (r : EvRecord) {k : Nat} (hk : k ≠ Ent.evDropped r.severity) :
    (s.storeRecord r).ent k = s.ent k := by
  have vector (u : State) : (u.raiseVector 4).dict = u.dict := by unfold State.raiseVector; split <;> rfl
  have ent {t : State} (e : t.dict = s.dict) : t.ent k = s.ent k := by rw [State.ent, e, State.ent]
  have h1 : (if 1 ≤ r.severity then s.raiseVector 4 else s).dict = s.dict := by
    split
    · exact vector s
    · rfl
  unfold State.storeRecord
  dsimp only
  split
  · exact s.ent_bump_ne _ _ hk
  · split <;> exact ent h1

theorem State.ent_record (s : State) (r : EvRecord) {k : Nat} (hk : k ≠ Ent.evDropped r.severity) : (s.record r).ent k = s.ent k := by
  unfold State.record State.fileRecord
  split
  · rfl
  · exact State.ent_storeRecord _ _ hk

/-- The anti-rollback counter's own advance touches ready.summary and the cores' bits not at all, nor any counter but that of records
dropped. -/
theorem State.ent_autoAdvance (s : State) {k : Nat} (hk : k ≠ Ent.evDropped 1) : s.autoAdvance.ent k = s.ent k := by
  unfold State.autoAdvance State.advanceCounter
  split
  · dsimp only
    split
    · rfl
    · exact State.ent_record _ _ hk
  · rfl

/-- What the compute check leaves: every entry but ready.summary and the count of dropped records. -/
theorem State.ent_computeCheck (s : State) {k : Nat} (hs : k ≠ Ent.readySummary) (hd : k ≠ Ent.evDropped 1) :
    s.computeCheck.ent k = s.ent k := by
  unfold State.computeCheck State.setCompute
  split
  · rw [State.ent_autoAdvance _ hd, State.ent_setReady_ne _ _ _ hs, State.ent_setReady_ne _ _ _ hs]
    rfl
  · rfl

/-- The compute check moves the two compute bits alone. -/
theorem State.isReady_computeCheck (s : State) {b : Nat} (h6 : b ≠ 6) (h7 : b ≠ 7) : s.computeCheck.isReady b = s.isReady b := by
  unfold State.computeCheck State.setCompute
  split
  · rw [State.isReady, State.ent_autoAdvance _ (by decide), ← State.isReady, State.isReady_setReady_ne _ _ h7,
      State.isReady_setReady_ne _ _ h6]
    rfl
  · rfl

theorem State.coreReady_computeCheck (s : State) {c : Nat} (hc : c < 128) : s.computeCheck.coreReady c = s.coreReady c := by
  rw [State.coreReady, s.ent_computeCheck (by unfold Ent.readyCores Ent.readySummary; omega)
    (by unfold Ent.readyCores Ent.evDropped; omega), State.coreReady]

/-- The parts of the state that readiness does not touch. -/
abbrev State.unready (s : State) :=
  (s.clk, s.pwr, s.cores, s.clusters, s.rep, s.scale, s.rake, s.prog, s.train, s.mem, s.arb, s.links, s.crust, s.stock)

theorem State.setReady_unready (s : State) (b : Nat) (on : Bool) : (s.setReady b on).unready = s.unready :=
  State.setReady_frame (f := State.unready) (fun _ _ _ => rfl) s b on

@[simp] theorem State.setReady_flt (s : State) (b : Nat) (on : Bool) : (s.setReady b on).flt = s.flt :=
  State.setReady_frame (f := State.flt) (fun _ _ _ => rfl) s b on

theorem State.autoAdvance_unready (s : State) : s.autoAdvance.unready = s.unready := by
  unfold State.autoAdvance State.advanceCounter
  split
  · dsimp only
    split
    · rfl
    · have e := s.record_unrecorded
        { severity := 1, kind := 1, code := 0x8010, time := s.now, level := 4, p0 := s.sec.svn, p1 := 0, p2 := 0 }
      simp only [Prod.mk.injEq] at e ⊢
      obtain ⟨-, e⟩ := e
      simp only [State.condition, e, and_self]
  · rfl

theorem State.computeCheck_unready (s : State) : s.computeCheck.unready = s.unready := by
  unfold State.computeCheck State.setCompute
  split
  · rw [State.autoAdvance_unready, State.setReady_unready, State.setReady_unready]
  · rfl

end Sys2Proof.Machine

/-! PROOFS. Repairs (R12, R57, R80, R83, R217, R284 to R286): the segment test's end, and the ends of swaps. -/

namespace Sys2Proof.Machine

variable {s : State}

/-! ### Lists without repeats -/

theorem contains_listAdd_self (l : List Nat) (n : Nat) : (listAdd l n).contains n = true := by
  unfold listAdd
  split
  · assumption
  · simp

theorem contains_listErase_self (l : List Nat) (n : Nat) : (listErase l n).contains n = false := by
  simp [listErase]

/-! ### Pans -/

/-- A write of one pan leaves every other. -/
theorem State.setPan_others (s : State) (c p : Nat) (x : PanSt) : OtherPansStand c p s (s.setPan c p x) := by
  intro d q h
  unfold State.pan State.setPan
  by_cases hd : d = c
  · subst hd
    rw [State.core_setCore]
    exact Kv.getD_setD_ne _ _ _ fun e => h (by rw [e])
  · rw [State.core_setCore_ne _ _ hd]

/-- A write of a core that keeps its pans leaves every pan. -/
theorem State.pan_setCore (s : State) {c : Nat} {x : CoreSt} (h : x.pans = (s.core c).pans) (d q : Nat) :
    (s.setCore c x).pan d q = s.pan d q := by
  unfold State.pan
  by_cases hd : d = c
  · rw [hd, State.core_setCore, h]
  · rw [State.core_setCore_ne _ _ hd]

/-- What `OtherPansStand` says, one step after another. -/
theorem OtherPansStand.trans {c p : Nat} {s t u : State} (h : OtherPansStand c p s t) (k : OtherPansStand c p t u) :
    OtherPansStand c p s u := fun d q hd => (k d q hd).trans (h d q hd)

/-- A remap's absorption touches no list of rows and columns that wait for a tile boundary. -/
theorem PanSt.retire_remapNext {x y : PanSt} {what col : Nat} (h : x.retire what col = some y) : y.remapNext = x.remapNext := by
  unfold PanSt.retire at h
  (repeat' split at h) <;> cases h <;> rfl

theorem PanSt.grainReplay_remapNext (x : PanSt) : x.grainReplay.remapNext = x.remapNext := by
  unfold PanSt.grainReplay
  split <;> rfl

/-- A tile that is discarded starts again from its first pass (R80). -/
theorem PanSt.grainReplay_tile {x : PanSt} {t : TileRun} (h : x.grainReplay.tile = some t) : t.done = 0 ∧ t.acc = [] := by
  have replayed : x.grainReplay.tile = x.replay.tile := by
    unfold PanSt.grainReplay
    split <;> rfl
  rw [replayed, PanSt.replay, Option.map_eq_some_iff] at h
  obtain ⟨u, -, rfl⟩ := h
  exact ⟨rfl, rfl⟩

/-- With nothing waiting for a tile boundary, the boundary retires nothing (R56). -/
theorem State.applyRemap_of_nil {c p : Nat} (h : (s.pan c p).remapNext = []) : s.applyRemap c p = s.setPan c p (s.pan c p) := by
  have e : ({ s.pan c p with remapNext := [] } : PanSt) = s.pan c p := by rw [← h]
  unfold State.applyRemap
  rw [h, List.foldl_nil, e]

/-- A pan's tile is discarded for replay: the pan takes its replayed state, the others stand, and nothing is latched or asserted (R80). -/
theorem State.replayPan_spec {c p : Nat} (h : (s.pan c p).remapNext = []) :
    (s.replayPan c p true).pan c p = (s.pan c p).grainReplay ∧ OtherPansStand c p s (s.replayPan c p true) ∧
      (s.replayPan c p true).flt = s.flt := by
  let s1 := (s.dropShifts c p).setPan c p (s.pan c p).grainReplay
  let s2 := if (s.pan c p).tile.isSome then (s1.setCore c (s1.core c).dropBuffers).bump 32 (Ent.panTileReplays c) 1 else s1
  have pans (d q : Nat) : s2.pan d q = s1.pan d q := by
    unfold s2
    split
    · exact s1.pan_setCore (x := (s1.core c).dropBuffers) rfl d q
    · rfl
  have flt : s2.flt = s.flt := by
    unfold s2
    split <;> rfl
  have own : s2.pan c p = (s.pan c p).grainReplay := (pans c p).trans (State.pan_setPan _ c p _)
  have none_ : (s2.pan c p).remapNext = [] := by rw [own, PanSt.grainReplay_remapNext, h]
  have e : s.replayPan c p true = s2.setPan c p (s2.pan c p) := (rfl : s.replayPan c p true = s2.applyRemap c p).trans (State.applyRemap_of_nil none_)
  rw [e]
  refine ⟨(State.pan_setPan _ c p _).trans own, fun d q hd => ?_, flt⟩
  rw [s2.setPan_others c p _ d q hd, pans, (s.dropShifts c p).setPan_others c p _ d q hd]
  rfl

/-- A row or column that a spare absorbs: the pan takes its new remap, and the others stand (R57). -/
theorem State.retirePan_spec {c p what col : Nat} {y : PanSt} (h : (s.pan c p).retire what col = some y) :
    (s.retirePan c p what col).pan c p = y ∧ OtherPansStand c p s (s.retirePan c p what col) ∧
      (s.retirePan c p what col).rep = s.rep ∧ (s.retirePan c p what col).flt.lines = s.flt.lines := by
  unfold State.retirePan
  rw [h]
  exact ⟨s.pan_setPan c p y, s.setPan_others c p y, rfl, rfl⟩

/-! ### A core is handed over -/

/-- The unit that takes a core's logical number is fresh (R217, R280). -/
theorem State.retireCoreWork_core (s : State) (c : Nat) :
    ((s.retireCoreWork c).core c).pans = [] ∧ ((s.retireCoreWork c).core c).units = [] ∧ ((s.retireCoreWork c).core c).combines = [] := by
  unfold State.retireCoreWork
  extract_lets x s0 s1 halves s2 _ s3 s4 x1 y
  have fresh : ((s4.setCore c { window := y.window, windowBad := y.windowBad, invalidBy := y.invalidBy, totals := y.totals }).setCoreReady c
      false).core c = { window := y.window, windowBad := y.windowBad, invalidBy := y.invalidBy, totals := y.totals } := State.core_setCore _ _ _
  rw [fresh]
  exact ⟨rfl, rfl, rfl⟩

/-- The cluster's spare core takes the logical number (R12). -/
theorem State.swapCore_spare {c : Nat} (h : s.rep.spareCore.contains (c / 8) = false) :
    (s.swapCore c).rep.coreSwap.contains c = true ∧ (s.swapCore c).rep.spareCore.contains (c / 8) = true ∧
      (s.swapCore c).core c = (s.retireCoreWork c).core c ∧ (s.swapCore c).flt = (s.retireCoreWork c).flt := by
  unfold State.swapCore
  dsimp only
  rw [if_neg (ne_true_of_eq_false h)]
  exact ⟨contains_listAdd_self _ _, contains_listAdd_self _ _, rfl, rfl⟩

@[simp] theorem State.setReady_rep (s : State) (b : Nat) (on : Bool) : (s.setReady b on).rep = s.rep :=
  congrArg (·.2.2.2.2.1) (s.setReady_unready b on)

/-- The die's spare cluster takes the logical number (R12): the swap runs, the cluster is not ready, the swaps of its cores are over, and no
line is asserted. -/
theorem State.swapCluster_spare {k : Nat} (h : s.rep.spareCluster.contains (k / 8) = false) (hq : s.Quiet) :
    (s.swapCluster k).rep.clusterSwap.contains k = true ∧ (∀ c, c / 8 = k → (s.swapCluster k).rep.coreSwap.contains c = false) ∧
      (s.swapCluster k).isReady (40 + k) = false ∧ (s.swapCluster k).Quiet := by
  have fresh := State.dropRequests_quiet _ (clusterRequester k)
    (foldl_quiet (fun s i => State.retireCoreWork_quiet s (8 * k + i)) (List.range 8) hq)
  unfold State.swapCluster
  dsimp only
  rw [if_neg (ne_true_of_eq_false h)]
  generalize State.dropRequests _ _ = s1 at fresh ⊢
  refine ⟨?_, fun c hc => ?_, State.isReady_setReady_self _ _ _, ?_⟩
  · rw [State.setReady_rep]
    exact contains_listAdd_self _ _
  · rw [State.setReady_rep]
    simp [State.dropSources, hc]
  · exact State.setReady_quiet _ _ _ (State.dropSources_quiet _ _ _ fresh)

/-! ### The segment test -/

/-- How the segment test ends (R83): the row or column is retired, and the tile replays where no spare core takes the core's number. -/
theorem exec_segmentTestDone {c : CoreId} {p : PanId} {f : SegFinding} (live : s.coreLive c = true) (test : (s.pan c p).testing = true) :
    let s2 := (s.setPan c p { s.pan c p with testing := false, suspect := none }).retirePan c p (segPlace f).1 (segPlace f).2
    exec (.segmentTestDone c p f) s =
      .next (if s2.rep.coreSwap.contains c.val then s2.bump 32 (Ent.panTileReplays c) 1 else s2.replayPan c p true).latchAll := by
  show execSegmentTestDone c p f s = _
  unfold execSegmentTestDone
  dsimp only
  rw [if_pos ⟨live, test⟩]
  cases f <;> rfl

/-- The clauses of R83, R57 and R80 on the end of the segment test. -/
theorem theSegmentTestRetiresWhatItFound : TheSegmentTestRetiresWhatItFound := by
  intro c p f s live test quiet swap waits x
  let s1 := s.setPan c p x
  have pan1 : s1.pan c p = x := s.pan_setPan c p x
  have ran := exec_segmentTestDone (f := f) live test
  refine ⟨fun y absorbed => ?_, fun beyond spare => ?_⟩
  · obtain ⟨pan2, others2, rep2, lines2⟩ := s1.retirePan_spec (pan1.symm ▸ absorbed)
    let s2 := s1.retirePan c p (segPlace f).1 (segPlace f).2
    have waits2 : (s2.pan c p).remapNext = [] := by rw [pan2, PanSt.retire_remapNext absorbed]; exact waits
    obtain ⟨pan3, others3, flt3⟩ := s2.replayPan_spec waits2
    have quiet3 : (s2.replayPan c p true).Quiet := by rw [State.Quiet, flt3, lines2]; exact quiet
    have stays : s2.rep.coreSwap.contains c.val = false := by rw [rep2]; exact swap
    have next : exec (.segmentTestDone c p f) s = .next (s2.replayPan c p true) := by
      rw [ran, if_neg (ne_true_of_eq_false stays), State.latchAll_of_lines quiet3]
    rw [pan2] at pan3
    refine ⟨_, next, pan3, fun t ht => PanSt.grainReplay_tile (pan3 ▸ ht), OtherPansStand.trans (OtherPansStand.trans (s.setPan_others c p x) others2) others3, ?_⟩
    exact State.replayPan_ram _ _ _ _ (State.retirePan_ram _ _ _ _ _ (State.setPan_ram _ _ _ _ rfl))
  · have swapped : s1.retirePan c p (segPlace f).1 (segPlace f).2 = s1.swapCore c := by rw [State.retirePan, pan1, beyond]
    obtain ⟨taken, used, core2, flt2⟩ := s1.swapCore_spare (c := c.val) spare
    have quiet2 : (s1.swapCore c).Quiet := by rw [State.Quiet, flt2]; exact State.retireCoreWork_quiet _ _ quiet
    have next : exec (.segmentTestDone c p f) s = .next ((s1.swapCore c).bump 32 (Ent.panTileReplays c) 1) := by
      rw [ran, swapped, if_pos taken, State.latchAll_of_lines (s := (s1.swapCore c).bump 32 _ 1) quiet2]
    obtain ⟨pans, units, combines⟩ := s1.retireCoreWork_core c
    rw [← core2] at pans units combines
    exact ⟨_, next, taken, used, pans, units, combines, State.swapCore_ram _ _ (State.setPan_ram _ _ _ _ rfl)⟩

/-! ### Swaps that pass -/

/-- A swap's end is counted (R286). -/
theorem State.ent_countSwap (s : State) {key e : Nat} (h : e ≠ Ent.resilLastRepairMs) : (s.countSwap key e).ent e = satAdd 32 (s.ent e) 1 :=
  (State.ent_setEnt_ne _ _ h).trans (s.ent_bump 32 e 1)

/-- A core's swap that passes its check, its sequencer's firmware being good (R285, R286, R422). -/
theorem execCoreSwapDone_passes {c : CoreId} (on : s.pwr.on = true) (runs : s.rep.coreSwap.contains c.val = true)
    (good : s.loadsComponent 3 = true) : ∃ t, exec (.coreSwapDone c true) s = .next t ∧ t.coreReady c = true ∧
      t.rep.coreSwap.contains c.val = false ∧ t.ent Ent.resilCoreSwaps = satAdd 32 (s.ent Ent.resilCoreSwaps) 1 ∧
      t.cores = s.cores ∧ t.mem = s.mem := by
  let s1 : State := { s with rep.coreSwap := listErase s.rep.coreSwap c.val }
  let s2 := (s1.countSwap c.val Ent.resilCoreSwaps).setCoreReady c.val true
  have next : exec (.coreSwapDone c true) s = .next s2.computeCheck := by
    show execCoreSwapDone c true s = _
    rw [execCoreSwapDone, if_pos ⟨on, runs⟩, good]
    rfl
  have kept := s2.computeCheck_unready
  simp only [State.unready, Prod.mk.injEq] at kept
  obtain ⟨-, -, cores, -, rep, -, -, -, -, mem, -⟩ := kept
  refine ⟨_, next, ?_, ?_, ?_, cores, mem⟩
  · rw [s2.coreReady_computeCheck c.isLt, State.coreReady_setCoreReady_self]
  · rw [rep]
    exact contains_listErase_self _ _
  · have apart : Ent.resilCoreSwaps ≠ Ent.readyCores (c.val / 64) := by unfold Ent.resilCoreSwaps Ent.readyCores; omega
    rw [s2.ent_computeCheck (by decide) (by decide)]
    exact (State.ent_setEnt_ne _ _ apart).trans (s1.ent_countSwap (by decide))

/-- Cores' readiness is kept outside the parts of `unready`. -/
theorem State.foldl_setCoreReady_unready (k : Nat) : ∀ (l : List Nat) (s : State),
    (l.foldl (fun s i => s.setCoreReady (k + i) true) s).unready = s.unready
  | [], _ => rfl
  | i :: l, s => State.foldl_setCoreReady_unready k l (s.setCoreReady (k + i) true)

/-- A cluster's swap that passes its check, its sequencer's firmware being good (R285, R286, R422). -/
theorem execClusterSwapDone_passes {k : ClusterId} (on : s.pwr.on = true) (runs : s.rep.clusterSwap.contains k.val = true)
    (good : s.loadsComponent 3 = true) : ∃ t, exec (.clusterSwapDone k true) s = .next t ∧ t.isReady (40 + k) = true ∧
      (∀ i < 8, t.coreReady (8 * k + i) = true) ∧ t.rep.clusterSwap.contains k.val = false ∧
      t.ent Ent.resilClusterSwaps = satAdd 32 (s.ent Ent.resilClusterSwaps) 1 ∧ t.cores = s.cores ∧ t.mem = s.mem := by
  let s1 : State := { s with rep.clusterSwap := listErase s.rep.clusterSwap k.val }
  let s2 := s1.countSwap (1000 + k.val) Ent.resilClusterSwaps
  let s3 := (List.range 8).foldl (fun s i => s.setCoreReady (8 * k.val + i) true) s2
  let s4 := s3.setReady (40 + k.val) true
  have next : exec (.clusterSwapDone k true) s = .next s4.computeCheck := by
    show execClusterSwapDone k true s = _
    rw [execClusterSwapDone, if_pos ⟨on, runs⟩, good]
    rfl
  have below := k.isLt
  have kept := (s4.computeCheck_unready.trans (s3.setReady_unready _ _)).trans (State.foldl_setCoreReady_unready _ _ s2)
  simp only [State.unready, Prod.mk.injEq] at kept
  obtain ⟨-, -, cores, -, rep, -, -, -, -, mem, -⟩ := kept
  refine ⟨_, next, ?_, fun i hi => ?_, ?_, ?_, cores, mem⟩
  · rw [s4.isReady_computeCheck (by omega) (by omega), State.isReady_setReady_self]
  · have ready := State.coreReady_foldl_setCoreReady (8 * k.val) _ s2 (.inl (List.mem_range.2 hi))
    rw [s4.coreReady_computeCheck (by omega), State.coreReady, s3.ent_setReady_ne _ _ (by unfold Ent.readyCores Ent.readySummary; omega)]
    exact ready
  · rw [rep]
    exact contains_listErase_self _ _
  · rw [s4.ent_computeCheck (by decide) (by decide), s3.ent_setReady_ne _ _ (by decide),
      State.ent_foldl_setCoreReady _ (.inr (by decide)) (by omega) _ _ fun _ => List.mem_range.1]
    exact s1.ent_countSwap (by decide)

/-! ### Swaps whose spare fails -/

/-- A core's swap whose spare fails is a failure of its cluster, which the die's spare cluster takes over (R12, R285, R422). -/
theorem execCoreSwapDone_fails {c : CoreId} {ok : Bool} (quiet : s.Quiet) (on : s.pwr.on = true)
    (runs : s.rep.coreSwap.contains c.val = true) (bad : (ok && s.loadsComponent 3) = false)
    (spare : s.rep.spareCluster.contains (c.val / 64) = false) : ∃ t, exec (.coreSwapDone c ok) s = .next t ∧
      t.rep.clusterSwap.contains (c.val / 8) = true ∧ t.rep.coreSwap.contains c.val = false ∧ t.isReady (40 + c / 8) = false ∧
      t.mem.ram = s.mem.ram := by
  have die : c.val / 8 / 8 = c.val / 64 := Nat.div_div_eq_div_mul _ _ _
  obtain ⟨taken, free, ready, quiet1⟩ := s.swapCluster_spare (k := c.val / 8) (by rw [die]; exact spare) quiet
  have next : exec (.coreSwapDone c ok) s = .next (s.swapCluster (c.val / 8)) := by
    show execCoreSwapDone c ok s = _
    rw [execCoreSwapDone, if_pos ⟨on, runs⟩, bad, if_neg Bool.false_ne_true, State.latchAll_of_lines quiet1]
  exact ⟨_, next, taken, free c.val rfl, ready, State.swapCluster_ram _ _ rfl⟩

/-! ### A loss that clears the compute bits -/

/-- A frame's wait and its bytes are counted with its port; ready.summary stays. -/
theorem State.ent_sendOn_summary (s : State) (i : Nat) (f : TxFrame) : (s.sendOn i f).ent Ent.readySummary = s.ent Ent.readySummary := by
  have waits (n : Nat) : (s.classWait i n).ent Ent.readySummary = s.ent Ent.readySummary := by
    unfold State.classWait
    split
    · exact s.ent_bump_ne _ _ (by unfold Ent.readySummary Ent.brineClassWaitUs; omega)
    · rfl
  unfold State.sendOn
  split
  · rfl
  · exact (State.ent_bump_ne _ _ _ (by unfold Ent.readySummary Ent.brineTxBytes; omega)).trans (waits _)

theorem State.ent_sendFrame_summary (s : State) (f : TxFrame) : (s.sendFrame f).ent Ent.readySummary = s.ent Ent.readySummary := by
  unfold State.sendFrame
  split
  · rfl
  · exact s.ent_sendOn_summary _ f

theorem State.ent_sendGroup_summary (s : State) (kind g : Nat) (payload : List Byte) :
    (s.sendGroup kind g payload).ent Ent.readySummary = s.ent Ent.readySummary := by
  unfold State.sendGroup
  refine List.foldlRecOn (motive := fun u : State => u.ent Ent.readySummary = s.ent Ent.readySummary) _ _ rfl fun u hu d _ => ?_
  exact (State.ent_sendFrame_summary u _).trans hu

/-- A withdrawal from the crust moves no readiness bit (R299). -/
theorem State.isReady_withdraw (s : State) (b : Nat) : s.withdraw.isReady b = s.isReady b := by
  have e : s.withdraw.ent Ent.readySummary = s.ent Ent.readySummary := by
    unfold State.withdraw
    split
    · exact (State.ent_setEnt_ne _ _ (by decide)).trans (s.ent_sendGroup_summary _ _ _)
    · rfl
  rw [State.isReady, e, State.isReady]

/-- A loss that the module cannot repair clears the compute bits (R12, R284, R369). -/
theorem State.isReady_loseCompute (s : State) : s.loseCompute.isReady 6 = false ∧ s.loseCompute.isReady 7 = false := by
  unfold State.loseCompute
  rw [State.isReady_withdraw, State.isReady_withdraw]
  exact ⟨((s.setReady 6 false).isReady_setReady_ne false (by decide)).trans (State.isReady_setReady_self _ _ _),
    State.isReady_setReady_self _ _ _⟩

/-- A unit lost beyond every spare clears the compute bits once it is latched (R12, R284, R320). -/
theorem State.isReady_latch_lostUnit (s : State) {r : FaultReport} (h : r.cls = 0x0A) :
    (s.latch r).isReady 6 = false ∧ (s.latch r).isReady 7 = false := by
  have severe : 2 ≤ (s.judge r).sev := State.judge_severe (by rw [h]; decide)
  rw [State.latch_of_cls (by rw [h]; decide), State.latchOne_of_severe severe, State.severeEffects, State.severeAction, h]
  exact State.isReady_loseCompute _

/-- A cluster's swap whose spare fails is a unit lost beyond every spare (R12, R284, R285, R422). -/
theorem execClusterSwapDone_fails {k : ClusterId} {ok : Bool} (quiet : s.Quiet) (on : s.pwr.on = true)
    (runs : s.rep.clusterSwap.contains k.val = true) (bad : (ok && s.loadsComponent 3) = false) :
    ∃ t, exec (.clusterSwapDone k ok) s = .next t ∧ t.isReady 6 = false ∧ t.isReady 7 = false ∧ s.flt.nextSeq < t.flt.nextSeq ∧
      t.mem.ram = s.mem.ram := by
  let s1 : State := { s with rep.clusterSwap := listErase s.rep.clusterSwap k.val }
  let r : FaultReport := { fault 0x0A .die (k.val / 8) with source := k.val, physical := s.physCluster k.val }
  have next : exec (.clusterSwapDone k ok) s = .next (s1.raise r).latchAll := by
    show execClusterSwapDone k ok s = _
    rw [execClusterSwapDone, if_pos ⟨on, runs⟩]
    dsimp only
    rw [bad, if_neg Bool.false_ne_true]
  have latched : (s1.raise r).latchAll = s1.latch r := State.latchAll_raise quiet (State.latch_quiet (.inl rfl) quiet)
  obtain ⟨off6, off7⟩ := s1.isReady_latch_lostUnit (r := r) rfl
  exact ⟨_, next, latched ▸ off6, latched ▸ off7, s1.raise_latchAll_seq_lt r, State.latchAll_ram _ rfl⟩

/-! ### A die's management work -/

/-- A record disturbs no watchdog. -/
theorem State.record_dogs (s : State) (r : EvRecord) : (s.record r).flt.dogs = s.flt.dogs := by
  have raised (u : State) : (u.raiseVector 4).flt.dogs = u.flt.dogs := by
    unfold State.raiseVector
    split <;> rfl
  have vector (u : State) : (if 1 ≤ (s.stamp r).severity then u.raiseVector 4 else u).flt.dogs = u.flt.dogs := by
    split
    · exact raised u
    · rfl
  unfold State.record State.fileRecord
  split
  · rfl
  · unfold State.storeRecord
    dsimp only
    split
    · rfl
    · split <;> exact vector s.takeSeq

theorem State.autoAdvance_dogs (s : State) : s.autoAdvance.flt.dogs = s.flt.dogs := by
  unfold State.autoAdvance State.advanceCounter
  split
  · dsimp only
    split
    · rfl
    · exact State.record_dogs s _
  · rfl

/-- The compute check disturbs no watchdog. -/
theorem State.computeCheck_dogs (s : State) : s.computeCheck.flt.dogs = s.flt.dogs := by
  unfold State.computeCheck State.setCompute
  split
  · rw [State.autoAdvance_dogs, State.setReady_flt, State.setReady_flt]
  · rfl

/-- A die's spare management processor takes its work (R12, R284). -/
theorem execDmpSwapDone_ready {d : DieId} (on : s.pwr.on = true) (runs : s.rep.dmpSwapping.contains d.val = true) :
    ∃ t, exec (.dmpSwapDone d) s = .next t ∧ t.isReady (56 + d) = true ∧ t.rep.dmpSwapping.contains d.val = false ∧
      t.flt.dogs.contains d.val = false ∧ t.cores = s.cores ∧ t.mem = s.mem := by
  let s1 : State := { s with rep.dmpSwapping := listErase s.rep.dmpSwapping d.val, flt.dogs := listErase s.flt.dogs d.val }
  let s2 := s1.setReady (56 + d.val) true
  have next : exec (.dmpSwapDone d) s = .next s2.computeCheck := by
    show execDmpSwapDone d s = _
    rw [execDmpSwapDone, if_pos ⟨on, runs⟩]
  have kept := s2.computeCheck_unready.trans (s1.setReady_unready _ _)
  simp only [State.unready, Prod.mk.injEq] at kept
  obtain ⟨-, -, cores, -, rep, -, -, -, -, mem, -⟩ := kept
  refine ⟨_, next, ?_, ?_, ?_, cores, mem⟩
  · rw [s2.isReady_computeCheck (by omega) (by omega), State.isReady_setReady_self]
  · rw [rep]
    exact contains_listErase_self _ _
  · rw [s2.computeCheck_dogs, s1.setReady_flt]
    exact contains_listErase_self _ _

/-- The clauses of R12, R217, R284 to R286 and R422 on the ends of swaps. -/
theorem swapsEndWithTheSpareReady : SwapsEndWithTheSpareReady := by
  intro s ok on quiet
  refine ⟨fun c runs => ⟨?_, ?_⟩, fun k runs => ⟨?_, ?_⟩, fun d runs => ?_⟩
  · exact execCoreSwapDone_passes on runs
  · exact execCoreSwapDone_fails quiet on runs
  · exact execClusterSwapDone_passes on runs
  · exact execClusterSwapDone_fails quiet on runs
  · exact execDmpSwapDone_ready on runs

/-- Settles O43: the segment test by what the pan's spares absorb, and the swaps by whether the spare passes. -/
theorem repairsPutSparesInPlace : Obligations.RepairsPutSparesInPlace :=
  ⟨theSegmentTestRetiresWhatItFound, swapsEndWithTheSpareReady⟩

end Sys2Proof.Machine

/-! PROOFS. Number formats (R31, R36 to R40): a magnitude's rounded code is the nearest point of the format's extended grid, what every
conversion yields, and how the elements of a Flake-4 block are read and written. -/

namespace Sys2Proof.Machine

/-! ### Powers of two as integers -/

theorem two_pow_pos_int (n : Nat) : (0 : Int) < 2 ^ n := Int.pow_pos (by decide)

theorem mul_two_pow_add (a s t : Nat) : (a : Int) * 2 ^ (s + t) = (a * 2 ^ s : Nat) * 2 ^ t := by
  rw [Int.pow_add, ← Int.mul_assoc, Int.natCast_mul, Int.natCast_pow]
  rfl

/-! ### The extended grid

A code is `K × 2^mb + r`, as `roundCode` puts it together: the grid's spacing there is `2^K` subnormal units, and `r` counts spacings. -/

/-- A carry out of the fraction, `r = 2^(mb + 1)`, gives the first point of the next spacing. -/
theorem gridValue_code {f : Fmt} {e0 : Int} {K r : Nat} (he : e0 ≤ f.qMin) (top : r ≤ 2 ^ (f.mb + 1)) (low : K = 0 ∨ 2 ^ f.mb ≤ r) :
    gridValue f e0 (K * 2 ^ f.mb + r) = r * 2 ^ (f.qMin + K - e0).toNat := by
  have pos : 0 < 2 ^ f.mb := Nat.two_pow_pos _
  rw [Nat.pow_succ] at top
  unfold gridValue
  rcases Nat.lt_or_ge r (2 ^ f.mb) with sub | normal
  · obtain rfl : K = 0 := low.resolve_right (by omega)
    rw [Nat.zero_mul, Nat.zero_add, if_pos (Nat.div_eq_of_lt sub), Int.natCast_zero, Int.add_zero]
  obtain ⟨r, rfl⟩ := Nat.exists_eq_add_of_le normal
  have expo : (K * 2 ^ f.mb + (2 ^ f.mb + r)) / 2 ^ f.mb = r / 2 ^ f.mb + K + 1 := by
    rw [← Nat.add_assoc, ← Nat.succ_mul, Nat.add_comm, Nat.add_mul_div_right _ _ pos, Nat.add_assoc]
  have frac : (K * 2 ^ f.mb + (2 ^ f.mb + r)) % 2 ^ f.mb = r % 2 ^ f.mb := by
    rw [← Nat.add_assoc, ← Nat.succ_mul, Nat.add_comm, Nat.add_mul_mod_self_right]
  rw [expo, frac, if_neg (Nat.succ_ne_zero _), Nat.add_sub_cancel]
  rcases Nat.lt_or_ge r (2 ^ f.mb) with inside | carry
  · rw [Nat.div_eq_of_lt inside, Nat.mod_eq_of_lt inside, Nat.zero_add]
  · obtain rfl : r = 2 ^ f.mb := by omega
    have spacing : (f.qMin + (1 + K : Nat) - e0).toNat = (f.qMin + K - e0).toNat + 1 := by omega
    rw [Nat.div_self pos, Nat.mod_self, spacing, Nat.add_comm _ 1, mul_two_pow_add, Nat.add_zero, Nat.pow_one, Nat.mul_two]

/-- Every code has the form that `gridValue_code` evaluates, with no carry. -/
theorem exists_code_eq (f : Fmt) (c : Nat) :
    ∃ K r, c = K * 2 ^ f.mb + r ∧ r < 2 ^ (f.mb + 1) ∧ (K = 0 ∨ 2 ^ f.mb ≤ r) := by
  have split := Nat.div_add_mod' c (2 ^ f.mb)
  have frac := Nat.mod_lt c (Nat.two_pow_pos f.mb)
  rw [Nat.pow_succ]
  cases h : c / 2 ^ f.mb with
  | zero => exact ⟨0, c, by omega, by rw [h] at split; omega, .inl rfl⟩
  | succ K =>
    rw [h, Nat.succ_mul] at split
    exact ⟨K, 2 ^ f.mb + c % 2 ^ f.mb, by omega, by omega, .inr (by omega)⟩

/-- Every point of a grid lies above the one before it. -/
def Rising (g : Nat → Int) : Prop := ∀ c, g c < g (c + 1)

theorem Rising.lt {g : Nat → Int} (rising : Rising g) {c d : Nat} (h : c < d) : g c < g d := by
  induction h with
  | refl => exact rising c
  | step _ ih => exact Int.lt_trans ih (rising _)

theorem gridValue_rising {f : Fmt} {e0 : Int} (he : e0 ≤ f.qMin) : Rising (gridValue f e0) := by
  intro c
  obtain ⟨K, r, rfl, top, low⟩ := exists_code_eq f c
  rw [Nat.add_assoc, gridValue_code he (Nat.le_of_lt top) low, gridValue_code he top (low.imp_right Nat.le_succ_of_le)]
  exact Int.mul_lt_mul_of_pos_right (by omega) (two_pow_pos_int _)

/-! ### The nearest point -/

/-- `c` is the index of the point of `g` nearest to `x`, the even one where another point is as near (R36). -/
def NearestEven (g : Nat → Int) (x : Int) (c : Nat) : Prop :=
  ∀ d : Nat, (g c - x).natAbs ≤ (g d - x).natAbs ∧ (d ≠ c → (g c - x).natAbs = (g d - x).natAbs → c % 2 = 0)

/-- Between two neighbours of a rising grid, the one on `x`'s side of their midpoint is the nearest of all points. -/
theorem NearestEven.of_between {g : Nat → Int} (rising : Rising g) {x : Int} {lo c : Nat} (below : g lo ≤ x)
    (above : x ≤ g (lo + 1)) (side : c = lo ∧ 2 * x ≤ g lo + g (lo + 1) ∨ c = lo + 1 ∧ g lo + g (lo + 1) ≤ 2 * x)
    (tie : 2 * x = g lo + g (lo + 1) → c % 2 = 0) : NearestEven g x c := by
  intro d
  have step : g lo < g (lo + 1) := rising lo
  have under : d < lo → g d < g lo := rising.lt
  have beyond : lo + 1 < d → g (lo + 1) < g d := rising.lt
  have neighbour : d = lo ∨ d = lo + 1 ∨ d < lo ∨ lo + 1 < d := by omega
  rcases side with ⟨rfl, _⟩ | ⟨rfl, _⟩ <;> rcases neighbour with rfl | rfl | _ | _ <;> omega

/-- The same of a rising grid whose two neighbours are counted, as the source is, in a unit `w`. -/
theorem NearestEven.of_between_mul {g : Nat → Int} (rising : Rising g) {w : Int} (hw : 0 < w) {a b m lo c : Nat}
    (lower : g lo = a * w) (upper : g (lo + 1) = b * w) (below : a ≤ m) (above : m ≤ b)
    (side : c = lo ∧ 2 * m ≤ a + b ∨ c = lo + 1 ∧ a + b ≤ 2 * m) (tie : 2 * m = a + b → c % 2 = 0) :
    NearestEven g (m * w) c := by
  have sum : g lo + g (lo + 1) = (a + b : Nat) * w := by rw [lower, upper, Int.natCast_add, Int.add_mul]
  have double : 2 * (m * w) = (2 * m : Nat) * w := by
    rw [Int.natCast_mul, Int.mul_assoc]
    rfl
  have scaled {i j : Nat} (h : i ≤ j) : (i : Int) * w ≤ j * w :=
    Int.mul_le_mul_of_nonneg_right (Int.ofNat_le.mpr h) (Int.le_of_lt hw)
  refine .of_between rising (lo := lo) ?_ ?_ ?_ ?_
  · rw [lower]
    exact scaled below
  · rw [upper]
    exact scaled above
  · rw [sum, double]
    exact side.imp (.imp_right scaled) (.imp_right scaled)
  · rw [sum, double]
    exact fun same => tie (Int.ofNat_inj.mp (Int.eq_of_mul_eq_mul_right (Int.ne_of_gt hw) same))

/-- A point of the grid is its own nearest. -/
theorem NearestEven.of_eq {g : Nat → Int} (rising : Rising g) {x : Int} {c : Nat} (on : g c = x) : NearestEven g x c := by
  intro d
  have under : d < c → g d < g c := rising.lt
  have beyond : c < d → g c < g d := rising.lt
  omega

/-! ### Rounding -/

/-- `m / 2^s` lies between `n` and `n + 1`, and `shiftRne` takes the one on its side of the midpoint, the even one at it (R36). -/
theorem exists_shiftRne_side (m : Nat) {s : Nat} (hs : 0 < s) : ∃ n, n * 2 ^ s ≤ m ∧ m < (n + 1) * 2 ^ s ∧
    (shiftRne m s = n ∧ 2 * m ≤ n * 2 ^ s + (n + 1) * 2 ^ s ∨ shiftRne m s = n + 1 ∧ n * 2 ^ s + (n + 1) * 2 ^ s ≤ 2 * m) ∧
    (2 * m = n * 2 ^ s + (n + 1) * 2 ^ s → shiftRne m s % 2 = 0) := by
  have split := Nat.div_add_mod' m (2 ^ s)
  have cut := Nat.mod_lt m (Nat.two_pow_pos s)
  have half : 2 ^ s = 2 * 2 ^ (s - 1) := by rw [← Nat.pow_succ', Nat.succ_eq_add_one, Nat.sub_add_cancel hs]
  unfold shiftRne
  simp only [Nat.shiftRight_eq_div_pow, Nat.shiftLeft_eq, if_neg (Nat.ne_of_gt hs), Nat.one_mul]
  refine ⟨m / 2 ^ s, ?_⟩
  generalize m / 2 ^ s = n at *
  generalize m % 2 ^ s = rem at *
  rw [Nat.succ_mul]
  split
  · omega
  · split <;> omega

/-- The grid's spacing at a magnitude: no finer than the subnormals', and else such that the magnitude has `mb + 1` bits above it. -/
theorem exists_gridExp_eq (f : Fmt) (m : Nat) (e : Int) :
    ∃ K : Nat, gridExp f m e = f.qMin + K ∧ e + Nat.log2 m ≤ f.qMin + K + f.mb ∧ (K = 0 ∨ e + Nat.log2 m = f.qMin + K + f.mb) :=
  ⟨(gridExp f m e - f.qMin).toNat, by unfold gridExp; omega, by unfold gridExp; omega, by unfold gridExp; omega⟩

theorem Fmt.mb_pos (f : Fmt) : 0 < f.mb := by cases f <;> decide

/-- A code's last bit is that of its count of spacings. -/
theorem code_mod_two (f : Fmt) (K r : Nat) : (K * 2 ^ f.mb + r) % 2 = r % 2 := by
  obtain ⟨b, hb⟩ : ∃ b, f.mb = b + 1 := Nat.exists_eq_succ_of_ne_zero (Nat.ne_of_gt f.mb_pos)
  rw [hb, Nat.pow_succ, ← Nat.mul_assoc, Nat.mul_add_mod_self_right]

section Rounding

variable {f : Fmt} {m : Nat} {e e0 : Int}

theorem roundCode_of_le {K : Nat} (spacing : gridExp f m e = f.qMin + K) (fine : f.qMin + K ≤ e) :
    roundCode f m e = K * 2 ^ f.mb + m * 2 ^ (e - (f.qMin + K)).toNat := by
  have count : (f.qMin + K - f.qMin).toNat = K := by omega
  simp only [roundCode, spacing, if_pos fine, Nat.shiftLeft_eq, count]

theorem roundCode_of_lt {K : Nat} (spacing : gridExp f m e = f.qMin + K) (coarse : e < f.qMin + K) :
    roundCode f m e = K * 2 ^ f.mb + shiftRne m (f.qMin + K - e).toNat := by
  have count : (f.qMin + K - f.qMin).toNat = K := by omega
  simp only [roundCode, spacing, if_neg (Int.not_le.mpr coarse), count]

/-- A source on the grid keeps its value. -/
theorem gridValue_roundCode_of_le {K : Nat} (hm : 0 < m) (he : e0 ≤ f.qMin) (spacing : gridExp f m e = f.qMin + K)
    (top : e + Nat.log2 m ≤ f.qMin + K + f.mb) (low : K = 0 ∨ e + Nat.log2 m = f.qMin + K + f.mb) (fine : f.qMin + K ≤ e) :
    gridValue f e0 (roundCode f m e) = m * 2 ^ (e - e0).toNat := by
  obtain ⟨t, ht⟩ := Int.eq_ofNat_of_zero_le (Int.sub_nonneg_of_le fine)
  rw [roundCode_of_le spacing fine, ht, Int.toNat_natCast, gridValue_code he]
  · rw [show (e - e0).toNat = t + (f.qMin + K - e0).toNat by omega, mul_two_pow_add]
  · calc m * 2 ^ t ≤ 2 ^ (Nat.log2 m + 1) * 2 ^ t := Nat.mul_le_mul_right _ (Nat.le_of_lt Nat.lt_log2_self)
      _ = 2 ^ (Nat.log2 m + 1 + t) := (Nat.pow_add ..).symm
      _ ≤ 2 ^ (f.mb + 1) := Nat.pow_le_pow_right (by omega) (by omega)
  · refine low.imp_right fun tight => ?_
    calc 2 ^ f.mb = 2 ^ Nat.log2 m * 2 ^ t := by rw [← Nat.pow_add]; congr 1; omega
      _ ≤ m * 2 ^ t := Nat.mul_le_mul_right _ (Nat.log2_self_le (Nat.ne_of_gt hm))

/-- R36: the rounded code is the nearest point of the extended grid, in any unit that divides the grid's and the source's. -/
theorem roundCode_nearestEven (hm : 0 < m) (he : e0 ≤ f.qMin) (hs : e0 ≤ e) :
    NearestEven (gridValue f e0) (m * 2 ^ (e - e0).toNat) (roundCode f m e) := by
  obtain ⟨K, spacing, top, low⟩ := exists_gridExp_eq f m e
  rcases Int.lt_or_le e (f.qMin + K) with coarse | fine
  case inr => exact .of_eq (gridValue_rising he) (gridValue_roundCode_of_le hm he spacing top low fine)
  obtain ⟨s, hs'⟩ := Int.eq_ofNat_of_zero_le (Int.sub_nonneg_of_le (Int.le_of_lt coarse))
  obtain ⟨n, below, above, side, tie⟩ := exists_shiftRne_side m (s := s) (by omega)
  have unit : (f.qMin + K - e0).toNat = s + (e - e0).toNat := by omega
  have cut : n < 2 ^ (f.mb + 1) := by
    refine Nat.lt_of_mul_lt_mul_right (a := 2 ^ s) (Nat.lt_of_le_of_lt below ?_)
    rw [← Nat.pow_add]
    exact Nat.lt_of_lt_of_le Nat.lt_log2_self (Nat.pow_le_pow_right (by omega) (by omega))
  have normal : K = 0 ∨ 2 ^ f.mb ≤ n := by
    refine low.imp_right fun tight => Nat.le_of_lt_succ (Nat.lt_of_mul_lt_mul_right (a := 2 ^ s) (Nat.lt_of_le_of_lt ?_ above))
    rw [← Nat.pow_add, show f.mb + s = Nat.log2 m by omega]
    exact Nat.log2_self_le (Nat.ne_of_gt hm)
  rw [roundCode_of_lt spacing coarse, hs', Int.toNat_natCast]
  refine .of_between_mul (gridValue_rising he) (two_pow_pos_int _) (lo := K * 2 ^ f.mb + n) (a := n * 2 ^ s) (b := (n + 1) * 2 ^ s)
    ?lower ?upper below (Nat.le_of_lt above) (side.imp (by omega) (by omega)) (by rwa [code_mod_two])
  case lower =>
    rw [gridValue_code he (Nat.le_of_lt cut) normal, unit, mul_two_pow_add]
  case upper =>
    rw [Nat.add_assoc, gridValue_code he cut (normal.imp_right Nat.le_succ_of_le), unit, mul_two_pow_add]

end Rounding

/-! ### Conversions (R37, R38, R40) -/

/-- Saturation and flush are what the rounded code says: beyond the largest finite code, or zero. -/
theorem convert_fin (f : Fmt) (neg : Bool) {m : Nat} (hm : 0 < m) (e : Int) :
    convert f (.fin neg m e) = { code := withSign f neg (min (roundCode f m e) f.maxCode),
                                 finiteSat := decide (f.maxCode < roundCode f m e),
                                 saturated := decide (f.maxCode < roundCode f m e), flushed := decide (roundCode f m e = 0) } := by
  simp only [convert, convertWith, if_neg (Nat.ne_of_gt hm)]
  generalize roundCode f m e = c
  split
  case isTrue beyond =>
    rw [Nat.min_eq_right (Nat.le_of_lt beyond), decide_eq_true beyond, decide_eq_false (Nat.ne_of_gt (Nat.zero_lt_of_lt beyond))]
  case isFalse within =>
    rw [Nat.min_eq_left (Nat.not_lt.mp within), decide_eq_false within]
    split
    case isTrue zero => rw [decide_eq_true zero, zero]
    case isFalse nonzero => rw [decide_eq_false nonzero]

theorem convert_zero (f : Fmt) (neg : Bool) (e : Int) : convert f (.fin neg 0 e) = { code := withSign f neg 0 } := rfl

theorem decode_convert_inf {f : Fmt} (has : f.hasInf = true) (neg : Bool) : decode f (convert f (.inf neg)).code = .inf neg := by
  cases f with
  | e4m3 | flake4 => exact absurd has (by decide)
  | e5m2 | bf16 | fp16 | fp32 => cases neg <;> rfl

theorem convert_inf_of_hasInf {f : Fmt} (has : f.hasInf = true) (neg : Bool) :
    convert f (.inf neg) = { code := withSign f neg f.infCode, infSource := true } := by
  simp only [convert, convertWith, has, if_true]

theorem convert_inf_of_not_hasInf {f : Fmt} (has : f.hasInf = false) (neg : Bool) :
    convert f (.inf neg) = { code := withSign f neg f.maxCode, infSource := true, saturated := true } := by
  simp only [convert, convertWith, has, Bool.false_eq_true, if_false]

/-! ### Flake-4 blocks (R31, R39) -/

/-- Elements for which zeros are written count no saturation and no flush. -/
theorem flatBlock_events (k : Counts) (t : Int) (xs : List Val) (nanBlock : Bool) :
    (flatBlock k t xs nanBlock).saturations = k.saturations ∧ (flatBlock k t xs nanBlock).flushes = k.flushes := by
  unfold flatBlock
  induction xs generalizing k with
  | nil => exact ⟨rfl, rfl⟩
  | cons x xs ih =>
    rw [List.foldl_cons]
    refine ⟨(ih _).1.trans ?_, (ih _).2.trans ?_⟩ <;> cases nanBlock <;> rfl

theorem encodeBlock_of_nan {xs : List Val} (h : Val.nan ∈ xs) (k : Counts) (t : Int) (draws : List (Option Nat)) :
    encodeBlock k t xs draws = { e := 255, codes := xs.map fun _ => 0, counts := flatBlock k t xs true } :=
  if_pos (List.any_eq_true.mpr ⟨.nan, h, rfl⟩)

theorem elem_flake4 (s : State) {v : View} (hv : v.fmt = .flake4) (r c : Nat) :
    s.elem v r c = flakeVal (s.ramByte (v.expAddr + v.place r c / 32)).toNat
      ((s.ramByte (v.addr + v.place r c / 2)).toNat / (if v.place r c % 2 = 0 then 1 else 16) % 16) v.t := by
  unfold State.elem
  rw [hv]

theorem flakeVal_of_scaled {b : Nat} (pos : 0 < b) (lt : b < 255) (code : Nat) (t : Int) :
    flakeVal b code t = (decode .flake4 code).scale ((b : Int) - 127 + t) := by
  rw [flakeVal, if_neg (Nat.ne_of_gt pos), if_neg (Nat.ne_of_lt lt)]

/-! ### The obligations -/

/-- Settles O2: of the two grid points around a source, its rounded code is the one on its side of their midpoint, or at the midpoint the
even one; and so no other point is nearer. -/
theorem conversionsRoundToTheNearest : Obligations.ConversionsRoundToTheNearest := by
  refine ⟨fun f neg m e => ⟨fun hm => ⟨?_, convert_fin f neg hm e⟩, ?_⟩, fun s v r c hv => ⟨?_, ?_, ?_⟩⟩
  · exact roundCode_nearestEven hm (Int.min_le_right _ _) (Int.min_le_left _ _)
  · rintro rfl
    exact convert_zero f neg e
  · intro zero
    rw [elem_flake4 s hv, zero]
    rfl
  · intro nan
    rw [elem_flake4 s hv, nan]
    rfl
  · intro pos lt
    rw [elem_flake4 s hv, flakeVal_of_scaled pos lt]

/-- Settles O1: the codes of infinities and NaNs by format, and a block with a NaN among its sources as one whose elements count nothing of
R39. -/
theorem infinitiesAndNansConvert : Obligations.InfinitiesAndNansConvert := by
  refine ⟨fun neg f => ⟨fun has => ?_, fun has => ?_⟩, rfl, fun k t xs draws nan => ?_⟩
  · have has : f.hasInf = true := by rcases has with rfl | rfl | rfl | rfl <;> rfl
    exact ⟨decode_convert_inf has neg, by rw [convert_inf_of_hasInf has]⟩
  · have has : f.hasInf = false := by rcases has with rfl | rfl <;> rfl
    rw [convert_inf_of_not_hasInf has]
    exact ⟨rfl, rfl⟩
  · rw [encodeBlock_of_nan nan]
    exact ⟨rfl, rfl, flatBlock_events k t xs true⟩

end Sys2Proof.Machine

/-! PROOFS. What leaves the program in flight and the scales alone: sends on Brine, stores as far as the seals of their pages, and what the
end of a stage reports. -/

namespace Sys2Proof.Machine

variable {s t : State}

/-! ### Folds -/

/-- What every step of a fold leaves alone, the fold leaves alone. -/
theorem foldl_same {σ α β : Type} {π : σ → β} {f : σ → α → σ} (h : ∀ s x, π (f s x) = π s) (l : List α) (s : σ) :
    π (l.foldl f s) = π s :=
  List.foldlRecOn (motive := fun t => π t = π s) l f rfl fun t e x _ => (h t x).trans e

/-- A fold over a list with `a` in it ends in `Q` where `a` leads from `P` to `Q`, and every other step keeps `P` and keeps `Q`. -/
theorem foldl_reaches {σ α : Type} {P Q : σ → Prop} {f : σ → α → σ} {a : α} {l : List α} {s : σ} (mem : a ∈ l) (start : P s)
    (keepP : ∀ s x, P s → P (f s x)) (reach : ∀ s, P s → Q (f s a)) (keepQ : ∀ s x, Q s → Q (f s x)) : Q (l.foldl f s) := by
  obtain ⟨before, after, rfl⟩ := List.append_of_mem mem
  rw [List.foldl_append, List.foldl_cons]
  have atA : P (before.foldl f s) := List.foldlRecOn before f start fun t h x _ => keepP t x h
  exact List.foldlRecOn after f (reach _ atA) fun t h x _ => keepQ t x h

/-! ### What sending on Brine leaves alone -/

/-- The parts of the state that no send touches: a frame goes to its lane, and counts and waits there. -/
abbrev State.unsent (s : State) :=
  (s.pending, s.pwr, s.cores, s.clusters, s.rep, s.scale, s.rake, s.prog, s.train, s.mem, s.arb, s.flt, s.comm, s.stock, s.nv, s.sec)

theorem State.classWait_unsent (s : State) (i cls : Nat) : (s.classWait i cls).unsent = s.unsent := by
  unfold State.classWait
  split <;> rfl

theorem State.sendOn_unsent (s : State) (i : Nat) (f : TxFrame) : (s.sendOn i f).unsent = s.unsent := by
  unfold State.sendOn
  split
  · rfl
  · have waited := s.classWait_unsent i (brineClass f.kind)
    generalize s.classWait i (brineClass f.kind) = u at waited
    exact waited

theorem State.sendFrame_unsent (s : State) (f : TxFrame) : (s.sendFrame f).unsent = s.unsent := by
  unfold State.sendFrame
  split
  · rfl
  · exact s.sendOn_unsent _ f

theorem State.sendSegments_unsent : ∀ (n : Nat) (s : State) (f : TxFrame) (l : List Byte), (State.sendSegments n s f l).unsent = s.unsent
  | 0, s, _, _ => s.sendFrame_unsent _
  | n + 1, s, f, l => by
    unfold State.sendSegments
    split
    · exact s.sendFrame_unsent _
    · exact (State.sendSegments_unsent n _ _ _).trans (s.sendFrame_unsent _)

theorem State.sendBytes_unsent (s : State) (f : TxFrame) (l : List Byte) : (s.sendBytes f l).unsent = s.unsent :=
  State.sendSegments_unsent _ s f l

theorem State.sendGroup_unsent (s : State) (kind g : Nat) (l : List Byte) : (s.sendGroup kind g l).unsent = s.unsent :=
  foldl_same (π := State.unsent) (fun u _ => u.sendFrame_unsent _) _ s

theorem State.sendMirror_unsent (s : State) (point : Nat) (l : List Byte) : (s.sendMirror point l).unsent = s.unsent := by
  unfold State.sendMirror
  split
  · exact s.sendBytes_unsent _ l
  · rfl

/-! ### What leaves the program in flight and the scales alone -/

/-- The program in flight and the scales. -/
abbrev State.plan (s : State) := (s.prog, s.scale)

theorem plan_of_unsent (h : t.unsent = s.unsent) : t.plan = s.plan := by
  simp only [Prod.mk.injEq] at h ⊢
  obtain ⟨-, -, -, -, -, scale, -, prog, -⟩ := h
  exact ⟨prog, scale⟩

theorem plan_of_unrecorded (h : t.unrecorded = s.unrecorded) : t.plan = s.plan := by
  simp only [Prod.mk.injEq] at h ⊢
  obtain ⟨-, -, -, -, -, -, scale, -, prog, -⟩ := h
  exact ⟨prog, scale⟩

theorem prog_of_plan (h : t.plan = s.plan) : t.prog = s.prog := congrArg Prod.fst h

theorem scale_of_plan (h : t.plan = s.plan) : t.scale = s.scale := congrArg Prod.snd h

theorem State.enterAbandon_plan (s : State) (fromNotice : Bool) : (s.enterAbandon fromNotice).plan = s.plan := by
  unfold State.enterAbandon
  split
  · extract_lets _ s1 g
    split
    · rfl
    · have sent : (s1.sendGroup 6 g []).plan = s1.plan := plan_of_unsent (s1.sendGroup_unsent 6 g [])
      generalize s1.sendGroup 6 g [] = u at sent
      exact sent
  · rfl

theorem State.flagNonFinite_plan (s : State) : s.flagNonFinite.plan = s.plan := by
  unfold State.flagNonFinite
  split
  · exact State.enterAbandon_plan _ false
  · rfl

theorem State.flagFault_plan (s : State) : s.flagFault.plan = s.plan := by
  unfold State.flagFault
  split
  · exact State.enterAbandon_plan _ false
  · rfl

theorem State.condition_plan (s : State) (sev code p0 p1 p2 : Nat) : (s.condition sev code p0 p1 p2).plan = s.plan :=
  plan_of_unrecorded (s.record_unrecorded _)

theorem State.memViolation_plan (s : State) (code a : Nat) : (s.memViolation code a).plan = s.plan := by
  have counted := plan_of_unrecorded (s.violation_unrecorded code 0 a 0)
  unfold State.memViolation
  generalize s.violation code 0 a 0 = u at counted
  dsimp only
  split
  · refine (foldl_same (π := State.plan) (fun u g => ?_) _ _).trans counted
    rfl
  · exact counted

theorem State.refuseStep_plan (s : State) (code a : Nat) : (s.refuseStep code a).plan = s.plan := by
  unfold State.refuseStep
  dsimp only
  split
  · exact (State.flagFault_plan _).trans (s.memViolation_plan code a)
  · exact s.memViolation_plan code a

/-! ### What stores leave alone -/

theorem State.stallSeals_plan (s : State) (l : List (Nat × Nat)) : (s.stallSeals l).plan = s.plan := by
  unfold State.stallSeals
  split <;> rfl

theorem State.copyBeforeWrite_plan (s : State) (p : Nat) : (s.copyBeforeWrite p).plan = s.plan := by
  unfold State.copyBeforeWrite
  split <;> rfl

theorem State.addDelta_plan (s : State) (su : Option Nat) (d : Nat × Nat × Nat × List Byte) : (s.addDelta su d).1.plan = s.plan := by
  unfold State.addDelta
  split
  · rfl
  · split <;> rfl

theorem State.storePiece_plan (s : State) (su : Option Nat) (a : Nat) (l : List Byte) : (s.storePiece su a l).1.plan = s.plan := by
  have copied := s.copyBeforeWrite_plan (pageOf a)
  unfold State.storePiece
  dsimp only
  split
  · split
    · exact (State.addDelta_plan _ su _).trans copied
    · exact copied
  · exact copied

theorem State.storeIn_plan (s : State) (su : Option Nat) (a : Nat) (l : List Byte) : (s.storeIn su a l).1.plan = s.plan := by
  unfold State.storeIn
  refine foldl_same (π := fun r : State × Option Nat => r.1.plan) (fun r x => ?_) _ (s, su)
  exact r.1.storePiece_plan r.2 x.1 x.2

theorem State.stepStore_plan (s : State) (su : Option Nat) (a : Nat) (l : List Byte) : (s.stepStore su a l).1.plan = s.plan := by
  unfold State.stepStore
  dsimp only
  split
  · exact s.storeIn_plan su a l
  · exact s.refuseStep_plan _ a

theorem State.storeRow_plan (s : State) (su : Option Nat) (ws : List (Nat × List Byte)) : (s.storeRow su ws).1.plan = s.plan := by
  unfold State.storeRow
  exact foldl_same (π := fun r : State × Option Nat => r.1.plan) (f := fun r w => r.1.stepStore r.2 w.1 w.2)
    (fun r w => r.1.stepStore_plan r.2 w.1 w.2) ws (s, su)

theorem State.sendDeltas_plan (s : State) (h : Nat) (x : SealUnit) (frames : List (List Byte)) : (s.sendDeltas h x frames).plan = s.plan :=
  foldl_same (π := State.plan) (fun u _ => plan_of_unsent (u.sendFrame_unsent _)) _ s

theorem State.closeSeal_plan (s : State) (su : Option Nat) (chunk : Option (Nat × Nat)) : (s.closeSeal su chunk).plan = s.plan := by
  unfold State.closeSeal
  split
  · rfl
  · split
    · rfl
    · exact foldl_same (π := State.plan) (fun u h => u.sendDeltas_plan h _ _) _ _

theorem State.storeAll_plan (s : State) (ws : List (Nat × List Byte)) : (s.storeAll ws).plan = s.plan :=
  (State.closeSeal_plan _ _ none).trans (s.storeRow_plan none ws)

/-! ### What the reports of a stage's end leave alone -/

theorem State.unitFlags_plan (s : State) (overflows : Nat) (k : Counts) : (s.unitFlags overflows k).plan = s.plan := by
  unfold State.unitFlags
  extract_lets n s1
  have flagged : s1.plan = s.plan := by
    unfold s1
    split
    · rfl
    · exact State.flagNonFinite_plan _
  split
  · exact flagged
  · exact s1.flagNonFinite_plan.trans flagged

theorem State.backwardSat_plan (s : State) : s.backwardSat.plan = s.plan := by
  unfold State.backwardSat
  refine (State.flagNonFinite_plan _).trans ?_
  split <;> rfl

theorem State.updateSats_plan (s : State) (r : DescRun) (counts : KV Counts) : (s.updateSats r counts).plan = s.plan := by
  refine foldl_same (π := State.plan) (fun u e => ?_) counts s
  split
  · rfl
  · exact State.condition_plan _ _ _ _ _ _

theorem State.updateNonFinite_plan (s : State) (r : DescRun) (counts : KV Counts) : (s.updateNonFinite r counts).plan = s.plan := by
  unfold State.updateNonFinite
  dsimp only
  split
  · split <;> rfl
  · rfl

theorem State.putNorm_plan (s : State) (layer : Nat) (upd : Bool) (v : F32) : (s.putNorm layer upd v).plan = s.plan := by
  unfold State.putNorm
  dsimp only
  split <;> rfl

theorem State.exhausted_plan (s : State) (r : DescRun) : (s.exhausted r).plan = s.plan := by
  unfold State.exhausted
  split
  · exact State.condition_plan _ _ _ _ _ _
  · rfl

end Sys2Proof.Machine

/-! PROOFS. Attempts and amax passes (R98, R100, R118 to R120, R132, R233): what the end of an attempt or of a pass leaves in the pool, and
which records are still without a t. -/

namespace Sys2Proof.Machine

variable {s t : State} {i slot : Nat}

/-! ### The pool -/

theorem State.desc?_of_plan (h : t.plan = s.plan) (q : Nat) : t.desc? q = s.desc? q := by
  rw [State.desc?, prog_of_plan h, State.desc?]

theorem State.pos_of_desc? {r : DescRun} (h : s.desc? slot = some r) : r.pos = slot := by
  simpa using List.find?_some h

/-- A descriptor in flight is one of its own producers. -/
theorem State.mem_producers_self {r : DescRun} (h : s.desc? slot = some r) : r ∈ s.producers r := by
  simp [State.producers, List.mem_of_find?_eq_some h]

/-- A descriptor that is changed in its slot is read as changed. -/
theorem State.desc?_mapDesc {f : DescRun → DescRun} (hf : ∀ d, (f d).pos = d.pos) (s : State) (pos q : Nat) :
    (s.mapDesc pos f).desc? q = (s.desc? q).map fun d => if q = pos then f d else d := by
  have same : ((fun d : DescRun => d.pos == q) ∘ fun d => if d.pos = pos then f d else d) = fun d => d.pos == q := by
    funext d
    by_cases h : d.pos = pos <;> simp [h, hf]
  rw [State.desc?, State.mapDesc, List.find?_map, same]
  refine Option.map_congr fun d found => ?_
  rw [State.pos_of_desc? found]

/-- What a descriptor in flight holds may change, but not that it is in flight. -/
theorem State.isSome_desc?_mapDesc {f : DescRun → DescRun} (hf : ∀ d, (f d).pos = d.pos) (s : State) (pos q : Nat) :
    ((s.mapDesc pos f).desc? q).isSome = (s.desc? q).isSome := by
  rw [State.desc?_mapDesc hf, Option.isSome_map]

theorem State.isSome_desc?_of_plan (h : t.plan = s.plan) (q : Nat) : (t.desc? q).isSome = (s.desc? q).isSome := by
  rw [State.desc?_of_plan h]

/-! ### The end of a stage -/

theorem State.isSome_desc?_endReduce (s : State) (r : DescRun) (k : KV Counts) (x : Bool × Nat × Nat) (q : Nat) :
    ((s.endReduce r k x).1.desc? q).isSome = (s.desc? q).isSome := by
  unfold State.endReduce
  extract_lets red s2
  have mapped : (s2.desc? q).isSome = (s.desc? q).isSome := State.isSome_desc?_mapDesc (fun _ => by rfl) s r.pos q
  split
  · exact (State.isSome_desc?_of_plan (s2.storeAll_plan _) q).trans mapped
  · split
    · exact (State.isSome_desc?_of_plan (s2.putNorm_plan _ _ _) q).trans mapped
    · split
      · exact (State.isSome_desc?_of_plan (s2.putNorm_plan _ _ _) q).trans mapped
      · exact mapped

theorem State.isSome_desc?_unitSats (s : State) (pos : Nat) (backward : Bool) (k : Counts) (q : Nat) :
    ((s.unitSats pos backward k).desc? q).isSome = (s.desc? q).isSome := by
  unfold State.unitSats
  split
  · rfl
  · split
    · exact State.isSome_desc?_of_plan s.backwardSat_plan q
    · exact State.isSome_desc?_mapDesc (fun _ => by rfl) s pos q

/-- The reductions of a vector descriptor end with every descriptor still in its slot. -/
theorem State.isSome_desc?_endVector (s : State) (r : DescRun) (q : Nat) : ((s.endVector r).desc? q).isSome = (s.desc? q).isSome := by
  unfold State.endVector
  split
  · extract_lets e out own sr s1 s2
    have reduced : (e.1.desc? q).isSome = (s.desc? q).isSome :=
      foldl_same (π := fun a : State × KV Counts => (a.1.desc? q).isSome) (fun a x => a.1.isSome_desc?_endReduce r a.2 x q) _ (s, [])
    have recorded : (s1.desc? q).isSome = (e.1.desc? q).isSome := State.isSome_desc?_of_plan (State.unitFlags_plan _ 0 out) q
    have reported : (s2.desc? q).isSome = (s1.desc? q).isSome := by
      unfold s2
      split
      · exact State.isSome_desc?_of_plan ((State.updateNonFinite_plan _ r e.2).trans (s1.updateSats_plan r e.2)) q
      · exact s1.isSome_desc?_unitSats r.pos _ out q
    have gathers (d : DescRun) : (e.2.foldl (fun d k => d.gatherAmax k.1 k.2.amax) d).pos = d.pos :=
      foldl_same (π := DescRun.pos) (fun _ _ => by rfl) e.2 d
    exact (State.isSome_desc?_mapDesc gathers s2 r.pos q).trans (reported.trans (recorded.trans reduced))
  · rfl

theorem State.isSome_desc?_endProducers (s : State) (r : DescRun) (q : Nat) :
    ((s.endProducers r).desc? q).isSome = (s.desc? q).isSome := by
  refine foldl_same (π := fun u : State => (u.desc? q).isSome) (fun u x => ?_) (s.producers r) s
  split
  · exact u.isSome_desc?_endVector _ q
  · rfl

/-! ### Completion -/

theorem contains_listAdd_of_contains {l : List Nat} {m n : Nat} (h : l.contains m = true) : (listAdd l n).contains m = true := by
  unfold listAdd
  split
  · exact h
  · rw [List.contains_append, h, Bool.true_or]

/-- A staged amax moves neither what is in flight nor which records are without a t. -/
theorem State.stageTensor_frame (s : State) (attempt : Nat) (e : Nat × F32) :
    (s.stageTensor attempt e).prog = s.prog ∧ (s.stageTensor attempt e).scale.presentLeft = s.scale.presentLeft := by
  unfold State.stageTensor
  dsimp only
  split <;> exact ⟨rfl, rfl⟩

/-- A descriptor that completes leaves its slot, and its position is among those completed. -/
theorem State.completeDesc_prog (s : State) (r : DescRun) : (s.completeDesc r).prog =
    { s.prog with pool := s.prog.pool.filter fun d => d.pos != r.pos, completed := listAdd s.prog.completed r.pos } := by
  have staged : (r.amaxes.foldl (fun s a => s.stageTensor r.attempt a) s).prog = s.prog :=
    foldl_same (π := State.prog) (fun u a => (u.stageTensor_frame r.attempt a).1) r.amaxes s
  unfold State.completeDesc State.keepPass State.freeDesc
  rw [staged]

theorem State.desc?_completeDesc (s : State) (r : DescRun) (q : Nat) :
    (s.completeDesc r).desc? q = if q = r.pos then none else s.desc? q := by
  rw [State.desc?, State.completeDesc_prog, List.find?_filter]
  split
  · rename_i h
    simp [h]
  · rename_i h
    refine congrArg (List.find? · s.prog.pool) (funext fun d => ?_)
    by_cases e : d.pos = q <;> simp [e, h]

/-- A descriptor that is no longer in its slot has completed. -/
def State.DoneIfFreed (slot : Nat) (s : State) : Prop := s.desc? slot = none → s.prog.completed.contains slot = true

theorem State.DoneIfFreed.completeDesc (h : s.DoneIfFreed slot) (r : DescRun) : (s.completeDesc r).DoneIfFreed slot := by
  intro freed
  rw [State.desc?_completeDesc] at freed
  rw [State.completeDesc_prog]
  show (listAdd s.prog.completed r.pos).contains slot = true
  split at freed
  · rename_i e
    rw [e]
    exact contains_listAdd_self _ _
  · exact contains_listAdd_of_contains (h freed)

/-- An attempt with nothing to retry completes its descriptor (R118). -/
theorem State.decideAttempt_completes {r : DescRun} (h : s.desc? slot = some r) (final : (s.producerSat r && s.retriable r) = false) :
    (s.decideAttempt r).desc? slot = none ∧ (s.decideAttempt r).prog.completed.contains slot = true := by
  have pos := State.pos_of_desc? h
  have counted : (s.exhausted r).desc? slot = some r := (State.desc?_of_plan (s.exhausted_plan r) slot).trans h
  have done : (s.decideAttempt r).desc? slot = none ∧ (s.decideAttempt r).DoneIfFreed slot := by
    rw [State.decideAttempt, final, if_neg Bool.false_ne_true]
    dsimp only
    refine foldl_reaches (P := State.DoneIfFreed slot) (Q := fun u => u.desc? slot = none ∧ u.DoneIfFreed slot)
      (State.mem_producers_self h) ?_ (fun u x hu => ?_) (fun u hu => ?_) fun u x hu => ?_
    · intro freed
      cases counted.symm.trans freed
    · split
      · exact hu.completeDesc _
      · exact hu
    · split
      case h_1 y hy =>
        refine ⟨?_, hu.completeDesc y⟩
        rw [u.desc?_completeDesc, if_pos (pos.symm.trans (State.pos_of_desc? hy).symm)]
      case h_2 hy => exact ⟨pos ▸ hy, hu⟩
    · split
      case h_1 y _ =>
        refine ⟨?_, hu.2.completeDesc y⟩
        rw [u.desc?_completeDesc, hu.1, ite_self]
      case h_2 => exact hu
  exact ⟨done.1, done.2 done.1⟩

/-! ### Retries -/

/-- A descriptor that starts another attempt, from no unit. -/
def DescRun.Retries (r d : DescRun) : Prop := r.attempt < d.attempt ∧ d.issued = [] ∧ d.finished = [] ∧ d.saturated = false

/-- Memory, the faults and the dictionary. -/
abbrev State.stored (s : State) := (s.mem, s.flt, s.dict)

/-- An attempt's totals are retired with what is in flight, memory, the faults and the dictionary as they were. -/
theorem State.foldl_retireTotals (s : State) (l : List DescRun) :
    let u := l.foldl (fun s x => s.retireTotals x.pos x.attempt x.d.layer) s
    u.plan = s.plan ∧ u.stored = s.stored :=
  List.foldlRecOn (motive := fun u : State => u.plan = s.plan ∧ u.stored = s.stored) l _ ⟨rfl, rfl⟩ fun _ h _ _ => h

/-- A retry counts one recompute, and leaves memory and the faults as they were (R118, R119). -/
theorem State.retryProducer_stored (s : State) (r : DescRun) :
    (s.retryProducer r).stored = (s.mem, s.flt, (s.bump 64 Ent.scaleFwdRecomputes 1).dict) := by
  have retired := ((s.countRecompute r.d.layer).foldl_retireTotals (s.producers r)).2
  unfold State.retryProducer
  refine (foldl_same (π := State.stored) (fun _ _ => ?_) _ _).trans retired
  rfl

/-- A fold that changes descriptors in their slots: what the change brings about in a descriptor holds in the end of one that is among
those changed. -/
theorem State.desc?_foldl_mapDesc {P Q : DescRun → Prop} {g : DescRun → DescRun} {f : State → DescRun → State} {l : List DescRun}
    {r d : DescRun} (pos : ∀ x, (g x).pos = x.pos) (maps : ∀ u x, (f u x).plan = (u.mapDesc x.pos g).plan) (brings : ∀ x, P x → Q (g x))
    (weak : ∀ x, Q x → P x) (mem : r ∈ l) (h : s.desc? r.pos = some d) (start : P d) : ∃ e, (l.foldl f s).desc? r.pos = some e ∧ Q e := by
  have step {u : State} {e : DescRun} (x : DescRun) (he : u.desc? r.pos = some e) :
      (f u x).desc? r.pos = some (if r.pos = x.pos then g e else e) := by
    rw [State.desc?_of_plan (maps u x), State.desc?_mapDesc pos, he, Option.map_some]
  refine foldl_reaches (P := fun u : State => ∃ e, u.desc? r.pos = some e ∧ P e) (Q := fun u => ∃ e, u.desc? r.pos = some e ∧ Q e) mem
    ⟨d, h, start⟩ ?_ ?_ ?_
  · rintro u x ⟨e, he, hP⟩
    refine ⟨_, step x he, ?_⟩
    split
    · exact weak _ (brings e hP)
    · exact hP
  · rintro u ⟨e, he, hP⟩
    refine ⟨_, step r he, ?_⟩
    rw [if_pos rfl]
    exact brings e hP
  · rintro u x ⟨e, he, hQ⟩
    refine ⟨_, step x he, ?_⟩
    split
    · exact brings e (weak e hQ)
    · exact hQ

/-- A retry starts the descriptor's next attempt from no unit (R118, R119). -/
theorem State.retryProducer_desc? {r : DescRun} (h : s.desc? slot = some r) :
    ∃ d, (s.retryProducer r).desc? slot = some d ∧ r.Retries d := by
  have retired := ((s.countRecompute r.d.layer).foldl_retireTotals (s.producers r)).1
  have held := (State.desc?_of_plan retired slot).trans h
  cases State.pos_of_desc? h
  exact State.desc?_foldl_mapDesc (P := fun d => r.attempt ≤ d.attempt) (g := fun d => { d.again with attempt := d.attempt + 1 })
    (fun _ => rfl) (fun _ _ => rfl) (fun d le => ⟨Nat.lt_succ_of_le le, rfl, rfl, rfl⟩) (fun d again => Nat.le_of_lt again.1)
    (State.mem_producers_self h) held (Nat.le_refl _)

/-! ### FORWARD_ATTEMPT_DONE -/

/-- Where the units of a producer are all in, its attempt ends once the queues have room, its reductions ending first where it is not
stopped (R118, R119, R132). -/
theorem execForwardAttemptDone_of_units {r : DescRun} (on : s.pwr.on = true) (h : s.desc? slot = some r) (kind : r.d.kind < 3)
    (update : r.isUpdate = false) (pass : r.amaxPass = false) (units : s.producerOver r = true) :
    exec (.forwardAttemptDone slot) s = .next (if s.endRoom (s.producers r) then
      let s1 := if s.producerSat r && s.retriable r then s else s.endProducers r
      (s1.decideAttempt ((s1.desc? slot).getD r)).latchAll else s) := by
  show execForwardAttemptDone slot s = _
  simp only [execForwardAttemptDone, h, on, kind, update, pass, units, true_and]

theorem saturatedAttemptsAreRetried : SaturatedAttemptsAreRetried := by
  intro slot s r on h kind update pass units quiet
  rw [execForwardAttemptDone_of_units on h kind update pass units]
  refine ⟨fun full => ?_, fun room sat retry => ?_, fun room final later => ?_⟩
  · simp only [full, Bool.false_eq_true, if_false]
  · obtain ⟨d, hd, attempt, issued, finished, saturated⟩ := State.retryProducer_desc? h
    have stored := s.retryProducer_stored r
    simp only [Prod.mk.injEq] at stored
    obtain ⟨mem, flt, dict⟩ := stored
    have latched : (s.retryProducer r).latchAll = s.retryProducer r := State.latchAll_of_lines (flt ▸ quiet)
    refine ⟨s.retryProducer r, d, ?_, hd, attempt, issued, finished, saturated, ?_, mem, flt⟩
    · simp only [room, sat, retry, Bool.and_self, if_true, h, Option.getD_some, State.decideAttempt, latched]
    · rw [State.ent, dict]
      exact s.ent_bump 64 _ 1
  · have held : ((s.endProducers r).desc? slot).isSome := (s.isSome_desc?_endProducers r slot).trans (h ▸ rfl)
    obtain ⟨d, hd⟩ := Option.isSome_iff_exists.1 held
    have lines := State.decideAttempt_quiet _ d (State.endProducers_quiet s r quiet)
    obtain ⟨freed, completed⟩ := State.decideAttempt_completes hd (later d hd)
    refine ⟨_, ?_, freed, completed, lines⟩
    simp only [room, final, hd, Option.getD_some, State.latchAll_of_lines lines, Bool.false_eq_true, if_true, if_false]

/-! ### Records without a t (R100) -/

/-- A record of scales has its t, if it waited for one: in `u` it is no longer waited for, and what is in flight, memory and the faults
are as in `s`. -/
structure State.Settles (s : State) (i : Nat) (u : State) : Prop where
  prog : u.prog = s.prog
  mem : u.mem = s.mem
  flt : u.flt = s.flt
  left : u.scale.presentLeft = listErase s.scale.presentLeft i

theorem State.settleT_settles (s : State) (i : Nat) (t : Int) : s.Settles i (s.settleT i t) := by
  unfold State.settleT
  extract_lets n left _ s0 _ _ s1
  have placed : s.Settles i s1 := by
    unfold s1
    split <;> exact ⟨rfl, rfl, rfl, rfl⟩
  split
  · exact placed
  · split
    · exact placed
    · extract_lets r1 s2 _
      have ringed : s.Settles i s2 := ⟨placed.prog, placed.mem, placed.flt, placed.left⟩
      split
      · have sent := State.sendMirror_unsent { s2 with train.newest := r1.step } 1 r1.bytes
        simp only [Prod.mk.injEq] at sent
        obtain ⟨-, -, -, -, -, scale, -, prog, -, mem, -, flt, -⟩ := sent
        exact ⟨prog.trans ringed.prog, mem.trans ringed.mem, flt.trans ringed.flt,
          (congrArg Scaling.presentLeft scale).trans ringed.left⟩
      · exact ringed

theorem listErase_of_not_contains {l : List Nat} {n : Nat} (h : l.contains n = false) : listErase l n = l := by
  refine List.filter_eq_self.2 fun m hm => bne_iff_ne.2 ?_
  rintro rfl
  rw [List.contains_iff_mem.2 hm] at h
  cases h

theorem not_contains_listErase {l : List Nat} {m : Nat} (n : Nat) (h : l.contains m = false) : (listErase l n).contains m = false := by
  simp_all [listErase]

/-- A pass's magnitude settles its tensor's record. -/
theorem State.presentT_settles (s : State) (others : List (Nat × F32)) (e : Nat × F32) :
    s.Settles (s.tensor e.1).scaleRecord (s.presentT others e) := by
  unfold State.presentT
  dsimp only
  split
  · exact s.settleT_settles _ _
  · rename_i settled
    exact ⟨rfl, rfl, rfl, (listErase_of_not_contains (Bool.not_eq_true _ ▸ settled)).symm⟩

theorem State.tensor_of_prog (h : t.prog = s.prog) (j : Nat) : t.tensor j = s.tensor j := by
  rw [State.tensor, h, State.tensor]

/-- The magnitudes of a list give their tensors' t. -/
def State.presentAll (s : State) (others l : List (Nat × F32)) : State := l.foldl (fun s e => s.presentT others e) s

/-- The magnitudes of a pass settle the records of all tensors that they name. -/
theorem State.presentAll_left (s : State) (others : List (Nat × F32)) {l : List (Nat × F32)} {e : Nat × F32} (he : e ∈ l) :
    (s.presentAll others l).scale.presentLeft.contains (s.tensor e.1).scaleRecord = false := by
  refine foldl_reaches (P := fun u : State => u.prog = s.prog)
    (Q := fun u : State => u.scale.presentLeft.contains (s.tensor e.1).scaleRecord = false) he rfl ?_ ?_ ?_
  · exact fun u x hu => (u.presentT_settles others x).prog.trans hu
  · intro u hu
    rw [(u.presentT_settles others e).left, State.tensor_of_prog hu]
    exact contains_listErase_self _ _
  · intro u x hu
    rw [(u.presentT_settles others x).left]
    exact not_contains_listErase _ hu

/-- The magnitudes of a pass move neither what is in flight, nor memory, nor a fault. -/
theorem State.presentAll_frame (s : State) (others l : List (Nat × F32)) :
    (s.presentAll others l).prog = s.prog ∧ (s.presentAll others l).mem = s.mem ∧ (s.presentAll others l).flt = s.flt := by
  refine List.foldlRecOn (motive := fun u : State => u.prog = s.prog ∧ u.mem = s.mem ∧ u.flt = s.flt) l _ ⟨rfl, rfl, rfl⟩
    fun u ⟨prog, mem, flt⟩ e _ => ?_
  have one := u.presentT_settles others e
  exact ⟨one.prog.trans prog, one.mem.trans mem, one.flt.trans flt⟩

/-! ### A collective goes on -/

/-- Each record that is without its t in `t` is so in `s`. -/
def State.StaysSettled (s t : State) : Prop := t.scale.presentLeft ⊆ s.scale.presentLeft

theorem State.StaysSettled.refl (s : State) : s.StaysSettled s := List.Subset.refl _

theorem State.StaysSettled.trans {u : State} (h : s.StaysSettled t) (k : t.StaysSettled u) : s.StaysSettled u := List.Subset.trans k h

theorem State.StaysSettled.of_left (h : t.scale.presentLeft = s.scale.presentLeft) : s.StaysSettled t := by
  rw [State.StaysSettled, h]
  exact List.Subset.refl _

theorem State.StaysSettled.of_plan (h : t.plan = s.plan) : s.StaysSettled t := .of_left (congrArg Scaling.presentLeft (scale_of_plan h))

theorem State.Settles.stays (h : s.Settles i t) : s.StaysSettled t := by
  rw [State.StaysSettled, h.left]
  exact fun _ left => (List.mem_filter.1 left).1

/-- A record that has its t keeps it. -/
theorem State.StaysSettled.not_contains (h : s.StaysSettled t) (hi : s.scale.presentLeft.contains i = false) :
    t.scale.presentLeft.contains i = false := by
  simp only [List.contains_eq_mem, decide_eq_false_iff_not] at hi ⊢
  exact fun left => hi (h left)

theorem State.reduceOwn_plan (s : State) (c : Collective) (r : DescRun) (b : CollBlock) (n : Nat) : (s.reduceOwn c r b n).plan = s.plan := by
  unfold State.reduceOwn
  extract_lets e parts bytes s1
  split
  · split
    · rfl
    · exact foldl_same (π := State.plan) (fun u d => plan_of_unsent (u.sendBytes_unsent _ bytes)) _ s1
  · rfl

theorem State.storeOn_plan : ∀ (l : List (Nat × List Byte)) (s : State) (n : Nat), (State.storeOn l s n).1.plan = s.plan
  | [], _, _ => rfl
  | w :: l, s, n => by
    unfold State.storeOn
    split
    · exact s.stallSeals_plan _
    · exact (State.storeOn_plan l _ _).trans (s.storeAll_plan [w])

theorem State.rootAttempts_plan : ∀ (n : Nat) (s : State) (r : DescRun) (b : CollBlock) (vals : List F32),
    (State.rootAttempts n s r b vals).1.plan = s.plan
  | 0, _, _, _, _ => rfl
  | n + 1, s, r, b, vals => by
    unfold State.rootAttempts
    split
    · exact State.rootAttempts_plan n _ _ b vals
    · rfl

theorem State.presentRoot_stays (s : State) (r : DescRun) (vals : List F32) : s.StaysSettled (s.presentRoot r vals) := by
  unfold State.presentRoot
  dsimp only
  split
  · exact (s.settleT_settles _ _).stays
  · exact .refl s

theorem State.settleRoot_stays (s : State) (r : DescRun) (b : CollBlock) (vals : List F32) : s.StaysSettled (s.settleRoot r b vals) := by
  have converted := State.rootAttempts_plan 3 (s.presentRoot r vals) r b vals
  unfold State.settleRoot
  generalize State.rootAttempts 3 (s.presentRoot r vals) r b vals = x at converted
  have settled : s.StaysSettled x.1 := (s.presentRoot_stays r vals).trans (.of_plan converted)
  exact settled.trans (.of_left rfl)

theorem State.completeDesc_stays (s : State) (r : DescRun) : s.StaysSettled (s.completeDesc r) := by
  have staged : (r.amaxes.foldl (fun s a => s.stageTensor r.attempt a) s).scale.presentLeft = s.scale.presentLeft :=
    foldl_same (π := fun u : State => u.scale.presentLeft) (fun u a => (u.stageTensor_frame r.attempt a).2) r.amaxes s
  exact .of_left staged

theorem State.reportRoot_stays (s : State) (r : DescRun) (k : Counts) : s.StaysSettled (s.reportRoot r k) := by
  unfold State.reportRoot
  extract_lets _ sr s1 s2
  have flagged : s1.plan = s.plan := s.unitFlags_plan 0 k
  have counted : s2.plan = s.plan := by
    unfold s2
    split
    · exact flagged
    · split
      · exact s1.backwardSat_plan.trans flagged
      · exact (State.condition_plan _ _ _ _ _ _).trans flagged
  exact (State.StaysSettled.of_plan counted).trans (s2.completeDesc_stays _)

theorem State.mapColl_plan (s : State) (pos : Nat) (f : Collective → Collective) : (s.mapColl pos f).plan = s.plan := rfl

theorem State.dropColl_plan (s : State) (pos : Nat) : (s.dropColl pos).plan = s.plan := rfl

theorem State.finishColl_stays (s : State) (c : Collective) (r : DescRun) (b : CollBlock) (n : Nat) (parts : List (List Byte)) :
    s.StaysSettled (s.finishColl c r b n parts) := by
  unfold State.finishColl
  extract_lets s1 r1 w l x
  have settled : s.StaysSettled s1 := by
    unfold s1
    split
    · exact .refl s
    · exact s.settleRoot_stays r b _
  have written : s.StaysSettled x.1 := settled.trans (.of_plan (State.storeOn_plan _ s1 c.stored))
  have dropped : s.StaysSettled (x.1.dropColl r.pos) := written.trans (.of_plan (x.1.dropColl_plan r.pos))
  split
  · exact written.trans (.of_plan (x.1.mapColl_plan r.pos _))
  · split
    · exact dropped.trans (State.reportRoot_stays _ r1 w.2)
    · exact dropped.trans (State.completeDesc_stays _ r1)

/-- However far a collective goes on, no record is newly waited for. -/
theorem State.advanceColl_stays (s : State) (pos : Nat) : s.StaysSettled (s.advanceColl pos) := by
  unfold State.advanceColl
  split
  · rename_i c r _ _
    extract_lets b n e s1 c1 parts l
    have reduced : s.StaysSettled s1 := by
      refine .of_plan ?_
      unfold s1
      split
      · exact s.reduceOwn_plan c r b n
      · rfl
    split
    · split
      · exact reduced
      · exact reduced.trans (s1.finishColl_stays c1 r b n l)
    · exact reduced
  · exact .refl s

/-! ### AMAX_PASS_DONE -/

/-- A descriptor runs again from its first unit, now to write. -/
def DescRun.toWrite (d : DescRun) : DescRun := { d.again with sums := d.sums, amaxPass := false }

/-- The amax pass of one of a producer's descriptors ends, and its write pass starts. -/
def State.endPass (s : State) (x : DescRun) : State := (s.keepPass x.pos).mapDesc x.pos DescRun.toWrite

theorem execAmaxPassDone_of_producer {others : List (Nat × F32)} {r : DescRun} (on : s.pwr.on = true) (h : s.desc? slot = some r)
    (pass : r.amaxPass = true) (kind : r.d.kind ≠ 3) (units : s.producerOver r = true) :
    exec (.amaxPassDone slot others) s = .next ((s.producers r).foldl State.endPass (s.presentAll others (s.passAmaxes r))).latchAll := by
  show execAmaxPassDone slot others s = _
  simp only [execAmaxPassDone, h, on, pass, kind, units, and_true, and_false, if_true, if_false]
  rfl

theorem execAmaxPassDone_of_collective {others : List (Nat × F32)} {r : DescRun} (on : s.pwr.on = true) (h : s.desc? slot = some r)
    (pass : r.amaxPass = true) (kind : r.d.kind = 3) :
    exec (.amaxPassDone slot others) s = .next (((((s.presentAll others r.amaxes).keepPass r.pos).mapDesc r.pos
      fun d => { d with amaxPass := false, amaxes := [] }).advanceColl r.pos).latchAll) := by
  show execAmaxPassDone slot others s = _
  simp only [execAmaxPassDone, h, on, pass, kind, and_self, if_true]
  rfl

theorem State.foldl_endPass_frame (s : State) (l : List DescRun) :
    let u := l.foldl State.endPass s
    u.scale = s.scale ∧ u.mem = s.mem ∧ u.flt = s.flt :=
  List.foldlRecOn (motive := fun u : State => u.scale = s.scale ∧ u.mem = s.mem ∧ u.flt = s.flt) l _ ⟨rfl, rfl, rfl⟩ fun _ h _ _ => h

/-- The write pass of a producer starts from its first unit (R100). -/
theorem State.foldl_endPass_desc? {l : List DescRun} {r d : DescRun} (mem : r ∈ l) (h : s.desc? r.pos = some d) :
    ∃ e, (l.foldl State.endPass s).desc? r.pos = some e ∧ e.amaxPass = false ∧ e.issued = [] ∧ e.finished = [] :=
  State.desc?_foldl_mapDesc (P := fun _ => True) (g := DescRun.toWrite) (fun _ => rfl) (fun _ _ => rfl) (fun _ _ => ⟨rfl, rfl, rfl⟩)
    (fun _ _ => trivial) mem h trivial

theorem amaxPassesGiveTheScale : AmaxPassesGiveTheScale := by
  intro slot others s r on h pass quiet
  refine ⟨fun kind units => ?_, fun kind => ?_⟩
  · obtain ⟨prog, mem, flt⟩ := s.presentAll_frame others (s.passAmaxes r)
    obtain ⟨scale, mem', flt'⟩ := (s.presentAll others (s.passAmaxes r)).foldl_endPass_frame (s.producers r)
    cases State.pos_of_desc? h
    have held : (s.presentAll others (s.passAmaxes r)).desc? r.pos = some r := by rw [State.desc?, prog, ← State.desc?, h]
    obtain ⟨d, hd, write, issued, finished⟩ := State.foldl_endPass_desc? (State.mem_producers_self h) held
    refine ⟨_, d, execAmaxPassDone_of_producer on h pass kind units, ?_⟩
    rw [State.latchAll_of_lines (by rw [flt', flt, quiet])]
    refine ⟨hd, write, issued, finished, fun e he => ?_, mem'.trans mem, flt'.trans flt⟩
    rw [scale]
    exact s.presentAll_left others he
  · have stays : (s.presentAll others r.amaxes).StaysSettled (((s.presentAll others r.amaxes).keepPass r.pos).mapDesc r.pos
        fun d => { d with amaxPass := false, amaxes := [] }) := .of_left rfl
    have lines : (s.presentAll others r.amaxes).Quiet := foldl_quiet (fun u e => u.presentT_quiet others e) r.amaxes quiet
    refine ⟨_, execAmaxPassDone_of_collective on h pass kind, State.latchAll_quiet _, fun e he => ?_⟩
    rw [State.latchAll_of_lines (State.advanceColl_quiet _ _ (State.mapDesc_quiet _ _ _ (State.keepPass_quiet _ _ lines)))]
    exact (stays.trans (State.advanceColl_stays _ r.pos)).not_contains (s.presentAll_left others he)

/-- Settles O35: a retry counts and clears its producer's descriptors, a final attempt empties their slots, and a pass settles the record of
each tensor that its magnitudes name. -/
theorem attemptsAndAmaxPassesEnd : Obligations.AttemptsAndAmaxPassesEnd := ⟨saturatedAttemptsAreRetried, amaxPassesGiveTheScale⟩

end Sys2Proof.Machine

/-! PROOFS. Latching a fault that its class makes Severe and no more, and that concerns no core's work (R315, R320, R327): what it
leaves. -/

namespace Sys2Proof.Machine

variable {s : State}

/-! ### What a record changes -/

theorem State.raiseVector_eq (s : State) (v : Nat) : ∃ c, s.raiseVector v = { s with comm := c } := by
  unfold State.raiseVector
  split <;> exact ⟨_, rfl⟩

/-- A stored record joins the records and, where it waits for flash, the mirror's queue; else it moves flash, a vector and a count. -/
theorem State.storeRecord_eq (s : State) (r : EvRecord) : ∃ l q c n v,
    s.storeRecord r = { s with flt.records := l, flt.mirrorQueue := q, comm := c, nv := n, dict.vals := v } := by
  obtain ⟨c, vector⟩ : ∃ c, (if 1 ≤ r.severity then s.raiseVector 4 else s) = { s with comm := c } := by
    split
    · exact s.raiseVector_eq 4
    · exact ⟨s.comm, rfl⟩
  unfold State.storeRecord
  dsimp only
  rw [vector]
  split
  · exact ⟨s.flt.records, s.flt.mirrorQueue, s.comm, s.nv, _, rfl⟩
  · split
    · exact ⟨_, s.flt.mirrorQueue, c, _, s.dict.vals, rfl⟩
    · exact ⟨_, _, c, s.nv, s.dict.vals, rfl⟩

/-- A record, stored or held, moves the recorder, flash, a vector and a count. -/
theorem State.record_eq (s : State) (r : EvRecord) : ∃ f c n v,
    s.record r = { s with flt := f, comm := c, nv := n, dict.vals := v } ∧ f.fatal = s.flt.fatal := by
  unfold State.record State.fileRecord
  split
  · exact ⟨_, s.comm, _, s.dict.vals, rfl, rfl⟩
  · obtain ⟨l, q, c, n, v, e⟩ := s.takeSeq.storeRecord_eq (s.stamp r)
    exact ⟨_, c, n, v, e, rfl⟩

/-- So does one of a die whose link is down, which waits there (R13). -/
theorem State.recordAt_eq (s : State) (die : Nat) (r : EvRecord) : ∃ f c n v,
    s.recordAt die r = { s with flt := f, comm := c, nv := n, dict.vals := v } := by
  unfold State.recordAt
  split
  · exact ⟨_, s.comm, _, s.dict.vals, rfl⟩
  · obtain ⟨f, c, n, v, e, -⟩ := s.record_eq r
    exact ⟨f, c, n, v, e⟩

theorem State.ent_recordAt (s : State) (die : Nat) (r : EvRecord) {k : Nat} (hk : k < Ent.evDropped 0) :
    (s.recordAt die r).ent k = s.ent k := by
  unfold State.recordAt
  split
  · rfl
  · exact s.ent_record r (by unfold Ent.evDropped at *; omega)

/-! ### What latching changes -/

theorem State.changed_eq (s : State) (p : Bool) : ∃ c, s.changed p = { s with comm := c } := by
  unfold State.changed
  split
  · exact ⟨_, rfl⟩
  · exact ⟨s.comm, rfl⟩

/-- The counters of a fault's class are entries (R340). -/
theorem State.countFault_eq (s : State) (r : FaultReport) (v : Verdict) : ∃ l, s.countFault r v = { s with dict.vals := l } := by
  unfold State.countFault
  extract_lets s1 s2
  have severe : ∃ l, s2 = { s with dict.vals := l } := by
    unfold s2
    split <;> exact ⟨_, rfl⟩
  obtain ⟨l, e⟩ := severe
  rw [e]
  split <;> exact ⟨_, rfl⟩

/-- They lie above every entry of the recorder. -/
theorem State.ent_countFault (s : State) (r : FaultReport) (v : Verdict) {k : Nat} (hk : k < Ent.evDropped 0) :
    (s.countFault r v).ent k = s.ent k := by
  have beside (u : State) (j : Nat) (hj : Ent.evDropped 0 ≤ j) : (u.bump 64 j 1).ent k = u.ent k := u.ent_bump_ne 64 1 (by omega)
  unfold State.countFault
  extract_lets s1 s2
  have h1 : s1.ent k = s.ent k := beside _ _ (by unfold Ent.classFaults Ent.evDropped; omega)
  have h2 : s2.ent k = s1.ent k := by
    unfold s2
    split
    · exact beside _ _ (by unfold Ent.classSevere Ent.evDropped; omega)
    · rfl
  split
  · exact (beside _ _ (by unfold Ent.classEscalations Ent.evDropped; omega)).trans (h2.trans h1)
  · exact h2.trans h1

/-- Latching a fault of no core's work moves what faults hold, the recorder, flash, the reports of a change and counts; no entry below the
recorder's moves. -/
theorem State.latchIn_frame {r : FaultReport} (hr : faultCore r = none) (v : Verdict) :
    (∃ lost hold f c n l,
      s.latchIn r v = { s with clk.lost := lost, pwr.countHold := hold, flt := f, comm := c, nv := n, dict.vals := l }) ∧
    ∀ k < Ent.evDropped 0, (s.latchIn r v).ent k = s.ent k := by
  have work (u : State) : u.workFault r = u := by rw [State.workFault, hr]
  unfold State.latchIn
  extract_lets lv src x s1 s2
  obtain ⟨k, placed⟩ := State.place_eq 4 (s1.classHolds r v) lv r.unit { cls := r.cls, sev := v.sev, seq := s1.flt.nextSeq, source := src }
  have h2 : s2 = { s1.classHolds r v with flt.collectors := k } := placed
  have h1 : s1 = (s.setSource r.cls r.level r.unit src v.times).setCollector (colKey lv r.unit) { x with word1 := detailWord r } := work _
  obtain ⟨f, c, n, l, recorded⟩ := s2.recordAt_eq (dieOfUnit lv r.unit) (s2.faultRecord x r v)
  obtain ⟨l', counted⟩ := (s2.recordAt (dieOfUnit lv r.unit) (s2.faultRecord x r v)).countFault_eq r v
  obtain ⟨c', told⟩ := ((s2.recordAt (dieOfUnit lv r.unit) (s2.faultRecord x r v)).countFault r v).changed_eq (s.topSev != s2.topSev)
  rw [told]
  refine ⟨?_, fun j hj => ?_⟩
  · rw [counted, recorded, h2, h1]
    exact ⟨_, _, f, c', n, l', rfl⟩
  · show (State.countFault _ r v).ent j = s.ent j
    rw [State.ent_countFault _ r v hj, State.ent_recordAt _ _ _ hj, h2, h1]
    rfl

/-! ### Severe and no more -/

/-- The classes that are Severe at once and never Fatal (R320). -/
abbrev severeClass (c : Nat) : Prop := classRow c = ⟨2, 1, 0, 2⟩

/-- Nothing escalates a fault of such a class. -/
theorem State.judge_severeClass {r : FaultReport} (row : severeClass r.cls) (ask : r.atLeast = 0) : (s.judge r).sev = 2 := by
  have ne {c : Nat} (h : classRow c ≠ ⟨2, 1, 0, 2⟩) : r.cls ≠ c := fun e => h (e ▸ row)
  have h12 : r.cls ≠ 0x12 := ne (by decide)
  have h09 : r.cls ≠ 0x09 := ne (by decide)
  have h0F : r.cls ≠ 0x0F := ne (by decide)
  have floor : 2 ≤ (s.judge r).sev := State.judge_severe (Nat.le_of_eq (congrArg ClassRow.base row).symm)
  refine Nat.le_antisymm ?_ floor
  unfold State.judge
  extract_lets rw' src times full base sev1 x meets esc top sev2 fatal sev3
  have hb : base = 2 := by unfold base rw'; rw [row, ask]; rfl
  have h1 : sev1 = 2 := by
    unfold sev1 rw'
    rw [row, hb]
    split <;> rfl
  have ht : top = 2 := (if_neg (fun h => h09 h.1)).trans (by unfold rw'; rw [row])
  have h2 : sev2 = 2 := by
    unfold sev2
    rw [h1, ht]
    split <;> rfl
  have hf : fatal = false := by unfold fatal; simp [h12, h09, h0F]
  show sev3 ≤ 2
  unfold sev3
  rw [hf, h2]
  exact Nat.le_refl 2

/-- Latched, it takes its slot and its record, and has its class's effects on the step and the units (R320, R327). -/
theorem State.latch_severeClass {r : FaultReport} (row : severeClass r.cls) (ask : r.atLeast = 0) :
    s.latch r = ((s.latchIn r (s.judge r)).stepEffect r).severeAction r := by
  have sev : (s.judge r).sev = 2 := State.judge_severeClass row ask
  have cls : r.cls ≠ 0x10 := fun h => absurd row (by rw [h]; decide)
  rw [State.latch_of_cls cls, State.latchOne_of_severe (Nat.le_of_eq sev.symm), State.severeEffects, sev, if_neg (by decide)]

end Sys2Proof.Machine

/-! PROOFS. What Brine's sending leaves: parts of the state, and the entries of the dictionary below its counters (R397). -/

namespace Sys2Proof.Machine

variable {s : State}

/-- Parts that no send touches. -/
theorem parts_of_unsent {s t : State} (h : t.unsent = s.unsent) :
    t.cores = s.cores ∧ t.prog = s.prog ∧ t.train = s.train ∧ t.mem = s.mem ∧ t.flt = s.flt := by
  simp only [Prod.mk.injEq] at h
  obtain ⟨-, -, cores, -, -, -, -, prog, train, mem, -, flt, -⟩ := h
  exact ⟨cores, prog, train, mem, flt⟩

theorem State.ent_classWait (s : State) (i cls : Nat) {k : Nat} (hk : k < Ent.brineResends 0) : (s.classWait i cls).ent k = s.ent k := by
  unfold State.classWait
  split
  · exact s.ent_bump_ne _ _ (by unfold Ent.brineResends Ent.brineClassWaitUs at *; omega)
  · rfl

theorem State.ent_sendOn (s : State) (i : Nat) (f : TxFrame) {k : Nat} (hk : k < Ent.brineResends 0) : (s.sendOn i f).ent k = s.ent k := by
  unfold State.sendOn
  split
  · rfl
  · exact (State.ent_bump_ne _ _ _ (by unfold Ent.brineResends Ent.brineTxBytes at *; omega)).trans (s.ent_classWait _ _ hk)

theorem State.ent_sendFrame (s : State) (f : TxFrame) {k : Nat} (hk : k < Ent.brineResends 0) : (s.sendFrame f).ent k = s.ent k := by
  unfold State.sendFrame
  split
  · rfl
  · exact s.ent_sendOn _ f hk

theorem State.ent_sendGroup (s : State) (kind g : Nat) (l : List Byte) {k : Nat} (hk : k < Ent.brineResends 0) :
    (s.sendGroup kind g l).ent k = s.ent k :=
  foldl_same (π := (·.ent k)) (fun u _ => u.ent_sendFrame _ hk) _ s

end Sys2Proof.Machine

/-! PROOFS. Work of start-up (R181, R329, R339, R422, R423): ALIVE, the recorder's reload, the firmware's start and the numerics
self-test. -/

namespace Sys2Proof.Machine

variable {s : State}

/-! ### ALIVE, the reload, the firmware -/

theorem aliveInvertsUntilItStops : AliveInvertsUntilItStops := by
  intro s on
  exact ⟨fun runs => congrArg Host.Outcome.next (if_pos ⟨on, runs⟩), fun stopped => congrArg Host.Outcome.next (if_neg (by simp [stopped]))⟩

/-- The records that were held meanwhile join those that reload; the reload's end stands. -/
theorem State.foldl_storeRecord_reload (s : State) (l : List EvRecord) :
    (l.foldl State.storeRecord s).flt.reloading = s.flt.reloading ∧ (l.foldl State.storeRecord s).flt.held = s.flt.held := by
  have one (u : State) (r : EvRecord) : ((u.storeRecord r).flt.reloading, (u.storeRecord r).flt.held) = (u.flt.reloading, u.flt.held) := by
    obtain ⟨_, _, _, _, _, e⟩ := u.storeRecord_eq r
    rw [e]
  exact Prod.mk.inj (foldl_same (π := fun u : State => (u.flt.reloading, u.flt.held)) one l s)

theorem reloadReleasesHeldRecords : ReloadReleasesHeldRecords := by
  intro s reloads
  refine ⟨_, congrArg Host.Outcome.next (if_pos reloads), ?_, ?_, State.isReady_setReady_self _ _ _, fun noneHeld => ?_⟩
  · rw [State.setReady_flt]
    exact (State.foldl_storeRecord_reload _ _).1
  · rw [State.setReady_flt]
    exact (State.foldl_storeRecord_reload _ _).2
  · rw [State.setReady_flt, noneHeld]
    rfl

theorem firmwareOfAGoodBankStarts : FirmwareOfAGoodBankStarts := by
  intro s on waits bank good
  refine congrArg Host.Outcome.next ((if_pos ⟨on, waits, bank⟩).trans (if_pos ?_))
  simpa using good

/-! ### The numerics self-test -/

/-- The entries that show a self-test's result. -/
def State.testEntries (s : State) (failures first : Nat) : State :=
  ((s.setEnt Ent.nvpState (if failures = 0 then 2 else 3)).setEnt Ent.nvpFailures (min failures 4096)).setEnt Ent.nvpFirstFailure
    (if failures = 0 then 0xFFFFFFFF else first % 2 ^ 32)

/-- A test that has passed holds the compute bits no more. -/
def State.testCleared (s : State) (first : Nat) : State := { s.testEntries 0 first with dict.testFailed := false }

theorem State.testCleared_unready (s : State) (first : Nat) : (s.testCleared first).unready = s.unready := by
  simp [State.unready, State.testCleared, State.testEntries]

/-- They come back, or come for the first time (R181, R369). -/
def State.testPassed (s : State) (first : Nat) : State :=
  if (s.testCleared first).dict.computeOnce && (s.testCleared first).computeAllowed then (s.testCleared first).setCompute
  else (s.testCleared first).computeCheck

theorem execNvpSelftestDone_passes {first : Nat} (on : s.pwr.on = true) (runs : s.ent Ent.nvpState = 1) :
    exec (.nvpSelftestDone 0 first) s = .next (s.testPassed first) :=
  congrArg Host.Outcome.next ((if_pos ⟨on, runs⟩).trans (if_neg (by simp)))

theorem execNvpSelftestDone_fails {failures first : Nat} (on : s.pwr.on = true) (runs : s.ent Ent.nvpState = 1) (fails : failures ≠ 0) :
    exec (.nvpSelftestDone failures first) s = .next ((s.testEntries failures first).raise (fault 0x16 .module 0)).latchAll :=
  congrArg Host.Outcome.next ((if_pos ⟨on, runs⟩).trans (if_pos fails))

theorem State.testEntries_state (s : State) (failures first : Nat) :
    (s.testEntries failures first).ent Ent.nvpState = if failures = 0 then 2 else 3 := by
  rw [State.testEntries, State.ent_setEnt_ne _ _ (by decide), State.ent_setEnt_ne _ _ (by decide), State.ent_setEnt]

theorem State.testEntries_failures (s : State) (failures first : Nat) :
    (s.testEntries failures first).ent Ent.nvpFailures = min failures 4096 := by
  rw [State.testEntries, State.ent_setEnt_ne _ _ (by decide), State.ent_setEnt]

theorem State.testEntries_firstFailure (s : State) (failures first : Nat) :
    (s.testEntries failures first).ent Ent.nvpFirstFailure = if failures = 0 then 0xFFFFFFFF else first % 2 ^ 32 :=
  State.ent_setEnt _ _ _

/-- The compute bits come without a fault (R369). -/
theorem State.computeCheck_fatal (s : State) : s.computeCheck.flt.fatal = s.flt.fatal := by
  have advance (u : State) : u.autoAdvance.flt.fatal = u.flt.fatal := by
    unfold State.autoAdvance State.advanceCounter
    split
    · dsimp only
      split
      · rfl
      · obtain ⟨_, _, _, _, e, fatal⟩ := u.record_eq
          { severity := 1, kind := 1, code := 0x8010, time := u.now, level := 4, p0 := u.sec.svn, p1 := 0, p2 := 0 }
        rw [State.condition, e]
        exact fatal
    · rfl
  unfold State.computeCheck State.setCompute
  split
  · rw [advance, State.setReady_flt, State.setReady_flt]
  · rfl

/-- Setting the compute bits, or checking whether they may be set, moves ready.summary and the count of dropped records alone. -/
theorem State.testPassed_frame (s : State) (first : Nat) :
    (∀ k, k ≠ Ent.readySummary → k ≠ Ent.evDropped 1 → (s.testPassed first).ent k = (s.testEntries 0 first).ent k) ∧
      (s.testPassed first).unready = s.unready ∧ (s.testPassed first).flt.fatal = s.flt.fatal := by
  unfold State.testPassed
  split
  · unfold State.setCompute
    refine ⟨fun k hs _ => ?_, ?_, ?_⟩
    · rw [State.ent_setReady_ne _ _ _ hs, State.ent_setReady_ne _ _ _ hs]
      rfl
    · exact (State.setReady_unready _ _ _).trans ((State.setReady_unready _ _ _).trans (s.testCleared_unready first))
    · rw [State.setReady_flt, State.setReady_flt]
      rfl
  · exact ⟨fun k hs hd => State.ent_computeCheck _ hs hd, (State.computeCheck_unready _).trans (s.testCleared_unready first),
      State.computeCheck_fatal _⟩

/-- A pass gives back the compute bits that nothing else holds (R181, R369). -/
theorem State.testPassed_ready {first : Nat} (once : s.dict.computeOnce = true) (alive : s.flt.fatal = 0)
    (whole : s.dict.computeBarred = false) : (s.testPassed first).isReady 6 = true ∧ (s.testPassed first).isReady 7 = true := by
  have allowed : (s.testCleared first).computeAllowed = true := by
    show ((s.flt.fatal == 0) && !s.dict.computeBarred && !false) = true
    rw [alive, whole]
    rfl
  rw [State.testPassed, if_pos (by rw [allowed, Bool.and_true]; exact once)]
  exact ⟨(State.isReady_setReady_ne _ true (by decide)).trans (State.isReady_setReady_self _ _ _), State.isReady_setReady_self _ _ _⟩

/-- The fault of a failed self-test (R181). -/
abbrev testFault : FaultReport := fault 0x16 .module 0

/-- Latched, it takes its slot and its record and holds the compute bits. -/
theorem State.latch_testFault (s : State) : s.latch testFault = (s.latchIn testFault (s.judge testFault)).failTest :=
  State.latch_severeClass (by decide) rfl

theorem State.latch_testFault_quiet (h : s.Quiet) : (s.latch testFault).Quiet := by
  rw [State.latch_testFault]
  exact State.failTest_quiet _ (State.latchIn_quiet _ _ _ rfl h)

/-- A failed test clears the compute bits (R181, R369). -/
theorem State.isReady_failTest (s : State) : s.failTest.isReady 6 = false ∧ s.failTest.isReady 7 = false := by
  unfold State.failTest
  rw [State.isReady_withdraw, State.isReady_withdraw]
  exact ⟨((s.setReady 6 false).isReady_setReady_ne false (by decide)).trans (State.isReady_setReady_self _ _ _),
    State.isReady_setReady_self _ _ _⟩

theorem State.ent_withdraw (s : State) {k : Nat} (hk : k < Ent.brineResends 0) : s.withdraw.ent k = s.ent k := by
  unfold State.withdraw
  split
  · exact (State.ent_setEnt_ne _ _ (by unfold Ent.crustRole Ent.brineResends at *; omega)).trans (s.ent_sendGroup _ _ _ hk)
  · rfl

theorem State.withdraw_cores (s : State) : s.withdraw.cores = s.cores := by
  unfold State.withdraw
  split
  · exact (parts_of_unsent (s.sendGroup_unsent _ _ _)).1
  · rfl

/-- It writes no other entry but Brine's counters and the module's role in its crust (R299). -/
theorem State.ent_failTest (s : State) {k : Nat} (hs : k ≠ Ent.readySummary) (hk : k < Ent.brineResends 0) : s.failTest.ent k = s.ent k := by
  rw [State.failTest, State.ent_withdraw _ hk]
  exact (State.ent_setReady_ne _ _ _ hs).trans (State.ent_setReady_ne _ _ _ hs)

theorem State.failTest_cores (s : State) : s.failTest.cores = s.cores := by
  have cleared := ((s.setReady 6 false).setReady_unready 7 false).trans (s.setReady_unready 6 false)
  simp only [State.unready, Prod.mk.injEq] at cleared
  obtain ⟨-, -, cores, -⟩ := cleared
  rw [State.failTest, State.withdraw_cores]
  exact cores

/-- Latching a failed self-test leaves the entries below the recorder's, ready.summary apart, and every core. -/
theorem State.latch_testFault_frame (s : State) :
    (∀ k, k ≠ Ent.readySummary → k < Ent.evDropped 0 → (s.latch testFault).ent k = s.ent k) ∧ (s.latch testFault).cores = s.cores := by
  rw [State.latch_testFault]
  refine ⟨fun k hs hk => ?_, ?_⟩
  · rw [State.ent_failTest _ hs (by unfold Ent.evDropped Ent.brineResends at *; omega), (State.latchIn_frame rfl _).2 k hk]
  · obtain ⟨⟨_, _, _, _, _, _, e⟩, -⟩ := s.latchIn_frame (r := testFault) rfl (s.judge testFault)
    rw [State.failTest_cores, e]

theorem theSelfTestReportsItsFailures : TheSelfTestReportsItsFailures := by
  intro failures first s on runs quiet
  refine ⟨fun passes => ?_, fun fails => ?_⟩
  · subst passes
    obtain ⟨ents, unready, fatal⟩ := s.testPassed_frame first
    simp only [State.unready, Prod.mk.injEq] at unready
    obtain ⟨-, -, cores, -, -, -, -, -, -, mem, -⟩ := unready
    refine ⟨_, execNvpSelftestDone_passes on runs, ?_, ?_, ?_, mem, cores, fatal, State.testPassed_ready⟩
    · rw [ents _ (by decide) (by decide), State.testEntries_state, if_pos rfl]
    · rw [ents _ (by decide) (by decide), State.testEntries_failures, Nat.zero_min]
    · rw [ents _ (by decide) (by decide), State.testEntries_firstFailure, if_pos rfl]
  · let u := s.testEntries failures first
    have latched : (u.raise testFault).latchAll = u.latch testFault := State.latchAll_raise quiet (State.latch_testFault_quiet quiet)
    obtain ⟨ents, cores⟩ := u.latch_testFault_frame
    obtain ⟨off6, off7⟩ : (u.latch testFault).isReady 6 = false ∧ (u.latch testFault).isReady 7 = false := by
      rw [State.latch_testFault]
      exact State.isReady_failTest _
    refine ⟨_, execNvpSelftestDone_fails on runs fails, ?_⟩
    have seq := u.raise_latchAll_seq_lt testFault
    have ram : (u.raise testFault).latchAll.mem.ram = s.mem.ram := State.latchAll_ram _ rfl
    rw [latched] at seq ram ⊢
    refine ⟨?_, ?_, ?_, off6, off7, seq, ram, cores⟩
    · rw [ents _ (by decide) (by decide), State.testEntries_state, if_neg fails]
    · rw [ents _ (by decide) (by decide), State.testEntries_failures]
    · rw [ents _ (by decide) (by decide), State.testEntries_firstFailure, if_neg fails]

/-- Settles O19: ALIVE and the firmware by their meanings, the reload by what storing a record moves, the self-test by what latching its
fault or setting the compute bits leaves. -/
theorem startupWorkReportsItsEnd : Obligations.StartupWorkReportsItsEnd :=
  ⟨aliveInvertsUntilItStops, reloadReleasesHeldRecords, firmwareOfAGoodBankStarts, theSelfTestReportsItsFailures⟩

end Sys2Proof.Machine

/-! PROOFS. Brine's lanes (R384 to R389): what sending, rerouting and a frame's header do to them, and what they leave beside them. -/

namespace Sys2Proof.Machine

variable {s t u : State}

/-! ### Beside the lanes -/

/-- The parts of the state that hold neither a lane nor a counter of Brine. -/
abbrev State.offLane (s : State) := (s.unsent, s.dict.pend, { s.links with lanes := [] })

theorem State.classWait_offLane (s : State) (i cls : Nat) : (s.classWait i cls).offLane = s.offLane := by
  unfold State.classWait
  split <;> rfl

theorem State.sendOn_offLane (s : State) (i : Nat) (f : TxFrame) : (s.sendOn i f).offLane = s.offLane := by
  unfold State.sendOn
  split
  · rfl
  · have waited := s.classWait_offLane i (brineClass f.kind)
    generalize s.classWait i (brineClass f.kind) = u at waited
    exact waited

theorem State.sendFrame_offLane (s : State) (f : TxFrame) : (s.sendFrame f).offLane = s.offLane := by
  unfold State.sendFrame
  split
  · rfl
  · exact s.sendOn_offLane _ f

theorem State.sendGroup_offLane (s : State) (kind g : Nat) (l : List Byte) : (s.sendGroup kind g l).offLane = s.offLane :=
  foldl_same (π := State.offLane) (fun u _ => u.sendFrame_offLane _) _ s

/-! ### A frame is handed to a lane -/

/-- A lane that has been handed a frame: one of an acknowledged kind takes a number and waits for its acknowledgement (R387). -/
def LaneSt.sends (l : LaneSt) (f : TxFrame) : LaneSt :=
  let p := Kv.getD l.psn f.dst 0
  { l with
    psn := if reliableKind f.kind then Kv.setD l.psn f.dst 0 ((p + 1) % 2 ^ 24) else l.psn,
    unacked := if reliableKind f.kind then l.unacked ++ [{ f with psn := p }] else l.unacked,
    rxDue := Kv.del l.rxDue f.dst,
    lastTx := some { f with psn := p } }

theorem State.lane_classWait (s : State) (i cls j : Nat) : (s.classWait i cls).lane j = s.lane j := by
  unfold State.classWait
  split <;> rfl

theorem State.sendOn_of_noNode (i : Nat) (f : TxFrame) (h : s.node = 0xFFFF) : s.sendOn i f = s := if_pos h

theorem State.lane_sendOn_self (i : Nat) (f : TxFrame) (h : s.node ≠ 0xFFFF) : (s.sendOn i f).lane i = (s.lane i).sends f := by
  rw [State.sendOn, if_neg h, ← s.lane_classWait i (brineClass f.kind) i]
  exact State.lane_setLane _ _ _

theorem State.lane_sendOn_ne (s : State) {i j : Nat} (f : TxFrame) (h : j ≠ i) : (s.sendOn i f).lane j = s.lane j := by
  unfold State.sendOn
  split
  · rfl
  · exact (State.lane_setLane_ne _ _ h).trans (s.lane_classWait i _ j)

/-- What a lane expects of its far ends does not change with what it sends. -/
theorem State.rxNext_sendOn (s : State) (i j : Nat) (f : TxFrame) : ((s.sendOn i f).lane j).rxNext = (s.lane j).rxNext := by
  by_cases hj : j = i
  · subst hj
    by_cases hn : s.node = 0xFFFF
    · rw [State.sendOn_of_noNode j f hn]
    · rw [State.lane_sendOn_self j f hn]
      rfl
  · rw [s.lane_sendOn_ne f hj]

theorem State.rxNext_sendFrame (s : State) (f : TxFrame) (j : Nat) : ((s.sendFrame f).lane j).rxNext = (s.lane j).rxNext := by
  unfold State.sendFrame
  split
  · rfl
  · exact s.rxNext_sendOn _ j f

/-! ### The path to a node -/

/-- The far end has shown a lane in use (R388). -/
def State.pathOpen (s : State) (node i : Nat) : Bool := (Kv.getD s.links.farMask (65536 * (i / 4) + node) 15).testBit (i % 4)

/-- No frame toward a node waits on a lane. -/
def State.Clear (s : State) (node i : Nat) : Prop := ∀ f ∈ (s.lane i).unacked, f.dst ≠ node

/-- A frame is handed to a lane that is in use at both ends (R386, R388). -/
theorem State.laneTo_of_pickLane {dst i : Nat} (h : s.pickLane dst = some i) : s.laneTo dst i = true := by
  have picked : ∀ j, s.pickLane dst = some j → j ∈ (List.range 32).filter (s.laneTo dst) := by
    unfold State.pickLane
    refine List.foldlRecOn (motive := fun best : Option Nat => ∀ j, best = some j → j ∈ (List.range 32).filter (s.laneTo dst)) _ _
      (fun _ e => nomatch e) fun best ih i hi j e => ?_
    split at e
    · exact Option.some.inj e ▸ hi
    · split at e
      · exact Option.some.inj e ▸ hi
      · exact Option.some.inj e ▸ ih _ rfl
  exact (List.mem_filter.1 (picked i h)).2

theorem State.pathOpen_of_offLane {node i : Nat} (h : t.offLane = s.offLane) : t.pathOpen node i = s.pathOpen node i := by
  have far : t.links.farMask = s.links.farMask := congrArg (fun x => x.2.2.farMask) h
  rw [State.pathOpen, far, State.pathOpen]

theorem LaneSt.mem_unacked_sends {l : LaneSt} {f x : TxFrame} (h : x ∈ (l.sends f).unacked) : x ∈ l.unacked ∨ x.dst = f.dst := by
  unfold LaneSt.sends at h
  dsimp only at h
  split at h
  · rcases List.mem_append.1 h with old | new
    · exact .inl old
    · rw [List.mem_singleton.1 new]
      exact .inr rfl
  · exact .inl h

/-- A lane that the far end has shown out of use takes no frame toward it. -/
theorem State.Clear.sendFrame {node i : Nat} (closed : s.pathOpen node i = false) (h : s.Clear node i) (f : TxFrame) :
    (s.sendFrame f).Clear node i := by
  unfold State.sendFrame
  split
  · exact h
  next j picked =>
    by_cases hi : i = j
    · subst hi
      by_cases hn : s.node = 0xFFFF
      · rwa [State.sendOn_of_noNode i f hn]
      · intro x hx e
        rw [State.lane_sendOn_self i f hn] at hx
        refine (LaneSt.mem_unacked_sends hx).elim (fun old => h x old e) fun new => ?_
        have inUse := State.laneTo_of_pickLane picked
        rw [← new, e, State.laneTo, Bool.and_eq_true] at inUse
        exact absurd closed (by rw [State.pathOpen, inUse.2]; decide)
    · unfold State.Clear
      rw [s.lane_sendOn_ne f hi]
      exact h

/-! ### A path is rerouted -/

/-- A lane that loses its frames toward a node, whose numbers there start again (R388). -/
def LaneSt.without (l : LaneSt) (node : Nat) : LaneSt :=
  { l with unacked := l.unacked.filter fun f => f.dst != node, psn := Kv.del l.psn node, rxNext := Kv.del l.rxNext node,
           rxDue := Kv.del l.rxDue node }

/-- What holds once a path's frames have left their lane, and stands as each of them goes out and is counted, holds once the path is
rerouted. -/
theorem State.reroutePath_rec {P : State → Prop} {node i : Nat} (start : P (s.setLane i ((s.lane i).without node)))
    (send : ∀ u f, P u → P (u.sendFrame f)) (count : ∀ (u : State) p n, P u → P (u.bump 64 (Ent.brineResends p) n)) :
    P (s.reroutePath node i) := by
  unfold State.reroutePath
  dsimp only
  split
  · exact start
  · exact count _ _ _ (List.foldlRecOn _ _ start fun u h f _ => send u f h)

theorem State.reroutePath_offLane (s : State) (node i : Nat) : (s.reroutePath node i).offLane = s.offLane :=
  State.reroutePath_rec (P := fun u => u.offLane = s.offLane) rfl (fun u f h => (u.sendFrame_offLane f).trans h) fun _ _ _ h => h

theorem State.ent_reroutePath (s : State) (node i : Nat) {k : Nat} (hk : k < Ent.brineResends 0) :
    (s.reroutePath node i).ent k = s.ent k :=
  State.reroutePath_rec (P := fun u => u.ent k = s.ent k) rfl (fun u f h => (u.ent_sendFrame f hk).trans h) fun u p n h =>
    (u.ent_bump_ne 64 n (by unfold Ent.brineResends at *; omega)).trans h

theorem State.rxNext_reroutePath (s : State) (node : Nat) {i j : Nat} (h : j ≠ i) :
    ((s.reroutePath node i).lane j).rxNext = (s.lane j).rxNext :=
  State.reroutePath_rec (P := fun u => (u.lane j).rxNext = (s.lane j).rxNext) (congrArg LaneSt.rxNext (s.lane_setLane_ne _ h))
    (fun u f e => (u.rxNext_sendFrame f j).trans e) fun _ _ _ e => e

/-- With the far end's lane out of use, frames that go out on other lanes leave it clear. -/
theorem State.Clear.reroutePath {node i j : Nat} (closed : s.pathOpen node i = false)
    (start : (s.setLane j ((s.lane j).without node)).Clear node i) : (s.reroutePath node j).Clear node i :=
  have both : (s.reroutePath node j).pathOpen node i = false ∧ (s.reroutePath node j).Clear node i :=
    State.reroutePath_rec (P := fun u => u.pathOpen node i = false ∧ u.Clear node i) ⟨closed, start⟩
      (fun u f h => ⟨(State.pathOpen_of_offLane (u.sendFrame_offLane f)).trans h.1, h.2.sendFrame h.1 f⟩) fun _ _ _ h => h
  both.2

/-- The lane whose path is rerouted. -/
theorem State.reroutePath_clear_self {node i : Nat} (closed : s.pathOpen node i = false) : (s.reroutePath node i).Clear node i := by
  refine State.Clear.reroutePath closed fun f hf => ?_
  rw [State.lane_setLane] at hf
  simpa using (List.mem_filter.1 hf).2

/-- Another lane that is clear. -/
theorem State.Clear.reroutePath_keeps {node i : Nat} (closed : s.pathOpen node i = false) (h : s.Clear node i) (j : Nat) :
    (s.reroutePath node j).Clear node i := by
  by_cases e : i = j
  · subst e
    exact State.reroutePath_clear_self closed
  · refine State.Clear.reroutePath closed ?_
    unfold State.Clear
    rw [s.lane_setLane_ne _ e]
    exact h

/-! ### What a frame's header tells -/

/-- Lanes of the port, other than the frame's own, that have gone out of use at the far end since its last frame (R388). -/
def State.goneLanes (s : State) (h : BrineHdr) : List Nat :=
  (List.range 4).filter fun l => l != h.lane.val && (Kv.getD s.links.farMask (65536 * h.port.val + h.src) 15).testBit l
    && !h.liveMask.val.testBit l

/-- The far end's live lanes are known. -/
def State.maskKnown (s : State) (h : BrineHdr) : State :=
  { s with links.farMask := Kv.put s.links.farMask (65536 * h.port.val + h.src) h.liveMask.val }

theorem State.takeMask_eq (s : State) (h : BrineHdr) :
    s.takeMask h = (s.goneLanes h).foldl (fun s l => s.reroutePath h.src (4 * h.port.val + l)) (s.maskKnown h) := rfl

theorem State.mem_goneLanes {h : BrineHdr} {l : Nat} : l ∈ s.goneLanes h ↔ l < 4 ∧ l ≠ h.lane.val ∧
    (Kv.getD s.links.farMask (65536 * h.port.val + h.src) 15).testBit l = true ∧ h.liveMask.val.testBit l = false := by
  simp [State.goneLanes, and_assoc]

theorem State.takeMask_of_lanesStay {h : BrineHdr} (stay : LanesStay h s) : s.takeMask h = s.maskKnown h := by
  have stays : s.goneLanes h = [] := List.eq_nil_iff_forall_not_mem.2 fun l hl => by
    obtain ⟨lt, other, was, gone⟩ := State.mem_goneLanes.1 hl
    exact absurd (stay l lt other was) (by rw [gone]; decide)
  rw [State.takeMask_eq, stays, List.foldl_nil]

theorem State.takeMask_offLane (s : State) (h : BrineHdr) : (s.takeMask h).offLane = (s.maskKnown h).offLane :=
  foldl_same (π := State.offLane) (fun u _ => u.reroutePath_offLane _ _) _ _

theorem State.ent_takeMask (s : State) (h : BrineHdr) {k : Nat} (hk : k < Ent.brineResends 0) : (s.takeMask h).ent k = s.ent k :=
  foldl_same (π := (·.ent k)) (fun u _ => u.ent_reroutePath _ _ hk) _ (s.maskKnown h)

/-- The lane of the frame itself keeps what it expects. -/
theorem State.rxNext_takeMask (s : State) (h : BrineHdr) : ((s.takeMask h).lane (laneIx h)).rxNext = (s.lane (laneIx h)).rxNext := by
  refine List.foldlRecOn (motive := fun u : State => (u.lane (laneIx h)).rxNext = (s.lane (laneIx h)).rxNext) (s.goneLanes h) _ rfl
    fun u e l hl => ?_
  obtain ⟨-, other, -⟩ := State.mem_goneLanes.1 hl
  exact (u.rxNext_reroutePath _ (by unfold laneIx; omega)).trans e

/-- A lane that has gone at the far end is cleared (R388). -/
theorem State.takeMask_clear {h : BrineHdr} {l : Nat} (gone : l ∈ s.goneLanes h) : (s.takeMask h).Clear h.src (4 * h.port.val + l) := by
  obtain ⟨lt, -, -, out⟩ := State.mem_goneLanes.1 gone
  have closed : (s.maskKnown h).pathOpen h.src (4 * h.port.val + l) = false := by
    rw [State.pathOpen, show (4 * h.port.val + l) / 4 = h.port.val by omega, show (4 * h.port.val + l) % 4 = l by omega,
      State.maskKnown, Kv.getD_put_self, out]
  have known (u : State) (i : Nat) (c : u.pathOpen h.src (4 * h.port.val + l) = false) :
      (u.reroutePath h.src i).pathOpen h.src (4 * h.port.val + l) = false :=
    (State.pathOpen_of_offLane (u.reroutePath_offLane _ _)).trans c
  have both := foldl_reaches (P := fun u : State => u.pathOpen h.src (4 * h.port.val + l) = false)
    (Q := fun u : State => u.pathOpen h.src (4 * h.port.val + l) = false ∧ u.Clear h.src (4 * h.port.val + l))
    (f := fun u l => u.reroutePath h.src (4 * h.port.val + l)) gone closed (fun u i c => known u _ c)
    (fun u c => ⟨known u _ c, State.reroutePath_clear_self c⟩) fun u i c => ⟨known u _ c.1, c.2.reroutePath_keeps c.1 _⟩
  exact both.2

/-- A lane without the frames that a header acknowledges (R387). -/
def LaneSt.acked (l : LaneSt) (h : BrineHdr) : LaneSt :=
  { l with unacked := l.unacked.filter fun f => f.dst != h.src || !psnLe f.psn h.ack }

theorem State.lane_takeHeader_self (s : State) (h : BrineHdr) :
    (s.takeHeader h).lane (laneIx h) = ((s.takeMask h).lane (laneIx h)).acked h :=
  (s.takeMask h).lane_setLane _ _

theorem State.lane_takeHeader_ne (s : State) {h : BrineHdr} {i : Nat} (hi : i ≠ laneIx h) : (s.takeHeader h).lane i = (s.takeMask h).lane i :=
  (s.takeMask h).lane_setLane_ne _ hi

theorem State.lane_takeHeader_of_lanesStay {h : BrineHdr} (stay : LanesStay h s) :
    (s.takeHeader h).lane (laneIx h) = (s.lane (laneIx h)).acked h := by
  rw [s.lane_takeHeader_self, State.takeMask_of_lanesStay stay]
  rfl

theorem State.rxNext_takeHeader (s : State) (h : BrineHdr) : (s.takeHeader h).rxNext (laneIx h) h.src = s.rxNext (laneIx h) h.src := by
  have e : ((s.takeHeader h).lane (laneIx h)).rxNext = (s.lane (laneIx h)).rxNext := by
    rw [s.lane_takeHeader_self]
    exact s.rxNext_takeMask h
  rw [State.rxNext, e, State.rxNext]

/-! ### What a heard frame leaves -/

/-- `t` has what `s` has, but for its lanes, the far ends' masks, the mirrors waited for, the free values drawn and Brine's counters. -/
structure State.Heard (s t : State) : Prop where
  unsent : t.unsent = s.unsent
  pend : t.dict.pend = s.dict.pend
  groups : t.links.groups = s.links.groups
  collectives : t.links.collectives = s.links.collectives
  early : t.links.early = s.links.early
  ent : ∀ k < Ent.brineResends 0, t.ent k = s.ent k

theorem State.Heard.trans (h : s.Heard u) (k : u.Heard t) : s.Heard t :=
  ⟨k.unsent.trans h.unsent, k.pend.trans h.pend, k.groups.trans h.groups, k.collectives.trans h.collectives, k.early.trans h.early,
    fun j hj => (k.ent j hj).trans (h.ent j hj)⟩

theorem State.Heard.of_offLane (h : t.offLane = s.offLane) (ent : ∀ k < Ent.brineResends 0, t.ent k = s.ent k) : s.Heard t :=
  ⟨congrArg (·.1) h, congrArg (·.2.1) h, congrArg (·.2.2.groups) h, congrArg (·.2.2.collectives) h, congrArg (·.2.2.early) h, ent⟩

theorem State.takeMask_heard (s : State) (h : BrineHdr) : s.Heard (s.takeMask h) :=
  have known : s.Heard (s.maskKnown h) := ⟨rfl, rfl, rfl, rfl, rfl, fun _ _ => rfl⟩
  known.trans (.of_offLane (s.takeMask_offLane h) fun _ hk => s.ent_takeMask h hk)

theorem State.takeHeader_heard (s : State) (h : BrineHdr) : s.Heard (s.takeHeader h) := by
  refine (s.takeMask_heard h).trans ?_
  unfold State.takeHeader State.takeAck State.settleMirrors
  generalize s.takeMask h = u
  exact ⟨rfl, rfl, rfl, rfl, rfl, fun k hk => State.ent_bump_ne _ _ _ (by unfold Ent.brineResends Ent.brineRxBytes at *; omega)⟩

theorem State.noteFrame_heard (s : State) (h : BrineHdr) : s.Heard (s.noteFrame h) := by
  unfold State.noteFrame
  extract_lets i l due s1
  have noted : s.Heard s1 := ⟨rfl, rfl, rfl, rfl, rfl, fun _ _ => rfl⟩
  split
  · exact noted.trans (.of_offLane (State.sendOn_offLane _ _ _) fun k hk => State.ent_sendOn _ _ _ hk)
  · exact noted

theorem State.Heard.mem (h : s.Heard t) : t.mem = s.mem := by
  obtain ⟨-, -, -, mem, -⟩ := parts_of_unsent h.unsent
  exact mem

theorem State.Heard.flt (h : s.Heard t) : t.flt = s.flt := by
  obtain ⟨-, -, -, -, flt⟩ := parts_of_unsent h.unsent
  exact flt

theorem State.Heard.train (h : s.Heard t) : t.train = s.train := by
  obtain ⟨-, -, train, -⟩ := parts_of_unsent h.unsent
  exact train

theorem State.Heard.prog (h : s.Heard t) : t.prog = s.prog := by
  obtain ⟨-, prog, -⟩ := parts_of_unsent h.unsent
  exact prog

theorem State.Heard.phase (h : s.Heard t) : t.phase = s.phase := h.ent _ (by decide)
theorem State.Heard.running (h : s.Heard t) : t.running = s.running := by rw [State.running, h.phase, State.running]
theorem State.Heard.group (h : s.Heard t) (g : Nat) : t.group g = s.group g := by rw [State.group, h.groups, State.group]
theorem State.Heard.coll? (h : s.Heard t) (g q : Nat) : t.coll? g q = s.coll? g q := by rw [State.coll?, h.collectives, State.coll?]

theorem State.Heard.collDone (h : s.Heard t) (g q : Nat) : t.collDone g q = s.collDone g q := by
  simp only [State.collDone, State.collBlock, State.collSeq, State.descAt, State.ramRead, State.ramByte, h.prog, h.mem]

/-! ### Acknowledgements and lane states -/

theorem State.receiveFree_of_hears {h : BrineHdr} (heard : s.hears h = true) (quiet : s.Quiet) {f : State → State}
    (kept : (f (s.takeHeader h)).flt = (s.takeHeader h).flt) : s.receiveFree h f = f (s.takeHeader h) :=
  (if_pos heard).trans (State.latchAll_of_lines (by rw [kept]; exact s.takeHeader_quiet h quiet))

/-- R387: an acknowledgement takes the frames up to its number off the lane. -/
theorem execBrineAckRx_settles {h : BrineHdr} (heard : s.hears h = true) (quiet : s.Quiet) :
    ∃ t, exec (.brineAckRx h) s = .next t ∧ (∀ f ∈ (t.lane (laneIx h)).unacked, f.dst = h.src → psnLe f.psn h.ack = false) ∧
      (LanesStay h s → (t.lane (laneIx h)).unacked =
        ((s.lane (laneIx h)).unacked.filter fun f => f.dst != h.src || !psnLe f.psn h.ack)) ∧ t.mem = s.mem ∧ t.flt = s.flt := by
  have kept := s.takeHeader_heard h
  refine ⟨_, congrArg Host.Outcome.next (State.receiveFree_of_hears (f := id) heard quiet rfl), fun f hf src => ?_, fun stay => ?_, kept.mem,
    kept.flt⟩
  · rw [id, s.lane_takeHeader_self] at hf
    simpa [src] using (List.mem_filter.1 hf).2
  · rw [id, State.lane_takeHeader_of_lanesStay stay]
    rfl

/-- R388: a lane state gives the far end's live lanes, and no frame to that node stays on a lane that has gone there. -/
theorem execLaneStateRx_settles {h : BrineHdr} (heard : s.hears h = true) (quiet : s.Quiet) :
    ∃ t, exec (.laneStateRx h) s = .next t ∧ Kv.find? t.links.farMask (65536 * h.port.val + h.src) = some h.liveMask.val ∧
      (∀ l < 4, l ≠ h.lane.val → (Kv.getD s.links.farMask (65536 * h.port.val + h.src) 15).testBit l = true →
        h.liveMask.val.testBit l = false → ∀ f ∈ (t.lane (4 * h.port.val + l)).unacked, f.dst ≠ h.src) ∧
      t.mem = s.mem ∧ t.flt = s.flt := by
  have kept := s.takeHeader_heard h
  refine ⟨_, congrArg Host.Outcome.next (State.receiveFree_of_hears (f := id) heard quiet rfl), ?_, fun l lt other was out => ?_, kept.mem,
    kept.flt⟩
  · have far : (s.takeMask h).links.farMask = (s.maskKnown h).links.farMask := congrArg (·.2.2.farMask) (s.takeMask_offLane h)
    show Kv.find? (s.takeMask h).links.farMask _ = _
    rw [far]
    exact Kv.find?_put_self _ _ _
  · rw [id, s.lane_takeHeader_ne (by unfold laneIx; omega)]
    exact State.takeMask_clear (State.mem_goneLanes.2 ⟨lt, other, was, out⟩)

/-! ### Resends and acknowledgement timers -/

theorem State.resend_of_noNode (i : Nat) (p : TxFrame → Bool) (h : s.node = 0xFFFF) : s.resend i p = s := by
  simp [State.resend, h]

/-- A resend hands the lane its frames again, the last of them last, and counts each (R387, R397). -/
theorem State.resend_of_last {i : Nat} {p : TxFrame → Bool} {f : TxFrame} (node : s.node ≠ 0xFFFF)
    (last : ((s.lane i).unacked.filter p).getLast? = some f) :
    (s.resend i p).lane i = { s.lane i with lastTx := some f } ∧
      (s.resend i p).ent (Ent.brineResends (i / 4)) = satAdd 64 (s.ent (Ent.brineResends (i / 4))) ((s.lane i).unacked.filter p).length ∧
      (s.resend i p).mem = s.mem ∧ (s.resend i p).flt = s.flt := by
  have sent : s.resend i p = (s.setLane i { s.lane i with lastTx := some f }).bump 64 (Ent.brineResends (i / 4))
      ((s.lane i).unacked.filter p).length := by simp [State.resend, node, last]
  rw [sent]
  exact ⟨State.lane_setLane _ _ _, State.ent_bump _ _ _ _, rfl, rfl⟩

/-- R387: a negative acknowledgement has the frames from its number on sent again. -/
theorem execBrineNackRx_resends {h : BrineHdr} (heard : s.hears h = true) (quiet : s.Quiet) {again : List TxFrame} (stay : LanesStay h s)
    (named : again = (((s.lane (laneIx h)).unacked.filter fun f => f.dst != h.src || !psnLe f.psn h.ack).filter fun f =>
      f.dst == h.src && psnLe (leNat (h.payload.take 4)) f.psn)) (nonempty : again ≠ []) :
    ∃ t, exec (.brineNackRx h) s = .next t ∧ (t.lane (laneIx h)).lastTx = again.getLast? ∧
      t.ent (Ent.brineResends h.port) = satAdd 64 (s.ent (Ent.brineResends h.port)) again.length ∧ t.mem = s.mem ∧ t.flt = s.flt := by
  have kept := s.takeHeader_heard h
  have lane := State.lane_takeHeader_of_lanesStay stay
  have node : (s.takeHeader h).node ≠ 0xFFFF := by
    simp only [State.hears, Bool.and_eq_true, bne_iff_ne] at heard
    obtain ⟨⟨⟨⟨-, node⟩, -⟩, -⟩, -⟩ := heard
    have same : (s.takeHeader h).node = s.node := kept.ent Ent.brineNode (by decide)
    rw [same]
    exact node
  obtain ⟨f, last⟩ : ∃ f, again.getLast? = some f := ⟨_, List.getLast?_eq_some_getLast nonempty⟩
  have frames : (((s.takeHeader h).lane (laneIx h)).unacked.filter fun f =>
      f.dst == h.src && psnLe (leNat (h.payload.take 4)) f.psn) = again := by rw [lane, named]; rfl
  obtain ⟨sent, counted, mem, flt⟩ := State.resend_of_last node (by rw [frames, last])
  have port : laneIx h / 4 = h.port.val := by unfold laneIx; omega
  have count : (s.takeHeader h).ent (Ent.brineResends h.port) = s.ent (Ent.brineResends h.port) := by
    rw [State.takeHeader, State.takeMask_of_lanesStay stay]
    exact State.ent_bump_ne _ _ _ (by unfold Ent.brineResends Ent.brineRxBytes; omega)
  refine ⟨_, congrArg Host.Outcome.next (State.receiveFree_of_hears heard quiet flt), ?_, ?_, mem.trans kept.mem, flt.trans kept.flt⟩
  · rw [sent, last]
  · rw [port, count, frames] at counted
    exact counted

/-- R387: frames not acknowledged in time are sent again, all that wait toward the node. -/
theorem execBrineRetxTimeout_resends {p : PortId} {l : LaneId} {dst : Nat} {f : TxFrame} (on : s.pwr.on = true)
    (up : s.laneUp (4 * p + l) = true) (node : s.node ≠ 0xFFFF)
    (last : ((s.lane (4 * p + l)).unacked.filter fun f => f.dst == dst).getLast? = some f) :
    ∃ t, exec (.brineRetxTimeout p l dst) s = .next t ∧ (t.lane (4 * p + l)).lastTx = some f ∧
      (t.lane (4 * p + l)).unacked = (s.lane (4 * p + l)).unacked ∧ t.ent (Ent.brineResends p) =
        satAdd 64 (s.ent (Ent.brineResends p)) ((s.lane (4 * p + l)).unacked.filter fun f => f.dst == dst).length ∧ t.mem = s.mem := by
  obtain ⟨sent, counted, mem, -⟩ := State.resend_of_last node last
  rw [show (4 * p.val + l.val) / 4 = p.val by omega] at counted
  exact ⟨_, congrArg Host.Outcome.next (if_pos ⟨on, up⟩), by rw [sent], by rw [sent], counted, mem⟩

/-- R387: a standalone acknowledgement goes out once a frame waits for one. -/
theorem execBrineAckTimer_acknowledges {p : PortId} {l : LaneId} {dst : Nat} (on : s.pwr.on = true) (up : s.laneUp (4 * p + l) = true)
    (node : s.node ≠ 0xFFFF) (due : 0 < Kv.getD (s.lane (4 * p + l)).rxDue dst 0) :
    ∃ t f, exec (.brineAckTimer p l dst) s = .next t ∧ (t.lane (4 * p + l)).lastTx = some f ∧ f.kind = 2 ∧ f.dst = dst ∧
      Kv.getD (t.lane (4 * p + l)).rxDue dst 0 = 0 ∧ (t.lane (4 * p + l)).unacked = (s.lane (4 * p + l)).unacked ∧ t.mem = s.mem := by
  have lane : (s.sendAck (4 * p + l) dst).lane (4 * p + l) = (s.lane (4 * p + l)).sends { dst := dst, kind := 2 } :=
    State.lane_sendOn_self _ _ node
  obtain ⟨-, -, -, mem, -⟩ := parts_of_unsent (s.sendOn_unsent (4 * p + l) { dst := dst, kind := 2 })
  refine ⟨_, { dst := dst, kind := 2, psn := Kv.getD (s.lane (4 * p + l)).psn dst 0 }, congrArg Host.Outcome.next (if_pos ⟨on, up, due⟩),
    by rw [lane]; rfl, rfl, rfl, ?_, by rw [lane]; rfl, mem⟩
  rw [lane]
  show Kv.getD (Kv.del _ dst) dst 0 = 0
  rw [Kv.getD, Kv.find?_del_self]
  rfl

theorem acknowledgementsSettleTheLane : AcknowledgementsSettleTheLane := by
  refine ⟨fun h s heard quiet => ⟨execBrineAckRx_settles heard quiet, execLaneStateRx_settles heard quiet, fun again stay named nonempty =>
    execBrineNackRx_resends heard quiet stay named nonempty⟩, fun p l dst s on up => ⟨fun noNode => ⟨?_, ?_⟩, fun node =>
    ⟨fun f last => execBrineRetxTimeout_resends on up node last, execBrineAckTimer_acknowledges on up node⟩⟩⟩
  · exact congrArg Host.Outcome.next ((if_pos ⟨on, up⟩).trans (State.resend_of_noNode _ _ noNode))
  · exact congrArg Host.Outcome.next (ite_eq_right_iff.2 fun _ => State.sendOn_of_noNode _ _ noNode)

end Sys2Proof.Machine

/-! PROOFS. A step ended without outcome (R221, R304): what its end writes to train.phase and train.last_outcome. -/

namespace Sys2Proof.Machine

variable {s t u : State}

/-! ### What is pending at the step's end -/

/-- A mode that comes into force writes power entries, and counts where a record finds no room. -/
theorem State.ent_applyMode (s : State) (mode : Nat) {k : Nat} (lo : Ent.powerPeakAccountMaxJ < k) (hi : k < Ent.evDropped 0) :
    (s.applyMode mode).ent k = s.ent k := by
  have power (u : State) (j v : Nat) (hj : j ≤ Ent.powerPeakAccountMaxJ) : (u.setEnt j v).ent k = u.ent k := u.ent_setEnt_ne v (by omega)
  have account (u : State) : u.syncAccount.ent k = u.ent k := (power _ _ _ (by decide)).trans (power _ _ _ (by decide))
  unfold State.applyMode
  dsimp only
  split
  · rw [State.condition, State.ent_record _ _ (by unfold Ent.evDropped at *; omega), account, power _ _ _ (by decide)]
    rfl
  · rw [account, power _ _ _ (by decide)]
    rfl

/-- With no dictionary write pending, phase 0 begins with train.phase, and with Spring where it has waited (R410). -/
theorem State.ent_phaseZero (settled : s.dict.pend = []) {k : Nat} (lo : Ent.powerPeakAccountMaxJ < k) (hi : k < Ent.evDropped 0) :
    s.phaseZero.ent k = (s.setPhase 0).ent k := by
  have spring (u : State) : u.springBoundary.ent k = u.ent k := by
    unfold State.springBoundary
    split
    · exact u.ent_applyMode 2 lo hi
    · rfl
  obtain ⟨c, e⟩ := (s.setPhase 0).applyPending.raiseVector_eq 2
  have pending : (s.setPhase 0).applyPending = { s.setPhase 0 with dict.pend := [] }.springBoundary := by
    rw [State.applyPending, show (s.setPhase 0).dict.pend = [] from settled, List.foldl_nil]
  rw [State.phaseZero, e, pending]
  exact spring _

/-! ### No outcome -/

/-- A step that runs, or that awaits its outcome, and that is no replay ends with outcome 4, and phase 0 begins (R221). -/
theorem State.noOutcome_ends (runs : s.phase ≠ 0) (undone : s.phase ≠ 4) (own : s.train.replaying = false) (settled : s.dict.pend = []) :
    s.noOutcome.phase = 0 ∧ s.noOutcome.ent Ent.trainLastOutcome = 4 := by
  rw [State.noOutcome, if_neg (by simp [runs, undone]), own, if_neg Bool.false_ne_true]
  generalize ended : (((s.setEnt Ent.trainHalted 1).setEnt Ent.trainLastOutcome 4).settleEnergy false).restoreMarks.clearStep = e
  have pend : e.dict.pend = [] := ended ▸ settled
  have outcome : e.ent Ent.trainLastOutcome = 4 := ended ▸ State.ent_setEnt _ _ _
  refine ⟨?_, ?_⟩
  · rw [State.phase, State.ent_phaseZero pend (by decide) (by decide)]
    exact State.ent_setEnt _ _ _
  · rw [State.ent_phaseZero pend (by decide) (by decide)]
    exact (State.ent_setEnt_ne _ _ (by decide)).trans outcome

/-- A step that enters abandon holds phase 2; the notices that go out touch neither memory, faults nor what waits for its collective
(R219). -/
theorem State.enterAbandon_enters (one : s.phase = 1) :
    (s.enterAbandon false).phase = 2 ∧ (s.enterAbandon false).train.abandoned = true ∧ (s.enterAbandon false).mem = s.mem ∧
      (s.enterAbandon false).flt = s.flt ∧ (s.enterAbandon false).links.early = s.links.early := by
  rw [State.enterAbandon, if_pos one]
  extract_lets _ s1 g
  rw [if_neg Bool.false_ne_true]
  have sent := s1.sendGroup_offLane 6 g []
  have entered : (s1.sendGroup 6 g []).ent Ent.trainPhase = 2 := by
    rw [s1.ent_sendGroup 6 g [] (by decide)]
    exact (State.ent_bump_ne _ _ _ (by decide)).trans (State.ent_setEnt _ _ _)
  obtain ⟨-, -, train, mem, flt⟩ := parts_of_unsent (congrArg (·.1) sent)
  exact ⟨(State.ent_bump_ne _ _ _ (by decide)).trans entered, congrArg Train.abandoned train, mem, flt, congrArg (·.2.2.early) sent⟩

end Sys2Proof.Machine

/-! PROOFS. Contributions that come before their collective (R166, R220, R304, R394). -/

namespace Sys2Proof.Machine

variable {s u : State} {h : BrineHdr}

/-- A contribution in order is taken once its frame has been heard and counted. -/
theorem execCollectiveDataRx_inOrder (order : InOrder h s) : ∃ u, s.Heard u ∧ u.Quiet ∧
    exec (.collectiveDataRx h) s = .next (u.takeContribution h).latchAll := by
  obtain ⟨heard, next, quiet⟩ := order
  have kept : s.Heard ((s.takeHeader h).noteFrame h) := (s.takeHeader_heard h).trans (State.noteFrame_heard _ h)
  refine ⟨_, kept, by rw [State.Quiet, kept.flt, quiet], congrArg Host.Outcome.next ((if_pos heard).trans (if_pos ?_))⟩
  rw [s.rxNext_takeHeader h, next]

/-- A contribution that comes before its collective waits for it. -/
def State.withEarly (s : State) (h : BrineHdr) : State := { s with links.early := s.links.early ++ [h] }

/-- A member's contribution to the step that runs, whose collective has not started. -/
theorem State.takeContribution_early (valid : (s.group h.group.val).valid = true)
    (member : ((s.group h.group.val).members.take (s.group h.group.val).p).contains h.src = true)
    (epoch : h.epoch = (s.group h.group.val).epoch) (step : h.step = s.ent Ent.trainStepIndex % 65536) (one : s.phase = 1)
    (new : s.coll? h.group.val h.sequence = none) (unfinished : s.collDone h.group.val h.sequence = false) :
    s.takeContribution h = if h.hollow then (s.withEarly h).enterAbandon false else s.withEarly h := by
  have running : s.running = true := by simp [State.running, one]
  have joined := List.contains_iff_mem.1 member
  unfold State.takeContribution
  simp [valid, joined, epoch, step, one, new, unfinished, running, State.withEarly]

/-- A contribution of another epoch in a step that runs, or that awaits its outcome. -/
theorem State.takeContribution_wrongEpoch (valid : (s.group h.group.val).valid = true) (epoch : h.epoch ≠ (s.group h.group.val).epoch)
    (runs : s.running = true ∨ s.phase = 3) : s.takeContribution h = s.wrongEpoch h := by
  unfold State.takeContribution
  simp [valid, epoch, runs]

/-- A member's contribution outside them. -/
theorem State.takeContribution_between (valid : (s.group h.group.val).valid = true)
    (member : ((s.group h.group.val).members.take (s.group h.group.val).p).contains h.src = true)
    (phase : s.phase = 4 ∨ (s.phase = 0 ∧ s.coll? h.group.val h.sequence = none)) : s.takeContribution h = s.withEarly h := by
  have joined := List.contains_iff_mem.1 member
  unfold State.takeContribution
  rcases phase with four | ⟨zero, new⟩
  · have idle : s.running = false := by simp [State.running, four]
    simp [valid, joined, idle, four, State.withEarly]
  · have idle : s.running = false := by simp [State.running, zero]
    simp [valid, joined, idle, zero, new, State.withEarly]

/-- Latching a contribution of another epoch ends the step without outcome (R304, R320). -/
theorem State.latch_wrongEpoch (quiet : s.Quiet) (runs : s.running = true ∨ s.phase = 3) (own : s.train.replaying = false)
    (settled : s.dict.pend = []) :
    (s.wrongEpoch h).latchAll.phase = 0 ∧ (s.wrongEpoch h).latchAll.ent Ent.trainLastOutcome = 4 := by
  let r : FaultReport := { fault 0x14 .module 0 with addr := h.group.val + 256 * h.epoch, space := 4 }
  have latched : s.latch r = (s.latchIn r (s.judge r)).noOutcome := State.latch_severeClass (show severeClass 0x14 by decide) rfl
  have quiet' : (s.latch r).Quiet := by
    rw [latched]
    exact State.noOutcome_quiet _ (State.latchIn_quiet _ _ _ rfl quiet)
  obtain ⟨⟨_, _, _, _, _, _, e⟩, ents⟩ := s.latchIn_frame (r := r) rfl (s.judge r)
  have phase : (s.latchIn r (s.judge r)).phase = s.phase := ents _ (by decide)
  have live : s.phase ≠ 0 ∧ s.phase ≠ 4 := by
    simp only [State.running, Bool.or_eq_true, decide_eq_true_eq] at runs
    omega
  rw [State.wrongEpoch, State.latchAll_raise quiet quiet', latched]
  refine State.noOutcome_ends (by rw [phase]; exact live.1) (by rw [phase]; exact live.2) ?_ ?_
  · rw [e]
    exact own
  · rw [e]
    exact settled

/-- In a step that runs, a member's contribution waits, and a hollow one makes the module enter abandon (R166, R220, R394). -/
theorem execCollectiveDataRx_early (order : InOrder h s) (valid : (s.group h.group.val).valid = true)
    (member : ((s.group h.group.val).members.take (s.group h.group.val).p).contains h.src = true)
    (epoch : h.epoch = (s.group h.group.val).epoch) (step : h.step = s.ent Ent.trainStepIndex % 65536) (one : s.phase = 1)
    (new : s.coll? h.group.val h.sequence = none) (unfinished : s.collDone h.group.val h.sequence = false) :
    ∃ t, exec (.collectiveDataRx h) s = .next t ∧ t.links.early = s.links.early ++ [h] ∧ t.phase = (if h.hollow then 2 else 1) ∧
      t.train.abandoned = (h.hollow || s.train.abandoned) ∧ t.mem = s.mem ∧ t.flt = s.flt := by
  obtain ⟨u, kept, quiet, next⟩ := execCollectiveDataRx_inOrder order
  have waits := State.takeContribution_early (s := u) (h := h) (by rw [kept.group, valid]) (by rw [kept.group, member])
    (by rw [kept.group, epoch]) (by rw [kept.ent _ (by decide), step]) (kept.phase.trans one) ((kept.coll? _ _).trans new)
    ((kept.collDone _ _).trans unfinished)
  have early : (u.withEarly h).links.early = s.links.early ++ [h] := congrArg (· ++ [h]) kept.early
  have phase : (u.withEarly h).phase = 1 := kept.phase.trans one
  refine ⟨_, next, ?_⟩
  rw [waits]
  cases h.hollow with
  | false =>
    rw [if_neg Bool.false_ne_true, State.latchAll_of_lines (s := u.withEarly h) quiet]
    exact ⟨early, phase, congrArg Train.abandoned kept.train, kept.mem, kept.flt⟩
  | true =>
    obtain ⟨two, abandoned, mem, flt, same⟩ := State.enterAbandon_enters phase
    rw [if_pos rfl, State.latchAll_of_lines (by rw [flt]; exact quiet)]
    exact ⟨same.trans early, two, abandoned, mem.trans kept.mem, flt.trans kept.flt⟩

/-- R304: one of another epoch in a step that runs, or that awaits its outcome, ends the step. -/
theorem execCollectiveDataRx_wrongEpoch (order : InOrder h s) (valid : (s.group h.group.val).valid = true)
    (epoch : h.epoch ≠ (s.group h.group.val).epoch) (runs : s.running = true ∨ s.phase = 3) (own : s.train.replaying = false)
    (settled : s.dict.pend = []) :
    ∃ t, exec (.collectiveDataRx h) s = .next t ∧ t.phase = 0 ∧ t.ent Ent.trainLastOutcome = 4 ∧ s.flt.nextSeq < t.flt.nextSeq ∧
      t.mem.ram = s.mem.ram := by
  obtain ⟨u, kept, quiet, next⟩ := execCollectiveDataRx_inOrder order
  have runs' : u.running = true ∨ u.phase = 3 := by rwa [kept.running, kept.phase]
  rw [State.takeContribution_wrongEpoch (by rw [kept.group, valid]) (by rwa [kept.group]) runs'] at next
  obtain ⟨zero, outcome⟩ := State.latch_wrongEpoch (h := h) quiet runs' (by rw [kept.train, own]) (by rw [kept.pend, settled])
  refine ⟨_, next, zero, outcome, ?_, State.latchAll_ram _ (congrArg Memory.ram kept.mem)⟩
  rw [← kept.flt]
  exact u.raise_latchAll_seq_lt _

/-- Outside them it waits too. -/
theorem execCollectiveDataRx_between (order : InOrder h s) (valid : (s.group h.group.val).valid = true)
    (member : ((s.group h.group.val).members.take (s.group h.group.val).p).contains h.src = true)
    (phase : s.phase = 4 ∨ (s.phase = 0 ∧ s.coll? h.group.val h.sequence = none)) :
    ∃ t, exec (.collectiveDataRx h) s = .next t ∧ t.links.early = s.links.early ++ [h] ∧ t.phase = s.phase ∧ t.mem = s.mem ∧
      t.flt = s.flt := by
  obtain ⟨u, kept, quiet, next⟩ := execCollectiveDataRx_inOrder order
  have phase' : u.phase = 4 ∨ (u.phase = 0 ∧ u.coll? h.group.val h.sequence = none) := by rwa [kept.phase, kept.coll?]
  rw [State.takeContribution_between (by rw [kept.group, valid]) (by rw [kept.group, member]) phase',
    State.latchAll_of_lines (s := u.withEarly h) quiet] at next
  exact ⟨_, next, congrArg (· ++ [h]) kept.early, kept.phase, kept.mem, kept.flt⟩

theorem earlyContributionsWait : EarlyContributionsWait := by
  intro h s order valid
  exact ⟨execCollectiveDataRx_early order valid, execCollectiveDataRx_wrongEpoch order valid, fun member _ =>
    execCollectiveDataRx_between order valid member⟩

/-- Settles O45: acknowledgements, resends and lane states by what each does to its lane, contributions by the step's phase and epoch. -/
theorem lanesAndContributionsSettle : Obligations.LanesAndContributionsSettle := ⟨acknowledgementsSettleTheLane, earlyContributionsWait⟩

end Sys2Proof.Machine

/-! PROOFS. Program loads (R185 to R187): where a load's checks end, and what a fresh program starts from. -/

namespace Sys2Proof.Kv

variable {α : Type}

/-- A read gives a listed value or the default. -/
theorem getD_of_forall {P : α → Prop} {m : KV α} {d : α} (listed : ∀ e ∈ m, P e.2) (default : P d) (q : Nat) : P (getD m q d) := by
  unfold getD
  induction m with
  | nil => exact default
  | cons a t ih =>
    rw [find?]
    split
    · exact listed a (List.mem_cons_self ..)
    · exact ih fun e he => listed e (List.mem_cons_of_mem _ he)

end Sys2Proof.Kv

namespace Sys2Proof.Machine

variable {s : State} {a : Nat}

/-- The state in which a load's checks have ended. -/
def State.checked (s : State) : State := { s with prog.checking := none, prog.verdict := none }

theorem execProgLoadCheckDone_of_fails (checks : s.prog.checking = some a) {v : Nat × Nat}
    (fails : s.prog.verdict.or (s.loadFails a) = some v) :
    exec .progLoadCheckDone s = .next ((s.checked.setEnt Ent.progState 3).setEnt Ent.progErrorOffset v.2) := by
  show execProgLoadCheckDone s = _
  simp only [execProgLoadCheckDone, checks, fails, State.checked]

theorem execProgLoadCheckDone_of_passes (checks : s.prog.checking = some a) (passes : s.prog.verdict.or (s.loadFails a) = none) :
    exec .progLoadCheckDone s = .next (s.checked.acceptProgram a) := by
  show execProgLoadCheckDone s = _
  simp only [execProgLoadCheckDone, checks, passes, State.checked]

/-! ### A program that is accepted -/

/-- A record as a load leaves it has no history (R187). -/
theorem freshRecord_count (g : Program) (i : Nat) : (freshRecord g i).count = 0 := by
  unfold freshRecord
  split <;> rfl

/-- A run is fresh in every record (R187). -/
theorem State.freshRun_count (s : State) (g : Program) (i : Nat) : ((s.freshRun g).scaleRec i).count = 0 := by
  refine Kv.getD_of_forall (P := fun r : ScaleRec => r.count = 0) (fun e he => ?_) rfl i
  obtain ⟨j, -, rfl⟩ := List.mem_map.1 he
  exact freshRecord_count g j

/-- The loss scale starts from its initial exponent, within its bound. -/
theorem State.freshRun_loss (s : State) (g : Program) :
    (s.freshRun g).ent Ent.lossScaleExp = min (s.ent Ent.lossInitialExp) (s.ent Ent.lossMaxExp) ∧
      (s.freshRun g).ent Ent.lossCleanSteps = 0 := by
  unfold State.freshRun
  refine ⟨?_, ?_⟩
  · rw [State.ent_setEnt_ne _ _ (by decide), State.ent_setEnt_ne _ _ (by decide), State.ent_setEnt]
  · rw [State.ent_setEnt_ne _ _ (by decide), State.ent_setEnt]

/-- The program that an image gives once its checks pass. -/
def State.imageProgram (s : State) (a : Nat) : Program :=
  let g := programOf a (s.ramRead a (hdrBytes (s.ramRead a 256)))
  { s with prog.loaded := some g }.finishProgram g

/-- The program of an accepted image takes the place of the old one, in a fresh run; a load sets no byte. -/
theorem State.acceptProgram_spec (s : State) (a : Nat) :
    let f := { s with prog := { loaded := some (s.imageProgram a) } }.freshRun (s.imageProgram a)
    (s.acceptProgram a).prog = { loaded := some (s.imageProgram a) } ∧ (s.acceptProgram a).scale = f.scale ∧
      (s.acceptProgram a).mem.ram = s.mem.ram ∧
      ∀ k, (s.acceptProgram a).ent k = ((f.setEnt Ent.progState 2).setEnt Ent.progErrorOffset 0xFFFFFFFF).ent k :=
  ⟨rfl, rfl, rfl, fun _ => rfl⟩

/-- What the dictionary shows of it. -/
theorem State.acceptProgram_ents (s : State) (a : Nat) :
    (s.acceptProgram a).ent Ent.progState = 2 ∧ (s.acceptProgram a).ent Ent.progErrorOffset = 0xFFFFFFFF ∧
      (s.acceptProgram a).ent Ent.lossScaleExp = min (s.ent Ent.lossInitialExp) (s.ent Ent.lossMaxExp) ∧
      (s.acceptProgram a).ent Ent.lossCleanSteps = 0 := by
  obtain ⟨-, -, -, ents⟩ := s.acceptProgram_spec a
  obtain ⟨scale, clean⟩ := State.freshRun_loss { s with prog := { loaded := some (s.imageProgram a) } } (s.imageProgram a)
  simp only [ents]
  refine ⟨?_, State.ent_setEnt _ _ _, ?_, ?_⟩
  · rw [State.ent_setEnt_ne _ _ (by decide), State.ent_setEnt]
  · rw [State.ent_setEnt_ne _ _ (by decide), State.ent_setEnt_ne _ _ (by decide)]
    exact scale
  · rw [State.ent_setEnt_ne _ _ (by decide), State.ent_setEnt_ne _ _ (by decide)]
    exact clean

/-- Settles O30: where a check fails, the load's state and the place alone are written; where none does, the program is the image's and the
run is fresh. -/
theorem loadsReplaceTheProgramOnlyWhenTheyPass : Obligations.LoadsReplaceTheProgramOnlyWhenTheyPass := by
  intro s a checks
  refine ⟨fun v fails => ?_, fun passes => ?_⟩
  · refine ⟨_, execProgLoadCheckDone_of_fails checks fails, rfl, ?_, State.ent_setEnt _ _ _, rfl, rfl, rfl, rfl⟩
    rw [State.ent_setEnt_ne _ _ (by decide), State.ent_setEnt]
  · obtain ⟨prog, scale, ram, -⟩ := s.checked.acceptProgram_spec a
    obtain ⟨two, place, exponent, clean⟩ := s.checked.acceptProgram_ents a
    refine ⟨_, s.checked.imageProgram a, execProgLoadCheckDone_of_passes checks passes, rfl, two, place, congrArg Prog.loaded prog, rfl,
      congrArg Prog.checking prog, congrArg Prog.pool prog, fun i => ?_, exponent, clean, ram⟩
    rw [State.scaleRec, scale]
    exact State.freshRun_count _ _ i

end Sys2Proof.Machine

/-! PROOFS. Admission and readiness (R196, R198, R199, R219, R236): what a slot taken, waited for or left changes. -/

namespace Sys2Proof.Machine

variable {s u : State} {slot : Nat}

/-! ### A die's stream -/

/-- A die's share of the stream is all that a write of it changes. -/
theorem State.setStream_eq (s : State) (d : Nat) (l : List Item) :
    ∃ l0 l1, s.setStream d l = { s with prog.stream0 := l0, prog.stream1 := l1 } := by
  unfold State.setStream
  split
  · exact ⟨l, s.prog.stream1, rfl⟩
  · exact ⟨s.prog.stream0, l, rfl⟩

@[simp] theorem State.streamOf_setStream (s : State) (d : Nat) (l : List Item) : (s.setStream d l).streamOf d = l := by
  unfold State.setStream State.streamOf
  split <;> rfl

theorem State.streamOf_setStream_ne (s : State) {d x : DieId} (h : x ≠ d) (l : List Item) :
    (s.setStream d l).streamOf x = s.streamOf x := by
  have other : x.val ≠ d.val := fun e => h (Fin.ext e)
  unfold State.setStream State.streamOf
  by_cases first : d.val = 0
  · have second : x.val ≠ 0 := by omega
    simp only [first, second, if_true, if_false]
  · have second : x.val = 0 := by omega
    simp only [first, second, if_true, if_false]

/-- An item that takes a slot joins the pool, and its die's stream goes on. -/
theorem State.admitItem_spec (s : State) (d : Nat) (it : Item) (rest : List Item) :
    (∀ x, (s.admitItem d it rest).streamOf x = (s.setStream d rest).streamOf x) ∧
      (s.admitItem d it rest).prog.pool = s.prog.pool ++ [s.runOf it d] ∧ (s.admitItem d it rest).mem = s.mem ∧
      (s.admitItem d it rest).cores = s.cores ∧ (s.admitItem d it rest).flt = s.flt := by
  obtain ⟨l0, l1, e⟩ := s.setStream_eq d rest
  refine ⟨fun _ => rfl, ?_⟩
  unfold State.admitItem
  rw [e]
  exact ⟨rfl, rfl, rfl, rfl⟩

/-! ### DESC_ADMIT -/

theorem descriptorsAreAdmittedInStreamOrder : DescriptorsAreAdmittedInStreamOrder := by
  intro d s it rest next open_
  have admits : exec (.descAdmit d) s = .next (
      if s.afterAbandon it && decide ((s.descAt it.index).kind ≠ 3) then s.setStream d rest
      else if s.programMigrates then (s.bump 64 Ent.memMigrateWaitUs (Config.timing s.clk.freeNext)).draw
      else if poolSlots ≤ s.inFlight d then s.bump 64 Ent.descFullCycles 1 else s.admitItem d it rest) := by
    show execDescAdmit d s = _
    simp only [execDescAdmit, next, open_, Bool.true_eq_false, if_false]
  rw [admits]
  dsimp only
  refine ⟨fun passed => ?_, fun taken still free => ?_, fun taken still full => ?_⟩
  · rw [passed, if_pos rfl]
  · rw [taken, still, if_neg Bool.false_ne_true, if_neg Bool.false_ne_true, if_neg (Nat.not_le.2 free)]
    obtain ⟨streams, pool, mem, cores, flt⟩ := s.admitItem_spec d it rest
    exact ⟨_, rfl, (streams d).trans (s.streamOf_setStream d rest), pool,
      fun x other => (streams x).trans (s.streamOf_setStream_ne other rest), mem, cores, flt⟩
  · rw [taken, still, if_neg Bool.false_ne_true, if_neg Bool.false_ne_true, if_pos full]

/-! ### A slot that its descriptor leaves -/

/-- A descriptor has left its slot, completed, and memory is as it was. -/
structure State.Frees (s : State) (slot : Nat) (u : State) : Prop where
  free : u.desc? slot = none
  completed : u.prog.completed.contains slot = true
  mem : u.mem = s.mem

theorem State.freeDesc_frees (s : State) (pos : Nat) : s.Frees pos (s.freeDesc pos) := by
  refine ⟨?_, contains_listAdd_self _ _, rfl⟩
  rw [State.desc?, State.freeDesc, List.find?_filter, List.find?_eq_none]
  simp

/-- It is the pool, the completed positions and memory alone that say so. -/
theorem State.Frees.of_eq {t : State} (h : s.Frees slot t) (pool : u.prog.pool = t.prog.pool)
    (completed : u.prog.completed = t.prog.completed) (mem : u.mem = t.mem) : s.Frees slot u :=
  ⟨by rw [State.desc?, pool, ← State.desc?, h.free], by rw [completed, h.completed], mem.trans h.mem⟩

/-- A condition that is recorded leaves it so. -/
theorem State.Frees.condition (h : s.Frees slot u) (sev code p0 p1 p2 : Nat) : s.Frees slot (u.condition sev code p0 p1 p2) := by
  have recorded : (u.condition sev code p0 p1 p2).unrecorded = u.unrecorded := State.record_unrecorded _ _
  simp only [Prod.mk.injEq] at recorded
  obtain ⟨-, -, -, -, -, -, -, -, prog, -, mem, -⟩ := recorded
  exact h.of_eq (congrArg Prog.pool prog) (congrArg Prog.completed prog) mem

/-- An update of a frozen group leaves its slot (R236). -/
theorem State.noopUpdate_frees (s : State) (r : DescRun) : s.Frees r.pos (s.noopUpdate r) := by
  have freed := s.freeDesc_frees r.pos
  unfold State.noopUpdate
  extract_lets g s1
  split
  · exact freed.of_eq rfl rfl rfl
  · exact (freed.of_eq (u := { s1 with prog.noopNoted := s1.prog.noopNoted ++ [g] }) rfl rfl rfl).condition _ _ _ _ _

/-- What an empty collective sends to the others touches neither what is in flight nor memory (R394). -/
theorem State.sendEmpty_unsent (s : State) (d : Desc) (pos : Nat) : (s.sendEmpty d pos).unsent = s.unsent :=
  foldl_same (π := State.unsent) (fun u _ => u.sendFrame_unsent _) _ s

/-- An empty descriptor leaves its slot (R196). -/
theorem State.completeEmpty_frees (s : State) (r : DescRun) : s.Frees r.pos (s.completeEmpty r) := by
  have told : ∃ t : State, t.unsent = s.unsent ∧ s.completeEmpty r = (t.endWithout r).bump 64 Ent.descEmpty 1 := by
    unfold State.completeEmpty
    split
    · exact ⟨_, s.sendEmpty_unsent r.d r.pos, rfl⟩
    · exact ⟨s, rfl, rfl⟩
  obtain ⟨t, sent, e⟩ := told
  obtain ⟨-, prog, -, mem, -⟩ := parts_of_unsent sent
  have left : (s.completeEmpty r).prog = (s.freeDesc r.pos).prog := by
    rw [e, State.freeDesc, ← prog]
    exact State.completeDesc_prog _ _
  refine (s.freeDesc_frees r.pos).of_eq (congrArg Prog.pool left) (congrArg Prog.completed left) ?_
  rw [e]
  exact mem

/-! ### DESC_READY -/

theorem descriptorsBecomeReady : DescriptorsBecomeReady := by
  intro slot s r on found waits full quiet
  have readies : exec (.descReady slot) s = .next (
      if r.isUpdate ∧ s.layerFrozen r.d.layer then s.noopUpdate r
      else if s.isEmpty r then (s.completeEmpty r).latchAll
      else if (s.readsOf r.d r.update).all (s.tensorReady r) then s.mapDesc slot fun d => { d with ready := true } else s) := by
    show execDescReady slot s = _
    simp only [execDescReady, found, on, waits, full, Bool.true_eq_false, Bool.false_eq_true, or_self, if_false]
  have pos := State.pos_of_desc? found
  rw [readies]
  refine ⟨fun noop => ?_, fun real empty => ?_, fun real some_ read => ?_⟩
  · obtain ⟨free, completed, mem⟩ := pos ▸ s.noopUpdate_frees r
    exact ⟨_, congrArg Host.Outcome.next (if_pos noop), free, completed, mem⟩
  · obtain ⟨free, completed, mem⟩ := pos ▸ s.completeEmpty_frees r
    rw [if_neg real, empty, if_pos rfl, State.latchAll_of_lines (State.completeEmpty_quiet s r quiet)]
    exact ⟨_, rfl, free, completed, mem⟩
  · have kept (q : Nat) := s.desc?_mapDesc (f := fun d => { d with ready := true }) (fun _ => rfl) slot q
    rw [if_neg real, some_, if_neg Bool.false_ne_true, read, if_pos rfl]
    refine ⟨_, rfl, ?_, fun q other => ?_, rfl, rfl⟩
    · rw [kept, found, Option.map_some, if_pos rfl]
    · simp only [kept, other, if_false, Option.map_id_fun', id_eq]

/-- Settles O36: an admitted item is its die's next, and a descriptor that is ready, empty or a frozen group's says so in its slot. -/
theorem descriptorsAreAdmittedThenReady : Obligations.DescriptorsAreAdmittedThenReady :=
  ⟨descriptorsAreAdmittedInStreamOrder, descriptorsBecomeReady⟩

end Sys2Proof.Machine

/-! PROOFS. Units of idle engines (R56, R200, R203): what a core that takes a unit holds, and what the other engines leave of it. -/

namespace Sys2Proof.Machine

variable {s t u : State} {c : Nat}

/-! ### Tile boundaries of an idle pan -/

/-- The cores are listed anew: each has its pans, its units and its clock as it had. -/
structure State.SameCores (s t : State) : Prop where
  beside : ∃ l, t = { s with cores := l }
  pan : ∀ d p, t.pan d p = s.pan d p
  units : ∀ d, (t.core d).units = (s.core d).units
  frozen : ∀ d, (t.core d).frozen = (s.core d).frozen

/-- A pan that is written as it stands. -/
theorem State.SameCores.setPan (h : s.SameCores t) (c p : Nat) : s.SameCores (t.setPan c p (t.pan c p)) := by
  obtain ⟨⟨l, e⟩, pan, units, frozen⟩ := h
  have core (d : Nat) : ∃ k, (t.setPan c p (t.pan c p)).core d = { t.core d with pans := k } := by
    by_cases own : d = c
    · exact ⟨_, by rw [own, State.setPan, State.core_setCore]⟩
    · exact ⟨_, by rw [State.setPan, State.core_setCore_ne _ _ own]⟩
  refine ⟨⟨_, by rw [e]; rfl⟩, fun d q => ?_, fun d => ?_, fun d => ?_⟩
  · rw [← pan]
    by_cases own : (d, q) = (c, p)
    · cases own
      exact t.pan_setPan c p _
    · exact t.setPan_others c p _ d q own
  · obtain ⟨k, e⟩ := core d
    rw [e, ← units]
  · obtain ⟨k, e⟩ := core d
    rw [e, ← frozen]

/-- With nothing waiting for a tile boundary, an idle pan's boundary retires nothing (R56). -/
theorem State.remapIdle_same (c : Nat) (settled : ∀ p < 4, (s.pan c p).remapNext = []) : s.SameCores (s.remapIdle c) := by
  refine List.foldlRecOn (motive := s.SameCores) (List.range 4) _ ⟨⟨s.cores, rfl⟩, fun _ _ => rfl, fun _ => rfl, fun _ => rfl⟩ ?_
  intro t h p hp
  split
  · rw [State.applyRemap_of_nil (by rw [h.pan, settled p (List.mem_range.1 hp)])]
    exact h.setPan c p
  · exact h

/-! ### The best offer -/

theorem mem_of_bestOffer {l : List DescRun} {r : DescRun} (h : bestOffer l = some r) : r ∈ l := by
  refine List.foldlRecOn (motive := fun b : Option DescRun => ∀ r, b = some r → r ∈ l) l _ (fun _ h => by cases h) ?_ r h
  rintro (_ | x) best y hy r e
  · cases e
    exact hy
  · dsimp only at e
    split at e
    · cases e
      exact hy
    · exact best r e

/-- What offers a unit to an engine runs on it. -/
theorem State.offer_of_best {e : Nat} {r : DescRun} (h : bestOffer (s.prog.pool.filter (s.offers c e)) = some r) :
    r ∈ s.prog.pool ∧ engineOf r.d.kind = e := by
  obtain ⟨pool, offers⟩ := List.mem_filter.1 (mem_of_bestOffer h)
  simp only [State.offers, Bool.and_eq_true, beq_iff_eq] at offers
  obtain ⟨⟨⟨⟨⟨⟨-, -⟩, engine⟩, -⟩, -⟩, -⟩, -⟩ := offers
  exact ⟨pool, engine⟩

/-! ### A unit that starts -/

/-- The parts of the state that a schedule speaks of beside the cores. -/
abbrev State.unstarted (s : State) := (s.prog, s.mem, s.flt, s.links)

theorem parts_of_unstarted (h : t.unstarted = s.unstarted) : t.prog = s.prog ∧ t.mem = s.mem ∧ t.flt = s.flt ∧ t.links = s.links := by
  simpa only [Prod.mk.injEq] using h

/-- A pan holds a tile of a core block at its first pass. -/
def State.TileStarts (c p pos n : Nat) (s : State) : Prop :=
  ∃ t, (s.pan c p).tile = some t ∧ t.pos = pos ∧ t.block = n ∧ t.done = 0 ∧ t.acc = []

/-- The tile of a core block goes to a pan that has columns. -/
def State.startTile (s : State) (c : Nat) (r : DescRun) (n p : Nat) : State :=
  if (r.panBlock n).n0 + p * panN r.d.rung < r.n then
    (s.dropShifts c p).setPan c p { s.pan c p with
      tile := some (r.tileOf (r.panBlock n) n p (s.pan c p)), bankA := none, bankB := none, shiftEntries := 0, rowsDue := 0 }
  else s

theorem State.startBlock_eq (s : State) (c : Nat) (r : DescRun) (n : Nat) :
    s.startBlock c r n = (List.range 4).foldl (fun u p => u.startTile c r n p) (s.setCore c (s.core c).dropBuffers) := rfl

/-- A tile's start leaves them, and the units that its core runs. -/
theorem State.startTile_frame (s : State) (c : Nat) (r : DescRun) (n p : Nat) :
    (s.startTile c r n p).unstarted = s.unstarted ∧ ((s.startTile c r n p).core c).units = (s.core c).units := by
  unfold State.startTile
  split
  · refine ⟨rfl, ?_⟩
    rw [State.setPan, State.core_setCore]
    rfl
  · exact ⟨rfl, rfl⟩

theorem State.startTile_starts (s : State) {c : Nat} {r : DescRun} {n p : Nat} (columns : (r.panBlock n).n0 + p * panN r.d.rung < r.n) :
    (s.startTile c r n p).TileStarts c p r.pos n := by
  rw [State.startTile, if_pos columns, State.TileStarts, State.pan_setPan]
  exact ⟨_, rfl, rfl, rfl, rfl, rfl⟩

theorem State.startTile_others (s : State) {c p q : Nat} (other : q ≠ p) (r : DescRun) (n : Nat) :
    (s.startTile c r n p).pan c q = s.pan c q := by
  unfold State.startTile
  split
  · exact (s.dropShifts c p).setPan_others c p _ c q fun e => other (congrArg Prod.snd e)
  · rfl

/-- A core block's start leaves them, and the units that its core runs. -/
theorem State.startBlock_frame (s : State) (c : Nat) (r : DescRun) (n : Nat) :
    (s.startBlock c r n).unstarted = s.unstarted ∧ ((s.startBlock c r n).core c).units = (s.core c).units := by
  rw [State.startBlock_eq]
  refine ⟨foldl_same (π := State.unstarted) (fun u p => (u.startTile_frame c r n p).1) _ _,
    (foldl_same (π := fun u : State => (u.core c).units) (fun u p => (u.startTile_frame c r n p).2) _ _).trans ?_⟩
  rw [State.core_setCore]
  rfl

/-- The tiles of a core block stand at their first pass on the pans that have columns (R203). -/
theorem State.startBlock_starts (s : State) {c : Nat} {r : DescRun} {n p : Nat} (pan : p < 4)
    (columns : (r.panBlock n).n0 + p * panN r.d.rung < r.n) : (s.startBlock c r n).TileStarts c p r.pos n := by
  rw [State.startBlock_eq]
  refine foldl_reaches (P := fun _ => True) (List.mem_range.2 pan) trivial (fun _ _ _ => trivial) (fun u _ => u.startTile_starts columns) ?_
  intro u q starts
  by_cases own : q = p
  · rw [own]
    exact u.startTile_starts columns
  · rw [State.TileStarts, u.startTile_others (Ne.symm own)]
    exact starts

/-- A descriptor of which one more unit is with a core. -/
def DescRun.issues (d : DescRun) (n : Nat) : DescRun := { d with issued := d.issued ++ [n] }

/-- A unit that starts is with its engine, and issued; its core's other engines run what they ran. -/
theorem State.startUnit_frame (s : State) (c e : Nat) (r : DescRun) (n : Nat) :
    (s.startUnit c e r n).unstarted = (s.mapDesc r.pos (·.issues n)).unstarted ∧
      ((s.startUnit c e r n).core c).units = Kv.put (s.core c).units e ⟨r.pos, n⟩ := by
  unfold State.startUnit
  extract_lets x s1
  have given : (s1.core c).units = Kv.put (s.core c).units e ⟨r.pos, n⟩ := congrArg CoreSt.units (State.core_setCore _ _ _)
  split
  · obtain ⟨same, units⟩ := s1.startBlock_frame c r n
    exact ⟨same, units.trans given⟩
  · exact ⟨rfl, given⟩

/-- A unit of the sluice path or of the vector unit leaves the pans. -/
theorem State.startUnit_pan (s : State) {r : DescRun} (kind : r.d.kind ≠ 0) (c e n p : Nat) :
    (s.startUnit c e r n).pan c p = s.pan c p := by
  rw [State.startUnit, if_neg kind]
  exact s.pan_setCore (by rfl) c p

/-! ### An engine's turn -/

/-- A pre-emption moves a count and a free value, which are beside what a unit's start concerns (R211). -/
def State.tally (s : State) (v : KV Nat) (k : Clocks) : State := { s with dict.vals := v, clk := k }

theorem State.countPreemption_tallies (s : State) : ∃ v k, s.countPreemption = s.tally v k := by
  unfold State.countPreemption
  generalize (max _ _ : Nat) = peak
  exact ⟨_, _, rfl⟩

/-- An engine that runs a unit takes none. -/
theorem State.scheduleEngine_of_busy {e : Nat} (busy : (Kv.find? (s.core c).units e).isSome = true) : s.scheduleEngine c e = s :=
  if_pos busy

/-- An idle engine takes the first unit left of its best offer, and a pre-emption is counted (R200, R211). -/
theorem State.scheduleEngine_of_idle {e n : Nat} {r : DescRun} {l : List Nat} (idle : Kv.find? (s.core c).units e = none)
    (best : bestOffer (s.prog.pool.filter (s.offers c e)) = some r) (left : r.unitsLeft c = n :: l)
    (intact : s.complOk (s.descAddr r.index) 64 = true) :
    ∃ v k, s.scheduleEngine c e = (s.startUnit c e r n).tally v k := by
  unfold State.scheduleEngine
  simp only [idle, best, left, intact, Option.isSome_none, Bool.false_eq_true, if_false, if_true]
  split
  · exact (s.startUnit c e r n).countPreemption_tallies
  · exact ⟨_, _, rfl⟩

/-- An engine's turn starts no unit, or one of a descriptor that runs on it. -/
theorem State.scheduleEngine_cases (c e : Nat) (intact : ∀ d ∈ s.prog.pool, s.complOk (s.descAddr d.index) 64 = true) :
    s.scheduleEngine c e = s ∨
      ∃ r n v k, engineOf r.d.kind = e ∧ s.scheduleEngine c e = (s.startUnit c e r n).tally v k := by
  cases idle : Kv.find? (s.core c).units e with
  | some _ => exact .inl (State.scheduleEngine_of_busy (by rw [idle]; rfl))
  | none =>
    cases best : bestOffer (s.prog.pool.filter (s.offers c e)) with
    | none => exact .inl (by simp only [State.scheduleEngine, idle, best, Option.isSome_none, Bool.false_eq_true, if_false])
    | some r =>
      obtain ⟨pool, engine⟩ := State.offer_of_best best
      cases left : r.unitsLeft c with
      | nil => exact .inl (by simp only [State.scheduleEngine, idle, best, left, Option.isSome_none, Bool.false_eq_true, if_false])
      | cons n l =>
        obtain ⟨v, k, e⟩ := State.scheduleEngine_of_idle idle best left (intact r pool)
        exact .inr ⟨r, n, v, k, engine, e⟩

/-! ### The engines in turn -/

/-- Every descriptor in flight is of cores' engines and intact in memory, and no collective is under way. -/
structure State.Plain (s : State) : Prop where
  kinds : ∀ d ∈ s.prog.pool, d.d.kind < 3
  intact : ∀ d ∈ s.prog.pool, s.complOk (s.descAddr d.index) 64 = true
  collectives : s.links.collectives = []

theorem State.complOk_of_mem (h : t.mem = s.mem) (a n : Nat) : t.complOk a n = s.complOk a n := by
  have bytes (b k : Nat) : t.ramRead b k = s.ramRead b k := by simp only [State.ramRead, State.ramByte, h]
  rw [State.complOk, State.complOk, decide_eq_decide, bytes, bytes]

/-- It is the program, memory and the links that say so. -/
theorem State.Plain.of_eq (h : s.Plain) (prog : t.prog = s.prog) (mem : t.mem = s.mem) (links : t.links = s.links) : t.Plain := by
  refine ⟨fun d hd => h.kinds d (prog ▸ hd), fun d hd => ?_, links ▸ h.collectives⟩
  rw [State.complOk_of_mem mem, State.descAddr, prog, ← State.descAddr]
  exact h.intact d (prog ▸ hd)

theorem State.Plain.issue {pos n : Nat} (h : s.Plain) (same : t.unstarted = (s.mapDesc pos (·.issues n)).unstarted) : t.Plain := by
  obtain ⟨prog, mem, -, links⟩ := parts_of_unstarted same
  have fixed (d : DescRun) (hd : d ∈ t.prog.pool) : ∃ x ∈ s.prog.pool, d.d = x.d ∧ d.index = x.index := by
    rw [prog] at hd
    obtain ⟨x, hx, rfl⟩ := List.mem_map.1 hd
    refine ⟨x, hx, ?_⟩
    split <;> exact ⟨rfl, rfl⟩
  refine ⟨fun d hd => ?_, fun d hd => ?_, (congrArg Links.collectives links).trans h.collectives⟩
  · obtain ⟨x, hx, e, -⟩ := fixed d hd
    rw [e]
    exact h.kinds x hx
  · obtain ⟨x, hx, -, e⟩ := fixed d hd
    have addr : t.descAddr x.index = s.descAddr x.index := by rw [State.descAddr, prog]; rfl
    rw [e, addr, State.complOk_of_mem mem]
    exact h.intact x hx

/-- An engine of a core has taken a unit of a descriptor; a core block's tiles stand at their first pass, and no byte and no fault
has moved. -/
structure State.Took (s : State) (c e : Nat) (r : DescRun) (n : Nat) (u : State) : Prop where
  plain : u.Plain
  mem : u.mem = s.mem
  flt : u.flt = s.flt
  unit : Kv.find? (u.core c).units e = some ⟨r.pos, n⟩
  issued : ∃ d, u.desc? r.pos = some d ∧ d.issued.contains n = true
  tiles : r.d.kind = 0 → ∀ p < 4, (r.panBlock n).n0 + p * panN r.d.rung < r.n → u.TileStarts c p r.pos n

/-- A descriptor in the pool has a slot. -/
theorem State.desc?_of_mem {r : DescRun} (h : r ∈ s.prog.pool) : ∃ d, s.desc? r.pos = some d :=
  Option.isSome_iff_exists.1 (List.find?_isSome.2 ⟨r, h, by simp⟩)

theorem State.desc?_issue {pos n q : Nat} (same : t.unstarted = (s.mapDesc pos (·.issues n)).unstarted) :
    t.desc? q = (s.desc? q).map fun d => if q = pos then d.issues n else d := by
  obtain ⟨prog, -⟩ := parts_of_unstarted same
  rw [State.desc?, prog]
  exact State.desc?_mapDesc (f := (·.issues n)) (fun _ => rfl) s pos q

/-- A unit that starts has been taken (R200, R203). -/
theorem State.Took.start (h : s.Plain) {e : Nat} {r : DescRun} (pool : r ∈ s.prog.pool) (n : Nat) :
    s.Took c e r n (s.startUnit c e r n) := by
  obtain ⟨same, units⟩ := s.startUnit_frame c e r n
  obtain ⟨d, slot⟩ := State.desc?_of_mem pool
  obtain ⟨-, mem, flt, -⟩ := parts_of_unstarted same
  refine ⟨h.issue same, mem, flt, ?_, ⟨d.issues n, ?_, ?_⟩, fun kind p pan columns => ?_⟩
  · rw [units, Kv.find?_put_self]
  · rw [State.desc?_issue same, slot, Option.map_some, if_pos rfl]
  · simp [DescRun.issues]
  · rw [State.startUnit, if_pos kind]
    exact State.startBlock_starts _ pan columns

theorem State.Took.tally {e n : Nat} {r : DescRun} (h : s.Took c e r n u) (v : KV Nat) (k : Clocks) : s.Took c e r n (u.tally v k) :=
  ⟨h.plain.of_eq rfl rfl rfl, h.mem, h.flt, h.unit, h.issued, h.tiles⟩

/-- It stays taken in the turns of the other engines. -/
theorem State.Took.scheduleEngine {e n x : Nat} {r : DescRun} (h : s.Took c e r n u) (engine : engineOf r.d.kind = e) (other : x ≠ e) :
    s.Took c e r n (u.scheduleEngine c x) := by
  rcases State.scheduleEngine_cases c x h.plain.intact with idle | ⟨y, m, v, k, own, turn⟩
  · rw [idle]
    exact h
  · obtain ⟨same, units⟩ := u.startUnit_frame c x y m
    obtain ⟨-, mem, flt, -⟩ := parts_of_unstarted same
    obtain ⟨d, slot, issued⟩ := h.issued
    have kept : (u.startUnit c x y m).desc? r.pos = some (if r.pos = y.pos then d.issues m else d) := by
      rw [State.desc?_issue same, slot, Option.map_some]
    rw [turn]
    refine State.Took.tally ⟨h.plain.issue same, mem.trans h.mem, flt.trans h.flt, ?_, ⟨_, kept, ?_⟩,
      fun kind p pan columns => ?_⟩ v k
    · rw [units, Kv.find?_put_ne _ _ (Ne.symm other), h.unit]
    · split
      · rw [DescRun.issues, List.contains_append, issued, Bool.true_or]
      · exact issued
    · have aside : y.d.kind ≠ 0 := fun zero => other (by rw [← own, ← engine, zero, kind])
      rw [State.TileStarts, u.startUnit_pan aside]
      exact h.tiles kind p pan columns

/-- The engines before an engine of a core, itself, and those after it. -/
theorem range_three_at : ∀ e < 3, List.range 3 = List.range e ++ e :: List.range' (e + 1) (2 - e) := by decide

/-- Where the engines before it are busy, an idle engine takes the first unit left of its best offer (R200). -/
theorem State.foldl_scheduleEngine_took (h : s.Plain) {e n : Nat} {r : DescRun} {l : List Nat} (engine : e < 3)
    (busy : ∀ x < e, (Kv.find? (s.core c).units x).isSome = true) (idle : Kv.find? (s.core c).units e = none)
    (best : bestOffer (s.prog.pool.filter (s.offers c e)) = some r) (left : r.unitsLeft c = n :: l) :
    s.Took c e r n ((List.range 3).foldl (fun u x => u.scheduleEngine c x) s) := by
  obtain ⟨pool, own⟩ := State.offer_of_best best
  have before : (List.range e).foldl (fun u x => u.scheduleEngine c x) s = s :=
    List.foldlRecOn (motive := (· = s)) _ _ rfl fun u same x hx => by
      rw [same, State.scheduleEngine_of_busy (busy x (List.mem_range.1 hx))]
  obtain ⟨v, k, turn⟩ := State.scheduleEngine_of_idle idle best left (h.intact r pool)
  rw [range_three_at e engine, List.foldl_append, before, List.foldl_cons, turn]
  refine List.foldlRecOn _ _ ((State.Took.start h pool n).tally v k) fun u took x after => took.scheduleEngine own ?_
  have := List.mem_range'_1.1 after
  omega

/-! ### UNIT_SCHEDULE -/

/-- No descriptor of the cores' engines is a collective or a copy. -/
theorem State.Plain.nextOf (h : s.Plain) (c : Nat) {kind : Nat} (other : 3 ≤ kind) : s.nextOf c kind = none := by
  have empty : s.prog.pool.filter (fun r => r.ready && r.d.kind == kind && r.issued.isEmpty && r.d.member 0 == c) = [] := by
    refine List.filter_eq_nil_iff.2 fun d hd => ?_
    have below := h.kinds d hd
    have aside : d.d.kind ≠ kind := by omega
    simp [aside]
  rw [State.nextOf, empty]
  rfl

theorem State.Plain.scheduleColl (h : s.Plain) (c : Nat) : s.scheduleColl c = s := by
  unfold State.scheduleColl
  rw [h.collectives]
  simp only [List.foldl_nil, h.nextOf c (Nat.le_refl 3)]

theorem State.Plain.scheduleCopy (h : s.Plain) (c : Nat) : s.scheduleCopy c = s := by
  unfold State.scheduleCopy
  rw [h.nextOf c (by decide)]

theorem idleEnginesTakeTheBestUnit : IdleEnginesTakeTheBestUnit := by
  intro c e s r n l takes quiet engine kinds collectives settled busy idle best left intact
  obtain ⟨⟨cores, beside⟩, -, units, frozen⟩ := State.remapIdle_same c.val settled
  have mem : (s.remapIdle c).mem = s.mem := by rw [beside]
  have flt : (s.remapIdle c).flt = s.flt := by rw [beside]
  have plain : (s.remapIdle c).Plain := State.Plain.of_eq ⟨kinds, intact, collectives⟩ (by rw [beside]) mem (by rw [beside])
  have live : (s.remapIdle c).coreTakes c = true := by
    rw [← takes]
    simp only [State.coreTakes, State.coreLive, State.coreStopped, frozen]
    rw [beside]
    rfl
  have best0 : bestOffer ((s.remapIdle c).prog.pool.filter ((s.remapIdle c).offers c e)) = some r := by
    rw [beside]
    exact best
  have took := State.foldl_scheduleEngine_took plain engine (by simpa only [units] using busy) (by rw [units, idle]) best0 left
  obtain ⟨d, slot, issued⟩ := took.issued
  refine ⟨_, d, ?_, took.unit, slot, issued, took.mem.trans mem, took.flt.trans flt, took.tiles⟩
  show execUnitSchedule c s = _
  simp only [execUnitSchedule, live, if_true, took.plain.scheduleColl, took.plain.scheduleCopy]
  rw [State.latchAll_of_lines (by rw [took.flt, flt, quiet])]

end Sys2Proof.Machine

/-! PROOFS. Multicast deliveries (R70, R208, R209): what a set that leaves its cluster's staging changes, and one that stays. -/

namespace Sys2Proof.Machine

variable {s t : State} {c : Nat} {rows : Bool} {buf : TileBuf}

/-! ### A core's tile buffer takes a set -/

/-- The parts of the state beside the cores that a delivery could concern. -/
abbrev State.offCores (s : State) := (s.clusters, s.mem, s.flt, s.dict)

theorem parts_of_offCores (h : t.offCores = s.offCores) :
    t.clusters = s.clusters ∧ t.mem = s.mem ∧ t.flt = s.flt ∧ t.dict = s.dict := by
  simpa only [Prod.mk.injEq] using h

theorem CoreSt.bufs_setBufs (x : CoreSt) (rows : Bool) (l : List TileBuf) : (x.setBufs rows l).bufs rows = l := by
  cases rows <;> rfl

/-- Beside a core's own state nothing differs, and in it the tile buffers do not. -/
structure State.PansOf (c : Nat) (s t : State) : Prop where
  beside : t.offCores = s.offCores
  others : ∀ q, q ≠ c → t.core q = s.core q
  bufs : ∀ rows, (t.core c).bufs rows = (s.core c).bufs rows

theorem State.PansOf.refl (c : Nat) (s : State) : State.PansOf c s s := ⟨rfl, fun _ _ => rfl, fun _ => rfl⟩

theorem State.PansOf.trans {u : State} (h : State.PansOf c s t) (k : State.PansOf c t u) : State.PansOf c s u :=
  ⟨k.beside.trans h.beside, fun q other => (k.others q other).trans (h.others q other), fun rows => (k.bufs rows).trans (h.bufs rows)⟩

theorem State.setPan_pansOf (s : State) (c p : Nat) (x : PanSt) : State.PansOf c s (s.setPan c p x) :=
  ⟨rfl, fun _ other => State.core_setCore_ne _ _ other, fun rows => by rw [State.setPan, State.core_setCore]; rfl⟩

/-- The entries that a pan admitted before its tile's buffer came settle in that pan (R70). -/
theorem State.settlePreload_pansOf (s : State) (c p : Nat) : State.PansOf c s (s.settlePreload c p) := by
  unfold State.settlePreload
  dsimp only
  split
  · exact .refl c s
  · split
    · exact .refl c s
    · split
      · exact .refl c s
      · exact s.setPan_pansOf c p _

/-- A core's buffer ends with a set, and nothing beside that core differs. -/
structure State.Takes (c : Nat) (rows : Bool) (buf : TileBuf) (s t : State) : Prop where
  beside : t.offCores = s.offCores
  others : ∀ q, q ≠ c → t.core q = s.core q
  own : (t.core c).bufs rows = (s.core c).bufs rows ++ [buf]

theorem State.takeSet_takes (s : State) (rows : Bool) (buf : TileBuf) (c : Nat) : State.Takes c rows buf s (s.takeSet rows buf c) := by
  let s1 := s.setCore c ((s.core c).setBufs rows ((s.core c).bufs rows ++ [buf]))
  have settled : State.PansOf c s1 (s.takeSet rows buf c) :=
    List.foldlRecOn (motive := State.PansOf c s1) (List.range 4) _ (.refl c s1)
      fun u h p _ => h.trans (u.settlePreload_pansOf c p)
  refine ⟨settled.beside, fun q other => (settled.others q other).trans (State.core_setCore_ne _ _ other), ?_⟩
  rw [settled.bufs, State.core_setCore, CoreSt.bufs_setBufs]

/-- A core keeps what its buffer holds when a set is taken. -/
theorem State.mem_bufs_takeSet {q : Nat} (h : buf ∈ (s.core q).bufs rows) (new : TileBuf) (c : Nat) :
    buf ∈ ((s.takeSet rows new c).core q).bufs rows := by
  have takes := s.takeSet_takes rows new c
  by_cases e : q = c
  · rw [e] at h ⊢
    rw [takes.own]
    exact List.mem_append_left _ h
  · rw [takes.others q e]
    exact h

/-! ### All receivers take it -/

/-- The members of a list take a set. -/
def State.takeAll (s : State) (rows : Bool) (buf : TileBuf) (l : List (Nat × Nat)) : State :=
  l.foldl (fun u m => u.takeSet rows buf m.1) s

theorem State.takeAll_offCores (s : State) (rows : Bool) (buf : TileBuf) (l : List (Nat × Nat)) :
    (s.takeAll rows buf l).offCores = s.offCores := by
  unfold State.takeAll
  exact foldl_same (π := State.offCores) (fun u (m : Nat × Nat) => (u.takeSet_takes rows buf m.1).beside) l s

theorem State.takeAll_others (s : State) (rows : Bool) (buf : TileBuf) {l : List (Nat × Nat)} {q : Nat} (aside : ∀ m ∈ l, m.1 ≠ q) :
    (s.takeAll rows buf l).core q = s.core q := by
  refine List.foldlRecOn (motive := fun u : State => u.core q = s.core q) l _ rfl fun u same m hm => ?_
  exact ((u.takeSet_takes rows buf m.1).others q (Ne.symm (aside m hm))).trans same

theorem State.takeAll_takes (s : State) (rows : Bool) (buf : TileBuf) {l : List (Nat × Nat)} {m : Nat × Nat} (member : m ∈ l) :
    buf ∈ ((s.takeAll rows buf l).core m.1).bufs rows := by
  refine foldl_reaches (P := fun _ => True) (Q := fun u : State => buf ∈ (u.core m.1).bufs rows) member trivial
    (fun _ _ _ => trivial) (fun u _ => ?_) fun u x held => State.mem_bufs_takeSet held buf x.1
  rw [(u.takeSet_takes rows buf m.1).own]
  exact List.mem_append_right _ (List.mem_singleton_self buf)

/-! ### A set leaves staging, or stays -/

section

variable {k set : Nat} {r : DescRun} {l : List (Nat × Nat)}

/-- With room at every receiver the set leaves staging for all of them, which is counted (R208, R209). -/
theorem State.deliverSet_of_room (room : (l.all fun m => s.mcastRoom r (mcastSet set) m.1 m.2) = true) :
    let u := s.deliverSet k set r buf l
    u.ent Ent.mcastDeliveries = satAdd 64 (s.ent Ent.mcastDeliveries) 1 ∧ u.ent Ent.mcastWaitCycles = s.ent Ent.mcastWaitCycles ∧
      Kv.find? (u.cluster k).staging set = none ∧ (∀ m ∈ l, buf ∈ (u.core m.1).bufs (mcastSet set).rows) ∧
      (∀ q, (∀ m ∈ l, m.1 ≠ q) → u.core q = s.core q) ∧ u.mem = s.mem ∧ u.flt = s.flt := by
  let s1 := s.setCluster k { s.cluster k with staging := Kv.del (s.cluster k).staging set }
  let s2 := s1.takeAll (mcastSet set).rows buf l
  have left : s.deliverSet k set r buf l =
      ({ s2 with prog.mcastWait := Kv.del s2.prog.mcastWait set }).bump 64 Ent.mcastDeliveries 1 := if_pos room
  obtain ⟨clusters, mem, flt, dict⟩ := parts_of_offCores (s1.takeAll_offCores (mcastSet set).rows buf l)
  have ents (j : Nat) : s2.ent j = s.ent j := by rw [State.ent, dict, State.setCluster_dict, State.ent]
  have staged : (s2.cluster k).staging = Kv.del (s.cluster k).staging set := by
    rw [State.cluster, clusters, ← State.cluster, State.cluster_setCluster]
  rw [left]
  refine ⟨?_, ?_, ?_, fun m member => s1.takeAll_takes _ buf member, fun q aside => s1.takeAll_others _ buf aside, mem, flt⟩
  · rw [State.ent_bump, ← ents]
    rfl
  · rw [State.ent_bump_ne _ _ _ (by decide), ← ents]
    rfl
  · exact (congrArg (Kv.find? · set) staged).trans (Kv.find?_del_self _ _)

/-- While a receiver lags the set stays staged, and the cycle is counted (R209). -/
theorem State.deliverSet_of_lag (lag : (l.all fun m => s.mcastRoom r (mcastSet set) m.1 m.2) = false) :
    let u := s.deliverSet k set r buf l
    u.ent Ent.mcastWaitCycles = satAdd 64 (s.ent Ent.mcastWaitCycles) 1 ∧ u.ent Ent.mcastDeliveries = s.ent Ent.mcastDeliveries ∧
      Kv.find? (u.cluster k).staging set = some buf ∧ u.mem = s.mem ∧ u.cores = s.cores ∧ u.flt = s.flt := by
  let s1 := s.setCluster k { s.cluster k with staging := Kv.put (s.cluster k).staging set buf }
  have stays : s.deliverSet k set r buf l =
      { s1 with prog.mcastWait := Kv.put s.prog.mcastWait set (Kv.getD s.prog.mcastWait set 0 + 1) }.bump 64 Ent.mcastWaitCycles 1 :=
    if_neg (Bool.eq_false_iff.1 lag)
  have staged : (s1.cluster k).staging = Kv.put (s.cluster k).staging set buf := congrArg ClusterSt.staging (State.cluster_setCluster _ _ _)
  rw [stays]
  refine ⟨State.ent_bump _ _ _ _, State.ent_bump_ne _ _ _ (by decide), ?_, rfl, rfl, rfl⟩
  exact (congrArg (Kv.find? · set) staged).trans (Kv.find?_put_self _ _ _)

end

/-! ### MCAST_DELIVERY -/

/-- The set that goes to its receivers is the one staged, or the one that the lowest of them has fetched (R208). -/
theorem execMcastDelivery_delivers {d : DieId} {set b : Nat} {r : DescRun} {l : List (Nat × Nat)}
    (found : s.desc? (mcastSet set).pos = some r) (on : s.pwr.on = true) (ready : r.ready = true) (kind : r.d.kind = 0)
    (die : r.d.die = d.val) (receivers : s.mcastReceivers r (mcastSet set) = (c, b) :: l)
    (sound : (Kv.find? (s.cluster (c / 8)).staging set).isSome = true ∨ s.readTrouble (s.fetchRanges r (mcastSet set) b) = none) :
    exec (.mcastDelivery d set) s = .next (s.deliverSet (c / 8) set r
      ((Kv.find? (s.cluster (c / 8)).staging set).getD (s.fetchSet r (mcastSet set) b)) ((c, b) :: l)) := by
  show execMcastDelivery d set s = _
  simp only [execMcastDelivery, found, on, ready, kind, die, receivers, and_self, if_true]
  cases staged : Kv.find? (s.cluster (c / 8)).staging set with
  | some _ => rfl
  | none =>
    have whole : s.readTrouble (s.fetchRanges r (mcastSet set) b) = none := by simpa [staged] using sound
    simp only [whole, Option.getD_none]

theorem multicastWaitsForEveryMember : MulticastWaitsForEveryMember := by
  intro d set s r found on ready kind die c b l receivers staged buf room sound
  have delivers := execMcastDelivery_delivers found on ready kind die receivers sound
  exact ⟨fun all => ⟨_, delivers, State.deliverSet_of_room all⟩, fun lag => ⟨_, delivers, State.deliverSet_of_lag lag⟩⟩

/-- Settles O37: an idle engine's unit stays taken through the turns of the engines after it, and a set leaves staging for all its receivers
or for none. -/
theorem unitsAndDeliveriesAreScheduled : Obligations.UnitsAndDeliveriesAreScheduled :=
  ⟨idleEnginesTakeTheBestUnit, multicastWaitsForEveryMember⟩

end Sys2Proof.Machine

/-! PROOFS. Commands that store no byte of memory (R215, R262, R266): one lemma for each whose meaning branches, over what its
operations store. -/

namespace Sys2Proof.Machine

/-- The same bytes of memory are listed. -/
abbrev State.SameBytes (z t : State) : Prop := t.mem.ram = z.mem.ram

variable (s : State)

/-! ### Boot and readiness -/

theorem execFirmwareStart_ram : Completes s.SameBytes (execFirmwareStart s) := by
  have refused (b : Bool) : s.SameBytes (if b then { s with sec.rejectB := 5 } else { s with sec.rejectA := 5 }) := ite_ram rfl rfl
  refine .next (ite_ram (ite_ram ?good (ite_ram ?recover (ite_ram ?other ?neither))) rfl)
  case good => exact State.latchAll_ram _ (State.createAttestKey_ram _ rfl)
  case recover => exact State.latchAll_ram _ (State.recoveryMode_ram _ (refused _))
  case other => exact State.latchAll_ram _ (State.createAttestKey_ram _ (State.bootBank_ram _ _ _ (refused _)))
  case neither => exact State.latchAll_ram _ (State.recoveryMode_ram _ (ite_ram (refused _) (refused _)))

theorem execFunctionReady_ram (f : FnId) : Completes s.SameBytes (execFunctionReady f s) := by
  refine .next (ite_ram rfl ?_)
  cases f with
  | core c => exact ite_ram rfl (State.computeCheck_ram _ (State.setCoreReady_ram _ _ _ rfl))
  | bit b =>
    exact ite_ram (State.computeCheck_ram _ (State.bitSet_ram _ _ (State.setReady_ram _ _ _ (State.bringUp_ram _ _ rfl)))) rfl

theorem execReadinessDeadline_ram (f : FnId) : Completes s.SameBytes (execReadinessDeadline f s) := by
  have late (b : Nat) (x : FnId) : s.SameBytes (s.lateRecord b x) := State.lateRecord_ram _ _ _ rfl
  refine .next (ite_ram rfl ?_)
  cases f with
  | core c => exact ite_ram rfl (State.latchAll_ram _ (State.swapCore_ram _ _ (late _ _)))
  | bit b =>
    refine ite_ram rfl (ite_ram ?cluster (ite_ram ?stack (ite_ram ?dev (ite_ram ?port (ite_ram ?dmp ?other))))) <;>
      refine State.latchAll_ram _ ?_
    case cluster => exact State.swapCluster_ram _ _ (late _ _)
    case stack => exact State.lateStack_ram _ _ (late _ _)
    case dev => exact State.failDev_ram _ _ (late _ _)
    case port => exact foldl_ram (fun _ _ h => ite_ram h (State.retireLane_ram _ _ h)) _ (late _ _)
    case dmp => exact ite_ram (late _ _) (State.swapDmp_ram _ _ (late _ _))
    case other => exact late _ _

/-! ### Supply faults and event time -/

/-- An undervoltage that leaves the rails up stores nothing; one that removes them clears memory. -/
theorem execInputUndervoltage_ram {v : UnderVolt} (h42 : v ≠ .below42) (hw : v ≠ .withdrawn) :
    Completes s.SameBytes (execInputUndervoltage v s) := by
  refine .next (ite_ram rfl ?_)
  cases v with
  | below48 => exact State.latchAll_ram _ (State.raise_ram _ _ rfl)
  | below45 => exact ite_ram (State.latchAll_ram _ (State.raise_ram _ _ rfl)) rfl
  | below42 => exact absurd rfl h42
  | withdrawn => exact absurd rfl hw

/-! ### Power and heat -/

theorem execThermalSample_ram (x : Sensor) (milliC : Int) : Completes s.SameBytes (execThermalSample x milliC s) := by
  refine .next ?_
  extract_lets was th now _ s1 s2
  have h1 : s.SameBytes s1 := State.heatHolds_ram _ (State.springSample_ram _ _ _ rfl)
  have h2 : s.SameBytes s2 := by
    unfold s2
    split
    · exact State.setStack_ram _ _ _ h1
    · exact ite_ram (State.replaceDev_ram _ _ h1) h1
    · exact h1
  exact ite_ram (ite_ram (State.latchAll_ram _ (State.raisePower_ram _ _ _ h2))
    (ite_ram (State.latchAll_ram _ (State.raisePower_ram _ _ _ h2)) h2)) rfl

theorem execThermalTrip_ram (x : Sensor) : Completes s.SameBytes (execThermalTrip x s) := by
  refine .next (ite_ram ?_ rfl)
  cases x with
  | cluster p => exact State.latchAll_ram _ (State.raisePower_ram _ _ _ (State.dieTrip_ram _ _ rfl))
  | stack st => exact State.latchAll_ram _ (State.raisePower_ram _ _ _ (State.stackTrip_ram _ _ rfl))
  | regulator r => exact State.latchAll_ram _ (State.raisePower_ram _ _ _ (State.regulatorTrip_ram _ _ rfl))
  | cxl d => rfl
  | inlet => rfl
  | outlet => rfl

theorem execEnergyBook_ram (b : Booking) : Completes s.SameBytes (execEnergyBook b s) := by
  refine .next ?_
  extract_lets sum u total _ u1 u2
  have hu : s.SameBytes u := State.compareMeters_ram _ _ _ (State.meterRailEnergy_ram _ _ rfl)
  have h2 : s.SameBytes u2 := State.bookAll_ram _ _ _ _ hu
  exact ite_ram (ite_ram (State.latchAll_ram _ (State.raisePower_ram _ _ _ h2)) h2) rfl

/-! ### Clock crossings -/

theorem execQueueEntryArrive_ram (q : QueueId) (payload : Nat) (parityOk : Bool) :
    Completes s.SameBytes (execQueueEntryArrive q payload parityOk s) := by
  refine .next (ite_ram (ite_ram ?sent (ite_ram (State.stallAt_ram _ _ rfl) ?outside)) rfl)
  case sent =>
    split
    · rfl
    · exact ite_ram (State.setQueue_ram _ _ _ rfl) (State.latchAll_ram _ (State.queueParity_ram _ _ rfl))
  case outside =>
    split
    · exact State.shiftsArrive_ram _ _ _ _ _ rfl
    · exact ite_ram (State.seeEntry_ram _ _ _ rfl) (State.latchAll_ram _ (State.queueParity_ram _ _ rfl))

theorem execSyncLevelChange_ram (b : SyncBit) (level : Bool) : Completes s.SameBytes (execSyncLevelChange b level s) := by
  refine .next (ite_ram rfl (ite_ram (State.syncEffect_ram _ _ _ rfl) ?_))
  split
  · exact State.syncEffect_ram _ _ _ rfl
  · rfl

/-! ### Pans, sluice paths and vector units -/

theorem execTideRampStart_ram (u : StreamUnit) : Completes s.SameBytes (execTideRampStart u s) := by
  refine .next ?_
  cases u with
  | pan c p => exact ite_ram (State.bump_ram _ _ _ _ (State.setPan_ram _ _ _ _ rfl)) rfl
  | sluice c => exact ite_ram (State.setCore_ram _ _ _ rfl) rfl

theorem execTideRampStop_ram (u : StreamUnit) : Completes s.SameBytes (execTideRampStop u s) := by
  refine .next ?_
  cases u with
  | pan c p =>
    exact ite_ram (ite_ram (State.draw_ram _ (State.bump_ram _ _ _ _ (State.setPan_ram _ _ _ _ rfl)))
      (State.bump_ram _ _ _ _ (State.setPan_ram _ _ _ _ rfl))) rfl
  | sluice c => exact ite_ram (State.setCore_ram _ _ _ rfl) rfl

theorem execPolwinIdleStop_ram (u : StreamUnit) : Completes s.SameBytes (execPolwinIdleStop u s) := by
  refine .next ?_
  cases u with
  | pan c p => exact ite_ram (State.bump_ram _ _ _ _ (State.setPan_ram _ _ _ _ rfl)) rfl
  | sluice c => exact ite_ram (State.setCore_ram _ _ _ rfl) rfl

theorem execStationaryLoadAdmit_ram (c : CoreId) (p : PanId) : Completes s.SameBytes (execStationaryLoadAdmit c p s) := by
  have taken (x : PanSt) : s.SameBytes ((s.readQueue (stationaryQueue c p) 1).setPan c p x) :=
    State.setPan_ram _ _ _ _ (State.readQueue_ram _ _ _ rfl)
  have full (k : Nat) : s.SameBytes (s.bump 64 k 1) := State.bump_ram _ _ _ _ rfl
  refine .next (ite_ram ?_ rfl)
  split
  · exact ite_ram (full _) (taken _)
  · refine ite_ram (full _) ?_
    split
    · rfl
    · exact taken _

theorem execPassStart_ram (c : CoreId) (p : PanId) (slip : Option TagSlip) : Completes s.SameBytes (execPassStart c p slip s) := by
  have fill : s.SameBytes (s.fillRow c p) := State.fillRow_ram _ _ _ rfl
  have wait : s.SameBytes (s.waitRow c p) := State.waitRow_ram _ _ _ rfl
  refine .next ?_
  dsimp only
  split
  · exact fill
  split
  · rfl
  refine ite_ram rfl (ite_ram fill (ite_ram ?_ rfl))
  split
  · refine ite_ram ?_ (ite_ram rfl wait)
    split
    · exact State.tagFault_ram _ _ _ _ _ rfl
    · exact State.badRegister_ram _ _ _ _ _ _ rfl
    · exact State.runPass_ram _ _ _ _ _ _ rfl
  · exact ite_ram rfl wait

theorem execTileComplete_ram (c : CoreId) (p : PanId) : Completes s.SameBytes (execTileComplete c p s) := by
  refine .next ?_
  dsimp only
  split
  · rfl
  split
  · rfl
  · exact ite_ram (ite_ram (State.latchAll_ram _ (State.pendEvent_ram _ _ (State.applyRemap_ram _ _ _
      (State.completeTile_ram _ _ _ _ _ rfl)))) (State.stallQueue_ram _ _ rfl)) rfl

theorem execSegmentTestDone_ram (c : CoreId) (p : PanId) (found : SegFinding) :
    Completes s.SameBytes (execSegmentTestDone c p found s) := by
  refine .next ?_
  extract_lets x s1 s2
  have h2 : s.SameBytes s2 := by
    cases found <;> exact State.retirePan_ram _ _ _ _ _ (State.setPan_ram _ _ _ _ rfl)
  exact ite_ram (State.latchAll_ram _ (ite_ram (State.bump_ram _ _ _ _ h2) (State.replayPan_ram _ _ _ _ h2))) rfl

/-! ### Scaling, programs and the step -/

theorem execProgLoadCheckDone_ram : Completes s.SameBytes (execProgLoadCheckDone s) := by
  refine .next ?_
  split
  · rfl
  dsimp only
  split
  · exact State.setEnt_ram _ _ _ (State.setEnt_ram _ _ _ rfl)
  · exact State.acceptProgram_ram _ _ rfl

theorem execDescAdmit_ram (d : DieId) : Completes s.SameBytes (execDescAdmit d s) := by
  refine .next ?_
  split
  · rfl
  · exact ite_ram rfl (ite_ram (State.setStream_ram _ _ _ rfl) (ite_ram (State.draw_ram _ (State.bump_ram _ _ _ _ rfl))
      (ite_ram (State.bump_ram _ _ _ _ rfl) (State.admitItem_ram _ _ _ _ rfl))))

theorem execDescReady_ram (slot : Nat) : Completes s.SameBytes (execDescReady slot s) := by
  have ready (f : DescRun → DescRun) : s.SameBytes (s.mapDesc slot f) := State.mapDesc_ram _ _ _ rfl
  refine .next ?_
  split
  · rfl
  · exact ite_ram rfl (ite_ram (ready _) (ite_ram (State.noopUpdate_ram _ _ rfl)
      (ite_ram (State.latchAll_ram _ (State.completeEmpty_ram _ _ rfl)) (ite_ram (ready _) rfl))))

theorem execMcastDelivery_ram (d : DieId) (set : Nat) : Completes s.SameBytes (execMcastDelivery d set s) := by
  refine .next ?_
  dsimp only
  split
  · rfl
  refine ite_ram ?_ rfl
  split
  · rfl
  split
  · exact State.deliverSet_ram _ _ _ _ _ _ rfl
  split
  · exact State.troubled_ram _ _ _ rfl
  · exact State.fetchTrouble_ram _ _ _ _ _ rfl
  · exact State.deliverSet_ram _ _ _ _ _ _ rfl

theorem execFiniteCheck_ram : Completes s.SameBytes (execFiniteCheck s) := by
  refine .next ?_
  extract_lets _ _ s1 s2
  have h1 : s.SameBytes s1 := State.setPhase_ram _ _ (State.rollUp_ram _ rfl)
  have h2 : s.SameBytes s2 := ite_ram h1 (State.sendMirror_ram _ _ _ h1)
  exact ite_ram h2 (ite_ram rfl rfl)

theorem execFiniteCheckResult_ram (heard : List FcContribution) : Completes s.SameBytes (execFiniteCheckResult heard s) := by
  refine .next (ite_ram ?_ rfl)
  extract_lets s0
  have h0 : s.SameBytes s0 := State.draw_ram _ (State.setEnt_ram _ _ _ rfl)
  exact ite_ram (State.latchAll_ram _ (State.groupFault_ram _ h0)) (ite_ram (State.latchAll_ram _ (State.endReplay_ram _ _ h0))
    (State.latchAll_ram _ (State.commitStep_ram _ _ _ h0)))

theorem execRakeReductionDone_ram (heard : List RakeContribution) (micros : Nat) :
    Completes s.SameBytes (execRakeReductionDone heard micros s) := by
  refine .next ?_
  split
  · rfl
  refine ite_ram ?_ rfl
  extract_lets s1 _ s2
  have h1 : s.SameBytes s1 := State.askReset_ram _ _ (State.installFloors_ram _ rfl)
  have h2 : s.SameBytes s2 := State.setEnt_ram _ _ _ h1
  refine ite_ram (State.latchAll_ram _ (State.groupFault_ram _ h2)) ?_
  split
  · exact State.latchAll_ram _ (State.badRake_ram _ _ h2)
  · exact State.latchAll_ram _ (State.runRake_ram _ _ _ h2)

theorem execNvpSelftestDone_ram (failures first : Nat) : Completes s.SameBytes (execNvpSelftestDone failures first s) := by
  refine .next (ite_ram ?_ rfl)
  extract_lets s1 s2 _ s3
  have h2 : s.SameBytes s2 := State.setEnt_ram _ _ _ (State.setEnt_ram _ _ _ (State.setEnt_ram _ _ _ rfl))
  exact ite_ram (State.latchAll_ram _ (State.raise_ram _ _ h2)) (ite_ram (State.setCompute_ram _ h2) (State.computeCheck_ram _ h2))

/-! ### Memory, arbitration and repairs -/

theorem execMapRunComplete_ram : Completes s.SameBytes (execMapRunComplete s) := by
  have h1 : s.SameBytes s.sendMapMirror := State.sendMapMirror_ram _ rfl
  exact .next (ite_ram
    (ite_ram (State.latchAll_ram _ (State.failReq_ram _ _ (State.raise_ram _ _ rfl)))
      (ite_ram (State.latchAll_ram _ (State.failReq_ram _ _ rfl)) rfl))
    (ite_ram (ite_ram h1 (State.raiseVector_ram _ _ (State.setEnt_ram _ _ _ h1))) rfl))

/-- A line that cannot be corrected keeps the bytes that it has, poisoned (R248, R250). -/
theorem State.poisonedLine_ram {z t : State} (addr : Nat) (by_ : Reader) (h : z.SameBytes t) :
    z.SameBytes ((((t.poisonLine addr).memEvent addr).rebuildLine (pageOf addr)).bearPoison by_ addr).latchAll :=
  State.latchAll_ram _ (State.bearPoison_ram _ _ _ (State.rebuildLine_ram _ _ (State.memEvent_ram _ _ (State.poisonLine_ram _ _ h))))

theorem execHbmUncorrectableError_ram (st : StackId) (pc : PcId) (addr : Nat) (by_ : Reader) :
    Completes s.SameBytes (execHbmUncorrectableError st pc addr by_ s) := by
  refine .next (ite_ram ?_ rfl)
  extract_lets _ s1
  have h1 : s.SameBytes s1 := State.raise_ram _ _ (State.bump_ram _ _ _ _ rfl)
  exact ite_ram (State.latchAll_ram _ (State.reservedError_ram _ _ _ h1)) (State.poisonedLine_ram _ _ h1)

theorem execPcSpareCopyDone_ram (st : StackId) : Completes s.SameBytes (execPcSpareCopyDone st s) := by
  refine .next ?_
  split
  · rfl
  · exact State.dropMemSource_ram _ _ (State.dropMemSource_ram _ _ (State.setStack_ram _ _ _ rfl))

theorem execCxlEventRecord_ram (d : CxlId) (e : CxlEvent) : Completes s.SameBytes (execCxlEventRecord d e s) := by
  refine .next (ite_ram ?_ rfl)
  cases e with
  | corrected n => exact State.cxlCorrected_ram _ _ _ (State.bump_ram _ _ _ _ rfl)
  | poisoned addr by_ => exact State.poisonedLine_ram _ _ (State.raise_ram _ _ (State.bump_ram _ _ _ _ rfl))
  | degraded => exact State.latchAll_ram _ (State.replaceDev_ram _ _ rfl)
  | failed => exact State.latchAll_ram _ (State.failDev_ram _ _ rfl)

theorem execCxlReplaceCopyDone_ram (d : CxlId) : Completes s.SameBytes (execCxlReplaceCopyDone d s) := by
  refine .next (ite_ram ?_ rfl)
  split
  · exact State.setDev_ram _ _ _ rfl
  · exact State.setReady_ram _ _ _ (State.dropMemSource_ram _ _ (State.dropMemSource_ram _ _
      (State.setDev_ram _ _ _ (State.setDev_ram _ _ _ rfl))))

theorem execPageRebuildDone_ram (page : Nat) : Completes s.SameBytes (execPageRebuildDone page s) := by
  refine .next (ite_ram ?_ rfl)
  extract_lets s1 _ s2
  have h2 : s.SameBytes s2 := ram_mk rfl rfl (State.setMapEntry_ram _ _ _ (State.clearLines_ram _ _ rfl))
  exact State.latchAll_ram _ (State.retryRead_ram _ (ite_ram (State.stackRebuilt_ram _ _ h2) h2))

theorem execArbGrant_ram (a : ArbId) (resource : Nat) (present : List Nat) (hold : Bool) :
    Completes s.SameBytes (execArbGrant a resource present hold s) := by
  have h1 : s.SameBytes (s.cutIfDue (arbLevel a) (arbInstance a) resource) := State.cutIfDue_ram _ _ _ _ rfl
  refine .next (ite_ram rfl ?_)
  dsimp only
  split
  · exact State.setHold_ram _ _ _ _ _ (State.countCycle_ram _ _ _ _ _ _ _ h1)
  split
  · exact State.countCycle_ram _ _ _ _ _ _ _ h1
  · exact State.setHold_ram _ _ _ _ _ (State.countCycle_ram _ _ _ _ _ _ _ h1)

theorem execClusterSwapDone_ram (k : ClusterId) (passed : Bool) : Completes s.SameBytes (execClusterSwapDone k passed s) := by
  have h1 : s.SameBytes { s with rep.clusterSwap := listErase s.rep.clusterSwap k.val } := rfl
  exact .next (ite_ram
    (ite_ram
      (State.computeCheck_ram _ (State.setReady_ram _ _ _ (foldl_ram (fun _ _ => State.setCoreReady_ram _ _ _) _
        (State.countSwap_ram _ _ _ h1))))
      (State.latchAll_ram _ (State.raise_ram _ _ h1))) rfl)

/-! ### The stockpile and the crust -/

theorem execSnapshotComplete_ram : Completes s.SameBytes (execSnapshotComplete s) := by
  refine .next ?_
  split
  · rfl
  · exact ite_ram (State.latchAll_ram _ (State.wear_ram _ _ (State.setEnt_ram _ _ _ rfl))) rfl

theorem execCrustDeltaRx_ram (h : BrineHdr) : Completes s.SameBytes (execCrustDeltaRx h s) := by
  refine .next (State.receive_ram _ _ _ (fun u hu => ?_) rfl)
  split
  · exact State.holdDelta_ram _ _ _ hu
  · exact hu

theorem execHeartbeatTx_ram : Completes s.SameBytes (execHeartbeatTx s) := by
  refine .next (ite_ram ?_ rfl)
  extract_lets s1
  exact (foldl_ram (fun _ _ => State.sendAllLanes_ram _ _) _ rfl : s.SameBytes s1)

theorem execHeartbeatRx_ram (h : BrineHdr) : Completes s.SameBytes (execHeartbeatRx h s) := by
  refine .next (State.receiveFree_ram _ _ _ (fun u hu => ?_) rfl)
  split <;> exact hu

theorem execWithdrawalRx_ram (h : BrineHdr) : Completes s.SameBytes (execWithdrawalRx h s) := by
  refine .next (State.receive_ram _ _ _ (fun u hu => ?_) rfl)
  split
  · exact State.takeWithdrawal_ram _ _ hu
  · exact hu

/-! ### Faults -/

theorem execMirrorFlush_ram (ok : Bool) : Completes s.SameBytes (execMirrorFlush ok s) := by
  refine .next (ite_ram (ite_ram ?_ (State.latchAll_ram _ (State.raise_ram _ _ rfl))) rfl)
  split
  · rfl
  · exact State.mirrorOne_ram _ _ rfl

/-! ### Messages and the field network -/

theorem execMailboxDoorbell_ram (value : BitVec 32) (w : Bar2Writes) : Completes s.SameBytes (execMailboxDoorbell value w s) := by
  have h0 : s.SameBytes (if s.links.host.up then w.config.foldl State.configWrite s else s) :=
    ite_ram (foldl_ram (fun _ _ => State.configWrite_ram _ _) _ rfl) rfl
  exact .next (ite_ram
    (State.bar2_ram _ _ (fun _ hu => State.latchAll_ram _ (State.afterWrites_ram _ hu)) h0) h0)

theorem execChain_ram (src : Fin 256) (sender : FieldAddr) : Completes s.SameBytes (execChain src sender s) := by
  refine .next (ite_ram ?_ rfl)
  extract_lets _ s0 s1 s2
  have h1 : s.SameBytes s1 := State.checkClaim_ram _ _ _ (ite_ram rfl rfl)
  have h2 : s.SameBytes s2 := State.bump_ram _ _ _ _ h1
  exact ite_ram h1 (ite_ram (State.takeId_ram _ _ h2) (State.condition_ram _ _ _ _ _ _ h2))

theorem execPlcaTransmitOpportunity_ram : Completes s.SameBytes (execPlcaTransmitOpportunity s) := by
  refine .next (ite_ram ?_ rfl)
  split
  · rfl
  extract_lets _ s1
  have h1 : s.SameBytes s1 := State.bump_ram _ _ _ _ rfl
  exact ite_ram h1 h1

/-! ### The host link, CXL links and Brine -/

theorem execPcieLinkError_ram (e : HostErr) : Completes s.SameBytes (execPcieLinkError e s) := by
  refine .next (ite_ram ?_ rfl)
  cases e with
  | replay => exact State.latchAll_ram _ (State.raise_ram _ _ (State.bump_ram _ _ _ _ rfl))
  | uncorrectable => exact State.latchAll_ram _ (State.raise_ram _ _ rfl)
  | receiver => exact State.latchAll_ram _ (State.raise_ram _ _ rfl)
  | linkDown => exact State.hostDown_ram _ (State.latchAll_ram _ (State.raise_ram _ _ rfl))

theorem execCxlLinkError_ram (d : CxlId) (e : CxlErr) : Completes s.SameBytes (execCxlLinkError d e s) := by
  refine .next (ite_ram ?_ rfl)
  cases e with
  | replay => exact State.latchAll_ram _ (State.raise_ram _ _ (State.bump_ram _ _ _ _ rfl))
  | linkDown => exact State.latchAll_ram _ (State.raise_ram _ _ rfl)
  | stillDown =>
    exact ite_ram rfl (State.latchAll_ram _ (State.downForGood_ram _ _ (State.latchAll_ram _ (State.raise_ram _ _
      (State.bump_ram _ _ _ _ (State.setDev_ram _ _ _ rfl))))))
  | trainedBelow rate width => exact State.cxlRuns_ram _ _ _ _ rfl

theorem execLinkRetrainDone_ram (k : LinkId) (rate width : Nat) : Completes s.SameBytes (execLinkRetrainDone k rate width s) := by
  refine .next (ite_ram rfl ?_)
  cases k with
  | host => exact ite_ram rfl (State.hostUp_ram _ _ _ rfl)
  | cxl d => exact ite_ram rfl (State.cxlRuns_ram _ _ _ _ (State.bump_ram _ _ _ _ (State.setDev_ram _ _ _ rfl)))
  | lane p l => exact ite_ram rfl (State.sendLaneState_ram _ _ (State.setLane_ram _ _ _ rfl))

theorem execBrineLaneError_ram (p : PortId) (l : LaneId) (e : LaneErr) : Completes s.SameBytes (execBrineLaneError p l e s) := by
  refine .next (ite_ram ?_ rfl)
  cases e with
  | corrected n => exact State.bump_ram _ _ _ _ rfl
  | fec => exact State.latchAll_ram _ (State.raise_ram _ _ (State.resend_ram _ _ _ (State.bump_ram _ _ _ _ rfl)))
  | resendTimeout => exact State.latchAll_ram _ (State.raise_ram _ _ (State.resend_ram _ _ _ rfl))
  | lossOfLock =>
    exact State.latchAll_ram _ (State.raise_ram _ _ (State.rerouteLane_ram _ _ (State.sendLaneState_ram _ _
      (State.setLane_ram _ _ _ rfl))))
  | failsTraining => exact State.retireLane_ram _ _ (State.latchAll_ram _ (State.raise_ram _ _ rfl))

/-- Every command that is not one of those that store completes with the bytes that memory held (R262). -/
theorem exec_ram (c : Instr) (s : State) (bytes : mayStore c = false) : Completes s.SameBytes (exec c s) := by
  cases c with
  | powerGood | pwrOkFall | hardwareOvervoltageRemoval | writebackDrain _ _ _ | sluicePassComplete _ | vectorChunkComplete _ _
    | forwardAttemptDone _ | amaxPassDone _ _ | unitSchedule _ | updateGatherDone _ | applyChunkComplete _ | updateComplete
    | stepBoundary _ | mapReqMap | migrationDone _ | memTransaction _ | crustResyncDone | memberLost _ _ _ _ | rebuildComplete _
    | stockRestoreDone | ixiqueRead _ | ixiqueWrite _ | ixiqueDescribe _ | segmentRead _ | segmentWrite _ | hostBar4Write _ _
    | collectiveDataRx _ | crustSealAckRx _ | crustSealRx _ | mirrorRx _ | reducedStreamRx _ | attestReportDone => exact nomatch bytes
  | inputApplied => exact .next (ite_ram rfl rfl)
  | prechargeDone => exact .next (ite_ram rfl rfl)
  | pwrOkRise => exact .next (ite_ram rfl rfl)
  | firmwareStart => exact execFirmwareStart_ram s
  | recorderReloadDone =>
    exact .next (ite_ram (State.setReady_ram _ _ _ (foldl_ram (fun _ _ => State.storeRecord_ram _ _) _ (State.setEnt_ram _ _ _ rfl))) rfl)
  | functionReady f => exact execFunctionReady_ram s f
  | readinessDeadline f => exact execReadinessDeadline_ram s f
  | inputUndervoltage v => exact execInputUndervoltage_ram s (by rintro rfl; exact nomatch bytes) (by rintro rfl; exact nomatch bytes)
  | inputOvervoltage => exact .next (ite_ram (State.latchAll_ram _ (State.raise_ram _ _ rfl)) rfl)
  | evtTick => exact .next (ite_ram rfl rfl)
  | evtTickLost => exact .next (ite_ram (State.latchAll_ram _ (State.raise_ram _ _ rfl)) rfl)
  | powerControlTick _ =>
    exact .next (ite_ram (State.draw_ram _ (State.bump_ram _ _ _ _ (State.bump_ram _ _ _ _ (State.latchAll_ram _ (State.thawAll_ram _
      (State.setEnt_ram _ _ _ (foldl_ram (fun _ _ => State.tickCluster_ram _ _ _) _ (State.voltTick_ram _ _ (State.accountTick_ram _ _
        (State.meterEntries_ram _ _ rfl)))))))))) rfl)
  | clockStopRequest _ => exact .next (ite_ram (State.setCore_ram _ _ _ rfl) rfl)
  | clockStopRelease _ => exact .next (ite_ram (State.latchAll_ram _ (State.thaw_ram _ _ (State.setCore_ram _ _ _ rfl))) rfl)
  | peakStepdown => exact .next (ite_ram (State.condition_ram _ _ _ _ _ _ (State.bump_ram _ _ _ _ rfl)) rfl)
  | transientSample _ => exact .next (ite_ram (ram_mk rfl rfl (State.setEnt_ram s _ _ rfl)) rfl)
  | thermalSample x milliC => exact execThermalSample_ram s x milliC
  | thermalTrip x => exact execThermalTrip_ram s x
  | energyBook b => exact execEnergyBook_ram s b
  | springDeferredApply => exact .next (ite_ram (State.springBoundary_ram _ rfl) rfl)
  | queueEntryArrive q payload parityOk => exact execQueueEntryArrive_ram s q payload parityOk
  | queueSlotRelease _ => exact .next (ite_ram (State.latchAll_ram _ (State.entryRead_ram _ _ _ _ (State.setQueue_ram _ _ _ rfl))) rfl)
  | syncLevelChange b level => exact execSyncLevelChange_ram s b level
  | tideRampStart u => exact execTideRampStart_ram s u
  | stationaryLoadAdmit c p => exact execStationaryLoadAdmit_ram s c p
  | passStart c p slip => exact execPassStart_ram s c p slip
  | tileComplete c p => exact execTileComplete_ram s c p
  | tideRampStop u => exact execTideRampStop_ram s u
  | polwinIdleStop u => exact execPolwinIdleStop_ram s u
  | segmentTestDone c p found => exact execSegmentTestDone_ram s c p found
  | progLoadCheckDone => exact execProgLoadCheckDone_ram s
  | descAdmit d => exact execDescAdmit_ram s d
  | descReady slot => exact execDescReady_ram s slot
  | mcastDelivery d set => exact execMcastDelivery_ram s d set
  | finiteCheck => exact execFiniteCheck_ram s
  | finiteCheckResult others => exact execFiniteCheckResult_ram s others
  | finiteCheckTimeout => exact .next (ite_ram (State.latchAll_ram _ (State.groupFault_ram _ rfl)) rfl)
  | rakeReductionDone others micros => exact execRakeReductionDone_ram s others micros
  | nvpSelftestDone failures first => exact execNvpSelftestDone_ram s failures first
  | mapReqUnmap => exact .next (State.processFold_ram _ _ _ _ _ State.dropPage_ram rfl)
  | mapReqMigrate => exact .next (State.processReq_ram _ _ _ _ (fun _ _ => State.migrateRun_ram _ _) rfl)
  | mapReqSetRo => exact .next (State.processReq_ram _ _ _ _ (fun _ _ => State.flagPages_ram _ _ _) rfl)
  | mapReqClearRo => exact .next (State.processReq_ram _ _ _ _ (fun _ _ => State.flagPages_ram _ _ _) rfl)
  | mapReqSetCc => exact .next (State.processFold_ram _ _ _ _ _ State.coverPage_ram rfl)
  | mapReqClearCc => exact .next (State.processFold_ram _ _ _ _ _ State.uncoverPage_ram rfl)
  | mapRunComplete => exact execMapRunComplete_ram s
  | hbmCorrectableError _ _ => exact .next (ite_ram (State.latchAll_ram _ (State.raise_ram _ _ (State.bump_ram _ _ _ _ rfl))) rfl)
  | hbmUncorrectableError st pc addr by_ => exact execHbmUncorrectableError_ram s st pc addr by_
  | hbmScrubPass _ => exact .next (ite_ram (State.bump_ram _ _ _ _ rfl) rfl)
  | pcSpareCopyDone st => exact execPcSpareCopyDone_ram s st
  | cxlEventRecord d e => exact execCxlEventRecord_ram s d e
  | cxlReplaceCopyDone d => exact execCxlReplaceCopyDone_ram s d
  | pageRebuildDone page => exact execPageRebuildDone_ram s page
  | arbGrant a resource present hold => exact execArbGrant_ram s a resource present hold
  | holdCutoff _ _ => exact .next (ite_ram (State.cutIfDue_ram _ _ _ _ rfl) rfl)
  | coreSwapDone _ _ =>
    exact .next (ite_ram (ite_ram (State.computeCheck_ram _ (State.setCoreReady_ram _ _ _ (State.countSwap_ram _ _ _ rfl)))
      (State.latchAll_ram _ (State.swapCluster_ram _ _ rfl))) rfl)
  | clusterSwapDone k passed => exact execClusterSwapDone_ram s k passed
  | heartbeatTx => exact execHeartbeatTx_ram s
  | snapshotImageWritten => exact .next (ite_ram rfl rfl)
  | snapshotComplete => exact execSnapshotComplete_ram s
  | faultLatch _ =>
    exact .next (ite_ram (ite_ram (State.violation_ram _ _ _ _ _ rfl)
      (ite_ram (State.latchAll_ram _ (State.raise_ram _ _ (State.mismatch_ram _ _ rfl))) (State.latchAll_ram _ (State.raise_ram _ _ rfl)))) rfl)
  | faultHandlingDone _ _ => exact .next (ite_ram (State.handled_ram _ _ rfl) rfl)
  | aliveToggle => exact .next (ite_ram rfl rfl)
  | mgmtWatchdogExpiry => exact .next (ite_ram (State.latchAll_ram _ (State.raise_ram _ _ rfl)) rfl)
  | dmpWatchdogExpiry _ => exact .next (ite_ram (State.latchAll_ram _ (State.raise_ram _ _ rfl)) rfl)
  | cprocWatchdogExpiry _ => exact .next (ite_ram (State.latchAll_ram _ (State.raise_ram _ _ rfl)) rfl)
  | mirrorFlush ok => exact execMirrorFlush_ram s ok
  | segmentTransferTimeout => exact .next rfl
  | chain src mac => exact execChain_ram s src mac
  | chainReset => exact .next (ite_ram (State.condition_ram _ _ _ _ _ _ (State.bump_ram _ _ _ _ (State.setEnt_ram _ _ _ rfl))) rfl)
  | notify => exact .next (ite_ram (State.fieldNotify_ram _ (State.vectorOne_ram _ rfl)) rfl)
  | mailboxDoorbell value w => exact execMailboxDoorbell_ram s value w
  | mailboxSlotFree _ _ => exact .next (State.bar2_ram _ _ (fun _ => State.freeSlot_ram _ _ _) rfl)
  | perstAssert => exact .next (ite_ram rfl (State.resetPort_ram s rfl))
  | hotReset => exact .next (ite_ram (State.resetPort_ram _ rfl) rfl)
  | functionLevelReset => exact .next (ite_ram (State.resetFunction_ram _ rfl) rfl)
  | powerStateChange _ => exact .next (ite_ram rfl rfl)
  | hostBar4Read _ _ => exact .next (ite_ram rfl (ite_ram rfl (State.latchAll_ram _ (State.hostRead_ram _ _ _ rfl))))
  | pcieLinkError e => exact execPcieLinkError_ram s e
  | cxlLinkError d e => exact execCxlLinkError_ram s d e
  | brineLaneError p l e => exact execBrineLaneError_ram s p l e
  | brineAckRx _ => exact .next (State.receiveFree_ram _ _ _ (fun _ => id) rfl)
  | brineNackRx _ => exact .next (State.receiveFree_ram _ _ _ (fun _ => State.resend_ram _ _ _) rfl)
  | brineRetxTimeout _ _ _ => exact .next (ite_ram (State.resend_ram _ _ _ rfl) rfl)
  | brineAckTimer _ _ _ => exact .next (ite_ram (State.sendAck_ram _ _ _ rfl) rfl)
  | heartbeatRx h => exact execHeartbeatRx_ram s h
  | withdrawalRx h => exact execWithdrawalRx_ram s h
  | abandonNoticeRx _ => exact .next (State.receive_ram _ _ _ (fun _ hu => ite_ram (State.enterAbandon_ram _ _ hu) hu) rfl)
  | epochChangeRx _ => exact .next (State.receive_ram _ _ _ (fun _ hu => ite_ram hu (State.takeChange_ram _ _ hu)) rfl)
  | epochAckRx _ => exact .next (State.receive_ram _ _ _ (fun _ hu => State.startRebuild_ram _ hu) rfl)
  | crustDeltaRx h => exact execCrustDeltaRx_ram s h
  | laneStateRx _ => exact .next (State.receiveFree_ram _ _ _ (fun _ => id) rfl)
  | stageDone => exact .next (ite_ram (State.stageDone_ram _ rfl) rfl)
  | perstDeassert => exact .next rfl
  | plcaTransmitOpportunity => exact execPlcaTransmitOpportunity_ram s
  | hotSpareOfferRx _ => exact .next (ite_ram (State.setEnt_ram _ _ _ (State.setEnt_ram _ _ _ rfl)) rfl)
  | linkRetrainDone k rate width => exact execLinkRetrainDone_ram s k rate width
  | dmpSwapDone _ => exact .next (ite_ram (State.computeCheck_ram _ (State.setReady_ram _ _ _ rfl)) rfl)

/-- Settles O14: by cases on the command, each of whose operations stores no byte. -/
theorem otherCommandsStoreNothing : Obligations.OtherCommandsStoreNothing := by
  unfold Obligations.OtherCommandsStoreNothing
  intro c s t bytes next a
  obtain ⟨u, done, same⟩ := exec_ram c s bytes
  obtain rfl : u = t := Host.Outcome.next.inj (done.symm.trans next)
  rw [State.ramByte, State.ramByte, same]

end Sys2Proof.Machine

/-! PROOFS. Frames that change epochs (R219, R304, R314, R391): what hearing a frame and sending on Brine leave of the crust and the groups. -/

namespace Sys2Proof.Machine

variable {s t u : State} {h : BrineHdr}

/-! ### The crust beside Brine -/

/-- The crust but for the mirrors that it waits for, and its group: what no frame that comes or goes touches. -/
abbrev State.ownCrust (s : State) := ({ s.crust with mirrorWait := [] }, s.ent Ent.crustGroup)

/-- The crust's group is no counter of Brine. -/
theorem State.ownCrust_bump (s : State) {k : Nat} (w n : Nat) (hk : Ent.crustGroup ≠ k) : (s.bump w k n).ownCrust = s.ownCrust :=
  congrArg (Prod.mk _) (s.ent_bump_ne w n hk)

theorem State.sendOn_ownCrust (s : State) (i : Nat) (f : TxFrame) : (s.sendOn i f).ownCrust = s.ownCrust := by
  have cls : brineClass f.kind ≤ 3 := by
    unfold brineClass
    split <;> decide
  have waited : (s.classWait i (brineClass f.kind)).ownCrust = s.ownCrust := by
    unfold State.classWait
    split
    · exact s.ownCrust_bump _ _ (by unfold Ent.crustGroup Ent.brineClassWaitUs; omega)
    · rfl
  unfold State.sendOn
  split
  · rfl
  · exact (State.ownCrust_bump _ _ _ (by unfold Ent.crustGroup Ent.brineTxBytes; omega)).trans waited

theorem State.sendFrame_ownCrust (s : State) (f : TxFrame) : (s.sendFrame f).ownCrust = s.ownCrust := by
  unfold State.sendFrame
  split
  · rfl
  · exact s.sendOn_ownCrust _ f

theorem State.takeHeader_ownCrust (s : State) (h : BrineHdr) : (s.takeHeader h).ownCrust = s.ownCrust := by
  have resends (u : State) (p n : Nat) : (u.bump 64 (Ent.brineResends p) n).ownCrust = u.ownCrust :=
    u.ownCrust_bump _ _ (by unfold Ent.crustGroup Ent.brineResends; omega)
  have rerouted (u : State) (node i : Nat) : (u.reroutePath node i).ownCrust = u.ownCrust :=
    State.reroutePath_rec (P := fun t => t.ownCrust = u.ownCrust) rfl (fun t f e => (t.sendFrame_ownCrust f).trans e) fun t p n e =>
      (resends t p n).trans e
  have mask : (s.takeMask h).ownCrust = s.ownCrust := foldl_same (π := State.ownCrust) (fun u _ => rerouted u _ _) _ (s.maskKnown h)
  exact (State.ownCrust_bump _ _ _ (by unfold Ent.crustGroup Ent.brineRxBytes; omega)).trans mask

theorem State.noteFrame_ownCrust (s : State) (h : BrineHdr) : (s.noteFrame h).ownCrust = s.ownCrust := by
  unfold State.noteFrame
  extract_lets i l due s1
  split
  · exact s1.sendOn_ownCrust _ _
  · rfl

/-- Whether a spare maps the lost member's pages first is a matter of its crust (R301). -/
theorem mapsFirst_of_ownCrust (same : t.ownCrust = s.ownCrust) (h : BrineHdr) : t.mapsFirst h = s.mapsFirst h := by
  have taking : t.crust.taking = s.crust.taking := congrArg (·.1.taking) same
  have own : t.crust.own = s.crust.own := congrArg (·.1.own) same
  have group : t.ent Ent.crustGroup = s.ent Ent.crustGroup := congrArg (·.2) same
  simp only [State.mapsFirst, taking, own, group]

/-- A frame in order is acted on once it has been heard and counted (R387). -/
theorem State.receive_inOrder (order : InOrder h s) (f : State → State) :
    ∃ u, s.Heard u ∧ u.ownCrust = s.ownCrust ∧ u.Quiet ∧ s.receive h f = (f u).latchAll := by
  obtain ⟨heard, next, quiet⟩ := order
  have kept : s.Heard ((s.takeHeader h).noteFrame h) := (s.takeHeader_heard h).trans (State.noteFrame_heard _ h)
  refine ⟨_, kept, (State.noteFrame_ownCrust _ h).trans (s.takeHeader_ownCrust h), by rw [State.Quiet, kept.flt, quiet],
    (if_pos heard).trans (if_pos ?_)⟩
  rw [s.rxNext_takeHeader h, next]

/-! ### Sends beside the lanes -/

theorem State.sendSegments_offLane : ∀ (n : Nat) (s : State) (f : TxFrame) (l : List Byte), (State.sendSegments n s f l).offLane = s.offLane
  | 0, s, _, _ => s.sendFrame_offLane _
  | n + 1, s, f, l => by
    unfold State.sendSegments
    split
    · exact s.sendFrame_offLane _
    · exact (State.sendSegments_offLane n _ _ _).trans (s.sendFrame_offLane _)

theorem State.sendBytes_offLane (s : State) (f : TxFrame) (l : List Byte) : (s.sendBytes f l).offLane = s.offLane :=
  State.sendSegments_offLane _ s f l

/-- Groups, memory and faults lie beside the lanes. -/
theorem parts_of_offLane (same : t.offLane = s.offLane) : t.links.groups = s.links.groups ∧ t.mem = s.mem ∧ t.flt = s.flt := by
  obtain ⟨-, -, -, mem, flt⟩ := parts_of_unsent (congrArg (·.1) same)
  exact ⟨congrArg (·.2.2.groups) same, mem, flt⟩

/-! ### A group takes an epoch change -/

theorem State.Heard.node (h : s.Heard t) : t.node = s.node := h.ent _ (by decide)

theorem State.sendMap_offLane (s : State) (rank spare : Nat) : (s.sendMap rank spare).offLane = s.offLane := by
  unfold State.sendMap
  split
  · exact s.sendBytes_offLane _ _
  · rfl

theorem State.serveSpare_offLane (s : State) (rank lost spare : Nat) : (s.serveSpare rank lost spare).offLane = s.offLane := by
  unfold State.serveSpare
  extract_lets g unsent _ s1 s2
  have h2 : s2.offLane = s.offLane := by
    unfold s2
    split
    · exact foldl_same (π := State.offLane) (fun u _ => u.sendBytes_offLane _ _) _ s1
    · rfl
  split
  · exact (State.sendBytes_offLane _ _ _).trans ((foldl_same (π := State.offLane) (fun u _ => u.sendFrame_offLane _) _ s2).trans h2)
  · exact h2

/-- Group `g` has the spare in the lost node's place, under the next epoch; the other groups, memory and faults stay. -/
def State.Installs (s : State) (g lost spare : Nat) (t : State) : Prop :=
  t.group g = (s.group g).replace s.node lost spare ∧ (∀ j, j ≠ g → t.group j = s.group j) ∧ t.mem = s.mem ∧ t.flt = s.flt

theorem State.Installs.of_offLane {g lost spare : Nat} (i : s.Installs g lost spare t) (same : u.offLane = t.offLane) :
    s.Installs g lost spare u := by
  obtain ⟨self, others, mem, flt⟩ := i
  obtain ⟨groups, mem', flt'⟩ := parts_of_offLane same
  have group (j : Nat) : u.group j = t.group j := by rw [State.group, groups, State.group]
  exact ⟨(group g).trans self, fun j hj => (group j).trans (others j hj), mem'.trans mem, flt'.trans flt⟩

theorem State.setGroup_installs (s : State) (g lost spare : Nat) :
    s.Installs g lost spare (s.setGroup g ((s.group g).replace s.node lost spare)) :=
  ⟨Kv.getD_setD_self _ _ _ _, fun _ hj => Kv.getD_setD_ne _ _ _ hj, rfl, rfl⟩

theorem State.installEpoch_installs (s : State) (g rank lost spare : Nat) : s.Installs g lost spare (s.installEpoch g rank lost spare) := by
  unfold State.installEpoch
  split
  · extract_lets s0
    have same : s0.offLane = s.offLane := by
      unfold s0
      split
      · rfl
      · exact s.sendMap_offLane _ _
    obtain ⟨groups, mem, flt⟩ := parts_of_offLane same
    have group (j : Nat) : s0.group j = s.group j := by rw [State.group, groups, State.group]
    refine State.Installs.of_offLane (t := (s0.setGroup g ((s0.group g).replace s.node lost spare)).beginRebuild rank (s.spareSlot spare))
      ?_ (State.serveSpare_offLane _ _ _ _)
    refine ⟨?_, fun j hj => ?_, mem, flt⟩
    · rw [← group g]
      exact Kv.getD_setD_self _ _ _ _
    · rw [← group j]
      exact Kv.getD_setD_ne _ _ _ hj
  · exact s.setGroup_installs g lost spare

/-- A change that is the next of its group, or for a node that the group still holds, is installed; any other leaves every group. -/
theorem State.takeChange_spec (s : State) (h : BrineHdr) :
    let e := s.group h.group.val
    let lost := leAt h.payload 2 2
    (h.epoch = e.epoch + 1 ∨ (e.members.take e.p).contains lost = true → s.Installs h.group.val lost (leAt h.payload 4 2) (s.takeChange h)) ∧
      (¬(h.epoch = e.epoch + 1 ∨ (e.members.take e.p).contains lost = true) →
        (∀ j, (s.takeChange h).group j = s.group j) ∧ (s.takeChange h).mem = s.mem ∧ (s.takeChange h).flt = s.flt) := by
  unfold State.takeChange
  extract_lets e lost s1 s2
  have same : (s2.sendFrame { s2.frame 8 h.group.val h.src with epoch := h.epoch }).offLane = s1.offLane := by
    refine (State.sendFrame_offLane _ _).trans ?_
    unfold s2
    split <;> rfl
  refine ⟨fun due => ?_, fun undue => ?_⟩
  · refine State.Installs.of_offLane ?_ same
    unfold s1
    rw [if_pos due]
    exact s.installEpoch_installs _ _ _ _
  · have kept : s1 = s := if_neg undue
    obtain ⟨groups, mem, flt⟩ := parts_of_offLane same
    rw [kept] at groups mem flt
    exact ⟨fun j => by rw [State.group, groups, State.group], mem, flt⟩

/-! ### The frames -/

/-- The change waits for the mapping (R301). -/
def State.withChange (s : State) (h : BrineHdr) : State := { s with crust.heldChange := s.crust.heldChange ++ [h] }

/-- The sender's acknowledgement has come (R304). -/
def State.epochAcked (s : State) (h : BrineHdr) : State :=
  { s with crust.epochWait := listErase s.crust.epochWait (65536 * h.group.val + h.src) }

/-- A change that no mapping has to precede is taken (R301, R304, R314, R391). -/
theorem execEpochChangeRx_changes (order : InOrder h s) (maps : s.mapsFirst h = false) :
    let e := s.group h.group.val
    let lost := leAt h.payload 2 2
    ∃ t, exec (.epochChangeRx h) s = .next t ∧ (∀ g, g ≠ h.group.val → t.group g = s.group g) ∧ t.mem = s.mem ∧ t.flt = s.flt ∧
      (h.epoch = e.epoch + 1 ∨ (e.members.take e.p).contains lost = true →
        t.group h.group.val = e.replace s.node lost (leAt h.payload 4 2) ∧ (t.group h.group.val).epoch = (e.epoch + 1) % 2 ^ 32) ∧
      (h.epoch ≠ e.epoch + 1 → (e.members.take e.p).contains lost = false → t.group h.group.val = e) := by
  intro e lost
  obtain ⟨u, kept, crust, quiet, next⟩ := State.receive_inOrder order fun s =>
    if s.mapsFirst h then s.withChange h else s.takeChange h
  rw [if_neg (by rw [mapsFirst_of_ownCrust crust, maps]; exact Bool.false_ne_true), State.latchAll_of_lines (u.takeChange_quiet h quiet)]
    at next
  obtain ⟨installs, leaves⟩ := u.takeChange_spec h
  simp only [kept.group, kept.mem, kept.flt, State.Installs, kept.node] at installs leaves
  refine ⟨_, congrArg Host.Outcome.next next, ?_⟩
  by_cases due : h.epoch = e.epoch + 1 ∨ (e.members.take e.p).contains lost = true
  · obtain ⟨self, others, mem, flt⟩ := installs due
    refine ⟨others, mem, flt, fun _ => ⟨self, by rw [self]; rfl⟩, fun ne out => ?_⟩
    rcases due with eq | holds
    · exact absurd eq ne
    · exact absurd (holds.symm.trans out) (by decide)
  · obtain ⟨groups, mem, flt⟩ := leaves due
    exact ⟨fun g _ => groups g, mem, flt, fun h => absurd h due, fun _ _ => groups _⟩

/-- A spare that has not mapped the lost member's pages holds the change (R301). -/
theorem execEpochChangeRx_waits (order : InOrder h s) (maps : s.mapsFirst h = true) :
    ∃ t, exec (.epochChangeRx h) s = .next t ∧ t.crust.heldChange = s.crust.heldChange ++ [h] ∧ t.links.groups = s.links.groups ∧
      t.mem = s.mem ∧ t.flt = s.flt := by
  obtain ⟨u, kept, crust, quiet, next⟩ := State.receive_inOrder order fun s =>
    if s.mapsFirst h then s.withChange h else s.takeChange h
  rw [if_pos ((mapsFirst_of_ownCrust crust h).trans maps), State.latchAll_of_lines (s := u.withChange h) quiet] at next
  have held : u.crust.heldChange = s.crust.heldChange := congrArg (·.1.heldChange) crust
  exact ⟨_, congrArg Host.Outcome.next next, congrArg (· ++ [h]) held, kept.groups, kept.mem, kept.flt⟩

/-- A stream's frames lie beside the lanes, and none changes which acknowledgements are waited for. -/
theorem State.startStream_beside (s : State) (stream page : Nat) (l : List Byte) :
    ((s.startStream stream page l).offLane, (s.startStream stream page l).crust.epochWait) = (s.offLane, s.crust.epochWait) := by
  refine foldl_same (π := fun u : State => (u.offLane, u.crust.epochWait)) (fun u k => ?_) _ s
  exact Prod.ext (u.sendFrame_offLane _) (congrArg (·.1.epochWait) (u.sendFrame_ownCrust _))

theorem State.startRebuild_beside (s : State) :
    (s.startRebuild.offLane, s.startRebuild.crust.epochWait) = (s.offLane, s.crust.epochWait) := by
  have streams {α : Type} (stream page : α → Nat) (l : State → α → List Byte) (xs : List α) (u : State) :=
    foldl_same (π := fun u : State => (u.offLane, u.crust.epochWait)) (f := fun u x => u.startStream (stream x) (page x) (l u x))
      (fun u x => u.startStream_beside _ _ _) xs u
  have parity (holder : Nat) : ((s.startParity holder).offLane, (s.startParity holder).crust.epochWait) = (s.offLane, s.crust.epochWait) := by
    unfold State.startParity
    split
    · exact streams _ _ _ _ s
    · rfl
  unfold State.startRebuild
  split
  · rfl
  · split
    · exact (streams _ _ _ _ _).trans (parity _)
    · rfl

/-- An acknowledgement is waited for no more once it comes (R304). -/
theorem execEpochAckRx_settles (order : InOrder h s) :
    ∃ t, exec (.epochAckRx h) s = .next t ∧ t.crust.epochWait = listErase s.crust.epochWait (65536 * h.group.val + h.src) ∧
      t.links.groups = s.links.groups ∧ t.mem = s.mem ∧ t.flt = s.flt := by
  obtain ⟨u, kept, crust, quiet, next⟩ := State.receive_inOrder order fun s => (s.epochAcked h).startRebuild
  rw [State.latchAll_of_lines ((u.epochAcked h).startRebuild_quiet quiet)] at next
  have beside := (u.epochAcked h).startRebuild_beside
  obtain ⟨groups, mem, flt⟩ := parts_of_offLane (congrArg (·.1) beside)
  refine ⟨_, congrArg Host.Outcome.next next, ?_, groups.trans kept.groups, mem.trans kept.mem, flt.trans kept.flt⟩
  have wait : u.crust.epochWait = s.crust.epochWait := congrArg (·.1.epochWait) crust
  exact (congrArg (·.2) beside).trans (congrArg (listErase · _) wait)

/-- A notice for the step in flight makes the module enter abandon, and send no notices of its own (R219). -/
theorem execAbandonNoticeRx_enters (order : InOrder h s) (run : h.group.val = s.ent Ent.trainRunGroup)
    (step : h.step = s.ent Ent.trainStepIndex % 65536) (member : (s.others h.group.val).contains h.src = true) (one : s.phase = 1) :
    ∃ t, exec (.abandonNoticeRx h) s = .next t ∧ t.phase = 2 ∧ t.train.abandoned = true ∧
      t.ent Ent.commitAbandons = satAdd 64 (s.ent Ent.commitAbandons) 1 ∧ t.ent Ent.commitNoticesSent = s.ent Ent.commitNoticesSent ∧
      t.mem = s.mem ∧ t.flt = s.flt := by
  obtain ⟨u, kept, -, quiet, next⟩ := State.receive_inOrder order fun s =>
    if h.group.val = s.ent Ent.trainRunGroup ∧ h.step = s.ent Ent.trainStepIndex % 65536 ∧ (s.others h.group.val).contains h.src = true then
      s.enterAbandon true
    else s
  have named : h.group.val = u.ent Ent.trainRunGroup ∧ h.step = u.ent Ent.trainStepIndex % 65536 ∧
      (u.others h.group.val).contains h.src = true := by
    rw [kept.ent _ (by decide), kept.ent _ (by decide), State.others, kept.group]
    exact ⟨run, step, member⟩
  have enters : u.enterAbandon true = ({ u with train.abandoned := true }.setEnt Ent.trainPhase 2).bump 64 Ent.commitAbandons 1 :=
    (if_pos (kept.phase.trans one)).trans (if_pos rfl)
  rw [if_pos named, State.latchAll_of_lines (u.enterAbandon_quiet true quiet), enters] at next
  refine ⟨_, congrArg Host.Outcome.next next, ?_, rfl, ?_, ?_, kept.mem, kept.flt⟩
  · exact (State.ent_bump_ne _ _ _ (by decide)).trans (State.ent_setEnt _ _ _)
  · rw [State.ent_bump, State.ent_setEnt_ne _ _ (by decide)]
    exact congrArg (satAdd 64 · 1) (kept.ent _ (by decide))
  · rw [State.ent_bump_ne _ _ _ (by decide), State.ent_setEnt_ne _ _ (by decide)]
    exact kept.ent _ (by decide)

theorem epochsChangeTogether : EpochsChangeTogether := fun _ _ order =>
  ⟨execEpochChangeRx_changes order, execEpochChangeRx_waits order, execEpochAckRx_settles order, execAbandonNoticeRx_enters order⟩

end Sys2Proof.Machine

/-! PROOFS. Offers to spares and the end of a rebuild (R300, R301, R303), and replay state that fails its complement, latched (R332). -/

namespace Sys2Proof.Machine

variable {s t u : State}

/-! ### A fault asked for at Severe -/

/-- A fault reported at Severe, of a class that reaches Severe and no more, is judged so (R320). -/
theorem State.judge_askedSevere {r : FaultReport} (base : (classRow r.cls).base ≤ 2) (ceiling : (classRow r.cls).ceiling = 2)
    (ask : r.atLeast = 2) : (s.judge r).sev = 2 := by
  have ne {c : Nat} (h : (classRow c).ceiling ≠ 2) : r.cls ≠ c := fun e => h (e ▸ ceiling)
  have h12 : r.cls ≠ 0x12 := ne (by decide)
  have h09 : r.cls ≠ 0x09 := ne (by decide)
  have h0F : r.cls ≠ 0x0F := ne (by decide)
  have floor := s.judge_sev_ge r
  refine Nat.le_antisymm ?_ (by omega)
  unfold State.judge
  extract_lets row src times full base' sev1 x meets esc top sev2 fatal sev3
  have hb : base' = 2 := by unfold base' row; omega
  have h1 : sev1 = 2 := by
    unfold sev1 row
    rw [ceiling, hb]
    split <;> rfl
  have ht : top = 2 := (if_neg fun h => h09 h.1).trans ceiling
  have h2 : sev2 = 2 := by
    unfold sev2
    rw [h1, ht]
    split <;> rfl
  have hf : fatal = false := by unfold fatal; simp [h12, h09, h0F]
  show sev3 ≤ 2
  unfold sev3
  rw [hf, h2]
  exact Nat.le_refl 2

/-- A fault's record and counts write the recorder's count of its severity and the counts of its class, and no other entry. -/
theorem State.ent_latchIn {r : FaultReport} {v : Verdict} {k : Nat} (hr : faultCore r = none) (dropped : k ≠ Ent.evDropped v.sev)
    (faults : k ≠ Ent.classFaults (r.cls - 1)) (severe : k ≠ Ent.classSevere (r.cls - 1))
    (escalations : k ≠ Ent.classEscalations (r.cls - 1)) : (s.latchIn r v).ent k = s.ent k := by
  have work (u : State) : u.workFault r = u := by rw [State.workFault, hr]
  have recorded (u : State) (die : Nat) (e : EvRecord) (he : e.severity = v.sev) : (u.recordAt die e).ent k = u.ent k := by
    unfold State.recordAt
    split
    · rfl
    · exact u.ent_record e (he ▸ dropped)
  have counted (u : State) : (u.countFault r v).ent k = u.ent k := by
    unfold State.countFault
    extract_lets s1 s2
    have h2 : s2.ent k = u.ent k := by
      unfold s2
      split
      · exact (State.ent_bump_ne _ _ _ severe).trans (State.ent_bump_ne _ _ _ faults)
      · exact State.ent_bump_ne _ _ _ faults
    split
    · exact (State.ent_bump_ne _ _ _ escalations).trans h2
    · exact h2
  have told (u : State) (p : Bool) : (u.changed p).ent k = u.ent k := by
    obtain ⟨c, e⟩ := u.changed_eq p
    rw [e]
    rfl
  unfold State.latchIn
  extract_lets lv src x s1 s2
  obtain ⟨c, placed⟩ := State.place_eq 4 (s1.classHolds r v) lv r.unit { cls := r.cls, sev := v.sev, seq := s1.flt.nextSeq, source := src }
  have h2 : s2 = { s1.classHolds r v with flt.collectors := c } := placed
  have h1 : s1 = (s.setSource r.cls r.level r.unit src v.times).setCollector (colKey lv r.unit) { x with word1 := detailWord r } := work _
  rw [told, counted, recorded _ _ _ rfl, h2, h1]
  rfl

/-- Replay state of the module that fails its complement (R332). -/
abbrev replayFault : FaultReport := { integrity intReplay .module 0 0 0 with atLeast := 2 }

/-- Latched, it takes its slot and its record, and has no effect of its own. -/
theorem State.latch_replayFault (s : State) : s.latch replayFault = s.latchIn replayFault (s.judge replayFault) := by
  have sev : (s.judge replayFault).sev = 2 := State.judge_askedSevere (by decide) (by decide) rfl
  have as : s.latchedAs replayFault = replayFault := by
    unfold State.latchedAs
    split <;> rfl
  rw [State.latch, as, if_pos rfl, State.latchOne_of_severe (Nat.le_of_eq sev.symm), State.severeEffects, sev, if_neg (by decide)]
  rfl

/-- The crust's state stays as it is latched. -/
theorem State.crustState_latch_replayFault (s : State) : (s.latch replayFault).ent Ent.crustState = s.ent Ent.crustState := by
  have sev : (s.judge replayFault).sev = 2 := State.judge_askedSevere (by decide) (by decide) rfl
  rw [s.latch_replayFault]
  exact State.ent_latchIn rfl (by rw [sev]; decide) (by decide) (by decide) (by decide)

/-! ### A spare stands at its rank -/

/-- R300: an eligible spare takes the rank that it is offered. -/
theorem execHotSpareOfferRx_takes {o : SpareOffer} (on : s.pwr.on = true) (idle : s.crust.taking = none) (eligible : s.eligible o = true) :
    ∃ t, exec (.hotSpareOfferRx o) s = .next t ∧ t.crust.taking = some o.rank.val ∧ t.ent Ent.crustState = 4 ∧
      t.ent Ent.crustRebuildBytes = 0 ∧ t.mem = s.mem ∧ t.cores = s.cores ∧ t.flt = s.flt := by
  refine ⟨_, congrArg Host.Outcome.next (if_pos (by simp [on, idle, eligible])), rfl, ?_, State.ent_setEnt _ _ _, rfl, rfl, rfl⟩
  exact (State.ent_setEnt_ne _ _ (by decide)).trans (State.ent_setEnt _ _ _)

/-- A module that stands at its rank takes none, is a member, and its crust is fresh (R301). -/
theorem State.standAtRank_spec (s : State) : s.standAtRank.crust.taking = none ∧ s.standAtRank.ent Ent.crustRole = 0 ∧
    s.standAtRank.ent Ent.crustState = 2 := by
  refine ⟨rfl, ?_, ?_⟩
  · exact (State.ent_setEnt_ne _ _ (by decide)).trans ((State.ent_setEnt_ne _ _ (by decide)).trans (State.ent_setEnt _ _ _))
  · exact (State.ent_setEnt_ne _ _ (by decide)).trans (State.ent_setEnt _ _ _)

/-- With its control state intact and no step in flight a spare stands at its rank, whatever of that state it has been given. -/
theorem State.finishSpare_stands (quiet : s.Quiet) (ledger : List (Nat × Nat))
    (intact : s.ownOk (s.m3Parts ((Kv.find? s.crust.own 3).getD [])) = true) (idle : s.flightOf = none) :
    ∃ y : State, y.Quiet ∧ s.finishSpare ledger = y.standAtRank := by
  unfold State.finishSpare
  extract_lets x fail _ s1 commit
  have h1 : s1.Quiet := by
    unfold s1
    split
    · exact s.loadM3_quiet x quiet
    · exact quiet
  rw [if_neg (by rw [intact]; decide), idle]
  split
  · next r flight => exact nomatch flight
  · split
    · exact ⟨_, by split; exact s1.loadRun_quiet _ h1; exact s1.loadM1_quiet _ h1, rfl⟩
    · exact ⟨s1, h1, rfl⟩
  · exact ⟨s1, h1, rfl⟩

/-- REBUILD_COMPLETE of a spare that every stream has reached. -/
theorem execRebuildComplete_of_spare {r : Nat} (ledger : List (Nat × Nat)) (on : s.pwr.on = true) (taking : s.crust.taking = some r)
    (filled : s.spareFilled r = true) : exec (.rebuildComplete ledger) s = .next (s.finishSpare ledger).latchAll := by
  show execRebuildComplete ledger s = _
  simp [execRebuildComplete, on, taking, filled]

theorem execRebuildComplete_stands {r : Nat} {ledger : List (Nat × Nat)} (on : s.pwr.on = true) (quiet : s.Quiet)
    (taking : s.crust.taking = some r) (filled : s.spareFilled r = true)
    (intact : s.ownOk (s.m3Parts ((Kv.find? s.crust.own 3).getD [])) = true) (idle : s.flightOf = none) :
    ∃ t, exec (.rebuildComplete ledger) s = .next t ∧ t.crust.taking = none ∧ t.ent Ent.crustRole = 0 ∧ t.ent Ent.crustState = 2 ∧
      t.mem.ram = s.mem.ram := by
  obtain ⟨y, calm, stands⟩ := State.finishSpare_stands quiet ledger intact idle
  have ram : (s.finishSpare ledger).mem.ram = s.mem.ram := s.finishSpare_ram ledger rfl
  rw [stands] at ram
  have next := execRebuildComplete_of_spare ledger on taking filled
  rw [stands, State.latchAll_of_lines (y.standAtRank_quiet calm)] at next
  obtain ⟨free, role, fresh⟩ := y.standAtRank_spec
  exact ⟨_, next, free, role, fresh, ram⟩

theorem execRebuildComplete_damaged {r : Nat} {ledger : List (Nat × Nat)} (on : s.pwr.on = true) (quiet : s.Quiet)
    (taking : s.crust.taking = some r) (filled : s.spareFilled r = true)
    (damaged : s.ownOk (s.m3Parts ((Kv.find? s.crust.own 3).getD [])) = false) :
    ∃ t, exec (.rebuildComplete ledger) s = .next t ∧ t.ent Ent.crustState = 5 ∧ s.flt.nextSeq < t.flt.nextSeq ∧ t.mem.ram = s.mem.ram := by
  have fails : s.finishSpare ledger = (s.setEnt Ent.crustState 5).raise replayFault := if_pos (by rw [damaged]; rfl)
  have next := execRebuildComplete_of_spare ledger on taking filled
  rw [fails] at next
  have calm : ((s.setEnt Ent.crustState 5).latch replayFault).Quiet := by
    rw [State.latch_replayFault]
    exact State.latchIn_quiet _ _ _ rfl quiet
  refine ⟨_, next, ?_, (s.setEnt Ent.crustState 5).raise_latchAll_seq_lt replayFault, State.latchAll_ram _ rfl⟩
  rw [State.latchAll_raise (s := s.setEnt Ent.crustState 5) quiet calm, State.crustState_latch_replayFault, State.ent_setEnt]

/-! ### A survivor's rebuild ends -/

/-- With nothing of the host and no write of the module's own waiting, nothing drains. -/
theorem State.drainHost_of_idle (idle : HostIdle s) : s.drainHost = s := by
  obtain ⟨held, bells, reads, owed⟩ := idle
  have drained : s.drainOwed = s := by rw [State.drainOwed, owed]; rfl
  have same : ({ s with links.host.bells := s.links.host.bells, links.host.heldReads := s.links.host.heldReads } : State) = s := rfl
  rw [bells, reads] at same
  simpa [State.drainHost, drained, held, State.drainParts, State.afterWrites, bells, reads] using same

/-- A survivor's rebuild of a rank is over, before its crust is fresh. -/
def State.rebuilt (s : State) (r : Nat) : State :=
  { s with
      crust.rebuilding := none, crust.passed := [], crust.lost := listErase s.crust.lost r,
      crust.handled := listErase s.crust.handled r, crust.missed := Kv.del s.crust.missed r }

theorem execRebuildComplete_survives {r j : Nat} {ledger : List (Nat × Nat)} (on : s.pwr.on = true) (quiet : s.Quiet)
    (taking : s.crust.taking = none) (rebuilding : s.crust.rebuilding = some (r, j)) (settled : s.crust.epochWait = []) (idle : HostIdle s) :
    ∃ t, exec (.rebuildComplete ledger) s = .next t ∧ t.crust.rebuilding = none ∧ t.crust.lost = listErase s.crust.lost r ∧
      t.ent Ent.crustState = 2 ∧ t.ent Ent.crustFreshStep = s.ent Ent.trainStepIndex ∧ t.mem = s.mem ∧ t.flt = s.flt := by
  have next : exec (.rebuildComplete ledger) s = .next (s.rebuilt r).becomeFresh.drainHost.latchAll := by
    show execRebuildComplete ledger s = _
    simp [execRebuildComplete, on, taking, rebuilding, settled, State.rebuilt]
  rw [State.drainHost_of_idle (s := (s.rebuilt r).becomeFresh) idle, State.latchAll_of_lines (s := (s.rebuilt r).becomeFresh) quiet] at next
  refine ⟨_, next, rfl, rfl, ?_, State.ent_setEnt _ _ _, rfl, rfl⟩
  exact (State.ent_setEnt_ne _ _ (by decide)).trans (State.ent_setEnt _ _ _)

theorem sparesStandAtTheLostRank : SparesStandAtTheLostRank :=
  ⟨fun _ _ => execHotSpareOfferRx_takes, fun _ _ on quiet => ⟨fun _ => execRebuildComplete_stands on quiet, fun _ =>
    execRebuildComplete_damaged on quiet, fun _ _ => execRebuildComplete_survives on quiet⟩⟩

/-- Settles O48: a frame in order by what hearing it leaves, the end of a rebuild by who ends it. -/
theorem groupsReplaceALostMember : Obligations.GroupsReplaceALostMember := ⟨epochsChangeTogether, sparesStandAtTheLostRank⟩

end Sys2Proof.Machine

/-! PROOFS. Scale records that pass their complements (R96, R102, R126): what the commit and the update's end write of them. -/

namespace Sys2Proof.Machine

variable {s t u : State}

/-! ### The scale records alone move -/

/-- `t` is `s` with scales of its own, none of which fails its complement. -/
def State.Rescaled (s t : State) : Prop := RecordsIntact t ∧ ∃ x, t = { s with scale := x }

theorem State.Rescaled.refl (intact : RecordsIntact s) : s.Rescaled s := ⟨intact, s.scale, rfl⟩

theorem State.Rescaled.trans (h : s.Rescaled t) (k : t.Rescaled u) : s.Rescaled u := by
  obtain ⟨-, x, rfl⟩ := h
  obtain ⟨intact, y, rfl⟩ := k
  exact ⟨intact, y, rfl⟩

/-- A record read is intact where every listed one is. -/
theorem scaleRec_bad (intact : RecordsIntact s) (i : Nat) : (s.scaleRec i).bad = false :=
  Kv.getD_of_forall (P := fun r : ScaleRec => r.bad = false) intact.1 rfl i

/-- A fold of writes that keep the records intact, over what satisfies their precondition. -/
theorem State.Rescaled.foldl {α : Type} {f : State → α → State} {P : α → Prop} (step : ∀ t a, RecordsIntact t → P a → t.Rescaled (f t a))
    {l : List α} (fit : ∀ a ∈ l, P a) (intact : RecordsIntact s) : s.Rescaled (l.foldl f s) :=
  List.foldlRecOn (motive := s.Rescaled) l f (.refl intact) fun t h a ha => h.trans (step t a h.1 (fit a ha))

/-- An intact record put into the table leaves the table intact. -/
theorem recs_put (intact : RecordsIntact s) {i : Nat} {r : ScaleRec} (hr : r.bad = false) :
    ∀ e ∈ Kv.put s.scale.recs i r, e.2.bad = false := fun e he => by
  rcases Kv.mem_put he with rfl | listed
  · exact hr
  · exact intact.1 e listed

theorem State.resetRecord_rescales (i reason : Nat) (intact : RecordsIntact s) : s.Rescaled (s.resetRecord i reason) :=
  ⟨⟨recs_put intact rfl, intact.2⟩, _, rfl⟩

/-- R102: the step's t and attempt enter a record that is intact. -/
theorem State.settleRecord_rescales (i : Nat) (intact : RecordsIntact s) : s.Rescaled (s.settleRecord i) := by
  unfold State.settleRecord
  extract_lets r _ s1
  have h1 : s.Rescaled s1 := by
    unfold s1
    split
    · exact ⟨intact, _, rfl⟩
    · exact .refl intact
  exact h1.trans ⟨⟨recs_put h1.1 (scaleRec_bad intact i), h1.1.2⟩, _, rfl⟩

/-- R96, R233: an intact staged maximum enters its record, or starts it over. -/
theorem State.pushStaged_rescales (others : List FcContribution) {e : Nat × Staged} (intact : RecordsIntact s) (staged : e.2.bad = false) :
    s.Rescaled (s.pushStaged others e.1 e.2) := by
  unfold State.pushStaged
  extract_lets r _ s0 g
  have h0 : s.Rescaled s0 := ⟨⟨intact.1, fun e he => intact.2 e (List.mem_filter.1 he).1⟩, _, rfl⟩
  have good : r.bad = false := scaleRec_bad intact e.1
  rw [if_neg (by simp [good]), if_neg (by simp [staged])]
  split
  · exact h0.trans ⟨⟨recs_put h0.1 good, h0.1.2⟩, _, rfl⟩
  · exact h0.trans (State.resetRecord_rescales e.1 2 h0.1)

/-- All staged maxima that pass their complements. -/
theorem State.pushAll_rescales (others : List FcContribution) {l : List (Nat × Staged)} (staged : ∀ e ∈ l, e.2.bad = false)
    (intact : RecordsIntact s) : s.Rescaled (l.foldl (fun s e => s.pushStaged others e.1 e.2) s) :=
  .foldl (P := fun e : Nat × Staged => e.2.bad = false) (fun _ _ => State.pushStaged_rescales others) staged intact

/-- R102, R126: with the records intact their commit changes them and nothing else. -/
theorem State.commitScales_rescales (others : List FcContribution) (intact : RecordsIntact s) : s.Rescaled (s.commitScales others) := by
  unfold State.commitScales
  extract_lets s1 s2 s3
  have h1 : s.Rescaled s1 := .foldl (P := fun _ => True) (fun t e h _ => State.settleRecord_rescales e.1 h) (fun _ _ => trivial) intact
  have h2 : s.Rescaled s2 := h1.trans (State.pushAll_rescales others intact.2 h1.1)
  have h3 : s.Rescaled s3 :=
    h2.trans (.foldl (P := fun _ => True) (fun t i h _ => State.resetRecord_rescales i 2 h) (fun _ _ => trivial) h2.1)
  have sound : s3.checkRecords = s3 := by
    have none : s3.scale.recs.filter (fun e => e.2.bad) = [] := List.filter_eq_nil_iff.2 fun e he => by simp [h3.1.1 e he]
    rw [State.checkRecords, none, List.foldl_nil]
  rw [sound]
  exact h3

end Sys2Proof.Machine

/-! PROOFS. The finite check (R216, R221 to R223, R303, R304): what its start, its outcome and its timeout leave of the step. -/

namespace Sys2Proof.Machine

variable {s t u : State}

/-! ### Phase 3 begins -/

theorem State.ent_sendSegments {k : Nat} (hk : k < Ent.brineResends 0) : ∀ (n : Nat) (s : State) (f : TxFrame) (l : List Byte),
    (State.sendSegments n s f l).ent k = s.ent k
  | 0, s, _, _ => s.ent_sendFrame _ hk
  | n + 1, s, f, l => by
    unfold State.sendSegments
    split
    · exact s.ent_sendFrame _ hk
    · exact (State.ent_sendSegments hk n _ _ _).trans (s.ent_sendFrame _ hk)

/-- A mirror that goes out leaves the entries below Brine's counters. -/
theorem State.ent_sendMirror (s : State) (point : Nat) (l : List Byte) {k : Nat} (hk : k < Ent.brineResends 0) :
    (s.sendMirror point l).ent k = s.ent k := by
  unfold State.sendMirror
  split
  · exact State.ent_sendSegments hk _ s _ _
  · rfl

@[simp] theorem State.phase_setPhase (s : State) (n : Nat) : (s.setPhase n).phase = n := State.ent_setEnt _ _ _

/-- R216, R222: with every forward and backward descriptor complete phase 3 begins. -/
theorem execFiniteCheck_begins (on : s.pwr.on = true) (runs : s.running = true) (done : s.forwardDone = true) :
    ∃ u, exec .finiteCheck s = .next u ∧ u.phase = 3 ∧ u.train.contributed = !u.crust.mirrorWait.contains 2 ∧ u.mem.ram = s.mem.ram ∧
      u.flt = s.flt := by
  let s1 := { s.rollUp with train.mask := s.ent Ent.commitFrozenPending }.setPhase 3
  let s2 := if s.train.replaying then s1 else s1.sendMirror 2 s1.mirrorM2
  have next : exec .finiteCheck s = .next { s2 with train.contributed := !s2.crust.mirrorWait.contains 2 } :=
    congrArg Host.Outcome.next (if_pos ⟨on, runs, done⟩)
  have sent : s2.phase = 3 ∧ s2.mem.ram = s.mem.ram ∧ s2.flt = s.flt := by
    have three : s1.phase = 3 := State.phase_setPhase _ 3
    unfold s2
    split
    · exact ⟨three, rfl, rfl⟩
    · obtain ⟨-, -, -, mem, flt⟩ := parts_of_unsent (s1.sendMirror_unsent 2 s1.mirrorM2)
      exact ⟨(s1.ent_sendMirror 2 _ (by decide)).trans three, (congrArg Memory.ram mem : _ = s1.mem.ram), flt⟩
  obtain ⟨three, mem, flt⟩ := sent
  exact ⟨_, next, three, rfl, mem, flt⟩

/-! ### A crust fault -/

/-- A line asserted alone, whose latching asserts nothing, is latched and nothing more. -/
theorem State.latchAll_of_line {r : FaultReport} (one : s.flt.lines = [r]) (calm : ({ s with flt.lines := [] }.latch r).Quiet) :
    s.latchAll = { s with flt.lines := [] }.latch r := by
  have raised : s = { s with flt.lines := [] }.raise r := by
    show s = { s with flt.lines := [r] }
    rw [← one]
  rw [raised]
  exact State.latchAll_raise rfl calm

/-- What a commit raises where the step's update is not covered (R303). -/
abbrev crustFault : FaultReport := fault 0x13 .module 0

/-- With that line asserted alone, or none, latching leaves the step, the scales and the entries below the recorder's. -/
theorem State.latchAll_crustFault (lines : s.flt.lines = [] ∨ s.flt.lines = [crustFault]) :
    s.latchAll.train = s.train ∧ s.latchAll.scale = s.scale ∧ ∀ k < Ent.evDropped 0, s.latchAll.ent k = s.ent k := by
  rcases lines with none | one
  · rw [State.latchAll_of_lines none]
    exact ⟨rfl, rfl, fun _ _ => rfl⟩
  · let z : State := { s with flt.lines := [] }
    have latched : z.latch crustFault = z.latchIn crustFault (z.judge crustFault) :=
      State.latch_severeClass (show severeClass 0x13 by decide) rfl
    obtain ⟨⟨_, _, _, _, _, _, e⟩, ents⟩ := z.latchIn_frame (r := crustFault) rfl (z.judge crustFault)
    rw [State.latchAll_of_line one (by rw [latched]; exact State.latchIn_quiet _ _ _ rfl rfl), latched]
    exact ⟨(congrArg State.train e :), (congrArg State.scale e :), ents⟩

/-- A condition that is recorded leaves the step, the scales, the asserted lines and the entries below the recorder's. -/
theorem State.condition_frame (s : State) (sev code p0 p1 p2 : Nat) : (s.condition sev code p0 p1 p2).train = s.train ∧
    (s.condition sev code p0 p1 p2).scale = s.scale ∧ (s.condition sev code p0 p1 p2).flt.lines = s.flt.lines ∧
    ∀ k < Ent.evDropped 0, (s.condition sev code p0 p1 p2).ent k = s.ent k := by
  obtain ⟨_, _, _, _, e, -⟩ := s.record_eq { severity := sev, kind := 1, code := code, time := s.now, level := 4, p0 := p0, p1 := p1, p2 := p2 }
  exact ⟨(congrArg State.train e :), (congrArg State.scale e :), State.condition_quiet _ _ _ _ _ _ rfl, fun k hk =>
    s.ent_record _ (by unfold Ent.evDropped at *; omega)⟩

/-! ### The outcome -/

/-- The step's outcome is decided as `o`: the commit record is written, and phase 4 has begun. -/
structure State.Decided (c : CommitRec) (o : Nat) (t : State) : Prop where
  outcome : t.train.outcome = o
  commit : t.train.commit = c
  phase : t.phase = 4
  index : t.ent Ent.trainStepIndex = c.stamp
  last : t.ent Ent.trainLastOutcome = o

/-- What leaves the step and the entries below the recorder's leaves the decision. -/
theorem State.Decided.of_frame {c : CommitRec} {o : Nat} (h : State.Decided c o s)
    (train : t.train.outcome = s.train.outcome ∧ t.train.commit = s.train.commit)
    (ents : ∀ k < Ent.evDropped 0, t.ent k = s.ent k) : State.Decided c o t :=
  ⟨train.1.trans h.outcome, train.2.trans h.commit, (ents _ (by decide)).trans h.phase, (ents _ (by decide)).trans h.index,
    (ents _ (by decide)).trans h.last⟩

/-- The counters of the commit record and of the outcome enter the dictionary (R222, R223). -/
theorem State.countOutcome_decides {c : CommitRec} {o : Nat} (grew : Bool) (tokens : Nat) (outcome : s.train.outcome = o)
    (commit : s.train.commit = c) (phase : s.phase = 4) : State.Decided c o ((s.moveCounters c grew).countOutcome o tokens) := by
  have scaled : ({ (s.setEnt Ent.lossScaleExp c.lambda).setEnt Ent.lossCleanSteps c.clean with train.grew := grew } : State).ent
      Ent.trainPhase = 4 := by
    show ((s.setEnt Ent.lossScaleExp c.lambda).setEnt Ent.lossCleanSteps c.clean).ent Ent.trainPhase = 4
    simp (disch := decide) only [State.ent_setEnt_ne]
    exact phase
  unfold State.countOutcome
  extract_lets s1 s2
  have h2 : State.Decided c o s2 := by
    refine ⟨outcome, commit, ?_, ?_, ?_⟩ <;>
      simp (disch := decide) only [State.phase, s2, s1, State.moveCounters, State.ent_setEnt_ne, State.ent_setEnt, scaled]
  have counted (u : State) (k n : Nat) (other : k ≠ Ent.trainPhase ∧ k ≠ Ent.trainStepIndex ∧ k ≠ Ent.trainLastOutcome)
      (h : State.Decided c o u) : State.Decided c o (u.bump 64 k n) :=
    ⟨h.outcome, h.commit, (u.ent_bump_ne _ _ other.1.symm).trans h.phase, (u.ent_bump_ne _ _ other.2.1.symm).trans h.index,
      (u.ent_bump_ne _ _ other.2.2.symm).trans h.last⟩
  split
  · exact counted _ _ _ (by decide) (counted _ _ _ (by decide) h2)
  · exact counted _ _ _ (by decide) h2

theorem State.countOutcome_frame (s : State) (c : CommitRec) (grew : Bool) (o tokens : Nat) :
    ((s.moveCounters c grew).countOutcome o tokens).scale = s.scale ∧ ((s.moveCounters c grew).countOutcome o tokens).flt = s.flt := by
  unfold State.countOutcome State.moveCounters
  dsimp only
  split <;> simp only [State.setEnt_scale, State.bump_scale, State.setEnt_flt, State.bump_flt, and_self]

/-- R303: a step whose update is not covered asserts a crust fault, and no more. -/
theorem State.stopUncovered_decides {c : CommitRec} {o : Nat} (decided : State.Decided c o s) (quiet : s.Quiet) :
    State.Decided c o s.stopUncovered ∧ s.stopUncovered.scale = s.scale ∧
      (s.stopUncovered.flt.lines = [] ∨ s.stopUncovered.flt.lines = [crustFault]) := by
  unfold State.stopUncovered
  split
  · exact ⟨decided.of_frame ⟨rfl, rfl⟩ fun k hk => State.ent_setEnt_ne _ _ (by unfold Ent.evDropped Ent.crustState at *; omega), rfl,
      .inr (congrArg (· ++ [crustFault]) quiet)⟩
  · exact ⟨decided, rfl, .inl quiet⟩

/-- R222, R223: the outcome is written and the step moves on; only a commit changes a scale record. -/
theorem State.commitStep_decides (quiet : s.Quiet) (intact : RecordsIntact s) (others : List FcContribution) (o : Nat) :
    State.Decided (s.newCommit o s.updateItems) o (s.commitStep others o) ∧ (o ≠ 1 → (s.commitStep others o).scale.recs = s.scale.recs) ∧
      ((s.commitStep others o).flt.lines = [] ∨ (s.commitStep others o).flt.lines = [crustFault]) := by
  unfold State.commitStep
  extract_lets committed tokens updates c grew s1 _ s2 _ _ _ s3 s4
  have h1 : s1.scale = s.scale ∧ s1.Quiet := by
    unfold s1
    split
    · obtain ⟨-, scale, lines, -⟩ := s.condition_frame 1 0x3010 c.step 0 0
      exact ⟨scale, lines.trans quiet⟩
    · exact ⟨rfl, quiet⟩
  obtain ⟨scale1, quiet1⟩ := h1
  have intact2 : RecordsIntact s2 := by
    show (∀ e ∈ s1.scale.recs, e.2.bad = false) ∧ ∀ e ∈ s1.scale.staged, e.2.bad = false
    rw [scale1]
    exact intact
  have phase2 : s2.phase = 4 := State.phase_setPhase _ 4
  have h3 : s3.train.outcome = o ∧ s3.train.commit = c ∧ s3.phase = 4 ∧ s3.Quiet ∧ (o ≠ 1 → s3.scale.recs = s.scale.recs) := by
    unfold s3
    split
    · next yes =>
      obtain ⟨-, x, e⟩ := s2.commitScales_rescales others intact2
      rw [e]
      have no : o = 1 := by simpa [committed] using yes
      unfold State.dropResync
      split
      · exact ⟨rfl, rfl, (State.ent_setEnt_ne _ _ (by decide)).trans phase2, quiet1, fun h => absurd no h⟩
      · exact ⟨rfl, rfl, phase2, quiet1, fun h => absurd no h⟩
    · exact ⟨rfl, rfl, phase2, quiet1, fun _ => (congrArg Scaling.recs scale1 :)⟩
  obtain ⟨outcome3, commit3, phase3, quiet3, recs3⟩ := h3
  clear_value s3
  have counted := State.countOutcome_decides (c := c) grew tokens outcome3 commit3 phase3
  obtain ⟨scale, flt⟩ := s3.countOutcome_frame c grew o tokens
  obtain ⟨decided, scale4, lines⟩ := State.stopUncovered_decides counted (by rw [State.Quiet, flt, quiet3])
  have recs4 (h : o ≠ 1) : s4.scale.recs = s.scale.recs := by rw [scale4, scale, recs3 h]
  split
  · exact ⟨decided, recs4, lines⟩
  · obtain ⟨train, scale, still, ents⟩ := s4.condition_frame 1 0x3420 s.train.mask 0 0
    exact ⟨decided.of_frame ⟨by rw [train], by rw [train]⟩ ents, fun h => by rw [scale, recs4 h], by rwa [still]⟩

/-- The state in which the check's outcome is decided: the time that it took is written (R223). -/
def State.checkTimed (s : State) : State := (s.setEnt Ent.commitFiniteCheckUs (Config.timing s.clk.freeNext % 2 ^ 32)).draw

/-- FINITE_CHECK_RESULT with every member heard, or its predecessor's mirror read. -/
theorem execFiniteCheckResult_of_all {heard : List FcContribution} (on : s.pwr.on = true) (three : s.phase = 3)
    (contributed : s.train.contributed = true) (own : s.train.replaying = false)
    (all : (heard ++ s.mirroredCheck.toList).length + 1 = max 1 (s.groupP (s.ent Ent.trainRunGroup))) :
    exec (.finiteCheckResult heard) s = .next (if !s.stepsEqual (heard ++ s.mirroredCheck.toList) then s.checkTimed.groupFault.latchAll
      else (s.checkTimed.commitStep (heard ++ s.mirroredCheck.toList) (s.checkOutcome (heard ++ s.mirroredCheck.toList))).latchAll) := by
  refine congrArg Host.Outcome.next ((if_pos ⟨on, three, contributed, all⟩).trans ?_)
  rw [own]
  rfl

/-- R222, R223, R303: members at one step and epoch decide it. -/
theorem execFiniteCheckResult_decides {heard : List FcContribution} (on : s.pwr.on = true) (quiet : s.Quiet) (three : s.phase = 3)
    (contributed : s.train.contributed = true) (own : s.train.replaying = false)
    (all : (heard ++ s.mirroredCheck.toList).length + 1 = max 1 (s.groupP (s.ent Ent.trainRunGroup)))
    (equal : s.stepsEqual (heard ++ s.mirroredCheck.toList) = true) (intact : RecordsIntact s) :
    let o := s.checkOutcome (heard ++ s.mirroredCheck.toList)
    ∃ u, exec (.finiteCheckResult heard) s = .next u ∧ u.phase = 4 ∧ u.train.outcome = o ∧ u.train.commit.outcome = o ∧
      u.train.commit.step = s.ent Ent.trainStepIndex ∧ u.ent Ent.trainStepIndex = (s.ent Ent.trainStepIndex + 1) % 2 ^ 64 ∧
      u.ent Ent.trainLastOutcome = o ∧ (o ≠ 1 → u.scale.recs = s.scale.recs) ∧ u.mem.ram = s.mem.ram := by
  intro o
  have next := execFiniteCheckResult_of_all on three contributed own all
  rw [equal, if_neg (by decide)] at next
  obtain ⟨decided, recs, lines⟩ := State.commitStep_decides (s := s.checkTimed) quiet intact (heard ++ s.mirroredCheck.toList) o
  obtain ⟨train, scale, ents⟩ := State.latchAll_crustFault lines
  have index : s.checkTimed.ent Ent.trainStepIndex = s.ent Ent.trainStepIndex := s.ent_setEnt_ne _ (by decide)
  obtain ⟨outcome, commit, phase, stamp, last⟩ := decided.of_frame ⟨congrArg Train.outcome train, congrArg Train.commit train⟩ ents
  refine ⟨_, next, phase, outcome, by rw [commit]; rfl, by rw [commit]; exact index, ?_, last, fun skipped => ?_,
    State.latchAll_ram _ (State.commitStep_ram _ _ _ rfl)⟩
  · rw [stamp]
    exact congrArg (fun n => (n + 1) % 2 ^ 64) index
  · rw [scale]
    exact recs skipped

/-! ### No outcome -/

/-- A step without outcome halts the run (R221). -/
theorem State.noOutcome_halts (runs : s.phase ≠ 0) (undone : s.phase ≠ 4) (own : s.train.replaying = false) (settled : s.dict.pend = []) :
    s.noOutcome.ent Ent.trainHalted = 1 := by
  rw [State.noOutcome, if_neg (by simp [runs, undone]), own, if_neg Bool.false_ne_true]
  generalize ended : (((s.setEnt Ent.trainHalted 1).setEnt Ent.trainLastOutcome 4).settleEnergy false).restoreMarks.clearStep = e
  have halted : e.ent Ent.trainHalted = 1 :=
    ended ▸ ((s.setEnt Ent.trainHalted 1).ent_setEnt_ne 4 (by decide)).trans (State.ent_setEnt _ _ _)
  rw [State.ent_phaseZero (ended ▸ settled) (by decide) (by decide)]
  exact (State.ent_setEnt_ne _ _ (by decide)).trans halted

/-- R221, R304: a fault of the group while the step awaits its outcome ends it without one, and is recorded. -/
theorem State.groupFault_ends (quiet : s.Quiet) (three : s.phase = 3) (own : s.train.replaying = false) (settled : s.dict.pend = []) :
    s.groupFault.latchAll.phase = 0 ∧ s.groupFault.latchAll.ent Ent.trainLastOutcome = 4 ∧ s.groupFault.latchAll.ent Ent.trainHalted = 1 ∧
      s.flt.nextSeq < s.groupFault.latchAll.flt.nextSeq ∧ s.groupFault.latchAll.mem.ram = s.mem.ram := by
  let r : FaultReport :=
    { fault 0x14 .module 0 with addr := s.ent Ent.trainRunGroup + 256 * (s.group (s.ent Ent.trainRunGroup)).epoch, space := 4 }
  have latched : s.latch r = (s.latchIn r (s.judge r)).noOutcome := State.latch_severeClass (show severeClass 0x14 by decide) rfl
  have calm : (s.latch r).Quiet := by
    rw [latched]
    exact State.noOutcome_quiet _ (State.latchIn_quiet _ _ _ rfl quiet)
  obtain ⟨⟨_, _, _, _, _, _, e⟩, ents⟩ := s.latchIn_frame (r := r) rfl (s.judge r)
  have phase : (s.latchIn r (s.judge r)).phase = 3 := (ents _ (by decide)).trans three
  have own' : (s.latchIn r (s.judge r)).train.replaying = false := by
    rw [e]
    exact own
  have settled' : (s.latchIn r (s.judge r)).dict.pend = [] := by
    rw [e]
    exact settled
  have done : s.groupFault.latchAll = (s.latchIn r (s.judge r)).noOutcome := (State.latchAll_raise quiet calm).trans latched
  obtain ⟨zero, outcome⟩ := State.noOutcome_ends (by rw [phase]; decide) (by rw [phase]; decide) own' settled'
  have halted := State.noOutcome_halts (by rw [phase]; decide) (by rw [phase]; decide) own' settled'
  refine ⟨?_, ?_, ?_, s.raise_latchAll_seq_lt r, State.latchAll_ram _ rfl⟩
  · rw [done, zero]
  · rw [done, outcome]
  · rw [done, halted]

/-- Settles O31: the check's start by its descriptors, its outcome by what the members contributed, its failure by the group's fault. -/
theorem theFiniteCheckDecidesTheStep : Obligations.TheFiniteCheckDecidesTheStep := by
  unfold Obligations.TheFiniteCheckDecidesTheStep
  intro s on quiet
  refine ⟨execFiniteCheck_begins on, fun heard three contributed own all =>
    ⟨execFiniteCheckResult_decides on quiet three contributed own all, fun differ settled => ?_⟩, fun three own settled => ?_⟩
  · have next := execFiniteCheckResult_of_all on three contributed own all
    rw [differ, if_pos (by decide)] at next
    have phase : s.checkTimed.phase = 3 := (s.ent_setEnt_ne _ (by decide)).trans three
    exact ⟨_, next, State.groupFault_ends (s := s.checkTimed) quiet phase own settled⟩
  · exact ⟨_, congrArg Host.Outcome.next (if_pos ⟨on, three⟩), State.groupFault_ends quiet three own settled⟩

end Sys2Proof.Machine

/-! PROOFS. The work in hand (R229 to R233, R295): what reports, sends and stores leave of the units on the engines, the update ledger, the
unsealed units and the scales. -/

namespace Sys2Proof.Machine

variable {s t u : State}

/-! ### What reports and sends leave alone -/

/-- The parts of the state in which work is held, and the crust's mode: what no report and no send touches. -/
abbrev State.work (s : State) := (s.cores, s.train.ledger, s.crust.units, s.scale, s.ent Ent.crustMode)

theorem work_of_parts (cores : t.cores = s.cores) (ledger : t.train.ledger = s.train.ledger) (units : t.crust.units = s.crust.units)
    (scale : t.scale = s.scale) (mode : t.ent Ent.crustMode = s.ent Ent.crustMode) : t.work = s.work := by
  rw [State.work, cores, ledger, units, scale, mode]

theorem State.setEnt_work (s : State) {k : Nat} (v : Nat) (hk : Ent.crustMode ≠ k) : (s.setEnt k v).work = s.work :=
  work_of_parts rfl rfl rfl rfl (s.ent_setEnt_ne v hk)

theorem State.bump_work (s : State) {k : Nat} (w n : Nat) (hk : Ent.crustMode ≠ k) : (s.bump w k n).work = s.work := s.setEnt_work _ hk

theorem State.record_work (s : State) {r : EvRecord} (hr : r.severity ≤ 1) : (s.record r).work = s.work := by
  have same := s.record_unrecorded r
  simp only [Prod.mk.injEq] at same
  obtain ⟨-, -, -, cores, -, -, scale, -, -, train, -, -, -, crust, -⟩ := same
  exact work_of_parts cores (by rw [train]) (by rw [crust]) scale (s.ent_record r (by unfold Ent.crustMode Ent.evDropped; omega))

theorem State.condition_work (s : State) {sev : Nat} (code p0 p1 p2 : Nat) (hs : sev ≤ 1) : (s.condition sev code p0 p1 p2).work = s.work :=
  s.record_work hs

theorem State.classWait_work (s : State) (i : Nat) {cls : Nat} (hc : cls ≤ 3) : (s.classWait i cls).work = s.work := by
  unfold State.classWait
  split
  · exact s.bump_work _ _ (by unfold Ent.crustMode Ent.brineClassWaitUs; omega)
  · rfl

theorem State.sendOn_work (s : State) (i : Nat) (f : TxFrame) : (s.sendOn i f).work = s.work := by
  have cls : brineClass f.kind ≤ 3 := by
    unfold brineClass
    split <;> decide
  unfold State.sendOn
  split
  · rfl
  · exact (State.bump_work _ _ _ (by unfold Ent.crustMode Ent.brineTxBytes; omega)).trans (s.classWait_work i cls)

theorem State.sendFrame_work (s : State) (f : TxFrame) : (s.sendFrame f).work = s.work := by
  unfold State.sendFrame
  split
  · rfl
  · exact s.sendOn_work _ f

theorem State.sendGroup_work (s : State) (kind g : Nat) (l : List Byte) : (s.sendGroup kind g l).work = s.work :=
  foldl_same (π := State.work) (fun u _ => u.sendFrame_work _) _ s

theorem State.enterAbandon_work (s : State) (fromNotice : Bool) : (s.enterAbandon fromNotice).work = s.work := by
  unfold State.enterAbandon
  split
  · extract_lets _ s1 g
    have entered : s1.work = s.work := (State.bump_work _ _ _ (by decide)).trans (State.setEnt_work _ _ (by decide))
    split
    · exact entered
    · exact ((State.bump_work _ _ _ (by decide)).trans (s1.sendGroup_work 6 g [])).trans entered
  · rfl

theorem State.flagNonFinite_work (s : State) : s.flagNonFinite.work = s.work := by
  unfold State.flagNonFinite
  split
  · exact State.enterAbandon_work _ false
  · rfl

theorem State.flagFault_work (s : State) : s.flagFault.work = s.work := by
  unfold State.flagFault
  split
  · exact State.enterAbandon_work _ false
  · rfl

theorem State.memViolation_work (s : State) (code a : Nat) : (s.memViolation code a).work = s.work := by
  have counted : (s.violation code 0 a 0).work = s.work := by
    unfold State.violation
    extract_lets times full s1 s2
    have two : s2.work = s.work := (State.bump_work _ _ _ (by decide)).trans (State.bump_work _ _ _ (by decide))
    exact (s2.record_work (show (if full then 1 else 0) ≤ 1 by split <;> decide)).trans two
  have noted : (((s.violation code 0 a 0).bump 64 Ent.memViolations 1).setEnt Ent.memLastViolation a).work = s.work :=
    (State.setEnt_work _ _ (by decide)).trans ((State.bump_work _ _ _ (by decide)).trans counted)
  unfold State.memViolation
  dsimp only
  split
  · exact (foldl_same (π := State.work) (fun u g => u.bump_work _ _ (by unfold Ent.crustMode Ent.groupViolations; omega)) _ _).trans noted
  · exact noted

theorem State.refuseStep_work (s : State) (code a : Nat) : (s.refuseStep code a).work = s.work := by
  unfold State.refuseStep
  dsimp only
  split
  · exact (State.flagFault_work _).trans (s.memViolation_work code a)
  · exact s.memViolation_work code a

theorem State.draw_work (s : State) : s.draw.work = s.work := rfl

theorem State.copyBeforeWrite_work (s : State) (p : Nat) : (s.copyBeforeWrite p).work = s.work := by
  unfold State.copyBeforeWrite
  split
  · exact (State.draw_work _).trans (State.bump_work _ _ _ (by decide))
  · rfl

theorem State.unitFlags_work (s : State) (overflows : Nat) (k : Counts) : (s.unitFlags overflows k).work = s.work := by
  unfold State.unitFlags
  extract_lets n s1
  have flagged : s1.work = s.work := by
    unfold s1
    split
    · rfl
    · exact (State.flagNonFinite_work _).trans (s.bump_work _ _ (by decide))
  split
  · exact flagged
  · exact s1.flagNonFinite_work.trans flagged

theorem State.backwardSat_work (s : State) : s.backwardSat.work = s.work := by
  unfold State.backwardSat
  refine (State.flagNonFinite_work _).trans ?_
  split
  · rfl
  · exact State.bump_work _ _ _ (by decide)

theorem State.unitSats_work (s : State) (pos : Nat) (backward : Bool) (k : Counts) : (s.unitSats pos backward k).work = s.work := by
  unfold State.unitSats
  split
  · rfl
  · split
    · exact s.backwardSat_work
    · rfl

theorem State.updateSats_work (s : State) (r : DescRun) (counts : KV Counts) : (s.updateSats r counts).work = s.work := by
  refine foldl_same (π := State.work) (fun u e => ?_) counts s
  split
  · rfl
  · exact (State.condition_work _ _ _ _ _ (Nat.le_refl 1)).trans (u.bump_work 64 e.2.finiteSat (by decide))

theorem State.updateNonFinite_work (s : State) (r : DescRun) (counts : KV Counts) : (s.updateNonFinite r counts).work = s.work := by
  unfold State.updateNonFinite
  dsimp only
  split
  · split <;> rfl
  · rfl

theorem State.putNorm_work (s : State) (layer : Nat) (upd : Bool) (v : F32) : (s.putNorm layer upd v).work = s.work := by
  unfold State.putNorm
  dsimp only
  split <;> rfl

end Sys2Proof.Machine

/-! PROOFS. Vector work (R230, R232, R295, R297): stores through the crust, and the end of a vector stage. -/

namespace Sys2Proof.Machine

variable {s t u : State}

/-! ### What goes on with the work in hand -/

/-- No unsealed unit of the crust holds an update chunk back from the ledger. -/
def State.Unmarked (s : State) : Prop := ∀ x ∈ s.crust.units, x.chunk = none

/-- Every engine keeps its unit, no record fails its complement, and the update ledger only grows: by chunks of unsealed units alone. -/
structure State.Worked (s t : State) : Prop where
  units : ∀ c, (t.core c).units = (s.core c).units
  intact : RecordsIntact s → RecordsIntact t
  ledger : ∃ l, t.train.ledger = s.train.ledger ++ l ∧ (s.Unmarked → l = [] ∧ t.Unmarked)

theorem State.Worked.trans (h : s.Worked t) (k : t.Worked u) : s.Worked u := by
  obtain ⟨l, grown, due⟩ := h.ledger
  obtain ⟨l', grown', due'⟩ := k.ledger
  refine ⟨fun c => (k.units c).trans (h.units c), k.intact ∘ h.intact, l ++ l', by rw [grown', grown, List.append_assoc], fun free => ?_⟩
  obtain ⟨none, free⟩ := due free
  obtain ⟨none', free⟩ := due' free
  exact ⟨by rw [none, none']; rfl, free⟩

/-- A unit's own state may change as long as no chunk is put in it. -/
theorem State.Worked.of_units {us : List SealUnit} (same : t.work = { s with crust.units := us }.work)
    (free : s.Unmarked → ∀ x ∈ us, x.chunk = none) : s.Worked t := by
  simp only [Prod.mk.injEq] at same
  obtain ⟨cores, ledger, units, scale, -⟩ := same
  refine ⟨fun c => ?_, fun intact => ?_, [], ledger.trans (List.append_nil _).symm, fun unmarked => ⟨rfl, ?_⟩⟩
  · rw [State.core, cores, State.core]
  · rw [RecordsIntact, scale]
    exact intact
  · rw [State.Unmarked, units]
    exact free unmarked

theorem State.Worked.of_work (same : t.work = s.work) : s.Worked t := .of_units (us := s.crust.units) same id

theorem State.Worked.refl (s : State) : s.Worked s := .of_work rfl

/-- A fold over pairs whose steps all go on with the work. -/
theorem State.Worked.foldl {α σ : Type} {π : σ → State} {f : σ → α → σ} (step : ∀ a x, (π a).Worked (π (f a x))) (l : List α) (a : σ) :
    (π a).Worked (π (l.foldl f a)) :=
  List.foldlRecOn (motive := fun b => (π a).Worked (π b)) l f (.refl _) fun b h x _ => h.trans (step b x)

theorem State.Worked.of_rescaled (h : s.Rescaled t) : s.Worked t := by
  obtain ⟨sound, x, rfl⟩ := h
  exact ⟨fun _ => rfl, fun _ => sound, [], (List.append_nil _).symm, fun free => ⟨rfl, free⟩⟩

/-- A mark of the ledger stays. -/
theorem State.Worked.marked (h : s.Worked t) {k : Nat × Nat} (mark : s.train.ledger.contains k = true) :
    t.train.ledger.contains k = true := by
  obtain ⟨l, grown, -⟩ := h.ledger
  rw [grown, List.contains_append, mark, Bool.true_or]

/-- What the ledger holds of an update's chunks grows with it, and by nothing where no chunk waits for its seal. -/
theorem State.Worked.sealedChunks (h : s.Worked t) (pos : Nat) :
    (∀ n ∈ s.sealedChunks pos, n ∈ t.sealedChunks pos) ∧ (s.Unmarked → t.sealedChunks pos = s.sealedChunks pos ∧ t.Unmarked) := by
  obtain ⟨l, grown, due⟩ := h.ledger
  unfold State.sealedChunks
  refine ⟨fun n hn => ?_, fun free => ?_⟩
  · rw [grown, List.filter_append, List.map_append]
    exact List.mem_append_left _ hn
  · obtain ⟨rfl, free⟩ := due free
    exact ⟨by rw [grown, List.append_nil], free⟩

/-! ### Stores through the crust -/

/-- R295: a delta joins its unit, opens one of its own, or finds the crust stale, whose units' chunks are then marked done. -/
theorem State.addDelta_worked (s : State) (su : Option Nat) (d : Nat × Nat × Nat × List Byte) : s.Worked (s.addDelta su d).1 := by
  unfold State.addDelta
  split
  case h_1 n =>
    refine .of_units rfl fun free x hx => ?_
    obtain ⟨y, hy, rfl⟩ := List.mem_map.1 hx
    split
    · exact free y hy
    · exact free y hy
  case h_2 =>
    split
    · refine ⟨fun _ => rfl, id, s.crust.units.filterMap (·.chunk), rfl, fun free => ⟨?_, fun x hx => ?_⟩⟩
      · exact List.filterMap_eq_nil_iff.2 free
      · simp [State.goStale, State.dropUnits] at hx
    · refine .of_units rfl fun free x hx => ?_
      rcases List.mem_append.1 hx with old | new
      · exact free x old
      · rw [List.mem_singleton.1 new]

theorem State.storePiece_worked (s : State) (su : Option Nat) (a : Nat) (l : List Byte) : s.Worked (s.storePiece su a l).1 := by
  have copied : s.Worked (s.copyBeforeWrite (pageOf a)) := .of_work (s.copyBeforeWrite_work _)
  have writes (t : State) : t.Worked (t.ramWrite a l) := .of_work rfl
  unfold State.storePiece
  extract_lets p s1 old r
  refine State.Worked.trans ?_ (writes r.1)
  unfold r
  split
  · split
    · exact copied.trans (State.addDelta_worked _ su _)
    · exact copied
  · exact copied

theorem State.storeIn_worked (s : State) (su : Option Nat) (a : Nat) (l : List Byte) : s.Worked (s.storeIn su a l).1 := by
  unfold State.storeIn
  refine List.foldlRecOn (motive := fun r : State × Option Nat => s.Worked r.1) _ _ (.refl s) fun r hr x _ => hr.trans ?_
  exact r.1.storePiece_worked r.2 x.1 x.2

theorem State.stepStore_worked (s : State) (su : Option Nat) (a : Nat) (l : List Byte) : s.Worked (s.stepStore su a l).1 := by
  unfold State.stepStore
  extract_lets code
  split
  · exact s.storeIn_worked su a l
  · exact .of_work (s.refuseStep_work code a)

theorem State.storeRow_worked (s : State) (su : Option Nat) (ws : List (Nat × List Byte)) : s.Worked (s.storeRow su ws).1 := by
  unfold State.storeRow
  exact State.Worked.foldl (π := Prod.fst) (f := fun r w => r.1.stepStore r.2 w.1 w.2)
    (fun r w => r.1.stepStore_worked r.2 w.1 w.2) ws (s, su)

/-- R295: closing a unit sends its deltas and gives it its chunk. -/
theorem State.closeSeal_work (s : State) (su : Option Nat) (chunk : Option (Nat × Nat)) :
    ∃ us, (s.closeSeal su chunk).work = { s with crust.units := us }.work ∧
      (chunk = none → s.Unmarked → ∀ x ∈ us, x.chunk = none) := by
  unfold State.closeSeal
  split
  · exact ⟨_, rfl, fun _ => id⟩
  · next n =>
    split
    · exact ⟨_, rfl, fun _ => id⟩
    · extract_lets _ s1 s2
      have sent : s2.work = s1.work :=
        foldl_same (π := State.work) (fun u h => foldl_same (π := State.work) (fun v _ => v.sendFrame_work _) _ u) _ s1
      refine ⟨_, (State.bump_work _ _ _ (by decide)).trans sent, ?_⟩
      rintro rfl free x hx
      obtain ⟨y, hy, rfl⟩ := List.mem_map.1 hx
      split
      · rfl
      · exact free y hy

theorem State.storeAll_worked (s : State) (ws : List (Nat × List Byte)) : s.Worked (s.storeAll ws) := by
  unfold State.storeAll
  extract_lets r
  obtain ⟨us, same, free⟩ := r.1.closeSeal_work r.2 none
  exact (s.storeRow_worked none ws).trans (.of_units same (free rfl))

/-! ### With no crust nothing waits for a seal -/

/-- With the crust's mode at 0 no page has a place under parity (R292). -/
theorem State.parityPlace_of_noCrust (off : s.ent Ent.crustMode = 0) (p : Nat) : s.parityPlace p = none := by
  simp [State.parityPlace, State.crustMember, State.inCrust, State.crustRanked, off]

/-- A store under way has opened no unit, and the crust's mode is 0. -/
abbrev Unsealing (r : State × Option Nat) : Prop := r.1.ent Ent.crustMode = 0 ∧ r.2 = none

theorem mode_of_work (same : t.work = s.work) : t.ent Ent.crustMode = s.ent Ent.crustMode := congrArg (·.2.2.2.2) same

theorem State.storePiece_unsealing {su : Option Nat} (h : Unsealing (s, su)) (a : Nat) (l : List Byte) :
    Unsealing (s.storePiece su a l) := by
  obtain ⟨off, none⟩ := h
  have still : (s.copyBeforeWrite (pageOf a)).ent Ent.crustMode = 0 := (mode_of_work (s.copyBeforeWrite_work _)).trans off
  unfold State.storePiece
  dsimp only
  rw [State.parityPlace_of_noCrust still]
  exact ⟨still, none⟩

theorem State.stepStore_unsealing {su : Option Nat} (h : Unsealing (s, su)) (a : Nat) (l : List Byte) : Unsealing (s.stepStore su a l) := by
  unfold State.stepStore
  extract_lets code
  split
  · exact List.foldlRecOn (motive := Unsealing) _ _ h fun r hr x _ => State.storePiece_unsealing hr x.1 x.2
  · exact ⟨(mode_of_work (s.refuseStep_work code a)).trans h.1, h.2⟩

/-- R295: with no crust a row's stores open no unit. -/
theorem State.storeRow_of_noCrust (off : s.ent Ent.crustMode = 0) (ws : List (Nat × List Byte)) : (s.storeRow none ws).2 = none :=
  (List.foldlRecOn (motive := Unsealing) ws _ ⟨off, rfl⟩ fun _ hr w _ => State.stepStore_unsealing hr w.1 w.2).2

/-! ### Reports -/

theorem State.setCore_worked {c : Nat} {x : CoreSt} (units : x.units = (s.core c).units) : s.Worked (s.setCore c x) := by
  refine ⟨fun d => ?_, id, [], (List.append_nil _).symm, fun free => ⟨rfl, free⟩⟩
  by_cases h : d = c
  · rw [h, State.core_setCore, units]
  · rw [State.core_setCore_ne (s := s) x h]

theorem State.reportInvalid_worked (s : State) (c layer n : Nat) (w : ExWindow) : s.Worked (s.reportInvalid c layer n w) := by
  unfold State.reportInvalid
  split
  · exact .refl s
  · exact State.setCore_worked rfl

theorem State.joinRecord_worked (s : State) (c : Nat) (r : SalRec) : s.Worked (s.joinRecord c r) := State.setCore_worked rfl

theorem State.sendRecord_worked (s : State) (c : Nat) (r : SalRec) : s.Worked (s.sendRecord c r) :=
  .trans (.of_work (t := s.queueRecord c r) rfl) (State.joinRecord_worked _ c r)

theorem State.reduceEvent_worked (s : State) (r : DescRun) (number : Nat) (x : Nat × Nat × Option Nat) :
    s.Worked (s.reduceEvent r number x) := by
  unfold State.reduceEvent
  extract_lets c s1
  have reported : s.Worked s1 := s.reportInvalid_worked ..
  split
  · exact reported
  · exact reported.trans (State.joinRecord_worked ..)

theorem State.mapDesc_worked (s : State) (pos : Nat) (f : DescRun → DescRun) : s.Worked (s.mapDesc pos f) := .of_work rfl

/-- What the saturations and non-finite values of a unit are told to, of an update or of another descriptor. -/
theorem State.tellSats_worked (s : State) (r : DescRun) (counts : KV Counts) (backward : Bool) (out : Counts) :
    s.Worked (if r.update then (s.updateSats r counts).updateNonFinite r counts else s.unitSats r.pos backward out) := by
  split
  · exact .of_work ((State.updateNonFinite_work _ r counts).trans (s.updateSats_work r counts))
  · exact .of_work (s.unitSats_work r.pos backward out)

theorem State.reportChunk_worked (s : State) (c number : Nat) (r : DescRun) (x : ChunkRun) (counts : KV Counts) :
    s.Worked (s.reportChunk c number r x counts) := by
  unfold State.reportChunk
  extract_lets out d bad n own sr s0 s1 s2
  have invalid : s.Worked s0 :=
    (s.reportInvalid_worked c r.d.layer x.invalid x.window).trans (.foldl (π := id) (fun u b => u.reduceEvent_worked d number b) bad _)
  have recorded : s0.Worked s1 :=
    ((s0.sendRecord_worked c sr).trans (State.mapDesc_worked _ r.pos _)).trans (.of_work (State.unitFlags_work _ 0 out))
  have told : s1.Worked s2 := s1.tellSats_worked r counts _ out
  exact ((invalid.trans recorded).trans told).trans (s2.mapDesc_worked r.pos _)

/-! ### The end of a vector stage -/

theorem State.endReduce_worked (s : State) (r : DescRun) (k : KV Counts) (x : Bool × Nat × Nat) : s.Worked (s.endReduce r k x).1 := by
  unfold State.endReduce
  extract_lets red s2 o
  have summed : s.Worked s2 := s.mapDesc_worked r.pos _
  split
  · exact summed.trans (s2.storeAll_worked _)
  · split
    · exact summed.trans (.of_work (s2.putNorm_work _ _ _))
    · split
      · exact summed.trans (.of_work (s2.putNorm_work _ _ _))
      · exact summed

theorem State.endVector_worked (s : State) (r : DescRun) : s.Worked (s.endVector r) := by
  unfold State.endVector
  split
  · extract_lets e out own sr s1 s2
    have reduced : s.Worked e.1 := .foldl (π := Prod.fst) (fun a x => a.1.endReduce_worked r a.2 x) _ (s, [])
    have recorded : e.1.Worked s1 := (e.1.sendRecord_worked _ sr).trans (.of_work (State.unitFlags_work _ 0 out))
    have told : s1.Worked s2 := s1.tellSats_worked r e.2 _ out
    exact ((reduced.trans recorded).trans told).trans (s2.mapDesc_worked r.pos _)
  · exact .refl s

/-- A maximum staged is sound (R233). -/
theorem State.stageTensor_worked (s : State) (attempt : Nat) (e : Nat × F32) : s.Worked (s.stageTensor attempt e) := by
  unfold State.stageTensor
  extract_lets i
  split
  · exact .refl s
  · refine ⟨fun _ => rfl, fun intact => ⟨intact.1, fun x hx => ?_⟩, [], (List.append_nil _).symm, fun free => ⟨rfl, free⟩⟩
    rcases Kv.mem_put hx with rfl | staged
    · rfl
    · exact intact.2 x staged

theorem State.completeDesc_worked (s : State) (r : DescRun) : s.Worked (s.completeDesc r) :=
  .trans (.foldl (π := id) (fun u a => u.stageTensor_worked r.attempt a) r.amaxes s) (.of_work rfl)

end Sys2Proof.Machine

/-! PROOFS. The update (R229 to R233, R295): its gather stages, its apply chunks and its end. -/

namespace Sys2Proof.Machine

variable {s t u : State}

/-! ### What a descriptor's units have done -/

/-- How far a descriptor's units are: whether its gather stage is over, and the units issued and finished. -/
abbrev DescRun.marks (d : DescRun) := (d.gathered, d.issued, d.finished)

/-- The marks of the descriptor in a slot, where one is in flight. -/
abbrev State.marksAt (s : State) (q : Nat) := (s.desc? q).map DescRun.marks

theorem State.marksAt_mapDesc {f : DescRun → DescRun} (hf : ∀ d, (f d).pos = d.pos ∧ (f d).marks = d.marks) (s : State) (pos q : Nat) :
    (s.mapDesc pos f).marksAt q = s.marksAt q := by
  rw [State.marksAt, State.desc?_mapDesc (fun d => (hf d).1), Option.map_map]
  refine Option.map_congr fun d _ => ?_
  show DescRun.marks (if q = pos then f d else d) = d.marks
  split
  · exact (hf d).2
  · rfl

theorem State.marksAt_of_plan (h : t.plan = s.plan) (q : Nat) : t.marksAt q = s.marksAt q := by
  rw [State.marksAt, State.desc?_of_plan h]

theorem State.marksAt_endReduce (s : State) (r : DescRun) (k : KV Counts) (x : Bool × Nat × Nat) (q : Nat) :
    (s.endReduce r k x).1.marksAt q = s.marksAt q := by
  unfold State.endReduce
  extract_lets red s2 o
  have mapped : s2.marksAt q = s.marksAt q := State.marksAt_mapDesc (fun _ => ⟨by rfl, by rfl⟩) s r.pos q
  split
  · exact (State.marksAt_of_plan (s2.storeAll_plan _) q).trans mapped
  · split
    · exact (State.marksAt_of_plan (s2.putNorm_plan _ _ _) q).trans mapped
    · split
      · exact (State.marksAt_of_plan (s2.putNorm_plan _ _ _) q).trans mapped
      · exact mapped

theorem State.marksAt_unitSats (s : State) (pos : Nat) (backward : Bool) (k : Counts) (q : Nat) :
    (s.unitSats pos backward k).marksAt q = s.marksAt q := by
  unfold State.unitSats
  split
  · rfl
  · split
    · exact State.marksAt_of_plan s.backwardSat_plan q
    · exact State.marksAt_mapDesc (fun _ => ⟨by rfl, by rfl⟩) s pos q

/-- The end of a vector stage issues and finishes no unit. -/
theorem State.marksAt_endVector (s : State) (r : DescRun) (q : Nat) : (s.endVector r).marksAt q = s.marksAt q := by
  unfold State.endVector
  split
  · extract_lets e out own sr s1 s2
    have reduced : e.1.marksAt q = s.marksAt q :=
      foldl_same (π := fun a : State × KV Counts => a.1.marksAt q) (fun a x => a.1.marksAt_endReduce r a.2 x q) _ (s, [])
    have recorded : s1.marksAt q = e.1.marksAt q := State.marksAt_of_plan (State.unitFlags_plan _ 0 out) q
    have reported : s2.marksAt q = s1.marksAt q := by
      unfold s2
      split
      · exact State.marksAt_of_plan ((State.updateNonFinite_plan _ r e.2).trans (s1.updateSats_plan r e.2)) q
      · exact s1.marksAt_unitSats r.pos _ out q
    have gathers (d : DescRun) : (e.2.foldl (fun d k => d.gatherAmax k.1 k.2.amax) d).pos = d.pos ∧
        (e.2.foldl (fun d k => d.gatherAmax k.1 k.2.amax) d).marks = d.marks :=
      ⟨foldl_same (π := DescRun.pos) (fun _ _ => by rfl) e.2 d, foldl_same (π := DescRun.marks) (fun _ _ => by rfl) e.2 d⟩
    exact (State.marksAt_mapDesc gathers s2 r.pos q).trans (reported.trans (recorded.trans reduced))
  · rfl

/-! ### Apply stages start -/

theorem State.startApply_worked (s : State) (r : DescRun) : s.Worked (s.startApply r) := by
  unfold State.startApply
  extract_lets s1 done s2
  have ended : s.Worked s1 := by
    unfold s1
    split
    · exact .refl s
    · exact s.endVector_worked r
  have resumed : s1.Worked s2 := by
    unfold s2
    split
    · exact .refl s1
    · exact .of_work (State.bump_work _ _ _ (by decide))
  exact (ended.trans resumed).trans (s2.mapDesc_worked r.pos _)

/-- R229, R231: the descriptor whose apply stage starts has the chunks done that the ledger marks; the others go on. -/
theorem State.marksAt_startApply (s : State) (r : DescRun) (q : Nat) : (s.startApply r).marksAt q =
    if q = r.pos then (s.marksAt q).map fun _ => (true, s.sealedChunks q, s.sealedChunks q) else s.marksAt q := by
  unfold State.startApply
  extract_lets s1 done s2
  have ended : s1.marksAt q = s.marksAt q := by
    unfold s1
    split
    · rfl
    · exact s.marksAt_endVector r q
  have resumed : s2.marksAt q = s1.marksAt q := by
    unfold s2
    split
    · rfl
    · rfl
  rw [← resumed.trans ended, State.marksAt, State.desc?_mapDesc (by intro; rfl), Option.map_map]
  split
  · next h =>
    rw [Option.map_map, h]
    refine Option.map_congr fun d _ => ?_
    simp [DescRun.marks, done]
  · next h =>
    refine Option.map_congr fun d _ => ?_
    simp

/-- The apply stage at `pos` has begun since `s`, with the chunks done that the ledger marked: those of `s`, and those alone where no chunk
waited for its seal. -/
def State.Applies (s : State) (pos : Nat) (t : State) : Prop :=
  ∃ done, t.marksAt pos = some (true, done, done) ∧ (∀ n ∈ s.sealedChunks pos, n ∈ done) ∧ (s.Unmarked → done = s.sealedChunks pos)

/-- Starting another apply stage leaves one that has begun, and starting its own begins it. -/
theorem State.startApply_applies {pos : Nat} {r : DescRun} (worked : s.Worked t) (flies : (t.marksAt pos).isSome)
    (own : r.pos = pos ∨ s.Applies pos t) : s.Applies pos (t.startApply r) := by
  have marks := t.marksAt_startApply r pos
  obtain ⟨kept, alone⟩ := worked.sealedChunks pos
  by_cases h : pos = r.pos
  · obtain ⟨m, hm⟩ := Option.isSome_iff_exists.1 flies
    rw [if_pos h, hm] at marks
    exact ⟨_, marks, kept, fun free => (alone free).1⟩
  · obtain ⟨done, begun, rest⟩ := own.resolve_left (Ne.symm h)
    rw [if_neg h] at marks
    exact ⟨done, marks.trans begun, rest⟩

theorem State.isSome_marksAt_startApply (s : State) (r : DescRun) (q : Nat) : ((s.startApply r).marksAt q).isSome = (s.marksAt q).isSome := by
  rw [State.marksAt_startApply]
  split
  · exact Option.isSome_map
  · rfl

/-- R229: every descriptor in flight among those whose apply stages start is in its apply stage then. -/
theorem State.foldl_startApply_applies {rs : List DescRun} {r : DescRun} (mem : r ∈ rs) (flies : (s.marksAt r.pos).isSome) :
    s.Applies r.pos (rs.foldl State.startApply s) := by
  have going (t : State) (x : DescRun) (h : s.Worked t ∧ (t.marksAt r.pos).isSome) :
      s.Worked (t.startApply x) ∧ ((t.startApply x).marksAt r.pos).isSome :=
    ⟨h.1.trans (t.startApply_worked x), (t.isSome_marksAt_startApply x r.pos).trans h.2⟩
  refine (foldl_reaches (P := fun t => s.Worked t ∧ (t.marksAt r.pos).isSome)
    (Q := fun t => (s.Worked t ∧ (t.marksAt r.pos).isSome) ∧ s.Applies r.pos t) mem ⟨.refl s, flies⟩ going ?_ ?_).2
  · exact fun t h => ⟨going t r h, State.startApply_applies h.1 h.2 (.inl rfl)⟩
  · exact fun t x h => ⟨going t x h.1, State.startApply_applies h.1.1 h.1.2 (.inr h.2)⟩

theorem State.isSome_marksAt_of_mem {r : DescRun} (mem : r ∈ s.prog.pool) : (s.marksAt r.pos).isSome := by
  rw [State.marksAt, Option.isSome_map, State.desc?, List.find?_isSome]
  exact ⟨r, mem, by simp⟩

/-- UPDATE_GATHER_DONE (R229). -/
theorem execUpdateGatherDone_applies {layer : Nat} (on : s.pwr.on = true) (four : s.phase = 4) (updating : s.train.updating = true)
    (any : s.layerUpdates layer ≠ []) (come : s.updatesToCome layer = false) (ended : (s.layerUpdates layer).all s.gatherOver = true)
    (room : s.endRoom (s.layerUpdates layer) = true) (quiet : LinesLatched s) :
    ∃ u, exec (.updateGatherDone layer) s = .next u ∧ LinesLatched u ∧
      ∀ r ∈ s.layerUpdates layer, r.gathered = false → s.Applies r.pos u := by
  let rs := (s.layerUpdates layer).filter fun r => !r.gathered
  have still : LinesLatched (rs.foldl State.startApply s) := foldl_quiet (fun t r h => t.startApply_quiet r h) rs quiet
  have next : exec (.updateGatherDone layer) s = .next (rs.foldl State.startApply s).latchAll :=
    congrArg Host.Outcome.next (if_pos ⟨on, four, updating, any, come, ended, room⟩)
  rw [State.latchAll_of_lines still] at next
  refine ⟨_, next, still, fun r hr waits => State.foldl_startApply_applies (List.mem_filter.2 ⟨hr, by simp [waits]⟩) ?_⟩
  exact State.isSome_marksAt_of_mem (List.mem_filter.1 hr).1

/-! ### Updates complete -/

theorem State.pushLayer_rescales (l : Nat) (intact : RecordsIntact s) : s.Rescaled (s.pushLayer l) := by
  unfold State.pushLayer
  extract_lets ts ids
  exact State.pushAll_rescales [] (fun e he => intact.2 e (List.mem_filter.1 he).1) intact

/-- What goes on from `s` with no record failing its complement and no line asserted. -/
structure State.Sound (s t : State) : Prop where
  worked : s.Worked t
  intact : RecordsIntact t
  quiet : t.Quiet

theorem State.endUpdate_sound (r : DescRun) (intact : RecordsIntact s) (quiet : s.Quiet) : s.Sound (s.endUpdate r) := by
  unfold State.endUpdate
  extract_lets s1 s2
  have ended : s.Worked s1 := s.endVector_worked r
  have worked : s.Worked s2 := (ended.trans (s1.completeDesc_worked _)).trans (.of_work (State.bump_work _ _ _ (by
    unfold Ent.crustMode Ent.groupUpdates; omega)))
  have still : s2.Quiet := State.bump_quiet _ _ _ _ (State.completeDesc_quiet _ _ (s.endVector_quiet r quiet))
  have sound : RecordsIntact s2 := worked.intact intact
  split
  · have pushed := s2.pushLayer_rescales r.d.layer sound
    obtain ⟨x, e⟩ := pushed.2
    exact ⟨worked.trans (.of_rescaled pushed), pushed.1, by rw [e]; exact still⟩
  · exact ⟨worked, sound, still⟩

/-- R231, R233: updates whose apply stages are over complete. -/
theorem State.settleUpdates_sound (intact : RecordsIntact s) (quiet : s.Quiet) : s.Sound s.settleUpdates := by
  refine List.foldlRecOn (motive := s.Sound) _ _ ⟨.refl s, intact, quiet⟩ fun t h r _ => ?_
  split
  · obtain ⟨worked, intact, quiet⟩ := State.endUpdate_sound r h.intact h.quiet
    exact ⟨h.worked.trans worked, intact, quiet⟩
  · exact h

/-! ### An apply chunk ends -/

/-- The unit of an engine that has finished is gone from its core. -/
theorem State.finishUnit_units {c engine : Nat} {x : RunUnit} (unit : Kv.find? (s.core c).units engine = some x) :
    Kv.find? ((s.finishUnit c engine x.pos x.number).core c).units engine = none := by
  unfold State.finishUnit
  extract_lets y s1
  have gone : (s1.core c).units = Kv.del y.units engine := by
    unfold s1
    rw [State.core_setCore]
    exact if_pos unit
  show Kv.find? (s1.core c).units engine = none
  rw [gone, Kv.find?_del_self]

/-- R230, R295: a chunk's mark waits for the seal of the unit that its stores opened, or is set at once. -/
def State.markChunk (s : State) (su : Option Nat) (k : Nat × Nat) : State :=
  if su.isSome && (s.crust.units.any fun y => some y.number == su) then s.closeSeal su (some k)
  else { s with train.ledger := s.train.ledger ++ [k] }

theorem State.markChunk_frame (s : State) (su : Option Nat) (k : Nat × Nat) :
    (s.markChunk su k).cores = s.cores ∧ (s.markChunk su k).scale = s.scale := by
  unfold State.markChunk
  split
  · obtain ⟨us, same, -⟩ := s.closeSeal_work su (some k)
    exact ⟨congrArg (·.1) same, congrArg (·.2.2.2.1) same⟩
  · exact ⟨rfl, rfl⟩

theorem State.markChunk_none (s : State) (k : Nat × Nat) : (s.markChunk none k).train.ledger.contains k = true := by
  simp [State.markChunk]

/-- What a chunk has stored and reported before its unit ends (R114, R230): every engine has its unit still, no record fails its
complement, and with no crust the chunk is marked. -/
def State.Stored (s : State) (k : Nat × Nat) (pass : Bool) (t : State) : Prop :=
  (∀ c, (t.core c).units = (s.core c).units) ∧ RecordsIntact t ∧
    (pass = false → s.ent Ent.crustMode = 0 → t.train.ledger.contains k = true)

theorem State.completeChunk_eq (c : Nat) (x : RunUnit) (r : DescRun) (k : Nat × Nat) (intact : RecordsIntact s) :
    ∃ t, s.Stored k r.amaxPass t ∧ s.completeChunk c x r (some k) = t.finishUnit c 2 x.pos x.number := by
  unfold State.completeChunk
  extract_lets y s0 o st s2 _ s3 s1
  refine ⟨s1, ?_, rfl⟩
  have cleared : s.Worked s0 := State.setCore_worked rfl
  unfold s1
  split
  · next pass =>
    have mapped := cleared.trans (s0.mapDesc_worked x.pos fun d => (s.chunkAmax d y).takeReds x.number y)
    exact ⟨mapped.units, mapped.intact intact, fun no => absurd pass (by simp [no])⟩
  · have stored : s.Worked s2 := (cleared.trans (s0.storeRow_worked none o.writes)).trans (st.1.mapDesc_worked x.pos _)
    have reported := s3.reportChunk_worked c x.number r y o.counts
    obtain ⟨cores, scale⟩ : s3.cores = s2.cores ∧ s3.scale = s2.scale := s2.markChunk_frame st.2 k
    refine ⟨fun d => (reported.units d).trans (.trans ?_ (stored.units d)), reported.intact ?_, fun _ off => reported.marked ?_⟩
    · rw [State.core, cores, State.core]
    · rw [RecordsIntact, scale]
      exact stored.intact intact
    · show (s2.markChunk st.2 k).train.ledger.contains k = true
      rw [show st.2 = none from State.storeRow_of_noCrust (s := s0) off o.writes]
      exact s2.markChunk_none k

/-- A slip between tags is recorded, and latched at once (R114). -/
theorem State.vectorTag_latches (s : State) (c : Nat) (y : TagSlip) :
    s.flt.nextSeq < (s.vectorTag c y).flt.nextSeq ∧ (s.vectorTag c y).Quiet := by
  unfold State.vectorTag
  extract_lets z again s1
  exact ⟨s1.raise_latchAll_seq_lt _, State.latchAll_quiet _⟩

/-- A slip between the tags that an apply chunk reads is recorded (R114). -/
theorem execApplyChunkComplete_slips {c : CoreId} {x : RunUnit} {r : DescRun} (live : s.coreLive c = true)
    (unit : s.vectorUnit c = some (x, r)) (update : r.isUpdate = true) (gathered : r.gathered = true)
    (after : s.chunkAfter r x.number = true) {y : TagSlip} (slip : slipped y = true) (flake : s.loadsFlake r = true) :
    exec (.applyChunkComplete ⟨c, some y⟩) s = .next (s.vectorTag c y) := by
  have found : (some y).filter (fun y => slipped y && s.loadsFlake r) = some y := by simp [slip, flake]
  show execApplyChunkComplete ⟨c, some y⟩ s = _
  unfold execApplyChunkComplete
  dsimp only
  rw [unit]
  dsimp only
  rw [if_pos ⟨live, update, gathered, after⟩, found]

/-- APPLY_CHUNK_COMPLETE (R229, R230): a chunk in no trouble, with room for its records and no seal to wait for, ends. -/
theorem execApplyChunkComplete_ends {c : CoreId} {x : RunUnit} {r : DescRun} (live : s.coreLive c = true)
    (unit : s.vectorUnit c = some (x, r)) (update : r.isUpdate = true) (gathered : r.gathered = true)
    (after : s.chunkAfter r x.number = true) (sound : s.chunkTrouble r x.number = none)
    (room : r.amaxPass = true ∨ s.salRoom c = true ∧ s.chunkWaits (s.chunkOut r (s.runChunk r x.number)) = false) :
    exec (.applyChunkComplete ⟨c, none⟩) s = .next (s.completeChunk c x r (some (x.pos, x.number))).settleUpdates.latchAll := by
  show execApplyChunkComplete ⟨c, none⟩ s = _
  unfold execApplyChunkComplete
  dsimp only
  rw [unit]
  dsimp only
  rw [if_pos ⟨live, update, gathered, after⟩, Option.filter_none, sound]
  dsimp only
  rcases room with pass | ⟨free, waits⟩
  · rw [if_neg (by simp [pass]), if_neg (by simp [pass])]
  · rw [if_neg (by simp [free]), if_neg (by simp [waits])]

/-- The unit that a core's vector engine has, and its descriptor. -/
theorem State.unit_of_vectorUnit {c : Nat} {x : RunUnit} {r : DescRun} (h : s.vectorUnit c = some (x, r)) :
    Kv.find? (s.core c).units 2 = some x := by
  unfold State.vectorUnit at h
  split at h
  · cases h
  · next found =>
    obtain ⟨_, -, e⟩ := Option.map_eq_some_iff.1 h
    obtain ⟨rfl, -⟩ := Prod.mk.inj e
    exact found

/-- R229, R230: an apply chunk that ends completes its unit and, with no crust, is marked in the update ledger. -/
theorem State.completeChunk_completes {c : Nat} {x : RunUnit} {r : DescRun} (unit : s.vectorUnit c = some (x, r))
    (intact : RecordsIntact s) (quiet : s.Quiet) :
    let u := (s.completeChunk c x r (some (x.pos, x.number))).settleUpdates.latchAll
    Kv.find? (u.core c).units 2 = none ∧
      (r.amaxPass = false → s.ent Ent.crustMode = 0 → u.train.ledger.contains (x.pos, x.number) = true) := by
  intro u
  unfold u
  obtain ⟨t, ⟨units, sound, marked⟩, ended⟩ := State.completeChunk_eq c x r (x.pos, x.number) intact
  have still := s.completeChunk_quiet c x r (some (x.pos, x.number)) quiet
  rw [ended] at still ⊢
  have unit' : Kv.find? (t.core c).units 2 = some x := by rw [units c, State.unit_of_vectorUnit unit]
  obtain ⟨worked, -, settled⟩ := State.settleUpdates_sound (s := t.finishUnit c 2 x.pos x.number) sound still
  rw [State.latchAll_of_lines settled]
  refine ⟨?_, fun apply off => worked.marked (marked apply off)⟩
  rw [worked.units c, State.finishUnit_units unit']

/-! ### The update ends -/

/-- R232: what tells of a non-finite value in a state tensor names its layer and its tensor (log 106). -/
abbrev badUpdateFault (e : Nat × Nat) : FaultReport := { fault 0x15 .module 0 with detail := e.1 + e.2 * 65536, p1 := e.1, p2 := e.2 }

/-- R232: that fault halts training; the step stays as it is. -/
theorem State.latchAll_badUpdate (e : Nat × Nat) (quiet : s.Quiet) :
    (s.raise (badUpdateFault e)).latchAll.train = s.train ∧ (s.raise (badUpdateFault e)).latchAll.ent Ent.trainHalted = 1 := by
  have latched : s.latch (badUpdateFault e) = (s.latchIn (badUpdateFault e) (s.judge (badUpdateFault e))).setEnt Ent.trainHalted 1 :=
    State.latch_severeClass (show severeClass 0x15 by decide) rfl
  obtain ⟨⟨_, _, _, _, _, _, frame⟩, -⟩ := s.latchIn_frame (r := badUpdateFault e) rfl (s.judge (badUpdateFault e))
  have calm : (s.latch (badUpdateFault e)).Quiet := by
    rw [latched]
    exact State.setEnt_quiet _ _ _ (State.latchIn_quiet _ _ _ rfl quiet)
  rw [State.latchAll_raise quiet calm, latched]
  exact ⟨(congrArg State.train frame :), State.ent_setEnt _ _ _⟩

/-- R231: the update is marked complete. -/
def State.closeUpdate (s : State) : State :=
  { s with train.updateDone := true, train.updating := false, train.commit := { s.train.commit with update := 2 } }

/-- R232: a non-finite value that a state tensor took is told of. -/
def State.tellBad (s : State) : Option (Nat × Nat) → State
  | some e => s.raise (badUpdateFault e)
  | none => s

/-- UPDATE_COMPLETE (R231, R232): with nothing left of the update its staged maxima enter their records, and it is marked complete. -/
theorem execUpdateComplete_closes (on : s.pwr.on = true) (four : s.phase = 4) (updating : s.train.updating = true)
    (going : s.train.updateDone = false) (pool : s.prog.pool = []) (stream0 : s.prog.stream0 = []) (stream1 : s.prog.stream1 = [])
    (intact : RecordsIntact s) :
    ∃ t, s.Rescaled t ∧ exec .updateComplete s = .next (t.closeUpdate.tellBad s.train.badUpdate).latchAll := by
  refine ⟨_, State.pushAll_rescales [] intact.2 intact, ?_⟩
  have settled : s.settleUpdates = s := by rw [State.settleUpdates, pool]; rfl
  show execUpdateComplete s = _
  unfold execUpdateComplete
  rw [settled]
  dsimp only
  rw [if_pos ⟨on, four, updating, going, pool, stream0, stream1⟩]
  split
  · next bad => rw [bad]; rfl
  · next bad => rw [bad]; rfl

/-- Settles O33: an apply stage starts from the marks of the ledger as its own chunks' marks last; an apply chunk's reports leave every
engine its unit, so that its end finds it; and the staged maxima that the end of the update pushes move the scales alone. -/
theorem theUpdateGathersThenApplies : Obligations.TheUpdateGathersThenApplies := by
  refine ⟨?_, ?_, ?_⟩
  · intro layer s on four updating any come ended room quiet
    obtain ⟨u, next, still, applies⟩ := execUpdateGatherDone_applies on four updating any come ended room quiet
    refine ⟨u, next, still, fun r hr waits => ?_⟩
    obtain ⟨done, marks, kept, alone⟩ := applies r hr waits
    obtain ⟨d, found, e⟩ := Option.map_eq_some_iff.1 marks
    simp only [DescRun.marks, Prod.mk.injEq] at e
    obtain ⟨gathered, issued, rfl⟩ := e
    exact ⟨d, found, gathered, issued, kept, fun free => alone (by simp [State.Unmarked, free])⟩
  · intro c s x r live unit update gathered after
    refine ⟨fun y slip flake => ?_, fun sound intact quiet room => ?_⟩
    · obtain ⟨told, latched⟩ := s.vectorTag_latches c y
      exact ⟨_, execApplyChunkComplete_slips live unit update gathered after slip flake, told, latched, State.vectorTag_ram s c y rfl⟩
    · obtain ⟨ended, marked⟩ := State.completeChunk_completes unit intact quiet
      exact ⟨_, execApplyChunkComplete_ends live unit update gathered after sound room, ended, marked⟩
  · intro s on four updating going pool stream0 stream1 intact quiet
    obtain ⟨t, ⟨-, x, rfl⟩, next⟩ := execUpdateComplete_closes on four updating going pool stream0 stream1 intact
    let z : State := ({ s with scale := x } : State).closeUpdate
    have still : z.Quiet := quiet
    cases bad : s.train.badUpdate with
    | none =>
      rw [bad] at next
      have same : z.latchAll = z := State.latchAll_of_lines still
      exact ⟨z, next.trans (congrArg Host.Outcome.next same), rfl, rfl, rfl, rfl, fun _ => rfl, fun ne => absurd rfl ne⟩
    | some e =>
      rw [bad] at next
      obtain ⟨train, halted⟩ := State.latchAll_badUpdate e still
      refine ⟨_, next, ?_, ?_, ?_, State.latchAll_ram _ rfl, fun none => (nomatch none), fun _ => ⟨halted, ?_⟩⟩
      · exact congrArg Train.updateDone train
      · exact congrArg Train.updating train
      · exact congrArg (·.commit.update) train
      · exact State.raise_latchAll_seq_lt z _

end Sys2Proof.Machine
